-- ==== Sys2Proof/Word.lean ====
section
/-! DEFINITION. The word types of the CZ64: octets, 16-bit halfwords (every register is one, chapter 00),
24-bit pointers (chapter 08) and the 48-bit HF tick count (R90). -/
namespace Sys2Proof

/-- An octet of memory or of a frame. -/
abbrev Byte := BitVec 8

/-- A 16-bit halfword: a register, a data register of a core, a word of MRAM. -/
abbrev Half := BitVec 16

/-- A 24-bit pointer of a Plynnel-16 core. -/
abbrev Ptr := BitVec 24

/-- The two bands, each with a front end of its own (R32). -/
inductive Band where
  | sub
  | ism
  deriving DecidableEq, Repr

/-- The masters of the address map (R15, R17): the six cores by their global number, and the blocks that issue
requests of their own. -/
inductive Master where
  | core (c : Fin 6)
  | hod | ashlar | crypto | recorder | dma | host | access | nvmc | assay
  | trowel (vault : Bool)
  deriving DecidableEq, Repr

/-- The kinds of PHY mode (R68). -/
inductive ModeKind where
  | fsk2 | fsk4 | oqpsk | czhr
  deriving DecidableEq, Repr

/-- The PHR of a received frame (R69 to R71): mode switch, whitening and FCS type of SUN FSK, version and reserved bits
of CZ-HR, and the length, which every PHY has. -/
structure Phr where
  ms : Bool
  dw : Bool
  fcs32 : Bool
  ver : BitVec 2
  res : BitVec 3
  len : BitVec 11
  deriving DecidableEq, Repr

/-- What a calibration run measures (R45, R46): the RC code, the DC offsets by gain index, the four IQ corrections, and
the residual image rejection in dB. -/
structure CalResult where
  rc : Half
  dc : List (Half × Half)
  iqGain : Half
  iqPhase : Half
  txGain : Half
  txPhase : Half
  rejection : Nat
  deriving DecidableEq, Repr, Inhabited

/-- The samples of a band's ADC stream that clip (R41): of each, its age in samples and whether I and Q are clipped. -/
structure Clips where
  band : Band
  clipped : List (Nat × Bool × Bool)
  deriving DecidableEq, Repr

/-- What a lane's correlator finds (R75): `syms` symbols in a row at `corr`/256, and the frequency offset in 100 Hz. -/
structure Preamble where
  fofs : Half
  syms : Nat
  corr : Nat
  deriving DecidableEq, Repr

/-- What a lane's correlator no longer finds (R75): for `syms` symbols in a row at most `corr`/256. -/
structure Fade where
  lane : Fin 64
  syms : Nat
  corr : Nat
  deriving DecidableEq, Repr

/-- A single tone that a lane sees (R73): its offset from the channel in 100 Hz, its level above the mean in-band power in
0.01 dB, and for how many DFE symbols it has stood there. -/
structure Tone where
  lane : Fin 64
  ofs : Int
  above : Int
  syms : Nat
  deriving DecidableEq, Repr

/-- An edge at a capture source (R322, R323): its direction, and whether it falls within the cycle of a read. -/
structure CaptureEdge where
  rising : Bool
  coincident : Bool
  deriving DecidableEq, Repr

/-- What the test of a slice finds (R362): whether patterns and known answers match, and the levels measured. -/
structure Measured where
  ok : Bool
  levels : List Int
  deriving DecidableEq, Repr

/-- What the calibration records hold (R297 step 4): the results of both bands with the DC tables and RC codes, the trim of XO_HF,
and the four LF tuning codes, LF_A's lowest. -/
structure CalRecord where
  sub : CalResult
  ism : CalResult
  trim : Half
  tune : BitVec 24
  deriving DecidableEq, Repr, Inhabited

/-- The header of an Adsin message beside its length, class and command (R334): the reserved bits of words 0 and 1, KIND,
SEQ, and word 3. -/
structure AdsinHdr where
  res0 : BitVec 5
  kind : BitVec 2
  res1 : BitVec 2
  seq : Half
  w3 : Half
  deriving DecidableEq, Repr

end Sys2Proof
end

