-- ==== Sys2Proof/Syntax.lean ====
section
/-! DEFINITION. The commands: one constructor per row of the opcode table, with the operands a row carries: what software
writes, what the outside world drives, and what the machine measures (log entry 60). -/
namespace Sys2Proof

/-- A command. -/
inductive Instr where
  /-- REGISTER_WRITE (R3): A write to a register that has no row of its own sets, clears or ignores fields according to their access codes. -/
  | registerWrite (m : Master) (a : BitVec 24) (w : Half)
  /-- RCL_READ (R5): A read of an RCL field returns it and clears it, with a hardware event in the same cycle winning. -/
  | rclRead (m : Master) (a : BitVec 24)
  /-- SNAPSHOT_READ (R23): A read of the first word of a status group returns it and copies the rest of the group into the shared snapshot. -/
  | snapshotRead (m : Master) (a : BitVec 24)
  /-- ASHLAR_COUNTER_GROUP_READ (R23): A first-word read of an Ashlar counter group snapshots the group and clears its RCL counters in the same cycle. -/
  | ashlarCounterGroupRead (m : Master) (tenant : Bool)
  /-- XO_HF_LOSS (R27): XO_HF stops for more than 4 µs and SYSCTL switches to FRC, stops the radio and COURSE, sets XO loss and raises the clock fault. -/
  | xoHfLoss
  /-- FE_ENABLE (R36): A write of RFE_CTRL.EN = 1 turns on the band regulator and starts the LO synthesiser. -/
  | feEnable (b : Band) (w : Half)
  /-- LO_LOCK (R36): The LO locks and the FEM pins move from their IDLE level to their RX level. -/
  | loLock (b : Band)
  /-- FE_CORRECTIONS_APPLY (R36): At lock + 10 µs the RC code, IQ correction and DC entry are applied. -/
  | feCorrectionsApply (b : Band)
  /-- FE_READY (R36): At lock + 30 µs the gain is set to GAIN_SET, READY becomes 1 and the stream is unmuted. -/
  | feReady (b : Band)
  /-- LOCK_FAIL (R36): With no lock 200 µs after enable, LOCK_FAIL is set and the band stays muted. -/
  | lockFail (b : Band)
  /-- LOCK_LOST (R37): The LO loses lock while enabled: the band mutes, LOCK_LOST is set and any burst is ramped down early. -/
  | lockLost (b : Band)
  /-- FE_DISABLE (R38): A write of RFE_CTRL.EN = 0 disables the band at once or makes the disable pending until the burst ends. -/
  | feDisable (b : Band) (w : Half)
  /-- FE_DISABLE_TAKES_EFFECT (R38): A pending disable takes effect at t_EOT + 72 µs: FEM pins go to IDLE, the stream mutes and the regulator turns off. -/
  | feDisableTakesEffect (b : Band)
  /-- RFE_SPAN_WRITE (R35): A write to RFE_SPAN is held while the band is enabled and takes effect at once otherwise. -/
  | rfeSpanWrite (b : Band) (w : Half)
  /-- LEVEL_WINDOW (R39): Each 2 µs level window closes, and its referred level enters the course statistics unless excluded. -/
  | levelWindow (b : Band) (lvl : Int)
  /-- OVERLOAD (R41): Clipped conversions exceed 1/256 of the conversions in a 2 µs window and an overload is declared. -/
  | overload (x : Clips)
  /-- GAIN_STEP (R42): At t_OVL + 0.10 µs the analogue gain is reduced by 6 dB. -/
  | gainStep (b : Band)
  /-- GAIN_MARKER (R44): The first stream sample at a new gain carries the step marker to every lane of the band, and GAIN_IDX and STEP_CNT change. -/
  | gainMarker (b : Band)
  /-- CAL_REQUEST_RC (R45): A write of RFE_CAL_CMD.RC requests the RC calibration. -/
  | calRequestRc (b : Band)
  /-- CAL_REQUEST_DC (R45): A write of RFE_CAL_CMD.DC requests the DC calibration. -/
  | calRequestDc (b : Band)
  /-- CAL_REQUEST_IQ (R45): A write of RFE_CAL_CMD.IQ requests the IQ calibration. -/
  | calRequestIq (b : Band)
  /-- CALIBRATION_START (R45): A pending calibration starts in the first idle window with room, or at once while COURSE is stopped, and mutes the band. -/
  | calibrationStart (b : Band)
  /-- CALIBRATION_END (R46): A calibration completes and writes its results or its FAIL bit. -/
  | calibrationEnd (b : Band) (m : CalResult)
  /-- XO_TRIM_WRITE (R47): A write to RFE_XO_TRIM takes effect at the next t_CT, or at once while COURSE is stopped. -/
  | xoTrimWrite (w : Half)
  /-- TX_CONFIG_WRITE (R53): Writes to RFE_TX_NMAX, RFE_TX_TOTAL and the ramp registers are held while TX_ACTIVE = 1. -/
  | txConfigWrite (b : Band) (r : Fin 34) (w : Half)
  /-- FEM_REGISTER_WRITE (R59): A write to FEM registers is held while the band is enabled and takes effect at once otherwise. -/
  | femRegisterWrite (b : Band) (p : Fin 6) (k : Fin 3) (w : Half)
  /-- BURST_SEQUENCING_START (R56): At t_EOF + 40 µs of the opening acknowledgement, or t_TX − 32 µs, sequencing starts and the band's receive path mutes. -/
  | burstSequencingStart (b : Band)
  /-- FEM_TX_EDGE (R54): A FEM pin moves to its TX level at the start of sequencing plus its TXOFF. -/
  | femTxEdge (b : Band) (p : Fin 6)
  /-- DRIVER_RAMP_UP (R56): At +64 µs the driver ramp-up plays the ramp table from entry 0 to entry 31. -/
  | driverRampUp (b : Band)
  /-- CARRIER_START (R51): A carrier starts its first symbol at t_ACK or t_TX, a late joiner after a 2 µs digital ramp. -/
  | carrierStart (b : Band)
  /-- CARRIER_END (R51): A carrier sends its last symbol and ramps down digitally if the burst continues. -/
  | carrierEnd (b : Band)
  /-- BURST_END (R57): At t_EOT the driver ramp-down starts. -/
  | burstEnd (b : Band)
  /-- DRIVER_OFF (R57): At t_EOT + 8 µs the driver turns off and TX_ACTIVE becomes 0. -/
  | driverOff (b : Band)
  /-- FEM_RX_EDGE (R54): A FEM pin returns to its RX level at t_EOT plus its RXOFF. -/
  | femRxEdge (b : Band) (p : Fin 6)
  /-- BURST_MUTE_END (R58): At t_RXV = t_EOT + 72 µs the band is unmuted and its stream is valid. -/
  | burstMuteEnd (b : Band)
  /-- DGAIN_ADJUST (R74): After each window of 4 DFE symbols in SEARCH, the lane moves its digital gain if the level is outside the hysteresis. -/
  | dgainAdjust (n : Fin 64) (lvl : Int)
  /-- NOTCH_ENGAGE (R73): A tone 6 dB above the in-band mean for 16 DFE symbols engages the adaptive notch. -/
  | notchEngage (x : Tone)
  /-- PREAMBLE_DETECT (R75): PRE_MIN preamble symbols correlate: the lane enters PREAMBLE, freezes gain, corrects frequency and resets the DFE. -/
  | preambleDetect (n : Fin 64) (x : Preamble)
  /-- PREAMBLE_LOST (R75): Correlation drops for 8 symbols and the lane returns to SEARCH, counting CNT_SYNC. -/
  | preambleLost (x : Fade)
  /-- SFD_TIMEOUT (R75): SFD_TO symbols pass without an SFD and the lane returns to SEARCH. -/
  | sfdTimeout (n : Fin 64)
  /-- SFD_FOUND (R75): The SFD is found within SFD_ERR bit errors; the lane enters HEADER and latches TS_SFD. -/
  | sfdFound (n : Fin 64) (coded : Bool) (errs : Nat)
  /-- PHR_VALID (R75): A valid PHR moves the lane to PAYLOAD and starts octet delivery to MACF and ASHLAR. -/
  | phrValid (n : Fin 64) (phr : Phr) (octets : List Byte)
  /-- PHR_REJECTED (R75): A rejected PHR returns the lane to SEARCH and counts CNT_HDR. -/
  | phrRejected (n : Fin 64) (phr : Phr)
  /-- LANE_HANDOFF (R76): The lane decides the last symbol, checks the FCS and hands status and timestamps to the Hod by t_EOF + 4 µs. -/
  | laneHandoff (n : Fin 64) (rssi : Half) (snr : Int) (err : Fin 5)
  /-- DFE_ADAPT_RESUME (R82): Adaptation resumes at the end of the 8th DFE symbol after the last erased symbol. -/
  | dfeAdaptResume (n : Fin 64)
  /-- REC_ARM (R86): REC_CMD.ARM applies the configuration and enters ARMING, or sets CFG_ERR on an invalid configuration. -/
  | recArm
  /-- REC_STOP (R86): REC_CMD.STOP, or a write with several bits set, stops the recorder. -/
  | recStop
  /-- REC_SWTRIG (R86): REC_CMD.SWTRIG triggers the recorder. -/
  | recSwtrig
  /-- REC_ARMED (R86): 2 µs after ARM the recorder enters ARMED and starts pre-trigger recording. -/
  | recArmed
  /-- REC_GROUP_COMPLETE (R88): A completed extension group goes to the FIFO, or is lost with REC_LOST and STARVED. -/
  | recGroupComplete (data : BitVec 128)
  /-- REC_DONE (R86): POST groups after the trigger group are written; the recorder enters DONE and raises its event. -/
  | recDone
  /-- REC_CONFIG_WRITE (R89): Writes to recorder configuration registers take effect at the next ARM. -/
  | recConfigWrite (r : Fin 7) (w : Half)
  /-- COURSE_RUN (R92): A write of RUN from 0 to 1 checks the template and schedules the first t_CT, or is refused. -/
  | courseRun (startAt : Bool)
  /-- COURSE_RUN_CLEAR (R93): A write of RUN = 0 makes a stop pending at the end of the course in progress. -/
  | courseRunClear (startAt : Bool)
  /-- COURSE_STOP_TAKES_EFFECT (R93): At the instant of the next t_CT the pending stop takes place, lanes go idle and no plan is swapped. -/
  | courseStopTakesEffect
  /-- COURSE_TICK (R96): At t_CT the ASN advances, buffers swap or repeat, lanes take entries, gain is set and the tick event is raised. -/
  | courseTick
  /-- PLAN_LOCK (R102): At t_PL, 20 µs before t_CT, COURSE selects the pending plan or repeats the active one. -/
  | planLock
  /-- SHADOW_COPY_DONE (R103): The copy of the new active buffer into the shadow completes and stalled accesses complete. -/
  | shadowCopyDone
  /-- PLAN_COMMIT (R101): A write of COURSE_PLAN_CMD.COMMIT starts a check of the shadow buffer. -/
  | planCommit
  /-- PLAN_CHECK_DONE (R101): The plan check completes, setting COMMIT_PEND or PLAN_ERR with the first failure. -/
  | planCheckDone
  /-- SHADOW_WRITE (R103): A write to the shadow buffer withdraws a pending commit or abandons a running check. -/
  | shadowWrite (x : Fin 512) (w : Half)
  /-- COURSE_ADJ_WRITE (R94): A write to COURSE_ADJ sets the end shift of the current or next course. -/
  | courseAdjWrite (w : Half)
  /-- COURSE_WALL_WRITE (R94): A write to COURSE_WALL takes effect at the next t_CT. -/
  | courseWallWrite (w : Half)
  /-- COURSE_CFG_WRITE (R95): A write to the course configuration, ASN or template while running is refused with CFG_REFUSED. -/
  | courseCfgWrite (r : Fin 9) (w : Half)
  /-- IDLE_WINDOW_OPEN (R99): At t_CT + T_IDLE the idle window opens and the idle-window event is raised. -/
  | idleWindowOpen
  /-- IDLE_WINDOW_CLOSE (R99): The idle window closes T_GUARD before the next t_CT. -/
  | idleWindowClose
  /-- TX_ENTRY_TEST (R105): At t_SEQ a valid transmit entry is tested and becomes a carrier or records its result. -/
  | txEntryTest (e : Fin 8)
  /-- CCA_WINDOW_END (R107): A CCA unit ends its window and reports the channel busy or clear. -/
  | ccaWindowEnd (e : Fin 8) (dbm : Int)
  /-- COURSE_TXEND_READ (R106): A read of COURSE_TXEND_0 removes the oldest record and snapshots COURSE_TXEND_1. -/
  | courseTxendRead
  /-- DUTY_BUCKET_ROLL (R108): A duty-cycle bucket period ends and the oldest bucket leaves USED. -/
  | dutyBucketRoll (k : Fin 8)
  /-- DUTY_ACCOUNT_ENABLE (R108): EN going from 0 to 1 empties the account's buckets and applies held WIN, LO and HI. -/
  | dutyAccountEnable (k : Fin 8) (w : Half)
  /-- MACF_DECISION (R109): When the addressing fields are complete, MACF passes or drops the frame and counts it. -/
  | macfDecision (n : Fin 64)
  /-- HOD_INGEST (R113): The Hod takes a hand-off in its ingest window and places the frame in TS_EOF order. -/
  | hodIngest (n : Fin 64)
  /-- HOD_SETTLE (R114): The Hod settles a frame at its verdict, assigning its ACKST in order. -/
  | hodSettle (n : Fin 64)
  /-- HOD_RD_WRITE (R117): A write of HOD_RD frees consumed descriptors and buffers, or is ignored with RD_ERR. -/
  | hodRdWrite (d : Fin 512)
  /-- HOD_ENABLE (R122): A write of EN from 0 to 1 applies the bases and buffer size, or is refused with CFG_ERR. -/
  | hodEnable (w : Half)
  /-- HOD_DISABLE (R122): A write of EN = 0 stops descriptor writes and acknowledgement grants. -/
  | hodDisable (w : Half)
  /-- ASHLAR_LOOKUP (R133): Once the source address and auxiliary security header are complete, ASHLAR runs checks 1 to 15. -/
  | ashlarLookup (n : Fin 64) (inTime : Bool)
  /-- ASHLAR_MIC_CHECK (R138): After the last octet ASHLAR completes the CBC-MAC and compares the tag. -/
  | ashlarMicCheck (n : Fin 64)
  /-- VERDICT_DEADLINE (R140): A frame without a verdict at t_EOF + 40 µs receives LATE. -/
  | verdictDeadline (n : Fin 64)
  /-- ASHLAR_COMMIT (R142): After the hand-off, ASHLAR re-evaluates steps 9, 12 and 13 and updates the entry under the lease table. -/
  | ashlarCommit (n : Fin 64)
  /-- LEASE_WRITE (R146): The lease writer hands a LEASE record for the next dirty entry to NVMC. -/
  | leaseWrite
  /-- LEASE_COMMITTED (R146): NVMC reports a lease record committed and the writer clears LEASE_DIRTY. -/
  | leaseCommitted
  /-- LEASE_WRITE_FAILED (R146): A lease write fails; LEASE_ERR is set and the entry returns to the queue. -/
  | leaseWriteFailed
  /-- LEASE_SWEEP (R146): With the queue empty and LEASE_SWEEP set, the writer scans the table and stash for dirty entries. -/
  | leaseSweep
  /-- LEASE_SEGMENT_RECLAIM (R148): With two free segments left, the writer copies live leases out of the oldest segment and frees it. -/
  | leaseSegmentReclaim
  /-- ASHLAR_ENABLE (R149): A write of ASHLAR_CTRL.EN = 1 starts ASHLAR, which refuses frames until a restore completes. -/
  | ashlarEnable
  /-- ASHLAR_DISABLE (R149): A write of EN = 0 empties the table and stash and abandons rebuild, restore and lease writes. -/
  | ashlarDisable
  /-- ASHLAR_CMD_RESTORE (R149): ASHLAR_CMD.RESTORE starts a restore, abandoning a running rebuild. -/
  | ashlarCmdRestore
  /-- HK_DRAW (R126): A new hash key is drawn from the DRBG once entropy is available. -/
  | hkDraw
  /-- RESTORE_DONE (R149): The restore has replayed the lease log, sets LEASE_SWEEP and RESTORE_DONE. -/
  | restoreDone
  /-- ASHLAR_CMD_REBUILD (R150): ASHLAR_CMD.REBUILD triggers a rebuild, or queues one during other work. -/
  | ashlarCmdRebuild
  /-- REBUILD_START (R150): A triggered or queued rebuild starts and re-places entries under the new key. -/
  | rebuildStart
  /-- REBUILD_DONE (R151): The rebuild has visited every place, discards the old key and sets REBUILD_DONE. -/
  | rebuildDone
  /-- TENANT_EPOCH_WRITE (R131): A write to ASHLAR_TEPOCH sets or rolls the epoch and starts a rebuild, or sets TEPOCH_ERR. -/
  | tenantEpochWrite (w : Half)
  /-- ENTRY_OP_READ (R152): Entry operation READ copies the entry into ASHLAR_E_W4 to W7. -/
  | entryOpRead
  /-- ENTRY_OP_INSERT (R152): Entry operation INSERT inserts an entry with the given tenant, epoch and HWM. -/
  | entryOpInsert
  /-- ENTRY_OP_DELETE (R152): Entry operation DELETE removes the entry and writes a DELETE record. -/
  | entryOpDelete
  /-- ENTRY_OP_SET_PEND (R152): Entry operation SET_PEND sets PENDING. -/
  | entryOpSetPend
  /-- ENTRY_OP_CLR_PEND (R152): Entry operation CLR_PEND clears PENDING. -/
  | entryOpClrPend
  /-- ENTRY_OP_SET_QUAR (R152): Entry operation SET_QUAR sets QUARANTINE and LEASE_DIRTY. -/
  | entryOpSetQuar
  /-- ENTRY_OP_CLR_QUAR (R152): Entry operation CLR_QUAR clears QUARANTINE and sets LEASE_DIRTY. -/
  | entryOpClrQuar
  /-- ENTRY_OP_PURGE (R152): Entry operation PURGE deletes every entry of a tenant in the background. -/
  | entryOpPurge
  /-- ENTRY_OP_BADOP (R152): An unlisted operation code returns BADOP. -/
  | entryOpBadop (op : Fin 16)
  /-- ENTRY_OP_DONE (R152): An entry operation writes ASHLAR_E_RES, clears CMD_BUSY and sets CMD_DONE. -/
  | entryOpDone
  /-- PURGE_DONE (R152): A background PURGE ends within 500 ms. -/
  | purgeDone
  /-- CRYPTO_ENABLE (R160): EN going from 0 to 1 resets the ring indices and applies CRYPTO_Q_BASE. -/
  | cryptoEnable
  /-- CRYPTO_DISABLE (R160): A write of EN = 0 stops ring service once the running jobs end. -/
  | cryptoDisable
  /-- CRYPTO_QUEUE_WRITE (R160): A write of CRYPTO_Q_WR submits descriptors, or is ignored with Q_ERR. -/
  | cryptoQueueWrite (c : Fin 2) (w : Half)
  /-- JOB_CBC_ENC (R158): A CBC_ENC descriptor is checked and started on the lowest free core. -/
  | jobCbcEnc
  /-- JOB_CBC_DEC (R158): A CBC_DEC descriptor is checked and started. -/
  | jobCbcDec
  /-- JOB_CFB_ENC (R158): A CFB_ENC descriptor is checked and started. -/
  | jobCfbEnc
  /-- JOB_CFB_DEC (R158): A CFB_DEC descriptor is checked and started. -/
  | jobCfbDec
  /-- JOB_CTR (R158): A CTR descriptor is checked and started. -/
  | jobCtr
  /-- JOB_CMAC (R158): A CMAC descriptor is checked and started. -/
  | jobCmac
  /-- JOB_CCM_ENC (R158): A CCM_ENC descriptor is checked and started, taking a nonce counter with NCTR. -/
  | jobCcmEnc
  /-- JOB_CCM_DEC (R158): A CCM_DEC descriptor is checked and started. -/
  | jobCcmDec
  /-- CRYPTO_JOB_DONE (R159): A job ends in OK, MIC_FAIL or BUSERR, writes word 18 and advances RD. -/
  | cryptoJobDone (k : Fin 4)
  /-- KEYS_LEASE_COMMIT (R161): KEYS commits a new use floor or counter lease, releasing the waiting job. -/
  | keysLeaseCommit (ok : Bool)
  /-- PKE_SHA_INIT (R163): PKE operation SHA_INIT starts a hash. -/
  | pkeShaInit (c : Fin 2)
  /-- PKE_SHA_UPDATE (R163): PKE operation SHA_UPDATE hashes LEN octets at ARG. -/
  | pkeShaUpdate (c : Fin 2)
  /-- PKE_SHA_FINAL (R163): PKE operation SHA_FINAL writes the digest. -/
  | pkeShaFinal (c : Fin 2)
  /-- PKE_VERIFY (R163): PKE operation VERIFY checks an ECDSA signature. -/
  | pkeVerify (c : Fin 2)
  /-- PKE_SIGN (R163): PKE operation SIGN signs a hash with a slot key or the identity key. -/
  | pkeSign (c : Fin 2) (slot : Fin 64) (ident : Bool)
  /-- PKE_ECDH (R163): PKE operation ECDH places the shared secret in slot DSLOT. -/
  | pkeEcdh (c : Fin 2) (slot : Fin 64) (ident : Bool)
  /-- PKE_KEYGEN (R163): PKE operation KEYGEN generates a P-256 key pair in a slot. -/
  | pkeKeygen (c : Fin 2) (slot : Fin 64)
  /-- PKE_CHECK (R163): PKE operation CHECK validates a public point. -/
  | pkeCheck (c : Fin 2)
  /-- PKE_BADOP (R163): An unlisted PKE operation code ends with BADOP. -/
  | pkeBadop (c : Fin 2) (op : Fin 16)
  /-- PKE_OP_DONE (R163): A PKE operation ends, writes RESULT and clears BUSY. -/
  | pkeOpDone
  /-- TRNG_RESEED (R166): TRNG_CTRL.RESEED makes the DRBG reseed at the next request. -/
  | trngReseed
  /-- TRNG_RESTART (R166): TRNG_CTRL.RESTART reruns the start-up health tests. -/
  | trngRestart
  /-- TRNG_STARTUP_DONE (R166): The start-up tests over 1,024 samples end and output is released if they pass. -/
  | trngStartupDone (first : Nat) (rest : List Nat)
  /-- DRBG_AUTO_RESEED (R166): The DRBG reseeds after 65,536 requests. -/
  | drbgAutoReseed
  /-- HEALTH_TEST_FAIL (R167): A health test fails; the DRBG is zeroised, output stops and HEALTH_FAIL is set. -/
  | healthTestFail (samples : List Nat)
  /-- TRNG_OUT_READ (R166): A read of TRNG_OUT returns 16 fresh bits once, or 0 with UNDERRUN. -/
  | trngOutRead
  /-- KEYS_IMPORT (R177): KEYS command IMPORT checks and unwraps a blob into a slot. -/
  | keysImport (c : Fin 2)
  /-- KEYS_DERIVE (R173): KEYS command DERIVE derives a key from a source slot. -/
  | keysDerive (c : Fin 2)
  /-- KEYS_GENERATE (R173): KEYS command GENERATE loads DRBG output as an AES key. -/
  | keysGenerate (c : Fin 2)
  /-- KEYS_DESTROY (R173): KEYS command DESTROY empties a slot and erases its store entry. -/
  | keysDestroy (c : Fin 2)
  /-- KEYS_TRANSFER (R173): KEYS command TRANSFER makes a slot a tenant's root and destroys the slot. -/
  | keysTransfer (c : Fin 2)
  /-- KEYS_DROP (R173): KEYS command DROP destroys a tenant's root. -/
  | keysDrop (c : Fin 2)
  /-- KEYS_LC_NONCE (R173): KEYS command LC_NONCE creates a new life-cycle nonce. -/
  | keysLcNonce (c : Fin 2)
  /-- KEYS_LC_CHANGE (R178): KEYS command LC_CHANGE starts a life-cycle transition or ends DENIED. -/
  | keysLcChange (c : Fin 2)
  /-- KEYS_BADOP (R173): An unlisted KEYS command code gives BADOP. -/
  | keysBadop (c : Fin 2) (op : Fin 16)
  /-- KEYS_CMD_DONE (R174): A KEYS command ends, writes RESULT and clears BUSY. -/
  | keysCmdDone
  /-- LC_TRANSITION_DONE (R180): The transition's destructions and new state are written and the device resets. -/
  | lcTransitionDone
  /-- ACCESS_ENABLE (R182): ACCESS EN going from 0 to 1 enters IDLE and resets the poll schedule. -/
  | accessEnable (root : Fin 64)
  /-- ACCESS_DISABLE (R182): ACCESS EN going from 1 to 0 abandons any session without a record and ends any pulse. -/
  | accessDisable (root : Fin 64)
  /-- LF_TELEGRAM_START (R187): At t_K + 1,000 µs the LF CHALLENGE telegram starts on DATA_ANT. -/
  | lfTelegramStart
  /-- CHALLENGE_END (R182): The last measurement slot ends at t_L and ACCESS enters WAIT_RESP. -/
  | challengeEnd
  /-- RESPONSE_TIMEOUT (R182): No RESPONSE by t_L + 20 ms ends the session with NORESP. -/
  | responseTimeout
  /-- PLUMB_SESSION_START (R192): A Plumb session starts once its conditions hold and mutes RFE_ISM. -/
  | plumbSessionStart (calInt : Half)
  /-- PLUMB_REQUEST_TIMEOUT (R182): No Plumb session within 500 ms ends with NOPLUMB. -/
  | plumbRequestTimeout
  /-- PLUMB_ROUND (R193): A distance-bounding round sends a two-tone pulse and measures the reply. -/
  | plumbRound (coarse : Int) (pa1 : Fin 1024) (pa2 : Fin 1024) (b : Bool) (detected : Bool)
  /-- PLUMB_PINS_RESTORE (R193): At t_PS + 168 µs the FEM pins return to their register levels and the gain is restored. -/
  | plumbPinsRestore
  /-- PLUMB_END (R193): At t_PS + 240 µs the band is unmuted and ACCESS waits for the REPORT. -/
  | plumbEnd
  /-- REPORT_TIMEOUT (R182): No REPORT by t_PS + 168 µs + 20 ms ends the session with REPORT. -/
  | reportTimeout
  /-- ACCESS_LOG_COMMITTED (R182): NVMC reports the access record committed or failed and ACCESS releases or returns to IDLE. -/
  | accessLogCommitted (ok : Bool)
  /-- RELEASE_PULSE_END (R199): The release pulse ends and both lock balls return to their locked levels. -/
  | releasePulseEnd
  /-- LOCK_READBACK_FAULT (R199): A lock ball differing from its driven level for 10 µs sets LOCK_FAULT and ends the pulse. -/
  | lockReadbackFault
  /-- LOCKOUT_END (R196): LOCKED returns to 0 when LOCK_SEC reaches LO_END. -/
  | lockoutEnd
  /-- LOCK_SEC_TICK (R196): LOCK_SEC counts one second on XO_LF, or on SRC while XO_LF is stopped. -/
  | lockSecTick
  /-- LF_OVERCURRENT (R184): Driver current above 1.8 A switches the driver off for the burst and sets SHORT. -/
  | lfOvercurrent (n : Fin 4)
  /-- LF_OPEN_CHECK (R184): 100 µs into a burst, a peak below ISET/4 sets OPEN. -/
  | lfOpenCheck (n : Fin 4) (peak : Byte)
  /-- LF_BURST_END (R184): At the end of a burst IPK takes the burst's peak current. -/
  | lfBurstEnd (peakA : Byte) (peakB : Byte) (peakC : Byte) (peakD : Byte)
  /-- VLF_LOW_CHANGE (R184): VLF crossing 5.5 V sets or clears VLF_LOW and excludes or includes drivers. -/
  | vlfLowChange (low : Bool)
  /-- LF_TUNE_REQUEST (R185): A write of LF_CMD.TUNE requests tuning of the named drivers. -/
  | lfTuneRequest (mask : BitVec 4)
  /-- LF_TUNE_START (R185): Tuning starts once no burst is running and ACCESS is not in CHALLENGE. -/
  | lfTuneStart
  /-- LF_TUNE_DONE (R185): The TUNE sweep ends and writes the best code, or sets OPEN. -/
  | lfTuneDone (a : Fin 64 × Byte) (b : Fin 64 × Byte) (c : Fin 64 × Byte) (d : Fin 64 × Byte)
  /-- POLL_BURST (R186): A poll burst of four 750 µs carrier slots is sent at the period set by the time since the last schedule event. -/
  | pollBurst
  /-- ACCESS_TBL_LOAD (R200): ACCESS_TBL_CMD.LOAD starts a copy of the enrolment and revocation tables. -/
  | accessTblLoad
  /-- ACCESS_TBL_COPY_DONE (R200): The table copy completes, or is refused with TBL_ERR. -/
  | accessTblCopyDone
  /-- ADD (R213): Instruction ADD. -/
  | opAdd (c : Fin 6) (dd : Fin 16) (da : Fin 16) (db : Fin 16) (z : Byte)
  /-- ADDC (R213): Instruction ADDC. -/
  | opAddc (c : Fin 6) (dd : Fin 16) (da : Fin 16) (db : Fin 16) (z : Byte)
  /-- SUB (R213): Instruction SUB. -/
  | opSub (c : Fin 6) (dd : Fin 16) (da : Fin 16) (db : Fin 16) (z : Byte)
  /-- SUBC (R213): Instruction SUBC. -/
  | opSubc (c : Fin 6) (dd : Fin 16) (da : Fin 16) (db : Fin 16) (z : Byte)
  /-- AND (R213): Instruction AND. -/
  | opAnd (c : Fin 6) (dd : Fin 16) (da : Fin 16) (db : Fin 16) (z : Byte)
  /-- OR (R213): Instruction OR. -/
  | opOr (c : Fin 6) (dd : Fin 16) (da : Fin 16) (db : Fin 16) (z : Byte)
  /-- XOR (R213): Instruction XOR. -/
  | opXor (c : Fin 6) (dd : Fin 16) (da : Fin 16) (db : Fin 16) (z : Byte)
  /-- CMP (R213): Instruction CMP. -/
  | opCmp (c : Fin 6) (dd : Fin 16) (da : Fin 16) (db : Fin 16) (z : Byte)
  /-- TST (R213): Instruction TST. -/
  | opTst (c : Fin 6) (dd : Fin 16) (da : Fin 16) (db : Fin 16) (z : Byte)
  /-- MOV (R213): Instruction MOV. -/
  | opMov (c : Fin 6) (dd : Fin 16) (da : Fin 16) (db : Fin 16) (z : Byte)
  /-- NOT (R213): Instruction NOT. -/
  | opNot (c : Fin 6) (dd : Fin 16) (da : Fin 16) (db : Fin 16) (z : Byte)
  /-- NEG (R213): Instruction NEG. -/
  | opNeg (c : Fin 6) (dd : Fin 16) (da : Fin 16) (db : Fin 16) (z : Byte)
  /-- SHL (R213): Instruction SHL. -/
  | opShl (c : Fin 6) (dd : Fin 16) (da : Fin 16) (db : Fin 16) (z : Byte)
  /-- SHR (R213): Instruction SHR. -/
  | opShr (c : Fin 6) (dd : Fin 16) (da : Fin 16) (db : Fin 16) (z : Byte)
  /-- SAR (R213): Instruction SAR. -/
  | opSar (c : Fin 6) (dd : Fin 16) (da : Fin 16) (db : Fin 16) (z : Byte)
  /-- ROL (R213): Instruction ROL. -/
  | opRol (c : Fin 6) (dd : Fin 16) (da : Fin 16) (db : Fin 16) (z : Byte)
  /-- MUL (R213): Instruction MUL. -/
  | opMul (c : Fin 6) (dd : Fin 16) (da : Fin 16) (db : Fin 16) (z : Byte)
  /-- MULHS (R213): Instruction MULHS. -/
  | opMulhs (c : Fin 6) (dd : Fin 16) (da : Fin 16) (db : Fin 16) (z : Byte)
  /-- MULHU (R213): Instruction MULHU. -/
  | opMulhu (c : Fin 6) (dd : Fin 16) (da : Fin 16) (db : Fin 16) (z : Byte)
  /-- MAC (R213): Instruction MAC. -/
  | opMac (c : Fin 6) (dd : Fin 16) (da : Fin 16) (db : Fin 16) (z : Byte)
  /-- MACU (R213): Instruction MACU. -/
  | opMacu (c : Fin 6) (dd : Fin 16) (da : Fin 16) (db : Fin 16) (z : Byte)
  /-- ADDS (R213): Instruction ADDS. -/
  | opAdds (c : Fin 6) (dd : Fin 16) (da : Fin 16) (db : Fin 16) (z : Byte)
  /-- SUBS (R213): Instruction SUBS. -/
  | opSubs (c : Fin 6) (dd : Fin 16) (da : Fin 16) (db : Fin 16) (z : Byte)
  /-- CRC (R213): Instruction CRC. -/
  | opCrc (c : Fin 6) (dd : Fin 16) (da : Fin 16) (db : Fin 16) (z : Byte)
  /-- ADDI (R214): Instruction ADDI. -/
  | opAddi (c : Fin 6) (dd : Fin 16) (da : Fin 16) (z : BitVec 2) (imm : Half)
  /-- ANDI (R214): Instruction ANDI. -/
  | opAndi (c : Fin 6) (dd : Fin 16) (da : Fin 16) (z : BitVec 2) (imm : Half)
  /-- ORI (R214): Instruction ORI. -/
  | opOri (c : Fin 6) (dd : Fin 16) (da : Fin 16) (z : BitVec 2) (imm : Half)
  /-- XORI (R214): Instruction XORI. -/
  | opXori (c : Fin 6) (dd : Fin 16) (da : Fin 16) (z : BitVec 2) (imm : Half)
  /-- CMPI (R214): Instruction CMPI. -/
  | opCmpi (c : Fin 6) (dd : Fin 16) (da : Fin 16) (z : BitVec 2) (imm : Half)
  /-- MOVI (R214): Instruction MOVI. -/
  | opMovi (c : Fin 6) (dd : Fin 16) (da : Fin 16) (z : BitVec 2) (imm : Half)
  /-- SHI (R214): Instruction SHI. -/
  | opShi (c : Fin 6) (dd : Fin 16) (da : Fin 16) (z : BitVec 2) (imm : Half)
  /-- EXTU (R215): Instruction EXTU. -/
  | opExtu (c : Fin 6) (dd : Fin 16) (da : Fin 16) (pos : Fin 16) (lm1 : Fin 16) (z : BitVec 4) (z2 : BitVec 4)
  /-- EXTS (R215): Instruction EXTS. -/
  | opExts (c : Fin 6) (dd : Fin 16) (da : Fin 16) (pos : Fin 16) (lm1 : Fin 16) (z : BitVec 4) (z2 : BitVec 4)
  /-- INS (R215): Instruction INS. -/
  | opIns (c : Fin 6) (dd : Fin 16) (da : Fin 16) (pos : Fin 16) (lm1 : Fin 16) (z : BitVec 4) (z2 : BitVec 4)
  /-- ADDP (R216): Instruction ADDP. -/
  | opAddp (c : Fin 6) (pd : Fin 8) (pa : Fin 8) (z : BitVec 4) (imm : Half)
  /-- LPL (R216): Instruction LPL. -/
  | opLpl (c : Fin 6) (pd : Fin 8) (pa : Fin 8) (z : BitVec 4) (imm : Half)
  /-- LPH (R216): Instruction LPH. -/
  | opLph (c : Fin 6) (pd : Fin 8) (pa : Fin 8) (z : BitVec 4) (imm : Half)
  /-- ADDPD (R216): Instruction ADDPD. -/
  | opAddpd (c : Fin 6) (pd : Fin 8) (pa : Fin 8) (pb : Fin 8) (dx : Fin 16) (z : BitVec 7)
  /-- ADDPU (R216): Instruction ADDPU. -/
  | opAddpu (c : Fin 6) (pd : Fin 8) (pa : Fin 8) (pb : Fin 8) (dx : Fin 16) (z : BitVec 7)
  /-- MOVP (R216): Instruction MOVP. -/
  | opMovp (c : Fin 6) (pd : Fin 8) (pa : Fin 8) (pb : Fin 8) (dx : Fin 16) (z : BitVec 7)
  /-- CMPP (R216): Instruction CMPP. -/
  | opCmpp (c : Fin 6) (pd : Fin 8) (pa : Fin 8) (pb : Fin 8) (dx : Fin 16) (z : BitVec 7)
  /-- DIFP (R216): Instruction DIFP. -/
  | opDifp (c : Fin 6) (pd : Fin 8) (pa : Fin 8) (pb : Fin 8) (dx : Fin 16) (z : BitVec 7)
  /-- MOVDP (R216): Instruction MOVDP. -/
  | opMovdp (c : Fin 6) (pd : Fin 8) (pa : Fin 8) (pb : Fin 8) (dx : Fin 16) (z : BitVec 7)
  /-- MOVDPH (R216): Instruction MOVDPH. -/
  | opMovdph (c : Fin 6) (pd : Fin 8) (pa : Fin 8) (pb : Fin 8) (dx : Fin 16) (z : BitVec 7)
  /-- MOVPD (R216): Instruction MOVPD. -/
  | opMovpd (c : Fin 6) (pd : Fin 8) (pa : Fin 8) (pb : Fin 8) (dx : Fin 16) (z : BitVec 7)
  /-- LDB (R217): Instruction LDB. -/
  | opLdb (c : Fin 6) (t : Fin 16) (pb : Fin 8) (am : Fin 8) (imm : Half)
  /-- LDBS (R217): Instruction LDBS. -/
  | opLdbs (c : Fin 6) (t : Fin 16) (pb : Fin 8) (am : Fin 8) (imm : Half)
  /-- LDH (R217): Instruction LDH. -/
  | opLdh (c : Fin 6) (t : Fin 16) (pb : Fin 8) (am : Fin 8) (imm : Half)
  /-- LDP (R217): Instruction LDP. -/
  | opLdp (c : Fin 6) (t : Fin 8) (z : Bool) (pb : Fin 8) (am : Fin 8) (imm : Half)
  /-- STB (R217): Instruction STB. -/
  | opStb (c : Fin 6) (t : Fin 16) (pb : Fin 8) (am : Fin 8) (imm : Half)
  /-- STH (R217): Instruction STH. -/
  | opSth (c : Fin 6) (t : Fin 16) (pb : Fin 8) (am : Fin 8) (imm : Half)
  /-- STP (R217): Instruction STP. -/
  | opStp (c : Fin 6) (t : Fin 8) (z : Bool) (pb : Fin 8) (am : Fin 8) (imm : Half)
  /-- BCC (R219): Instruction Bcc, a conditional branch with one delay slot. -/
  | opBcc (c : Fin 6) (cond : Fin 16) (ofs : BitVec 22)
  /-- J (R219): Instruction J. -/
  | opJ (c : Fin 6) (z : BitVec 4) (ofs : BitVec 22)
  /-- CALL (R219): Instruction CALL. -/
  | opCall (c : Fin 6) (z : BitVec 4) (ofs : BitVec 22)
  /-- JR (R219): Instruction JR. -/
  | opJr (c : Fin 6) (pa : Fin 8) (z : BitVec 21)
  /-- CALLR (R219): Instruction CALLR. -/
  | opCallr (c : Fin 6) (pa : Fin 8) (z : BitVec 21)
  /-- RET (R219): Instruction RET. -/
  | opRet (c : Fin 6) (z : BitVec 24)
  /-- LOOP (R227): Instruction LOOP sets up a hardware loop level. -/
  | opLoop (c : Fin 6) (lvl : Fin 2) (src : Bool) (count : BitVec 12) (fin : BitVec 12)
  /-- MTC (R220): Instruction MTC. -/
  | opMtc (c : Fin 6) (cr : BitVec 6) (isP : Bool) (r : Fin 16) (z : BitVec 15)
  /-- MFC (R220): Instruction MFC. -/
  | opMfc (c : Fin 6) (cr : BitVec 6) (isP : Bool) (r : Fin 16) (z : BitVec 15)
  /-- MFS (R220): Instruction MFS reads a feature register. -/
  | opMfs (c : Fin 6) (dd : Fin 16) (n : Fin 8) (z : BitVec 19)
  /-- NOP (R221): Instruction NOP. -/
  | opNop (c : Fin 6) (z : BitVec 4) (arg : Half)
  /-- YIELD (R221): Instruction YIELD offers the core to another ready thread. -/
  | opYield (c : Fin 6) (z : BitVec 4) (arg : Half)
  /-- WAIT (R237): Instruction WAIT completes at once or puts the thread in WAIT. -/
  | opWait (c : Fin 6) (z : BitVec 4) (arg : Half)
  /-- SIG (R238): Instruction SIG posts a software event line on its own core. -/
  | opSig (c : Fin 6) (z : BitVec 4) (arg : Half)
  /-- SYSCALL (R221): Instruction SYSCALL raises the system-call exception. -/
  | opSyscall (c : Fin 6) (z : BitVec 4) (arg : Half)
  /-- BREAK (R221): Instruction BREAK raises the breakpoint exception. -/
  | opBreak (c : Fin 6) (z : BitVec 4) (arg : Half)
  /-- ERET (R244): Instruction ERET returns from an exception. -/
  | opEret (c : Fin 6) (z : BitVec 4) (arg : Half)
  /-- FENCE (R218): Instruction FENCE completes the thread's stores before its next access. -/
  | opFence (c : Fin 6) (z : BitVec 4) (arg : Half)
  /-- RESULT_LANDING (R222): A pending result lands when its distance ends. -/
  | resultLanding (c : Fin 6) (t : Fin 4)
  /-- THREAD_START (R233): A write of 1 to THR_START starts a DEAD thread at its start address. -/
  | threadStart (c : Fin 6) (mask : BitVec 4)
  /-- THREAD_KILL (R233): A write of 1 to THR_KILL makes the thread DEAD. -/
  | threadKill (c : Fin 6) (mask : BitVec 4)
  /-- EVENT_LINE_POST (R236): A source rises and sets its line's pending bit on the cores it reaches. -/
  | eventLinePost (c : Fin 6) (l : Fin 32)
  /-- EVENT_PEND_CLEAR (R236): A write of 1 to EVU_PEND clears pending bits. -/
  | eventPendClear (c : Fin 6) (w : Fin 4) (v : Half)
  /-- STALL (R239): With every live thread waiting only on software lines, STALL is raised on the lowest live thread. -/
  | stall (c : Fin 6)
  /-- MAILBOX_WRITE (R250): A write of MBk_DATA by its writer appends a word, or sets OVF when full. -/
  | mailboxWrite (k : Fin 8) (c : Fin 6) (w : Half)
  /-- MAILBOX_READ (R250): A read of MBk_DATA by a reader removes the oldest word, or sets UNDER when empty. -/
  | mailboxRead (k : Fin 8) (c : Fin 6)
  /-- DOORBELL (R251): A write of MBOX_BELL posts the doorbell line of the writing core on each target core. -/
  | doorbell (c : Fin 6) (mask : BitVec 6)
  /-- WDT_ENABLE (R252): A write of 1 to WDT_c_CTRL.EN starts the core's watchdog. -/
  | wdtEnable (c : Fin 6)
  /-- WDT_KICK (R252): A write of 0xA5C3 to CORE_WDT_KICK restarts stage 1 and stops stage 2. -/
  | wdtKick (c : Fin 6) (w : Half)
  /-- WDT_STAGE1_EXPIRY (R252): Stage 1 expires, WDOG is raised on the lowest live thread and stage 2 starts. -/
  | wdtStage1Expiry (c : Fin 6)
  /-- WDT_STAGE2_EXPIRY (R252): Stage 2 expires and resets the device for a Lintel core or the core for an application core. -/
  | wdtStage2Expiry (c : Fin 6)
  /-- ADMIT_WRITE (R261): A write to SYSCTL_ADMIT sets the admitted sum, or sets ERR if it exceeds the cap. -/
  | admitWrite (w : Half)
  /-- NVMC_CFG_WRITE (R278): NVMC command CFG_WRITE appends a configuration record instance. -/
  | nvmcCfgWrite
  /-- NVMC_CFG_READ (R278): NVMC command CFG_READ returns the resolved configuration record. -/
  | nvmcCfgRead
  /-- NVMC_EVT_WRITE (R278): NVMC command EVT_WRITE appends an event record instance. -/
  | nvmcEvtWrite
  /-- NVMC_IMG_WRITE (R278): NVMC command IMG_WRITE writes raw words into an image slot. -/
  | nvmcImgWrite
  /-- NVMC_IMG_ERASE (R278): NVMC command IMG_ERASE writes 0xFFFF over a whole slot. -/
  | nvmcImgErase
  /-- NVMC_BADOP (R278): An unlisted NVMC command code gives BADOP. -/
  | nvmcBadop (op : Fin 16)
  /-- NVMC_CMD_DONE (R277): A firmware NVMC command ends with its RESULT and sets DONE. -/
  | nvmcCmdDone (fails : Fin 3)
  /-- NVMC_PORT_RECORD (R277): A hardware source hands a record to NVMC through its request port. -/
  | nvmcPortRecord (src : Fin 4)
  /-- NVMC_RECORD_DONE (R277): NVMC reports a record committed after verified copies, or failed with FAIL. -/
  | nvmcRecordDone (src : Fin 4) (fails : Fin 3)
  /-- SEGMENT_ERASE_DONE (R275): The background erase of a freed segment completes. -/
  | segmentEraseDone
  /-- IMG_LOCK_SET (R278): A write of 1 to NVMC_IMG_LOCK locks an image slot until reset. -/
  | imgLockSet (w : Half)
  /-- PL_REQUEST (R283): A write to PMU_PL_REQ requests a performance level, ends SAME or BUSY, or becomes pending. -/
  | plRequest (target : Fin 4)
  /-- PL_CHANGE_START (R284): A pending change starts in an admissible window and passes or fails its checks. -/
  | plChangeStart
  /-- PL_DIVIDER_SWITCH (R285): The clock divider switches at a clock edge and PMU_PL.CUR takes the target. -/
  | plDividerSwitch
  /-- PL_CHANGE_DONE (R285): VCORE has settled; BUSY clears and PL_DONE is set. -/
  | plChangeDone
  /-- SLEEP_NAP (R287): A PMU_SLEEP store with STATE NAP checks its preconditions and starts the entry. -/
  | sleepNap
  /-- SLEEP_SHELF (R287): A PMU_SLEEP store with STATE SHELF checks its preconditions and starts the entry. -/
  | sleepShelf
  /-- SLEEP_PLINTH (R290): A PMU_SLEEP store with STATE PLINTH checks its preconditions and enters PLINTH. -/
  | sleepPlinth
  /-- SLEEP_ENTRY_DONE (R287): The four entry steps complete and the device rests in the sleep state. -/
  | sleepEntryDone
  /-- SLEEP_ABANDON (R287): At the next abort point after a wake source, the entry is undone and PMU_ABANDONED rises. -/
  | sleepAbandon
  /-- WAKE_SOURCE_RISE (R288): An enabled wake source rises and is latched in PMU_WAKE_SRC. -/
  | wakeSourceRise (src : Fin 9)
  /-- SLEEP_TIMER_EXPIRY (R288): The PMU sleep timer reaches 0 and raises its wake source. -/
  | sleepTimerExpiry
  /-- NAP_RESUME (R289): Within 12 µs of the wake the first instruction runs on FRC ÷ 4 and WOKE is set. -/
  | napResume
  /-- XO_ENABLE (R291): A write of XO_EN = 1 starts XO_HF. -/
  | xoEnable (w : Half)
  /-- XO_STABLE (R291): After 1 ms of gap-free running XO_OK becomes 1. -/
  | xoStable
  /-- PLL_ENABLE (R291): A write of PLL_EN = 1 with XO_OK starts the PLL. -/
  | pllEnable (w : Half)
  /-- PLL_LOCK (R291): The PLL locks and PLL_LOCK becomes 1. -/
  | pllLock
  /-- CLOCK_SOURCE_SWITCH (R291): A write of SRC switches the core clock at an edge, or sets CLK_ERR without lock. -/
  | clockSourceSwitch (src : Bool)
  /-- SUPPLY_SAG_HALT (R293): VMAIN falls below the stop voltage and the device halts. -/
  | supplySagHalt (how : Fin 3)
  /-- VBAK_SWITCHOVER (R293): VMAIN falls below VBAK and the Plinth domain moves onto VBAK. -/
  | vbakSwitchover
  /-- POWER_ON_RESET (R294): VMAIN rises through 2.9 V after re-arming and a power-on reset runs. -/
  | powerOnReset
  /-- PIN_RESET (R400): RESET_N low for at least 1 µs resets the device. -/
  | pinReset
  /-- SOFTWARE_RESET (R295): A write of 0x5A3C to SYSCTL_RST resets the device. -/
  | softwareReset (key : Half)
  /-- RESET_RELEASE (R296): Reset releases and Lintel core 0 thread 0 starts in the boot ROM. -/
  | resetRelease
  /-- BOOT_ROM_SEQUENCE (R297): Once KEYS is READY the boot ROM loads records, calibrates, selects an image set and jumps to Lintel firmware. -/
  | bootRomSequence (clkOk : Bool) (nvOk : Bool) (run : CalResult × CalResult) (cal : Option CalRecord)
  /-- CORE_RELEASE (R299): A write of 1 to a held core's RUN bit loads its fences and starts thread 0. -/
  | coreRelease (n : Fin 6)
  /-- CORE_RESET (R299): A write of 0 to a core's RUN bit resets the core. -/
  | coreReset (n : Fin 6)
  /-- DMA_START (R300): A write of EN = 1 starts a DMA channel copy. -/
  | dmaStart (k : Fin 4)
  /-- DMA_DONE (R300): A DMA copy ends; EN returns to 0 and DONE is set. -/
  | dmaDone (k : Fin 4)
  /-- DMA_STOP_ERROR (R300): A bad access or uncorrectable word stops the channel with ERR. -/
  | dmaStopError (k : Fin 4)
  /-- TEMP_CONVERSION (R301): Every 1 ms the die sensor writes a result to SYSCTL_TEMP. -/
  | tempConversion (deg : BitVec 11)
  /-- PLINTH_POWER_UP (R302): The Plinth supply rises after loss of both rails and every Plinth register resets, locked and cold. -/
  | plinthPowerUp
  /-- RTC_TICK (R304): At each XO_LF tick boundary the RTC steps with trim, loads a set value, applies a shift and tests the alarm. -/
  | rtcTick
  /-- RTC_SET_COMMIT (R306): A write of RTC_SET_2 commits a value to load at the next tick boundary. -/
  | rtcSetCommit (w : Half)
  /-- HOUR_SHIFT_FORWARD (R307): RTC_CMD with SHIFT forward requests a one-hour forward shift. -/
  | hourShiftForward
  /-- HOUR_SHIFT_BACK (R307): RTC_CMD with SHIFT back requests a one-hour backward shift. -/
  | hourShiftBack
  /-- XO_LF_STOP (R308): No XO_LF edge for 4 SRC periods stops the RTC and sets OSC_STOP. -/
  | xoLfStop
  /-- XO_LF_RESTART (R308): After 1,024 gap-free edges XO_LF_RUN returns to 1 and the RTC counts on. -/
  | xoLfRestart
  /-- RTC_ALARM_COMMIT (R309): A write of RTC_ALM_2 commits the alarm value, firing late if already passed. -/
  | rtcAlarmCommit (w : Half)
  /-- TRIM_WINDOW_CLOSE (R310): A trim window closes, stores TRIM_MEAS, sets TRIM_DONE and opens the next window. -/
  | trimWindowClose
  /-- TRIM_WINDOW_VOID (R311): An out-of-limit interval or other disturbance voids the window and sets TRIM_VOID. -/
  | trimWindowVoid
  /-- MAINS_EDGE (R313): A counted MAINS_ZC edge updates loss detection and may return LOM to 0. -/
  | mainsEdge
  /-- MAINS_LOSS (R313): No counted edge for LOM_CYC + 0.5 periods sets LOM and MAINS_LOSS. -/
  | mainsLoss
  /-- PLINTH_MAINS_WRITE (R313): A write of LOM_CYC or HZ60 clears LOM and restarts detection. -/
  | plinthMainsWrite (w : Half)
  /-- TAMPER_EDGE (R314): A filtered tamper edge sets TAMPn, latches the RTC, counts and raises its wake source. -/
  | tamperEdge (n : Fin 2) (rising : Bool)
  /-- TRICKLE_WRITE (R316): A write to PLINTH_TRICKLE with KEY 0x96 configures the charger; others are ignored. -/
  | trickleWrite (w : Half)
  /-- TIMER_COMPARE_FIRE (R320): A channel's count meets its compare, or the compare is late, and the channel fires. -/
  | timerCompareFire (k : Fin 8)
  /-- TIMER_CNT_COMMIT (R319): A write of TMR_k_CNT_HI commits the count, or sets WERR while running. -/
  | timerCntCommit (k : Fin 8) (w : Half)
  /-- TIMER_CMP_COMMIT (R320): A write of TMR_k_CMP_HI commits the compare value and tests lateness. -/
  | timerCmpCommit (k : Fin 8) (w : Half)
  /-- TIMER_RUN (R319): A write of RUN = 1 continues the count from the latched value. -/
  | timerRun (k : Fin 8) (w : Half)
  /-- TIMER_STOP (R319): A write of RUN = 0 stops the counter and latches its value. -/
  | timerStop (k : Fin 8) (w : Half)
  /-- TIMER_CAPTURE (R322): A selected edge latches HFT into CAP and sets CAP and CAP_NEW. -/
  | timerCapture (k : Fin 8) (e : CaptureEdge)
  /-- TIMER_CAP_READ (R323): A read of TMR_k_CAP_LO returns the low half, holds the high half and clears CAP_NEW. -/
  | timerCapRead (k : Fin 8)
  /-- SPI_STATUS (R326): A STATUS transaction returns the status word repeatedly. -/
  | spiStatus
  /-- SPI_WRITE (R327): A WRITE transaction delivers one message to the inbound buffer, or sets WRBUSY or BADFRM. -/
  | spiWrite (data : List Half) (frac : Bool)
  /-- SPI_READ (R328): A READ transaction transfers the head message and removes it when read in full. -/
  | spiRead (n : Nat)
  /-- SPI_BADOP (R325): An unknown opcode gets no status word and sets BADOP. -/
  | spiBadop
  /-- HOSTIF_IN_RELEASE (R330): A write of 1 to IN_FULL frees the inbound buffer and lets HRDY rise. -/
  | hostifInRelease
  /-- HRDY_NOTCH (R331): A message reaching the head of the outbound queue makes HRDY fall for a notch. -/
  | hrdyNotch
  /-- HRDY_NOTCH_END (R331): 1 µs after the notch fall HRDY rises, unless a WRITE was taken. -/
  | hrdyNotchEnd
  /-- HOSTIF_QUEUE_WRITE (R343): A write of HOSTIF_OQ_WR queues outbound messages, or sets Q_ERR. -/
  | hostifQueueWrite (w : Half)
  /-- HOSTIF_ENABLE (R343): EN going from 0 to 1 applies format and bases and clears the queue, or sets CFG_ERR. -/
  | hostifEnable (w : Half)
  /-- HOSTIF_DISABLE (R329): A write of EN = 0 makes HOSTIF ignore transactions from the end of the current one. -/
  | hostifDisable (w : Half)
  /-- UART_FRAME (R332): A UART0 frame with a valid length and CRC delivers one Adsin message. -/
  | uartFrame (l : List Byte)
  /-- UART_GAP_TIMEOUT (R332): A gap of more than 2 ms between octets discards the frame. -/
  | uartGapTimeout
  /-- UART_DATA_WRITE (R332): A write of UART0_DATA appends an octet to the transmit FIFO. -/
  | uartDataWrite (w : Half)
  /-- UART_DATA_READ (R332): A read of UART0_DATA removes the oldest received octet. -/
  | uartDataRead
  /-- CHANNEL_RESET (R333): Lintel firmware resets a mailbox channel on OVF or a bad length and sends CHAN_RESET. -/
  | channelReset (k : Fin 4)
  /-- SYS_HELLO (R339): Adsin SYS HELLO negotiates the channel's version. -/
  | sysHello (k : Fin 6) (h : AdsinHdr) (p : List Half)
  /-- SYS_PING (R341): Adsin SYS PING echoes its words. -/
  | sysPing (k : Fin 6) (h : AdsinHdr) (p : List Half)
  /-- SYS_INFO (R341): Adsin SYS INFO returns identity and capabilities. -/
  | sysInfo (k : Fin 6) (h : AdsinHdr) (p : List Half)
  /-- SYS_EVT_MASK (R341): Adsin SYS EVT_MASK sets the channel's event mask. -/
  | sysEvtMask (k : Fin 6) (h : AdsinHdr) (p : List Half)
  /-- SYS_RESET (R341): Adsin SYS RESET resets the device after the response leaves. -/
  | sysReset (k : Fin 6) (h : AdsinHdr) (p : List Half)
  /-- SYS_STATS (R341): Adsin SYS STATS returns the channel's statistics. -/
  | sysStats (k : Fin 6) (h : AdsinHdr) (p : List Half)
  /-- PWR_PL_SET (R341): Adsin PWR PL_SET requests a performance level. -/
  | pwrPlSet (k : Fin 6) (h : AdsinHdr) (p : List Half)
  /-- PWR_PL_GET (R341): Adsin PWR PL_GET returns the level and admission figures. -/
  | pwrPlGet (k : Fin 6) (h : AdsinHdr) (p : List Half)
  /-- PWR_SLEEP (R341): Adsin PWR SLEEP enters a sleep state after the response leaves. -/
  | pwrSleep (k : Fin 6) (h : AdsinHdr) (p : List Half)
  /-- PWR_MAINS (R341): Adsin PWR MAINS writes PLINTH_MAINS. -/
  | pwrMains (k : Fin 6) (h : AdsinHdr) (p : List Half)
  /-- TIME_GET (R341): Adsin TIME GET returns the RTC, ASN and slot. -/
  | timeGet (k : Fin 6) (h : AdsinHdr) (p : List Half)
  /-- TIME_SET (R341): Adsin TIME SET sets the RTC. -/
  | timeSet (k : Fin 6) (h : AdsinHdr) (p : List Half)
  /-- TIME_SHIFT (R341): Adsin TIME SHIFT requests an hour shift. -/
  | timeShift (k : Fin 6) (h : AdsinHdr) (p : List Half)
  /-- TIME_TRIM (R341): Adsin TIME TRIM sets trim control and returns TRIM_MEAS. -/
  | timeTrim (k : Fin 6) (h : AdsinHdr) (p : List Half)
  /-- TIME_ALARM (R341): Adsin TIME ALARM sets the RTC alarm. -/
  | timeAlarm (k : Fin 6) (h : AdsinHdr) (p : List Half)
  /-- RADIO_FE_CFG (R341): Adsin RADIO FE_CFG configures a front end. -/
  | radioFeCfg (k : Fin 6) (h : AdsinHdr) (p : List Half)
  /-- RADIO_FE_EN (R341): Adsin RADIO FE_EN enables a front end and responds at READY or LOCK_FAIL. -/
  | radioFeEn (k : Fin 6) (h : AdsinHdr) (p : List Half)
  /-- RADIO_CAL (R341): Adsin RADIO CAL requests calibrations. -/
  | radioCal (k : Fin 6) (h : AdsinHdr) (p : List Half)
  /-- RADIO_ROUTE (R341): Adsin RADIO ROUTE sets a tenant's frame destination. -/
  | radioRoute (k : Fin 6) (h : AdsinHdr) (p : List Half)
  /-- RADIO_SEND (R341): Adsin RADIO SEND schedules a transmit entry. -/
  | radioSend (k : Fin 6) (h : AdsinHdr) (p : List Half)
  /-- RADIO_LANE_STATS (R341): Adsin RADIO LANE_STATS returns a lane's statistics. -/
  | radioLaneStats (k : Fin 6) (h : AdsinHdr) (p : List Half)
  /-- RADIO_RECORD (R341): Adsin RADIO RECORD configures and arms the recorder. -/
  | radioRecord (k : Fin 6) (h : AdsinHdr) (p : List Half)
  /-- RADIO_REC_READ (R341): Adsin RADIO REC_READ returns recorder groups. -/
  | radioRecRead (k : Fin 6) (h : AdsinHdr) (p : List Half)
  /-- COURSE_CFG (R341): Adsin COURSE CFG writes the course configuration. -/
  | courseCfg (k : Fin 6) (h : AdsinHdr) (p : List Half)
  /-- COURSE_START (R341): Adsin COURSE START starts COURSE. -/
  | courseStart (k : Fin 6) (h : AdsinHdr) (p : List Half)
  /-- COURSE_STOP (R341): Adsin COURSE STOP stops COURSE at the end of the course. -/
  | courseStop (k : Fin 6) (h : AdsinHdr) (p : List Half)
  /-- COURSE_LANES (R341): Adsin COURSE LANES writes and commits lane entries. -/
  | courseLanes (k : Fin 6) (h : AdsinHdr) (p : List Half)
  /-- COURSE_HOPLIST (R341): Adsin COURSE HOPLIST writes a hop list. -/
  | courseHoplist (k : Fin 6) (h : AdsinHdr) (p : List Half)
  /-- COURSE_DUTY (R341): Adsin COURSE DUTY configures a duty-cycle account. -/
  | courseDuty (k : Fin 6) (h : AdsinHdr) (p : List Half)
  /-- ASHLAR_TENANT (R341): Adsin ASHLAR TENANT configures a tenant. -/
  | ashlarTenant (k : Fin 6) (h : AdsinHdr) (p : List Half)
  /-- ASHLAR_EPOCH (R341): Adsin ASHLAR EPOCH writes a tenant epoch. -/
  | ashlarEpoch (k : Fin 6) (h : AdsinHdr) (p : List Half)
  /-- ASHLAR_ENTRY (R341): Adsin ASHLAR ENTRY runs an entry operation. -/
  | ashlarEntry (k : Fin 6) (h : AdsinHdr) (p : List Half)
  /-- ASHLAR_REBUILD (R341): Adsin ASHLAR REBUILD triggers a rebuild. -/
  | ashlarRebuild (k : Fin 6) (h : AdsinHdr) (p : List Half)
  /-- ASHLAR_COUNTERS (R341): Adsin ASHLAR COUNTERS reads and clears a counter group. -/
  | ashlarCounters (k : Fin 6) (h : AdsinHdr) (p : List Half)
  /-- KEY_IMPORT (R341): Adsin KEY IMPORT runs a KEYS IMPORT. -/
  | keyImport (k : Fin 6) (h : AdsinHdr) (p : List Half)
  /-- KEY_DERIVE (R341): Adsin KEY DERIVE runs a KEYS DERIVE. -/
  | keyDerive (k : Fin 6) (h : AdsinHdr) (p : List Half)
  /-- KEY_GENERATE (R341): Adsin KEY GENERATE runs a KEYS GENERATE. -/
  | keyGenerate (k : Fin 6) (h : AdsinHdr) (p : List Half)
  /-- KEY_DESTROY (R341): Adsin KEY DESTROY runs a KEYS DESTROY. -/
  | keyDestroy (k : Fin 6) (h : AdsinHdr) (p : List Half)
  /-- KEY_TRANSFER (R341): Adsin KEY TRANSFER runs a KEYS TRANSFER. -/
  | keyTransfer (k : Fin 6) (h : AdsinHdr) (p : List Half)
  /-- KEY_DROP (R341): Adsin KEY DROP runs a KEYS DROP. -/
  | keyDrop (k : Fin 6) (h : AdsinHdr) (p : List Half)
  /-- KEY_ATTR (R341): Adsin KEY ATTR returns a slot's attributes. -/
  | keyAttr (k : Fin 6) (h : AdsinHdr) (p : List Half)
  /-- KEY_IDPUB (R341): Adsin KEY IDPUB returns the identity key and transition certificate. -/
  | keyIdpub (k : Fin 6) (h : AdsinHdr) (p : List Half)
  /-- KEY_LC_NONCE (R341): Adsin KEY LC_NONCE returns a fresh life-cycle nonce. -/
  | keyLcNonce (k : Fin 6) (h : AdsinHdr) (p : List Half)
  /-- KEY_LC_CHANGE (R341): Adsin KEY LC_CHANGE requests a life-cycle transition. -/
  | keyLcChange (k : Fin 6) (h : AdsinHdr) (p : List Half)
  /-- KEY_CIPHER (R341): Adsin KEY CIPHER runs a CRYPTO job for the requester. -/
  | keyCipher (k : Fin 6) (h : AdsinHdr) (p : List Half)
  /-- ACCESS_CFG (R341): Adsin ACCESS CFG configures ACCESS, LF and PLUMB. -/
  | accessCfg (k : Fin 6) (h : AdsinHdr) (p : List Half)
  /-- ACCESS_TABLE_PUT (R341): Adsin ACCESS TABLE_PUT writes token table entries. -/
  | accessTablePut (k : Fin 6) (h : AdsinHdr) (p : List Half)
  /-- ACCESS_TABLE_LOAD (R341): Adsin ACCESS TABLE_LOAD loads the token tables. -/
  | accessTableLoad (k : Fin 6) (h : AdsinHdr) (p : List Half)
  /-- ACCESS_STATUS (R341): Adsin ACCESS STATUS returns access and lock-out state. -/
  | accessStatus (k : Fin 6) (h : AdsinHdr) (p : List Half)
  /-- ACCESS_TUNE (R341): Adsin ACCESS TUNE tunes LF antennas. -/
  | accessTune (k : Fin 6) (h : AdsinHdr) (p : List Half)
  /-- ACCESS_PLUMB_CAL (R341): Adsin ACCESS PLUMB_CAL sets PLUMB_CAL_BOARD. -/
  | accessPlumbCal (k : Fin 6) (h : AdsinHdr) (p : List Half)
  /-- FABRIC_CFG (R360): Adsin FABRIC CFG configures the fabric. -/
  | fabricCfg (k : Fin 6) (h : AdsinHdr) (p : List Half)
  /-- FABRIC_START (R360): Adsin FABRIC START starts the fabric. -/
  | fabricStart (k : Fin 6) (h : AdsinHdr) (p : List Half)
  /-- FABRIC_STOP (R360): Adsin FABRIC STOP stops the fabric and drops its queue. -/
  | fabricStop (k : Fin 6) (h : AdsinHdr) (p : List Half)
  /-- FABRIC_STATUS (R360): Adsin FABRIC STATUS returns fabric state. -/
  | fabricStatus (k : Fin 6) (h : AdsinHdr) (p : List Half)
  /-- FABRIC_NEIGHBOURS (R360): Adsin FABRIC NEIGHBOURS returns neighbour entries. -/
  | fabricNeighbours (k : Fin 6) (h : AdsinHdr) (p : List Half)
  /-- FABRIC_SEND (R360): Adsin FABRIC SEND queues a DATA frame. -/
  | fabricSend (k : Fin 6) (h : AdsinHdr) (p : List Half)
  /-- FABRIC_ROUTES (R360): Adsin FABRIC ROUTES returns route entries. -/
  | fabricRoutes (k : Fin 6) (h : AdsinHdr) (p : List Half)
  /-- ASSAY_RUN (R341): Adsin ASSAY RUN requests a slice. -/
  | assayRun (k : Fin 6) (h : AdsinHdr) (p : List Half)
  /-- ASSAY_SCHEDULE (R374): Adsin ASSAY SCHEDULE sets a slice rotation. -/
  | assaySchedule (k : Fin 6) (h : AdsinHdr) (p : List Half)
  /-- ASSAY_RESULTS (R341): Adsin ASSAY RESULTS returns slice statistics. -/
  | assayResults (k : Fin 6) (h : AdsinHdr) (p : List Half)
  /-- UPDATE_BEGIN (R382): Adsin UPDATE BEGIN erases and starts staging a slot. -/
  | updateBegin (k : Fin 6) (h : AdsinHdr) (p : List Half)
  /-- UPDATE_CHUNK (R382): Adsin UPDATE CHUNK writes image words. -/
  | updateChunk (k : Fin 6) (h : AdsinHdr) (p : List Half)
  /-- UPDATE_VERIFY (R379): Adsin UPDATE VERIFY checks the staged set. -/
  | updateVerify (k : Fin 6) (h : AdsinHdr) (p : List Half)
  /-- UPDATE_ACTIVATE (R381): Adsin UPDATE ACTIVATE makes a verified set pending or starts a handover. -/
  | updateActivate (k : Fin 6) (h : AdsinHdr) (p : List Half)
  /-- UPDATE_STATE (R381): Adsin UPDATE STATE returns the slot states. -/
  | updateState (k : Fin 6) (h : AdsinHdr) (p : List Half)
  /-- UPDATE_ABORT (R381): Adsin UPDATE ABORT abandons staging or activation. -/
  | updateAbort (k : Fin 6) (h : AdsinHdr) (p : List Half)
  /-- LOG_READ (R341): Adsin LOG READ returns log records from a position. -/
  | logRead (k : Fin 6) (h : AdsinHdr) (p : List Half)
  /-- LOG_WRITE (R341): Adsin LOG WRITE appends an event record. -/
  | logWrite (k : Fin 6) (h : AdsinHdr) (p : List Half)
  /-- FABRIC_HELLO_SEND (R348): A joined anchor sends HELLO on both hello channels in its HELLO courses. -/
  | fabricHelloSend
  /-- FABRIC_HELLO_RECEIVE (R349): A received HELLO updates or replaces a neighbour entry. -/
  | fabricHelloReceive
  /-- NEIGHBOUR_REMOVE (R349): A neighbour whose last 8 expected HELLOs were missed on both bands is removed. -/
  | neighbourRemove
  /-- JOIN_REQ_SEND (R352): An unjoined member chooses a parent and sends JOIN_REQ. -/
  | joinReqSend
  /-- JOIN_REQ_RELAY (R352): A received JOIN_REQ is recorded and relayed toward the root, or answered there. -/
  | joinReqRelay
  /-- JOIN_RSP_RECEIVE (R352): A JOIN_RSP is forwarded down by the recorded entry or taken by the joiner. -/
  | joinRspReceive
  /-- JOIN_TIMEOUT (R352): No reply within 10 s makes the joiner retry after 64 HELLO periods. -/
  | joinTimeout
  /-- ROUTE_ADV_SEND (R354): Every 16 HELLO periods an anchor sends ROUTE_ADV to its parent. -/
  | routeAdvSend
  /-- ROUTE_ADV_RECEIVE (R354): A received ROUTE_ADV installs or refreshes routes. -/
  | routeAdvReceive
  /-- ROUTE_EXPIRY (R354): A route not refreshed for 64 HELLO periods is removed. -/
  | routeExpiry
  /-- DATA_FORWARD (R355): A DATA frame is delivered, forwarded or dropped by the forwarding order. -/
  | dataForward
  /-- PARENT_LOST (R356): Four unacknowledged unicasts or removal lose the parent and a new one is chosen. -/
  | parentLost
  /-- TIME_OFFSET_UPDATE (R359): After every 4 parent HELLOs the member writes COURSE_ADJ and adjusts RFE_XO_TRIM. -/
  | timeOffsetUpdate
  /-- SLICE_LANE (R362): An ASSAY_CMD request for slice LANE is queued. -/
  | sliceLane (t : Fin 128)
  /-- SLICE_AES (R362): An ASSAY_CMD request for slice AES is queued. -/
  | sliceAes (t : Fin 128)
  /-- SLICE_LF (R362): An ASSAY_CMD request for slice LF is queued. -/
  | sliceLf (t : Fin 128)
  /-- SLICE_ADC_REF (R362): An ASSAY_CMD request for slice ADC_REF is queued. -/
  | sliceAdcRef (t : Fin 128)
  /-- SLICE_IQ_LOOP (R362): An ASSAY_CMD request for slice IQ_LOOP is queued. -/
  | sliceIqLoop (t : Fin 128)
  /-- SLICE_SRAM_MARCH (R362): An ASSAY_CMD request for slice SRAM_MARCH is queued. -/
  | sliceSramMarch (t : Fin 128)
  /-- SLICE_LANE_MODES (R362): An ASSAY_CMD request for slice LANE_MODES is queued. -/
  | sliceLaneModes (t : Fin 128)
  /-- SLICE_TX_LOOP (R362): An ASSAY_CMD request for slice TX_LOOP is queued. -/
  | sliceTxLoop (t : Fin 128)
  /-- SLICE_PKE_KAT (R362): An ASSAY_CMD request for slice PKE_KAT is queued. -/
  | slicePkeKat (t : Fin 128)
  /-- SLICE_MRAM_SCAN (R362): An ASSAY_CMD request for slice MRAM_SCAN is queued. -/
  | sliceMramScan (t : Fin 128)
  /-- ASSAY_REQUEST_CHECK (R364): The request at the head of the queue is checked and ends without a slice if a check fails. -/
  | assayRequestCheck
  /-- SLICE_START (R365): A checked request starts its slice at t_AS once the window and target allow. -/
  | sliceStart
  /-- SUPPLY_CHECK_END (R367): At t_AS + 20 µs the VMAIN check ends; the target is isolated or the slice ends SUPPLY. -/
  | supplyCheckEnd (mv : Fin 4096)
  /-- SLICE_RETURN (R368): The test ends, the target is returned, OUTCOME is written and DONE is raised. -/
  | sliceReturn (m : Measured) (d : BitVec 24) (short : Bool)
  /-- SLICE_OVERRUN (R368): At t_AS + B − 10 µs an unfinished test stops and ends OVERRUN. -/
  | sliceOverrun
  /-- REQUEST_EXPIRED (R365): A request not started after 256 idle windows ends EXPIRED. -/
  | requestExpired
  /-- ASSAY_DISABLE (R370): A write of ASSAY_CTRL.EN = 0 aborts the slice and empties the queue. -/
  | assayDisable
  /-- ASSAY_SCHEDULE_TICK (R374): Every PERIOD courses Lintel firmware requests the next scheduled target. -/
  | assayScheduleTick (slice : Byte)
  /-- HANDOVER_STANDBY_READY (R386): The new firmware rings the old core's doorbell to signal readiness. -/
  | handoverStandbyReady
  /-- HANDOVER_READY_TIMEOUT (R386): No readiness doorbell within 500 ms ends the handover REFUSED. -/
  | handoverReadyTimeout
  /-- HANDOVER_CUTOVER_START (R388): At an idle window with 600 µs the old firmware stops work, writes the block and rings the standby. -/
  | handoverCutoverStart
  /-- HANDOVER_ACCEPT (R388): The new firmware reads the block, writes ACCEPT and rings the old core. -/
  | handoverAccept (accepts : Bool)
  /-- HANDOVER_DECISION (R388): At the doorbell or t_D the old firmware reads ACCEPT once and writes GO or ABANDON. -/
  | handoverDecision
  /-- HANDOVER_TAKEOVER (R389): After GO the new firmware takes over the rings, commits the plan, writes the boot record and locks its slot. -/
  | handoverTakeover (_ok : Bool)
  /-- RECORD_MIGRATION (R392): A newly confirmed set rewrites each CID whose newest instance has an older VER. -/
  | recordMigration
  /-- TROWEL_STATUS (R407): TROWEL command STATUS returns the status word and clears REASON and BKHIT. -/
  | trowelStatus (core : Fin 8)
  /-- TROWEL_ADDR (R404): TROWEL command ADDR loads the address register. -/
  | trowelAddr (a : BitVec 24) (good : Bool)
  /-- TROWEL_RD16 (R404): TROWEL command RD16 reads a halfword and advances the address. -/
  | trowelRd16 (core : Fin 8)
  /-- TROWEL_WR16 (R404): TROWEL command WR16 writes a halfword and advances the address. -/
  | trowelWr16 (core : Fin 8) (w : Half) (good : Bool)
  /-- TROWEL_HALT (R406): TROWEL command HALT requests a halt of a thread. -/
  | trowelHalt (core : Fin 8) (t : Fin 4)
  /-- TROWEL_RESUME (R406): TROWEL command RESUME clears a thread's halt. -/
  | trowelResume (core : Fin 8) (t : Fin 4)
  /-- TROWEL_STEP (R406): TROWEL command STEP executes one step of a halted thread. -/
  | trowelStep (core : Fin 8) (t : Fin 4)
  /-- TROWEL_RSEL (R406): TROWEL command RSEL selects a thread register. -/
  | trowelRsel (core : Fin 8) (t : Fin 4) (sel : Byte) (good : Bool)
  /-- TROWEL_RRD (R404): TROWEL command RRD reads the selected register of a halted thread. -/
  | trowelRrd (core : Fin 8) (t : Fin 4)
  /-- TROWEL_RWR (R406): TROWEL command RWR writes the selected register of a halted thread. -/
  | trowelRwr (core : Fin 8) (t : Fin 4) (v : BitVec 24) (good : Bool)
  /-- TROWEL_BKPT (R404): TROWEL command BKPT sets a breakpoint slot address. -/
  | trowelBkpt (core : Fin 8) (t : Fin 4) (v : BitVec 24) (good : Bool)
  /-- TROWEL_BKCTL (R404): TROWEL command BKCTL enables breakpoint slots. -/
  | trowelBkctl (core : Fin 8) (v : Byte) (good : Bool)
  /-- TROWEL_RESET (R404): TROWEL command RESET resets the device with cause TROWEL. -/
  | trowelReset
  /-- TROWEL_SCAN (R408): TROWEL command SCAN switches four balls to boundary scan. -/
  | trowelScan
  /-- TROWEL_BADCMD (R404): TROWEL commands 0xE and 0xF end FAULT BADCMD. -/
  | trowelBadcmd
  /-- TROWEL_REQUEST_ERROR (R403): A request with a parity error or stop bit 0 gets no ACK. -/
  | trowelRequestError
  /-- TROWEL_LINE_RESET (R403): 32 clocks with TROWEL_IO high end any transaction and return the port to idle. -/
  | trowelLineReset
  /-- THREAD_HALT_TAKES_EFFECT (R406): A requested halt takes effect at the thread's next permitted boundary, landing its results. -/
  | threadHaltTakesEffect (c : Fin 6) (t : Fin 4)
  /-- BREAKPOINT_HIT (R406): A thread about to execute a breakpoint address halts and BKHIT is set. -/
  | breakpointHit (c : Fin 6) (branch : Bool)
  /-- JTAG_EXTEST (R409): Boundary-scan instruction EXTEST drives balls from the boundary register. -/
  | jtagExtest (ext : BitVec 57) (shifted : BitVec 157)
  /-- JTAG_SAMPLE_PRELOAD (R409): Boundary-scan instruction SAMPLE/PRELOAD samples and preloads cells. -/
  | jtagSamplePreload (ext : BitVec 57) (shifted : BitVec 157)
  /-- JTAG_BYPASS (R409): Boundary-scan instruction BYPASS selects the bypass register. -/
  | jtagBypass
  /-- GPIO_EDGE (R402): A selected edge on a GPIO pin sets its EVT bit. -/
  | gpioEdge (n : Fin 32) (rising : Bool)
  /-- PPS_IN_EDGE (R310): A rising edge of PPS_IN opens a trim window, or is checked as an in-limit reference second inside one. -/
  | ppsInEdge
  /-- UART_OCTET_RECEIVED (R332): An octet completes on UART0 RX and enters the receive FIFO, setting RXNE, or sets OVR or FERR. -/
  | uartOctetReceived (b : Byte) (ferr : Bool)
  /-- UART_OCTET_SENT (R332): An octet finishes shifting out on UART0 TX, freeing FIFO room and setting TXE when the FIFO is empty. -/
  | uartOctetSent
  /-- VIO_LOSS (R280): VIO goes absent, the host I/O domain turns off and HRDY, HIO, UART0 and GPIO outputs float. -/
  | vioLoss
  /-- VIO_RETURN (R280): VIO returns, the host I/O domain powers on and HRDY is driven again under R330. -/
  | vioReturn
  /-- PLINTH_SUPPLY_LOSS (R302): With VMAIN absent, VBAK falls away and the Plinth domain loses its RTC, lock-out state and registers. -/
  | plinthSupplyLoss
  /-- PLINTH_FEED_VMAIN (R302): VMAIN rises above VBAK and the ideal-diode path moves the Plinth domain back onto VMAIN, clearing PWR_VBAK. -/
  | plinthFeedVmain
  deriving DecidableEq, Repr

end Sys2Proof
end

