-- ==== Sys2Proof/Decode.lean ====
section
/-! DEFINITION. Commands spelled by words: the opcode table gives no row bits. And the instruction that a word of Plynnel-16
spells (R211 to R221). -/
namespace Sys2Proof

/-- The command that a word spells by the table's bits: no row of the table has any. -/
def decodeTableWord (_nbits _w : Nat) : Option Instr := none

/-! ## The fields of an instruction word (R211) -/

/-- Bits [hi:lo] of a word, as a bit vector of their width. -/
abbrev field (w : BitVec 32) (lo n : Nat) : BitVec n := w.extractLsb' lo n
/-- A D register or another field of four bits. -/
abbrev field16 (w : BitVec 32) (lo : Nat) : Fin 16 := (field w lo 4).toFin
/-- A P register or another field of three bits. -/
abbrev field8 (w : BitVec 32) (lo : Nat) : Fin 8 := (field w lo 3).toFin

/-! ## The formats of R211 on a core: none where no instruction is listed -/

/-- Format R: FN selects (R213). -/
def decodeR (c : Fin 6) (w : BitVec 32) : Option Instr :=
  let dd := field16 w 22
  let da := field16 w 18
  let db := field16 w 14
  let z := field w 6 8
  match (field w 0 6).toNat with
  | 0x01 => some (.opAdd c dd da db z)
  | 0x02 => some (.opAddc c dd da db z)
  | 0x03 => some (.opSub c dd da db z)
  | 0x04 => some (.opSubc c dd da db z)
  | 0x05 => some (.opAnd c dd da db z)
  | 0x06 => some (.opOr c dd da db z)
  | 0x07 => some (.opXor c dd da db z)
  | 0x08 => some (.opCmp c dd da db z)
  | 0x09 => some (.opTst c dd da db z)
  | 0x0A => some (.opMov c dd da db z)
  | 0x0B => some (.opNot c dd da db z)
  | 0x0C => some (.opNeg c dd da db z)
  | 0x0D => some (.opShl c dd da db z)
  | 0x0E => some (.opShr c dd da db z)
  | 0x0F => some (.opSar c dd da db z)
  | 0x10 => some (.opRol c dd da db z)
  | 0x11 => some (.opMul c dd da db z)
  | 0x12 => some (.opMulhs c dd da db z)
  | 0x13 => some (.opMulhu c dd da db z)
  | 0x14 => some (.opMac c dd da db z)
  | 0x15 => some (.opMacu c dd da db z)
  | 0x16 => some (.opAdds c dd da db z)
  | 0x17 => some (.opSubs c dd da db z)
  | 0x18 => some (.opCrc c dd da db z)
  | _ => none

/-- Format I: OP selects (R214). -/
def decodeI (c : Fin 6) (w : BitVec 32) : Option Instr :=
  let dd := field16 w 22
  let da := field16 w 18
  let z := field w 16 2
  let imm := field w 0 16
  match (field w 26 6).toNat with
  | 0x01 => some (.opAddi c dd da z imm)
  | 0x02 => some (.opAndi c dd da z imm)
  | 0x03 => some (.opOri c dd da z imm)
  | 0x04 => some (.opXori c dd da z imm)
  | 0x05 => some (.opCmpi c dd da z imm)
  | 0x06 => some (.opMovi c dd da z imm)
  | 0x07 => some (.opShi c dd da z imm)
  | _ => none

/-- Format BF: KIND selects (R215). -/
def decodeBf (c : Fin 6) (w : BitVec 32) : Option Instr :=
  let dd := field16 w 22
  let da := field16 w 18
  let pos := field16 w 8
  let lm1 := field16 w 4
  let z := field w 12 4
  let z2 := field w 0 4
  match (field w 16 2).toNat with
  | 0 => some (.opExtu c dd da pos lm1 z z2)
  | 1 => some (.opExts c dd da pos lm1 z z2)
  | 2 => some (.opIns c dd da pos lm1 z z2)
  | _ => none

/-- Format P: OP selects (R216). -/
def decodeP (c : Fin 6) (w : BitVec 32) : Option Instr :=
  let pd := field8 w 22
  let pa := field8 w 19
  let z := field w 25 1 ++ field w 16 3
  let imm := field w 0 16
  match (field w 26 6).toNat with
  | 0x0C => some (.opAddp c pd pa z imm)
  | 0x0D => some (.opLpl c pd pa z imm)
  | 0x0E => some (.opLph c pd pa z imm)
  | _ => none

/-- Format Q: FN selects (R216). -/
def decodeQ (c : Fin 6) (w : BitVec 32) : Option Instr :=
  let pd := field8 w 22
  let pa := field8 w 19
  let pb := field8 w 16
  let dx := field16 w 12
  let z := field w 25 1 ++ field w 6 6
  match (field w 0 6).toNat with
  | 0x01 => some (.opAddpd c pd pa pb dx z)
  | 0x02 => some (.opAddpu c pd pa pb dx z)
  | 0x03 => some (.opMovp c pd pa pb dx z)
  | 0x04 => some (.opCmpp c pd pa pb dx z)
  | 0x05 => some (.opDifp c pd pa pb dx z)
  | 0x06 => some (.opMovdp c pd pa pb dx z)
  | 0x07 => some (.opMovdph c pd pa pb dx z)
  | 0x08 => some (.opMovpd c pd pa pb dx z)
  | _ => none

/-- Format M: OP selects (R217). -/
def decodeM (c : Fin 6) (w : BitVec 32) : Option Instr :=
  let t := field16 w 22
  let pt := field8 w 22
  let z := w.getLsbD 25
  let pb := field8 w 19
  let am := field8 w 16
  let imm := field w 0 16
  match (field w 26 6).toNat with
  | 0x10 => some (.opLdb c t pb am imm)
  | 0x11 => some (.opLdbs c t pb am imm)
  | 0x12 => some (.opLdh c t pb am imm)
  | 0x13 => some (.opLdp c pt z pb am imm)
  | 0x14 => some (.opStb c t pb am imm)
  | 0x15 => some (.opSth c t pb am imm)
  | 0x16 => some (.opStp c pt z pb am imm)
  | _ => none

/-- Formats B and J: OP, and KIND for J, select (R219). -/
def decodeB (c : Fin 6) (w : BitVec 32) : Option Instr :=
  let ofs := field w 0 22
  let z := field w 22 4
  match (field w 26 6).toNat with
  | 0x20 => some (.opBcc c (field16 w 22) ofs)
  | 0x21 => some (.opJ c z ofs)
  | 0x22 => some (.opCall c z ofs)
  | 0x23 =>
    let zj := field w 22 2 ++ field w 0 19
    match (field w 24 2).toNat with
    | 0 => some (.opJr c (field8 w 19) zj)
    | 1 => some (.opCallr c (field8 w 19) zj)
    | 2 => some (.opRet c (field w 0 24))
    | _ => none
  | _ => none

/-- Format S: FN selects (R221). -/
def decodeS (c : Fin 6) (w : BitVec 32) : Option Instr :=
  let z := field w 22 4
  let arg := field w 6 16
  match (field w 0 6).toNat with
  | 0x00 => some (.opNop c z arg)
  | 0x01 => some (.opYield c z arg)
  | 0x02 => some (.opWait c z arg)
  | 0x03 => some (.opSig c z arg)
  | 0x04 => some (.opSyscall c z arg)
  | 0x05 => some (.opBreak c z arg)
  | 0x06 => some (.opEret c z arg)
  | 0x07 => some (.opFence c z arg)
  | _ => none

/-- The instruction that a word spells on a core, by its major opcode; none for an OP, FN or KIND that R211 does not list. The
fields that must be 0, AM, COND, CR and the FEAT1 groups are the instruction's own checks. -/
def plynnel (c : Fin 6) (w : BitVec 32) : Option Instr :=
  let op := (field w 26 6).toNat
  if op = 0 then decodeR c w
  else if op < 0x08 then decodeI c w
  else if op = 0x09 then decodeBf c w
  else if 0x0C ≤ op ∧ op < 0x0F then decodeP c w
  else if op = 0x0F then decodeQ c w
  else if 0x10 ≤ op ∧ op < 0x17 then decodeM c w
  else if 0x20 ≤ op ∧ op < 0x24 then decodeB c w
  else if op = 0x24 then some (.opLoop c (field w 25 1).toFin (w.getLsbD 24) (field w 12 12) (field w 0 12))
  else if op = 0x30 then some (.opMtc c (field w 20 6) (w.getLsbD 19) (field16 w 15) (field w 0 15))
  else if op = 0x31 then some (.opMfc c (field w 20 6) (w.getLsbD 19) (field16 w 15) (field w 0 15))
  else if op = 0x32 then some (.opMfs c (field16 w 22) (field8 w 0) (field w 3 19))
  else if op = 0x3C then decodeS c w
  else none

end Sys2Proof
end

