-- ==== Sys2Proof/Config.lean ====
section
/-! DEFINITION. What one chip fixes and the spec does not give: the fused identity, the boot ROM's contents, and the
free values. Each is an opaque constant, so that no proof can see what it is and a theorem holds whatever it is. -/
namespace Sys2Proof.Config

/-- The free values: the `n`-th natural number drawn from an open source (a measurement, a random bit generator, an
outcome the spec leaves open). State's counter `free` is the argument and advances with each draw. DESIGN CHOICE, log entry 2. -/
opaque freeNat : Nat → Nat

/-- What the calibrated 6 dB step above a gain index of a band (false RFE_SUB, true RFE_ISM) holds beyond 5.95 dB, in 0.01 dB, taken
modulo 11 (R42, R81). DESIGN CHOICE, log entry 98. -/
opaque gainStep : Bool → Nat → Nat

/-- A tap of a lane's DFE while it adapts, by the frame, the HF tick and the tap's number (R79): it follows the received symbols.
DESIGN CHOICE, log entry 97. -/
opaque dfeTap : Nat → Nat → Nat → Nat

/-- What an octet of a coded frame decodes to once a symbol has gone to its decoder as a zero soft value, by the frame, the HF tick of
the marker and the octet's index (R83); and, for interleaved blocks, how many octets before it its block holds. DESIGN CHOICE, log
entry 97. -/
opaque fecOctet : Nat → Nat → Nat → Byte
opaque fecBack : Nat → Nat → Nat

/-- The octets the DRBG yields, by the count of draws (R166): random, so unconstrained. DESIGN CHOICE, log entry 2. -/
opaque drbgOctet : Nat → Byte

/-- The device EUI-64 fused at manufacture (R29). DESIGN CHOICE, log entry 3. -/
opaque fusedEui : BitVec 64

/-- The fused grade of the part, true for the E grade (R1, R29). DESIGN CHOICE, log entry 3. -/
opaque fusedGradeE : Bool

/-- What a codeword of MRAM with three or more flipped bits reads as, by the word's address and the flipped bits, taken
modulo 3: uncorrectable, corrected to a wrong value, another valid word (R266). DESIGN CHOICE, log entry 2. -/
opaque eccSee : Nat → BitVec 22 → Nat

/-- The bits in which the value that such a codeword reads as differs from the stored one (R266). DESIGN CHOICE, log entry 2. -/
opaque eccWrong : Nat → BitVec 22 → Half

/-- The boot ROM's contents by halfword address; the spec gives none (R17). DESIGN CHOICE, log entry 4. -/
opaque romHalf : Nat → Half

/-- The public key that image manifests are checked against before an owner key is set (R378). DESIGN CHOICE, log entry 3. -/
opaque imageKey : Nat × Nat

/-- The version that Lintel firmware reports in SYS HELLO, by the version of the set it runs from (R341): the spec does not
say how the two are linked. DESIGN CHOICE, log entry 2. -/
opaque fwVersion : Nat → BitVec 32

/-- Where Lintel firmware keeps its two token tables in general SRAM, as a count of halfwords (R200): 0 the enrolment, 1 the
revocation table. DESIGN CHOICE, log entry 2. -/
opaque fwTable : Nat → Nat

/-- What the octets of a CALIB part hold (R377): the calibration defaults. Its format the spec does not give; nor those of the parts
that follow. DESIGN CHOICE, log entry 51. -/
opaque calibPart : List Byte → CalRecord

/-- The words of the two tables of a TOKENTAB part: 0 enrolment, 1 revocation (R200, R377). DESIGN CHOICE, log entry 51. -/
opaque tokenPart : List Byte → Nat → List Half

/-- The payloads of the records of a CONFIG part (R377). DESIGN CHOICE, log entry 51. -/
opaque configPart : List Byte → List (List Half)

/-- The words of a FENCE part, five to a window: BASE_LO, BASE_HI, LIMIT_LO, LIMIT_HI, ATTR (R249, R377). DESIGN CHOICE, log entry
51. -/
opaque fencePart : List Byte → Nat → Nat

/-- The VER at which the set of a SET_VERSION writes a record, one below it, taken modulo 15: by CID, or 0x10000 for an event record
(R269, R392). DESIGN CHOICE, log entry 2. -/
opaque recVer : Nat → Nat → Nat

/-- HCLK in MHz as Lintel firmware counts it, at most 50 (R260, R325): the board fixes it. DESIGN CHOICE, log entry 103. -/
opaque hclkMHz : Nat

/-- Which word of a group of the recorder, taken modulo 8, REC_READ gives as its `j`-th of four (R341). DESIGN CHOICE, log entry
64. -/
opaque recWord : Nat → Nat

end Sys2Proof.Config
end

