-- ==== Sys2Proof/Machine/RegMap.lean ====
section
/-! DEFINITION. The register map of the CZ64: every register of the chapters' register tables with its offset, reset
value, count and fields (bits, access code of R3, legal encodings of R6), and the addresses and field positions under
the spec's own names. A field no row names is reserved (R4): it reads 0 and ignores writes. -/
namespace Sys2Proof.Machine

/-- The access codes of R3. -/
inductive Acc where
  | rw | ro | wo | w1c | w1s | rcl
  deriving DecidableEq, Repr

/-- One field of a register: its bits, its access code, and the encodings that are not reserved (empty: all are). -/
structure FieldDesc where
  hi : Nat
  lo : Nat
  acc : Acc
  legal : List (Nat × Nat)
  deriving DecidableEq, Repr

/-- One register description of a block: offset, reset value, stride and count of its repetitions, fields. -/
structure RegDesc where
  off : Nat
  reset : Nat
  stride : Nat
  count : Nat
  fields : List FieldDesc
  deriving DecidableEq, Repr

/-- A field's place: register address and bits. -/
structure Fld where
  reg : Nat
  hi : Nat
  lo : Nat
  deriving DecidableEq, Repr

/-- Base of a band's RFE block (R19). -/
abbrev rfeBase : Band → Nat
  | .sub => 0xE10000
  | .ism => 0xE11000

/-- Key under which core `c`'s own core-local register at address `a` is held (R17: each core sees its own). -/
abbrev coreKey (c a : Nat) : Nat := 0x1000000 * (c + 1) + a

/-- A field with every encoding legal. -/
abbrev fd (hi lo : Nat) (acc : Acc) : FieldDesc := ⟨hi, lo, acc, []⟩

/-- A field with reserved encodings (R6): only those of the list are legal. -/
abbrev fl (hi lo : Nat) (acc : Acc) (legal : List (Nat × Nat)) : FieldDesc := ⟨hi, lo, acc, legal⟩

/-- Registers of ID (01_anchor_overview.md). -/
def regsId : List RegDesc :=
  [ ⟨0x000, 0x05E1, 1, 1, [fd 15 0 .ro]⟩,
    ⟨0x002, 0x0C64, 1, 1, [fd 15 8 .ro, fd 7 0 .ro]⟩,
    ⟨0x004, 0x4201, 1, 1, [fd 15 8 .ro, fd 7 0 .ro]⟩,
    ⟨0x006, 0x0001, 1, 1, [fd 1 0 .ro]⟩,
    ⟨0x008, 0x0103, 1, 1, [fd 15 8 .ro, fd 7 0 .ro]⟩,
    ⟨0x00A, 0x0000, 1, 1, [fd 2 0 .ro]⟩,
    ⟨0x010, 0x0000, 2, 4, [fd 15 0 .ro]⟩,
    ⟨0x020, 0x4240, 1, 1, [fd 15 8 .ro, fd 7 0 .ro]⟩,
    ⟨0x022, 0x440A, 1, 1, [fd 15 12 .ro, fd 11 8 .ro, fd 3 2 .ro, fd 1 0 .ro]⟩ ]

/-- Registers of RFE_SUB (02_radio_front_ends.md). -/
def regsRfeSub : List RegDesc :=
  [ ⟨0x000, 0x0000, 1, 1, [fl 3 2 .rw [(0, 1)], fd 1 1 .rw, fd 0 0 .rw]⟩,
    ⟨0x002, 0x2198, 1, 1, [fd 15 15 .rw, fl 13 0 .rw [(7700, 9280)]]⟩,
    ⟨0x004, 0x0002, 1, 1, [fd 6 6 .w1c, fd 5 5 .w1c, fd 4 4 .w1c, fd 3 3 .ro, fd 2 2 .ro, fd 1 1 .ro, fd 0 0 .ro]⟩,
    ⟨0x006, 0x0EA0, 1, 1, [fl 11 8 .rw [(0, 14)], fl 7 4 .rw [(0, 14)], fd 3 0 .ro]⟩,
    ⟨0x008, 0x000A, 1, 1, [fl 5 0 .rw [(0, 30)]]⟩,
    ⟨0x00A, 0x00FF, 1, 1, [fd 7 0 .ro]⟩,
    ⟨0x00C, 0x0000, 1, 1, [fd 15 0 .rcl]⟩,
    ⟨0x00E, 0x0000, 1, 1, [fd 15 0 .rcl]⟩,
    ⟨0x010, 0x0000, 1, 1, [fd 2 2 .wo, fd 1 1 .wo, fd 0 0 .wo]⟩,
    ⟨0x012, 0x0000, 1, 1, [fd 5 5 .w1c, fd 4 4 .w1c, fd 3 3 .w1c, fd 2 2 .ro, fd 1 1 .ro, fd 0 0 .ro]⟩,
    ⟨0x014, 0x0000, 1, 1, [fl 15 0 .rw [(0, 1000), (64536, 65535)]]⟩,
    ⟨0x016, 0x0000, 1, 1, [fl 15 0 .rw [(0, 5000), (60536, 65535)]]⟩,
    ⟨0x018, 0x0000, 1, 1, [fl 15 0 .rw [(0, 1000), (64536, 65535)]]⟩,
    ⟨0x01A, 0x0000, 1, 1, [fl 15 0 .rw [(0, 5000), (60536, 65535)]]⟩,
    ⟨0x01C, 0x0020, 1, 1, [fd 5 0 .rw]⟩,
    ⟨0x01E, 0x0000, 1, 1, [fl 3 0 .rw [(0, 14)]]⟩,
    ⟨0x020, 0x0000, 1, 1, [fd 15 0 .rw]⟩,
    ⟨0x022, 0x0000, 1, 1, [fd 15 0 .rw]⟩,
    ⟨0x024, 0x0000, 1, 1, [fl 15 0 .rw [(0, 2000), (63536, 65535)]]⟩,
    ⟨0x030, 0x0010, 1, 1, [fl 4 0 .rw [(1, 16)]]⟩,
    ⟨0x032, 0x0000, 1, 1, [fl 8 0 .rw [(0, 40), (352, 511)]]⟩,
    ⟨0x034, 0x01C3, 1, 1, [fd 8 0 .ro]⟩,
    ⟨0x040, 0x0000, 2, 32, [fd 9 0 .rw]⟩ ]

/-- Registers of RFE_ISM (02_radio_front_ends.md). -/
def regsRfeIsm : List RegDesc :=
  [ ⟨0x000, 0x0000, 1, 1, [fl 3 2 .rw [(0, 1)], fd 1 1 .rw, fd 0 0 .rw]⟩,
    ⟨0x002, 0x0000, 1, 1, [fd 15 15 .rw]⟩,
    ⟨0x004, 0x0002, 1, 1, [fd 6 6 .w1c, fd 5 5 .w1c, fd 4 4 .w1c, fd 3 3 .ro, fd 2 2 .ro, fd 1 1 .ro, fd 0 0 .ro]⟩,
    ⟨0x006, 0x0EA0, 1, 1, [fl 11 8 .rw [(0, 14)], fl 7 4 .rw [(0, 14)], fd 3 0 .ro]⟩,
    ⟨0x008, 0x000A, 1, 1, [fl 5 0 .rw [(0, 30)]]⟩,
    ⟨0x00A, 0x00FF, 1, 1, [fd 7 0 .ro]⟩,
    ⟨0x00C, 0x0000, 1, 1, [fd 15 0 .rcl]⟩,
    ⟨0x00E, 0x0000, 1, 1, [fd 15 0 .rcl]⟩,
    ⟨0x010, 0x0000, 1, 1, [fd 2 2 .wo, fd 1 1 .wo, fd 0 0 .wo]⟩,
    ⟨0x012, 0x0000, 1, 1, [fd 5 5 .w1c, fd 4 4 .w1c, fd 3 3 .w1c, fd 2 2 .ro, fd 1 1 .ro, fd 0 0 .ro]⟩,
    ⟨0x014, 0x0000, 1, 1, [fl 15 0 .rw [(0, 1000), (64536, 65535)]]⟩,
    ⟨0x016, 0x0000, 1, 1, [fl 15 0 .rw [(0, 5000), (60536, 65535)]]⟩,
    ⟨0x018, 0x0000, 1, 1, [fl 15 0 .rw [(0, 1000), (64536, 65535)]]⟩,
    ⟨0x01A, 0x0000, 1, 1, [fl 15 0 .rw [(0, 5000), (60536, 65535)]]⟩,
    ⟨0x01C, 0x0020, 1, 1, [fd 5 0 .rw]⟩,
    ⟨0x01E, 0x0000, 1, 1, [fl 3 0 .rw [(0, 14)]]⟩,
    ⟨0x020, 0x0000, 1, 1, [fd 15 0 .rw]⟩,
    ⟨0x022, 0x0000, 1, 1, [fd 15 0 .rw]⟩,
    ⟨0x030, 0x0010, 1, 1, [fl 4 0 .rw [(1, 16)]]⟩,
    ⟨0x032, 0x0000, 1, 1, [fl 8 0 .rw [(0, 40), (352, 511)]]⟩,
    ⟨0x034, 0x01C3, 1, 1, [fd 8 0 .ro]⟩,
    ⟨0x040, 0x0000, 2, 32, [fd 9 0 .rw]⟩ ]

/-- Registers of FEM (02_radio_front_ends.md). -/
def regsFem : List RegDesc :=
  [ ⟨0x000, 0x0002, 8, 6, [fd 2 2 .rw, fd 1 1 .rw, fd 0 0 .rw]⟩,
    ⟨0x002, 0x0000, 8, 6, [fd 6 0 .rw]⟩,
    ⟨0x004, 0x0000, 8, 6, [fl 8 0 .rw [(0, 287)]]⟩,
    ⟨0x100, 0x0002, 8, 6, [fd 2 2 .rw, fd 1 1 .rw, fd 0 0 .rw]⟩,
    ⟨0x102, 0x0000, 8, 6, [fd 6 0 .rw]⟩,
    ⟨0x104, 0x0000, 8, 6, [fl 8 0 .rw [(0, 287)]]⟩ ]

/-- Registers of LANE (03_demodulation_lanes.md). -/
def regsLane : List RegDesc :=
  [ ⟨0x000, 0x0000, 1, 1, [fd 4 4 .rw, fd 3 3 .rw, fd 2 2 .rw]⟩,
    ⟨0x002, 0x0000, 1, 1, [fd 15 14 .ro, fd 13 13 .ro, fd 12 8 .ro, fd 1 0 .ro]⟩,
    ⟨0x004, 0x0000, 1, 1, [fd 15 0 .ro]⟩,
    ⟨0x006, 0x41B3, 1, 1, [fl 15 10 .rw [(4, 63)], fd 9 8 .rw, fl 7 0 .rw [(1, 255)]]⟩,
    ⟨0x008, 0x0400, 1, 1, [fl 15 0 .rw [(16, 65535)]]⟩,
    ⟨0x00A, 0x2300, 1, 1, [fl 15 12 .rw [(1, 8)], fl 11 6 .rw [(6, 30)]]⟩,
    ⟨0x00C, 0x5800, 1, 1, [fl 15 12 .rw [(2, 12)], fl 11 8 .rw [(2, 12)]]⟩,
    ⟨0x00E, 0x47FF, 1, 1, [fl 15 14 .rw [(0, 1)], fl 10 0 .rw [(7, 2047)]]⟩,
    ⟨0x010, 0x0000, 1, 1, [fd 15 15 .ro, fd 14 14 .ro, fd 6 0 .ro]⟩,
    ⟨0x012, 0x0000, 1, 1, [fd 15 0 .rw]⟩,
    ⟨0x014, 0x00FF, 1, 1, [fd 15 13 .ro, fd 7 0 .ro]⟩,
    ⟨0x016, 0x0000, 1, 1, [fd 15 15 .ro, fd 14 14 .ro, fd 13 13 .ro, fd 12 12 .ro, fd 11 11 .ro, fd 10 10 .ro, fd 9 9 .ro, fd 8 8 .ro, fd 7 7 .ro, fd 6 4 .ro]⟩,
    ⟨0x018, 0x0000, 1, 1, [fd 15 0 .ro]⟩,
    ⟨0x01A, 0x0000, 1, 1, [fd 15 0 .ro]⟩,
    ⟨0x01C, 0x0000, 1, 1, [fd 10 0 .ro]⟩,
    ⟨0x01E, 0x0000, 1, 1, [fd 15 8 .ro, fd 7 0 .ro]⟩,
    ⟨0x020, 0x0000, 1, 1, [fd 15 0 .ro]⟩,
    ⟨0x022, 0x0000, 1, 1, [fd 15 0 .ro]⟩,
    ⟨0x024, 0x0000, 1, 1, [fd 15 0 .ro]⟩,
    ⟨0x026, 0x0000, 1, 1, [fd 15 0 .ro]⟩,
    ⟨0x028, 0x0000, 1, 1, [fd 15 0 .rcl]⟩,
    ⟨0x02A, 0x0000, 1, 1, [fd 15 0 .rcl]⟩,
    ⟨0x02C, 0x0000, 1, 1, [fd 15 0 .rcl]⟩,
    ⟨0x02E, 0x0000, 1, 1, [fd 15 0 .rcl]⟩,
    ⟨0x030, 0x0000, 1, 1, [fd 15 0 .rcl]⟩,
    ⟨0x032, 0x0000, 1, 1, [fd 1 1 .w1c, fd 0 0 .w1c]⟩ ]

/-- Registers of REC (03_demodulation_lanes.md). -/
def regsRec : List RegDesc :=
  [ ⟨0x000, 0x0000, 1, 1, [fd 15 14 .rw, fd 8 8 .rw, fd 5 0 .rw]⟩,
    ⟨0x002, 0x0000, 1, 1, [fd 15 10 .rw, fd 5 5 .rw, fd 4 4 .rw, fd 3 3 .rw, fd 2 2 .rw, fd 1 1 .rw, fd 0 0 .rw]⟩,
    ⟨0x004, 0x0000, 1, 1, [fd 14 0 .rw]⟩,
    ⟨0x006, 0x0001, 1, 1, [fl 15 0 .rw [(1, 65535)]]⟩,
    ⟨0x008, 0x0000, 1, 1, [fd 2 2 .wo, fd 1 1 .wo, fd 0 0 .wo]⟩,
    ⟨0x00A, 0x0000, 1, 1, [fd 5 5 .w1c, fd 4 4 .w1c, fd 2 0 .ro]⟩,
    ⟨0x00C, 0x0000, 1, 1, [fd 15 0 .rcl]⟩,
    ⟨0x00E, 0x0000, 1, 1, [fd 15 0 .ro]⟩,
    ⟨0x010, 0x0000, 1, 1, [fd 15 0 .ro]⟩,
    ⟨0x012, 0x0000, 1, 1, [fd 15 0 .ro]⟩,
    ⟨0x014, 0x0000, 1, 1, [fd 15 0 .ro]⟩,
    ⟨0x016, 0x0000, 1, 1, [fd 15 0 .ro]⟩,
    ⟨0x018, 0x0000, 1, 1, [fd 15 4 .rw]⟩,
    ⟨0x01A, 0x0000, 1, 1, [fd 7 0 .rw]⟩,
    ⟨0x01C, 0x0000, 1, 1, [fd 15 0 .rw]⟩,
    ⟨0x01E, 0x0000, 1, 1, [fd 15 0 .rcl]⟩ ]

/-- Registers of COURSE (04_courses_and_frames.md). -/
def regsCourse : List RegDesc :=
  [ ⟨0x000, 0x0000, 1, 1, [fd 1 1 .rw, fd 0 0 .rw]⟩,
    ⟨0x002, 0x0001, 1, 1, [fl 2 0 .rw [(0, 4)]]⟩,
    ⟨0x004, 0x0065, 1, 1, [fl 9 0 .rw [(1, 1021)]]⟩,
    ⟨0x006, 0x0000, 1, 1, [fd 8 8 .w1c, fd 7 7 .w1c, fd 6 6 .w1c, fd 5 5 .w1c, fd 4 4 .w1c, fd 3 3 .ro, fd 2 2 .ro, fd 1 1 .ro, fd 0 0 .ro]⟩,
    ⟨0x008, 0x0000, 1, 1, [fd 0 0 .wo]⟩,
    ⟨0x00A, 0x0000, 1, 1, [fd 15 12 .ro, fd 6 0 .ro]⟩,
    ⟨0x00C, 0x0000, 1, 1, [fd 15 0 .rcl]⟩,
    ⟨0x00E, 0x0000, 1, 1, [fl 15 0 .rw [(0, 4800), (60736, 65535)]]⟩,
    ⟨0x010, 0x0000, 1, 1, [fd 15 0 .rw]⟩,
    ⟨0x012, 0x0000, 1, 1, [fd 15 0 .rw]⟩,
    ⟨0x014, 0x0000, 1, 1, [fd 7 0 .rw]⟩,
    ⟨0x016, 0x0000, 1, 1, [fd 9 0 .ro]⟩,
    ⟨0x018, 0x0000, 1, 1, [fd 15 0 .ro]⟩,
    ⟨0x01A, 0x0000, 1, 1, [fd 15 0 .ro]⟩,
    ⟨0x01C, 0x0000, 1, 1, [fd 15 0 .ro]⟩,
    ⟨0x020, 0x0000, 1, 1, [fd 15 0 .rw]⟩,
    ⟨0x022, 0x0000, 1, 1, [fd 15 0 .rw]⟩,
    ⟨0x030, 0x0708, 1, 1, [fl 15 0 .rw [(0, 25000)]]⟩,
    ⟨0x032, 0x0080, 1, 1, [fl 15 0 .rw [(16, 1000)]]⟩,
    ⟨0x034, 0x0848, 1, 1, [fl 15 0 .rw [(40, 25000)]]⟩,
    ⟨0x036, 0x20D0, 1, 1, [fl 15 0 .rw [(0, 25000)]]⟩,
    ⟨0x038, 0x0064, 1, 1, [fl 15 0 .rw [(50, 1000)]]⟩,
    ⟨0x03A, 0x0000, 1, 1, [fd 15 0 .ro]⟩,
    ⟨0x040, 0x5555, 1, 1, [fl 15 8 .rw [(30, 127)], fl 7 0 .rw [(30, 127)]]⟩,
    ⟨0x044, 0x0000, 1, 1, [fd 15 0 .ro]⟩,
    ⟨0x046, 0x0000, 1, 1, [fd 15 0 .ro]⟩,
    ⟨0x048, 0x0000, 1, 1, [fd 15 12 .ro, fd 11 11 .ro, fd 10 8 .ro]⟩,
    ⟨0x04A, 0x0000, 1, 1, [fd 15 0 .ro]⟩,
    ⟨0x04C, 0x0000, 1, 1, [fd 4 0 .ro]⟩,
    ⟨0x080, 0x0E10, 16, 8, [fd 15 15 .rw, fd 14 14 .rw, fl 11 0 .rw [(1, 3600)]]⟩,
    ⟨0x082, 0x0000, 16, 8, [fd 15 0 .rw]⟩,
    ⟨0x084, 0x0000, 16, 8, [fd 15 0 .rw]⟩,
    ⟨0x086, 0x8CA0, 16, 8, [fl 15 0 .rw [(1, 65535)]]⟩,
    ⟨0x088, 0x0000, 16, 8, [fd 15 0 .ro]⟩,
    ⟨0x08A, 0x0000, 16, 8, [fd 15 0 .rcl]⟩,
    ⟨0x400, 0x0000, 2, 512, [fd 15 0 .rw]⟩,
    ⟨0x800, 0x0000, 2, 512, [fd 15 0 .ro]⟩ ]

/-- Registers of HOD (04_courses_and_frames.md). -/
def regsHod : List RegDesc :=
  [ ⟨0x000, 0x0004, 1, 1, [fl 4 2 .rw [(0, 4)], fd 1 1 .rw, fd 0 0 .rw]⟩,
    ⟨0x002, 0x0000, 1, 1, [fd 15 5 .rw]⟩,
    ⟨0x004, 0x0000, 1, 1, [fd 7 0 .rw]⟩,
    ⟨0x006, 0x0000, 1, 1, [fd 15 7 .rw]⟩,
    ⟨0x008, 0x0000, 1, 1, [fd 7 0 .rw]⟩,
    ⟨0x00A, 0x0000, 1, 1, [fd 8 0 .ro]⟩,
    ⟨0x00C, 0x0000, 1, 1, [fd 8 0 .rw]⟩,
    ⟨0x00E, 0x0000, 1, 1, [fd 2 2 .w1c, fd 1 1 .w1c, fd 0 0 .w1c]⟩,
    ⟨0x010, 0x8001, 1, 1, [fd 15 15 .rw, fl 8 0 .rw [(1, 256)]]⟩,
    ⟨0x012, 0x0000, 1, 1, [fd 12 8 .ro, fd 4 0 .ro]⟩,
    ⟨0x014, 0x0008, 1, 1, [fl 7 0 .rw [(4, 255)]]⟩,
    ⟨0x016, 0x0001, 1, 1, [fd 0 0 .rw]⟩,
    ⟨0x020, 0x0000, 1, 1, [fd 15 0 .rcl]⟩,
    ⟨0x022, 0x0000, 1, 1, [fd 15 0 .rcl]⟩,
    ⟨0x024, 0x0000, 1, 1, [fd 15 0 .rcl]⟩,
    ⟨0x026, 0x0000, 1, 1, [fd 15 0 .rcl]⟩,
    ⟨0x028, 0x0000, 1, 1, [fd 15 0 .rcl]⟩,
    ⟨0x02A, 0x0000, 1, 1, [fd 15 0 .rcl]⟩ ]

/-- Registers of MACF (04_courses_and_frames.md). -/
def regsMacf : List RegDesc :=
  [ ⟨0x000, 0x000A, 1, 1, [fd 5 5 .rw, fd 4 4 .rw, fd 3 0 .rw]⟩,
    ⟨0x002, 0x0000, 1, 1, [fd 15 0 .rw]⟩,
    ⟨0x004, 0xFFFE, 1, 1, [fd 15 0 .rw]⟩,
    ⟨0x006, 0xFFFE, 1, 1, [fd 15 0 .rw]⟩,
    ⟨0x010, 0x0000, 1, 1, [fd 15 0 .rcl]⟩,
    ⟨0x012, 0x0000, 1, 1, [fd 15 0 .rcl]⟩,
    ⟨0x014, 0x0000, 1, 1, [fd 15 0 .rcl]⟩,
    ⟨0x016, 0x0000, 1, 1, [fd 15 0 .rcl]⟩,
    ⟨0x018, 0x0000, 1, 1, [fd 15 0 .rcl]⟩ ]

/-- Registers of ASHLAR (05_ashlar_authentication.md). -/
def regsAshlar : List RegDesc :=
  [ ⟨0x000, 0x0000, 1, 1, [fd 0 0 .rw]⟩,
    ⟨0x002, 0x0000, 1, 1, [fd 8 8 .w1c, fd 7 7 .ro, fd 6 6 .ro, fd 5 5 .ro, fd 4 4 .ro, fd 3 3 .ro, fd 2 2 .ro, fd 1 1 .ro, fd 0 0 .ro]⟩,
    ⟨0x004, 0x0000, 1, 1, [fd 1 1 .wo, fd 0 0 .wo]⟩,
    ⟨0x006, 0x0000, 1, 1, [fd 6 6 .w1c, fd 5 5 .w1c, fd 4 4 .w1c, fd 3 3 .w1c, fd 2 2 .w1c, fd 1 1 .w1c, fd 0 0 .w1c]⟩,
    ⟨0x008, 0x0000, 1, 1, [fd 6 0 .ro]⟩,
    ⟨0x00A, 0x0000, 1, 1, [fd 15 0 .ro]⟩,
    ⟨0x00C, 0x0000, 1, 1, [fd 0 0 .ro]⟩,
    ⟨0x00E, 0x0000, 1, 1, [fd 7 0 .ro]⟩,
    ⟨0x010, 0x0000, 2, 4, [fd 15 0 .rw]⟩,
    ⟨0x018, 0x0000, 2, 4, [fd 15 0 .rw]⟩,
    ⟨0x020, 0x0000, 1, 1, [fd 3 0 .wo]⟩,
    ⟨0x022, 0x0000, 1, 1, [fd 3 0 .ro]⟩,
    ⟨0x030, 0x0000, 2, 12, [fd 15 0 .rcl]⟩,
    ⟨0x080, 0x0000, 1, 1, [fd 11 0 .rw]⟩,
    ⟨0x082, 0x0018, 1, 1, [fd 15 15 .ro, fd 14 14 .rw, fd 13 13 .rw, fd 12 12 .rw, fl 4 0 .rw [(16, 28)]]⟩,
    ⟨0x084, 0x0000, 1, 1, [fd 7 0 .rw]⟩,
    ⟨0x086, 0x0000, 1, 1, [fd 15 0 .rw]⟩,
    ⟨0x088, 0x0000, 1, 1, [fd 15 0 .rw]⟩,
    ⟨0x090, 0x0000, 1, 1, [fd 15 0 .ro]⟩,
    ⟨0x092, 0x0000, 2, 4, [fd 15 0 .rcl]⟩ ]

/-- Registers of CRYPTO (06_cipher_keys_lifecycle.md). -/
def regsCrypto : List RegDesc :=
  [ ⟨0x000, 0x0000, 1, 1, [fd 0 0 .rw]⟩,
    ⟨0x002, 0x0000, 1, 1, [fd 12 12 .w1c, fd 11 8 .ro, fd 7 4 .ro, fd 3 0 .ro]⟩,
    ⟨0x004, 0x0000, 1, 1, [fd 15 4 .rw]⟩,
    ⟨0x006, 0x0000, 1, 1, [fd 7 0 .rw]⟩,
    ⟨0x008, 0x0000, 1, 1, [fd 4 0 .rw]⟩,
    ⟨0x00A, 0x0000, 1, 1, [fd 4 0 .ro]⟩,
    ⟨0x00C, 0x0000, 1, 1, [fd 1 1 .w1c, fd 0 0 .w1c]⟩,
    ⟨0x00E, 0x0000, 1, 1, [fd 15 0 .rcl]⟩ ]

/-- Registers of KEYS (06_cipher_keys_lifecycle.md). -/
def regsKeys : List RegDesc :=
  [ ⟨0x000, 0x0000, 1, 1, [fd 3 0 .wo]⟩,
    ⟨0x002, 0x0000, 2, 4, [fd 15 0 .rw]⟩,
    ⟨0x00A, 0x0000, 1, 1, [fd 15 15 .ro, fd 14 14 .ro, fd 13 13 .ro, fd 12 12 .w1c, fd 11 11 .w1c, fd 3 0 .ro]⟩,
    ⟨0x00C, 0x0000, 1, 1, [fd 5 0 .rw]⟩,
    ⟨0x00E, 0x0000, 1, 1, [fd 15 0 .ro]⟩,
    ⟨0x010, 0x0000, 1, 1, [fd 15 0 .ro]⟩,
    ⟨0x012, 0x0000, 1, 1, [fd 15 0 .ro]⟩,
    ⟨0x014, 0x0000, 1, 1, [fd 15 0 .ro]⟩,
    ⟨0x016, 0x0000, 1, 1, [fd 15 0 .ro]⟩,
    ⟨0x018, 0x0000, 1, 1, [fd 15 0 .ro]⟩,
    ⟨0x020, 0x0000, 2, 8, [fd 15 0 .ro]⟩,
    ⟨0x100, 0x0000, 2, 32, [fd 15 0 .ro]⟩,
    ⟨0x140, 0x0000, 2, 32, [fd 15 0 .ro]⟩ ]

/-- Registers of PKE (06_cipher_keys_lifecycle.md). -/
def regsPke : List RegDesc :=
  [ ⟨0x000, 0x0000, 1, 1, [fd 15 15 .wo, fd 13 8 .wo, fd 3 0 .wo]⟩,
    ⟨0x002, 0x0000, 1, 1, [fd 15 0 .rw]⟩,
    ⟨0x004, 0x0000, 1, 1, [fd 13 8 .rw, fd 7 0 .rw]⟩,
    ⟨0x006, 0x0000, 1, 1, [fd 15 0 .rw]⟩,
    ⟨0x008, 0x0000, 1, 1, [fd 15 15 .ro, fd 14 14 .w1c, fd 3 0 .ro]⟩,
    ⟨0x100, 0x0000, 2, 16, [fd 15 0 .rw]⟩,
    ⟨0x120, 0x0000, 2, 16, [fd 15 0 .rw]⟩,
    ⟨0x140, 0x0000, 2, 16, [fd 15 0 .rw]⟩,
    ⟨0x160, 0x0000, 2, 16, [fd 15 0 .rw]⟩,
    ⟨0x180, 0x0000, 2, 16, [fd 15 0 .rw]⟩ ]

/-- Registers of TRNG (06_cipher_keys_lifecycle.md). -/
def regsTrng : List RegDesc :=
  [ ⟨0x000, 0x0000, 1, 1, [fd 1 1 .wo, fd 0 0 .wo]⟩,
    ⟨0x002, 0x0000, 1, 1, [fd 4 4 .w1c, fd 3 3 .ro, fd 2 2 .ro, fd 1 1 .ro, fd 0 0 .ro]⟩,
    ⟨0x004, 0x0000, 1, 1, [fd 15 0 .ro]⟩,
    ⟨0x006, 0x0000, 1, 1, [fd 15 0 .rcl]⟩,
    ⟨0x008, 0x0000, 1, 1, [fd 15 0 .rcl]⟩ ]

/-- Registers of LF (07_enclosure_access.md). -/
def regsLf : List RegDesc :=
  [ ⟨0x000, 0x0000, 1, 1, [fd 5 4 .rw, fd 3 0 .rw]⟩,
    ⟨0x002, 0x0000, 1, 1, [fd 15 12 .w1c, fd 11 8 .w1c, fd 2 2 .ro, fd 1 1 .ro, fd 0 0 .ro]⟩,
    ⟨0x004, 0x0000, 1, 1, [fd 3 0 .wo]⟩,
    ⟨0x010, 0x007D, 8, 4, [fl 7 0 .rw [(0, 250)]]⟩,
    ⟨0x012, 0x0020, 8, 4, [fd 5 0 .rw]⟩,
    ⟨0x014, 0x0000, 8, 4, [fd 7 0 .ro]⟩ ]

/-- Registers of PLUMB (07_enclosure_access.md). -/
def regsPlumb : List RegDesc :=
  [ ⟨0x000, 0x1058, 1, 1, [fd 15 8 .rw, fd 7 0 .rw]⟩,
    ⟨0x002, 0x0000, 1, 1, [fl 15 0 .rw [(0, 2000), (63536, 65535)]]⟩,
    ⟨0x004, 0x0403, 1, 1, [fd 13 8 .rw, fd 5 0 .rw]⟩,
    ⟨0x006, 0x0000, 1, 1, [fl 8 0 .rw [(0, 40), (352, 511)]]⟩,
    ⟨0x008, 0x0000, 1, 1, [fd 15 15 .ro, fd 14 14 .ro, fd 13 13 .ro, fd 5 0 .ro]⟩,
    ⟨0x00A, 0x0000, 1, 1, [fd 15 0 .ro]⟩,
    ⟨0x00C, 0x0000, 1, 1, [fd 15 0 .ro]⟩,
    ⟨0x00E, 0x0000, 1, 1, [fd 15 0 .ro]⟩,
    ⟨0x010, 0x0000, 1, 1, [fd 15 0 .rcl]⟩ ]

/-- Registers of ACCESS (07_enclosure_access.md). -/
def regsAccess : List RegDesc :=
  [ ⟨0x000, 0x0000, 1, 1, [fd 13 8 .rw, fd 0 0 .rw]⟩,
    ⟨0x002, 0x0000, 1, 1, [fd 15 12 .ro, fd 11 11 .ro, fd 10 10 .ro, fd 9 9 .ro, fd 8 8 .ro, fd 3 3 .w1c, fd 2 2 .w1c, fd 1 1 .w1c, fd 0 0 .w1c]⟩,
    ⟨0x004, 0x01F4, 1, 1, [fl 12 0 .rw [(50, 5000)]]⟩,
    ⟨0x006, 0x5288, 1, 1, [fl 15 12 .rw [(3, 8)], fl 11 6 .rw [(1, 60)], fl 5 0 .rw [(1, 60)]]⟩,
    ⟨0x008, 0x0028, 1, 1, [fl 6 0 .rw [(9, 75)]]⟩,
    ⟨0x00A, 0xFF00, 2, 4, [fd 15 8 .rw, fd 7 0 .rw]⟩,
    ⟨0x012, 0x0000, 1, 1, [fd 0 0 .wo]⟩,
    ⟨0x014, 0x0000, 1, 1, [fd 15 1 .rw]⟩,
    ⟨0x016, 0x0000, 1, 1, [fd 7 0 .rw]⟩,
    ⟨0x018, 0x0000, 1, 1, [fd 8 0 .rw]⟩,
    ⟨0x01A, 0x0000, 1, 1, [fd 15 1 .rw]⟩,
    ⟨0x01C, 0x0000, 1, 1, [fd 7 0 .rw]⟩,
    ⟨0x01E, 0x0000, 1, 1, [fd 10 0 .rw]⟩,
    ⟨0x020, 0x0000, 1, 1, [fd 3 3 .w1c, fd 2 2 .w1c, fd 1 1 .w1c, fd 0 0 .w1c]⟩,
    ⟨0x030, 0x0000, 1, 1, [fd 15 12 .ro, fd 11 10 .ro, fd 7 0 .ro]⟩,
    ⟨0x032, 0x0000, 2, 4, [fd 15 0 .ro]⟩,
    ⟨0x03A, 0x0000, 1, 1, [fd 15 0 .ro]⟩,
    ⟨0x03C, 0x0000, 1, 1, [fd 15 0 .ro]⟩,
    ⟨0x040, 0x0000, 1, 1, [fd 15 0 .rcl]⟩,
    ⟨0x042, 0x0000, 1, 1, [fd 15 0 .rcl]⟩,
    ⟨0x044, 0x0000, 1, 1, [fd 15 0 .rcl]⟩,
    ⟨0x046, 0x0000, 1, 1, [fd 15 0 .rcl]⟩,
    ⟨0x048, 0x0000, 1, 1, [fd 15 0 .rcl]⟩,
    ⟨0x04A, 0x0000, 1, 1, [fd 15 0 .rcl]⟩,
    ⟨0x04E, 0x0201, 1, 1, [fd 15 8 .ro, fd 7 0 .ro]⟩ ]

/-- Registers of PLINTH (12_plinth_time_timers.md). -/
def regsPlinth : List RegDesc :=
  [ ⟨0x000, 0x0000, 1, 1, [fd 4 4 .ro, fd 3 3 .ro, fd 2 2 .ro, fd 1 1 .ro, fd 0 0 .ro]⟩,
    ⟨0x002, 0x0300, 1, 1, [fd 9 9 .w1c, fd 8 8 .w1c, fd 7 7 .w1c, fd 6 6 .w1c, fd 5 5 .w1c, fd 4 4 .w1c, fd 3 3 .w1c, fd 2 2 .w1c, fd 1 1 .w1c, fd 0 0 .w1c]⟩,
    ⟨0x004, 0x0000, 1, 1, [fd 15 0 .ro]⟩,
    ⟨0x006, 0x0000, 1, 1, [fd 15 0 .ro]⟩,
    ⟨0x008, 0x0000, 1, 1, [fd 15 0 .ro]⟩,
    ⟨0x00A, 0x0000, 1, 1, [fd 15 0 .rw]⟩,
    ⟨0x00C, 0x0000, 1, 1, [fd 15 0 .rw]⟩,
    ⟨0x00E, 0x0000, 1, 1, [fd 15 0 .rw]⟩,
    ⟨0x010, 0x0000, 1, 1, [fd 15 8 .wo, fd 1 0 .wo]⟩,
    ⟨0x012, 0x0000, 1, 1, [fd 15 0 .rw]⟩,
    ⟨0x014, 0x0000, 1, 1, [fd 15 0 .rw]⟩,
    ⟨0x016, 0x0000, 1, 1, [fd 15 0 .rw]⟩,
    ⟨0x018, 0x0000, 1, 1, [fd 15 0 .rw]⟩,
    ⟨0x01A, 0x0A00, 1, 1, [fd 15 15 .rw, fd 14 14 .rw, fl 13 12 .rw [(0, 2)], fl 11 8 .rw [(4, 14)]]⟩,
    ⟨0x01C, 0x0000, 1, 1, [fd 15 0 .ro]⟩,
    ⟨0x01E, 0x0000, 1, 1, [fd 15 0 .ro]⟩,
    ⟨0x020, 0x0000, 1, 1, [fd 4 4 .rw, fd 3 0 .rw]⟩,
    ⟨0x022, 0x001B, 1, 1, [fd 5 5 .rw, fl 4 3 .rw [(1, 3)], fd 2 2 .rw, fl 1 0 .rw [(1, 3)]]⟩,
    ⟨0x024, 0x0000, 2, 3, [fd 15 0 .ro]⟩,
    ⟨0x02A, 0x0000, 2, 3, [fd 15 0 .ro]⟩,
    ⟨0x030, 0x0000, 1, 1, [fd 15 8 .rcl, fd 7 0 .rcl]⟩,
    ⟨0x032, 0x0000, 1, 1, [fd 15 8 .wo, fd 3 3 .rw, fl 2 1 .rw [(0, 2)], fd 0 0 .rw]⟩,
    ⟨0x200, 0xC000, 1, 1, [fd 15 15 .ro, fd 14 14 .ro, fd 9 8 .ro, fd 3 0 .ro]⟩,
    ⟨0x202, 0x01E0, 1, 1, [fd 15 0 .ro]⟩,
    ⟨0x204, 0x0000, 1, 1, [fd 15 0 .ro]⟩,
    ⟨0x206, 0x0000, 1, 1, [fd 15 0 .ro]⟩,
    ⟨0x208, 0x0000, 1, 1, [fd 15 0 .ro]⟩,
    ⟨0x20A, 0x0000, 1, 1, [fd 15 0 .ro]⟩,
    ⟨0x20C, 0x0000, 1, 1, [fd 15 0 .ro]⟩ ]

/-- Registers of TIMER (12_plinth_time_timers.md). -/
def regsTimer : List RegDesc :=
  [ ⟨0x000, 0x0800, 32, 8, [fd 15 15 .rw, fd 14 14 .rw, fd 13 13 .rw, fl 12 11 .rw [(1, 3)], fd 10 8 .rw, fl 7 0 .rw [(0, 4), (32, 63)]]⟩,
    ⟨0x002, 0x0000, 32, 8, [fd 15 0 .rw]⟩,
    ⟨0x004, 0x0000, 32, 8, [fd 15 0 .rw]⟩,
    ⟨0x006, 0x0000, 32, 8, [fd 15 0 .rw]⟩,
    ⟨0x008, 0x0000, 32, 8, [fd 15 0 .rw]⟩,
    ⟨0x00A, 0x0000, 32, 8, [fd 15 0 .rw]⟩,
    ⟨0x00C, 0x0000, 32, 8, [fd 15 0 .rw]⟩,
    ⟨0x00E, 0x0000, 32, 8, [fd 15 0 .ro]⟩,
    ⟨0x010, 0x0000, 32, 8, [fd 15 0 .ro]⟩,
    ⟨0x012, 0x0000, 32, 8, [fd 6 6 .ro, fd 5 5 .w1c, fd 4 4 .w1c, fd 3 3 .w1c, fd 2 2 .w1c, fd 1 1 .w1c, fd 0 0 .w1c]⟩,
    ⟨0x014, 0x0000, 32, 8, [fd 15 0 .rcl]⟩,
    ⟨0x100, 0x0000, 1, 1, [fd 7 0 .rw]⟩ ]

/-- Registers of SYSCTL (11_power_and_reset.md). -/
def regsSysctl : List RegDesc :=
  [ ⟨0x000, 0x0001, 1, 1, [fd 10 8 .ro, fd 7 0 .w1c]⟩,
    ⟨0x002, 0x0000, 1, 1, [fd 15 0 .wo]⟩,
    ⟨0x004, 0x0000, 1, 1, [fd 2 2 .rw, fd 1 1 .rw, fd 0 0 .rw]⟩,
    ⟨0x006, 0x0000, 1, 1, [fd 3 3 .w1c, fd 2 2 .w1c, fd 1 1 .ro, fd 0 0 .ro]⟩,
    ⟨0x008, 0x0001, 1, 1, [fd 5 1 .rw, fd 0 0 .ro]⟩,
    ⟨0x010, 0x0000, 4, 5, [fd 15 2 .rw]⟩,
    ⟨0x012, 0x0000, 4, 5, [fd 7 0 .rw]⟩,
    ⟨0x040, 0x0000, 1, 1, [fd 15 15 .w1c, fd 11 0 .rw]⟩,
    ⟨0x042, 0x00C0, 1, 1, [fd 11 0 .ro]⟩,
    ⟨0x048, 0x0000, 1, 1, [fd 15 15 .ro, fd 10 0 .ro]⟩,
    ⟨0x080, 0x0000, 16, 4, [fd 15 15 .rw, fd 14 14 .w1c, fd 13 13 .w1c]⟩,
    ⟨0x082, 0x0000, 16, 4, [fd 15 1 .rw]⟩,
    ⟨0x084, 0x0000, 16, 4, [fd 7 0 .rw]⟩,
    ⟨0x086, 0x0000, 16, 4, [fd 15 1 .rw]⟩,
    ⟨0x088, 0x0000, 16, 4, [fd 7 0 .rw]⟩,
    ⟨0x08A, 0x0000, 16, 4, [fl 15 0 .rw [(1, 65535)]]⟩,
    ⟨0x08C, 0x0010, 16, 4, [fl 10 0 .rw [(1, 1536)]]⟩,
    ⟨0x100, 0x0000, 16, 16, [fd 15 0 .rw]⟩,
    ⟨0x102, 0x0000, 16, 16, [fd 7 0 .rw]⟩,
    ⟨0x104, 0x0000, 16, 16, [fd 15 0 .rw]⟩,
    ⟨0x106, 0x0000, 16, 16, [fd 7 0 .rw]⟩,
    ⟨0x108, 0x0000, 16, 16, [fd 15 15 .rw, fd 2 0 .rw]⟩ ]

/-- Registers of PMU (11_power_and_reset.md). -/
def regsPmu : List RegDesc :=
  [ ⟨0x000, 0x0000, 1, 1, [fd 1 0 .ro]⟩,
    ⟨0x002, 0x0000, 1, 1, [fd 1 0 .wo]⟩,
    ⟨0x004, 0x0000, 1, 1, [fd 15 15 .ro, fd 14 14 .ro, fd 3 0 .ro]⟩,
    ⟨0x006, 0x0000, 1, 1, [fd 15 8 .wo, fd 1 0 .wo]⟩,
    ⟨0x008, 0x0000, 1, 1, [fd 15 15 .w1c, fd 11 8 .ro, fd 1 0 .ro]⟩,
    ⟨0x00A, 0x0011, 1, 1, [fd 8 0 .rw]⟩,
    ⟨0x00C, 0x0000, 1, 1, [fd 8 0 .w1c]⟩,
    ⟨0x00E, 0x0000, 1, 1, [fd 15 0 .rw]⟩,
    ⟨0x010, 0x0000, 1, 1, [fd 15 0 .rw]⟩,
    ⟨0x012, 0x0000, 1, 1, [fd 15 0 .rcl]⟩,
    ⟨0x014, 0x0000, 1, 1, [fd 2 2 .w1c, fd 1 1 .w1c, fd 0 0 .w1c]⟩ ]

/-- Registers of WDT (09_threads_events_exceptions.md). -/
def regsWdt : List RegDesc :=
  [ ⟨0x000, 0x0000, 8, 6, [fd 0 0 .w1s]⟩,
    ⟨0x002, 0x03E8, 8, 6, [fl 15 0 .rw [(1, 65535)]]⟩,
    ⟨0x004, 0x0064, 8, 6, [fl 15 0 .rw [(1, 65535)]]⟩,
    ⟨0x030, 0x0000, 1, 1, [fd 9 6 .w1c, fd 5 0 .ro]⟩ ]

/-- Registers of MBOX (09_threads_events_exceptions.md). -/
def regsMbox : List RegDesc :=
  [ ⟨0x000, 0x0000, 16, 8, [fd 15 0 .rw]⟩,
    ⟨0x002, 0x0000, 16, 8, [fd 15 15 .w1c, fd 14 14 .w1c, fd 5 0 .ro]⟩,
    ⟨0x100, 0x0000, 1, 1, [fd 5 0 .wo]⟩ ]

/-- Registers of NVMC (10_memory_and_records.md). -/
def regsNvmc : List RegDesc :=
  [ ⟨0x000, 0x0000, 1, 1, [fd 3 0 .wo]⟩,
    ⟨0x002, 0x0000, 2, 5, [fd 15 0 .rw]⟩,
    ⟨0x00C, 0x0000, 1, 1, [fd 15 15 .ro, fd 14 14 .w1c, fd 3 0 .ro]⟩,
    ⟨0x00E, 0x0000, 1, 1, [fd 3 3 .w1c, fd 2 2 .w1c, fd 1 1 .w1c, fd 0 0 .w1c]⟩,
    ⟨0x010, 0x0000, 1, 1, [fd 15 12 .ro, fd 5 0 .ro]⟩,
    ⟨0x012, 0x0000, 1, 1, [fd 15 0 .ro]⟩,
    ⟨0x014, 0x0000, 1, 1, [fd 15 0 .rcl]⟩,
    ⟨0x016, 0x0000, 1, 1, [fd 15 0 .rcl]⟩,
    ⟨0x018, 0x0000, 1, 1, [fd 15 0 .ro]⟩,
    ⟨0x01A, 0x0000, 1, 1, [fd 7 0 .ro]⟩,
    ⟨0x01C, 0x0000, 1, 1, [fd 1 1 .w1s, fd 0 0 .w1s]⟩,
    ⟨0x01E, 0x0000, 1, 1, [fd 11 8 .ro, fd 7 4 .ro, fd 3 0 .ro]⟩ ]

/-- Registers of HOSTIF (13_host_interface_adsin.md). -/
def regsHostif : List RegDesc :=
  [ ⟨0x000, 0x0000, 1, 1, [fd 2 2 .rw, fd 1 1 .rw, fd 0 0 .rw]⟩,
    ⟨0x002, 0x0000, 1, 1, [fd 8 8 .w1c, fd 7 7 .w1c, fd 6 6 .w1c, fd 5 5 .w1c, fd 4 4 .w1c, fd 3 3 .w1c, fd 2 2 .ro, fd 1 1 .ro, fd 0 0 .w1c]⟩,
    ⟨0x004, 0x0000, 1, 1, [fd 15 1 .rw]⟩,
    ⟨0x006, 0x0000, 1, 1, [fd 7 0 .rw]⟩,
    ⟨0x008, 0x0000, 1, 1, [fd 10 0 .ro]⟩,
    ⟨0x00A, 0x0000, 1, 1, [fd 15 2 .rw]⟩,
    ⟨0x00C, 0x0000, 1, 1, [fd 7 0 .rw]⟩,
    ⟨0x00E, 0x0000, 1, 1, [fd 4 0 .rw]⟩,
    ⟨0x010, 0x0000, 1, 1, [fd 4 0 .ro]⟩,
    ⟨0x012, 0x0000, 1, 1, [fd 15 0 .rcl]⟩,
    ⟨0x014, 0x0000, 1, 1, [fd 15 0 .rcl]⟩,
    ⟨0x016, 0x0000, 1, 1, [fd 15 0 .rcl]⟩ ]

/-- Registers of UART0 (13_host_interface_adsin.md). -/
def regsUart0 : List RegDesc :=
  [ ⟨0x000, 0x0000, 1, 1, [fd 1 1 .rw, fd 0 0 .rw]⟩,
    ⟨0x002, 0x1A0B, 1, 1, [fl 12 0 .rw [(256, 6667)]]⟩,
    ⟨0x004, 0x0006, 1, 1, [fd 4 4 .w1c, fd 3 3 .w1c, fd 2 2 .ro, fd 1 1 .ro, fd 0 0 .ro]⟩,
    ⟨0x006, 0x0000, 1, 1, [fd 7 0 .rw]⟩ ]

/-- Registers of ASSAY (15_assay_self_test.md). -/
def regsAssay : List RegDesc :=
  [ ⟨0x000, 0x0000, 1, 1, [fd 0 0 .rw]⟩,
    ⟨0x002, 0x0000, 1, 1, [fd 15 8 .wo, fd 6 0 .wo]⟩,
    ⟨0x004, 0x0000, 1, 1, [fd 10 10 .w1c, fd 9 9 .w1c, fd 8 8 .ro, fd 3 0 .ro]⟩,
    ⟨0x006, 0x0000, 1, 1, [fd 0 0 .w1c]⟩,
    ⟨0x008, 0x0000, 1, 1, [fd 15 15 .rw]⟩,
    ⟨0x00A, 0x0000, 1, 1, [fd 7 0 .rw]⟩,
    ⟨0x00C, 0x0000, 1, 1, [fd 11 0 .ro]⟩,
    ⟨0x010, 0x0000, 1, 1, [fd 15 8 .ro, fd 6 0 .ro]⟩,
    ⟨0x012, 0x0000, 1, 1, [fd 15 8 .ro, fd 3 0 .ro]⟩,
    ⟨0x014, 0x0000, 1, 1, [fd 15 0 .ro]⟩,
    ⟨0x016, 0x0000, 1, 1, [fd 15 0 .ro]⟩,
    ⟨0x020, 0x0000, 2, 5, [fd 15 0 .ro]⟩,
    ⟨0x030, 0x0000, 1, 1, [fd 15 0 .rcl]⟩,
    ⟨0x032, 0x0000, 1, 1, [fd 15 0 .rcl]⟩ ]

/-- Registers of GPIO (17_package_and_signals.md). -/
def regsGpio : List RegDesc :=
  [ ⟨0x000, 0x0000, 32, 2, [fd 15 0 .rw]⟩,
    ⟨0x002, 0x0000, 32, 2, [fd 15 0 .rw]⟩,
    ⟨0x004, 0x0000, 32, 2, [fd 15 0 .w1s]⟩,
    ⟨0x006, 0x0000, 32, 2, [fd 15 0 .w1c]⟩,
    ⟨0x008, 0x0000, 32, 2, [fd 15 0 .ro]⟩,
    ⟨0x00A, 0x0000, 32, 2, [fd 15 0 .rw]⟩,
    ⟨0x00C, 0x0000, 32, 2, [fd 15 0 .rw]⟩,
    ⟨0x00E, 0x0000, 32, 2, [fd 15 0 .w1c]⟩,
    ⟨0x010, 0x0000, 32, 2, [fd 15 0 .rw]⟩,
    ⟨0x012, 0x0000, 32, 2, [fd 15 0 .rw]⟩,
    ⟨0x100, 0x0000, 2, 2, [fd 15 0 .rw]⟩ ]

/-- Registers of CORE (09_threads_events_exceptions.md). -/
def regsCore : List RegDesc :=
  [ ⟨0x000, 0x0000, 1, 1, [fd 2 0 .ro]⟩,
    ⟨0x002, 0x0000, 1, 1, [fd 1 0 .ro]⟩,
    ⟨0x004, 0x0000, 1, 1, [fd 7 0 .ro]⟩,
    ⟨0x006, 0x0000, 1, 1, [fd 3 0 .wo]⟩,
    ⟨0x008, 0x0000, 1, 1, [fd 3 0 .wo]⟩,
    ⟨0x00A, 0x0000, 1, 1, [fd 3 0 .w1c]⟩,
    ⟨0x00C, 0x0000, 1, 1, [fd 15 0 .wo]⟩,
    ⟨0x010, 0x0000, 8, 4, [fd 15 2 .rw]⟩,
    ⟨0x012, 0x0000, 8, 4, [fd 7 0 .rw]⟩,
    ⟨0x014, 0x0000, 8, 4, [fd 15 2 .rw]⟩,
    ⟨0x016, 0x0000, 8, 4, [fd 7 0 .rw]⟩,
    ⟨0x040, 0x0000, 4, 4, [fd 15 0 .ro]⟩,
    ⟨0x042, 0x0000, 4, 4, [fd 7 0 .ro]⟩,
    ⟨0x080, 0x0000, 2, 16, [fd 15 0 .rw]⟩,
    ⟨0x0A0, 0x0000, 2, 4, [fd 15 0 .w1c]⟩,
    ⟨0x0A8, 0x0000, 1, 1, [fd 15 0 .rcl]⟩ ]

namespace A
/-- ID_VENDOR (R29). -/
abbrev ID_VENDOR : Nat := 0xE0F000
/-- ID_PART (R29). -/
abbrev ID_PART : Nat := 0xE0F002
/-- ID_STEP (R29). -/
abbrev ID_STEP : Nat := 0xE0F004
/-- ID_GRADE (R29). -/
abbrev ID_GRADE : Nat := 0xE0F006
/-- ID_ROMVER (R29). -/
abbrev ID_ROMVER : Nat := 0xE0F008
/-- ID_LIFECYCLE (R30). -/
abbrev ID_LIFECYCLE : Nat := 0xE0F00A
/-- ID_EUI (R29). -/
abbrev ID_EUI (i : Nat) : Nat := 0xE0F010 + 2 * i
/-- ID_CAPS0 (R29). -/
abbrev ID_CAPS0 : Nat := 0xE0F020
/-- ID_CAPS1 (R31). -/
abbrev ID_CAPS1 : Nat := 0xE0F022
/-- RFE_CTRL (R36). -/
abbrev RFE_CTRL (b : Band) : Nat := rfeBase b + 0x0
/-- RFE_SPAN (R35). -/
abbrev RFE_SPAN (b : Band) : Nat := rfeBase b + 0x2
/-- RFE_STATUS (R37). -/
abbrev RFE_STATUS (b : Band) : Nat := rfeBase b + 0x4
/-- RFE_GAIN (R39). -/
abbrev RFE_GAIN (b : Band) : Nat := rfeBase b + 0x6
/-- RFE_AGC_TOP (R39). -/
abbrev RFE_AGC_TOP (b : Band) : Nat := rfeBase b + 0x8
/-- RFE_LEVEL (R39). -/
abbrev RFE_LEVEL (b : Band) : Nat := rfeBase b + 0xA
/-- RFE_STEP_CNT (R42). -/
abbrev RFE_STEP_CNT (b : Band) : Nat := rfeBase b + 0xC
/-- RFE_FLOOR_CNT (R43). -/
abbrev RFE_FLOOR_CNT (b : Band) : Nat := rfeBase b + 0xE
/-- RFE_CAL_CMD (R45). -/
abbrev RFE_CAL_CMD (b : Band) : Nat := rfeBase b + 0x10
/-- RFE_CAL_STATUS (R46). -/
abbrev RFE_CAL_STATUS (b : Band) : Nat := rfeBase b + 0x12
/-- RFE_IQ_GAIN (R46). -/
abbrev RFE_IQ_GAIN (b : Band) : Nat := rfeBase b + 0x14
/-- RFE_IQ_PHASE (R46). -/
abbrev RFE_IQ_PHASE (b : Band) : Nat := rfeBase b + 0x16
/-- RFE_TXIQ_GAIN (R46). -/
abbrev RFE_TXIQ_GAIN (b : Band) : Nat := rfeBase b + 0x18
/-- RFE_TXIQ_PHASE (R46). -/
abbrev RFE_TXIQ_PHASE (b : Band) : Nat := rfeBase b + 0x1A
/-- RFE_RC_CODE (R46). -/
abbrev RFE_RC_CODE (b : Band) : Nat := rfeBase b + 0x1C
/-- RFE_DC_SEL (R45). -/
abbrev RFE_DC_SEL (b : Band) : Nat := rfeBase b + 0x1E
/-- RFE_DC_I (R45). -/
abbrev RFE_DC_I (b : Band) : Nat := rfeBase b + 0x20
/-- RFE_DC_Q (R45). -/
abbrev RFE_DC_Q (b : Band) : Nat := rfeBase b + 0x22
/-- RFE_XO_TRIM (R47). -/
abbrev RFE_XO_TRIM (b : Band) : Nat := rfeBase b + 0x24
/-- RFE_TX_NMAX (R53). -/
abbrev RFE_TX_NMAX (b : Band) : Nat := rfeBase b + 0x30
/-- RFE_TX_TOTAL (R53). -/
abbrev RFE_TX_TOTAL (b : Band) : Nat := rfeBase b + 0x32
/-- RFE_TX_CARRIER (R49). -/
abbrev RFE_TX_CARRIER (b : Band) : Nat := rfeBase b + 0x34
/-- RFE_RAMP (R52). -/
abbrev RFE_RAMP (b : Band) (i : Nat) : Nat := rfeBase b + 0x40 + 2 * i
/-- FEM_S_LVL (R61). -/
abbrev FEM_S_LVL (i : Nat) : Nat := 0xE12000 + 8 * i
/-- FEM_S_TXOFF (R61). -/
abbrev FEM_S_TXOFF (i : Nat) : Nat := 0xE12002 + 8 * i
/-- FEM_S_RXOFF (R61). -/
abbrev FEM_S_RXOFF (i : Nat) : Nat := 0xE12004 + 8 * i
/-- FEM_I_LVL (R61). -/
abbrev FEM_I_LVL (i : Nat) : Nat := 0xE12100 + 8 * i
/-- FEM_I_TXOFF (R61). -/
abbrev FEM_I_TXOFF (i : Nat) : Nat := 0xE12102 + 8 * i
/-- FEM_I_RXOFF (R61). -/
abbrev FEM_I_RXOFF (i : Nat) : Nat := 0xE12104 + 8 * i
/-- LANE_CTRL (R80). -/
abbrev LANE_CTRL (n : Nat) : Nat := 0xE14000 + 0x40 * n + 0x0
/-- LANE_CUR0 (R66). -/
abbrev LANE_CUR0 (n : Nat) : Nat := 0xE14000 + 0x40 * n + 0x2
/-- LANE_CUR1 (R66). -/
abbrev LANE_CUR1 (n : Nat) : Nat := 0xE14000 + 0x40 * n + 0x4
/-- LANE_SYNC (R75). -/
abbrev LANE_SYNC (n : Nat) : Nat := 0xE14000 + 0x40 * n + 0x6
/-- LANE_SFD_TO (R75). -/
abbrev LANE_SFD_TO (n : Nat) : Nat := 0xE14000 + 0x40 * n + 0x8
/-- LANE_DGAIN (R74). -/
abbrev LANE_DGAIN (n : Nat) : Nat := 0xE14000 + 0x40 * n + 0xA
/-- LANE_DFE (R79). -/
abbrev LANE_DFE (n : Nat) : Nat := 0xE14000 + 0x40 * n + 0xC
/-- LANE_PHYOPT (R69). -/
abbrev LANE_PHYOPT (n : Nat) : Nat := 0xE14000 + 0x40 * n + 0xE
/-- LANE_PHYS (R62). -/
abbrev LANE_PHYS (n : Nat) : Nat := 0xE14000 + 0x40 * n + 0x10
/-- LANE_KNOCK (R84). -/
abbrev LANE_KNOCK (n : Nat) : Nat := 0xE14000 + 0x40 * n + 0x12
/-- LANE_ST0 (R75). -/
abbrev LANE_ST0 (n : Nat) : Nat := 0xE14000 + 0x40 * n + 0x14
/-- LANE_ST1 (R78). -/
abbrev LANE_ST1 (n : Nat) : Nat := 0xE14000 + 0x40 * n + 0x16
/-- LANE_ST2 (R78). -/
abbrev LANE_ST2 (n : Nat) : Nat := 0xE14000 + 0x40 * n + 0x18
/-- LANE_ST3 (R78). -/
abbrev LANE_ST3 (n : Nat) : Nat := 0xE14000 + 0x40 * n + 0x1A
/-- LANE_ST4 (R78). -/
abbrev LANE_ST4 (n : Nat) : Nat := 0xE14000 + 0x40 * n + 0x1C
/-- LANE_ST5 (R78). -/
abbrev LANE_ST5 (n : Nat) : Nat := 0xE14000 + 0x40 * n + 0x1E
/-- LANE_TS_SFD_LO (R78). -/
abbrev LANE_TS_SFD_LO (n : Nat) : Nat := 0xE14000 + 0x40 * n + 0x20
/-- LANE_TS_SFD_HI (R78). -/
abbrev LANE_TS_SFD_HI (n : Nat) : Nat := 0xE14000 + 0x40 * n + 0x22
/-- LANE_TS_EOF_LO (R78). -/
abbrev LANE_TS_EOF_LO (n : Nat) : Nat := 0xE14000 + 0x40 * n + 0x24
/-- LANE_TS_EOF_HI (R78). -/
abbrev LANE_TS_EOF_HI (n : Nat) : Nat := 0xE14000 + 0x40 * n + 0x26
/-- LANE_CNT_OK (R78). -/
abbrev LANE_CNT_OK (n : Nat) : Nat := 0xE14000 + 0x40 * n + 0x28
/-- LANE_CNT_FCS (R78). -/
abbrev LANE_CNT_FCS (n : Nat) : Nat := 0xE14000 + 0x40 * n + 0x2A
/-- LANE_CNT_HDR (R75). -/
abbrev LANE_CNT_HDR (n : Nat) : Nat := 0xE14000 + 0x40 * n + 0x2C
/-- LANE_CNT_SYNC (R75). -/
abbrev LANE_CNT_SYNC (n : Nat) : Nat := 0xE14000 + 0x40 * n + 0x2E
/-- LANE_CNT_DEFER (R66). -/
abbrev LANE_CNT_DEFER (n : Nat) : Nat := 0xE14000 + 0x40 * n + 0x30
/-- LANE_EVT (R85). -/
abbrev LANE_EVT (n : Nat) : Nat := 0xE14000 + 0x40 * n + 0x32
/-- REC_SRC (R89). -/
abbrev REC_SRC : Nat := 0xE18000
/-- REC_TRIG (R89). -/
abbrev REC_TRIG : Nat := 0xE18002
/-- REC_PRE (R89). -/
abbrev REC_PRE : Nat := 0xE18004
/-- REC_POST (R89). -/
abbrev REC_POST : Nat := 0xE18006
/-- REC_CMD (R86). -/
abbrev REC_CMD : Nat := 0xE18008
/-- REC_STATUS (R86). -/
abbrev REC_STATUS : Nat := 0xE1800A
/-- REC_MISSED (R86). -/
abbrev REC_MISSED : Nat := 0xE1800C
/-- REC_PRE_COUNT (R87). -/
abbrev REC_PRE_COUNT : Nat := 0xE1800E
/-- REC_FIRST (R87). -/
abbrev REC_FIRST : Nat := 0xE18010
/-- REC_TRIG_TS_LO (R86). -/
abbrev REC_TRIG_TS_LO : Nat := 0xE18012
/-- REC_TRIG_TS_HI (R86). -/
abbrev REC_TRIG_TS_HI : Nat := 0xE18014
/-- REC_POST_COUNT (R86). -/
abbrev REC_POST_COUNT : Nat := 0xE18016
/-- REC_EXT_BASE_LO (R88). -/
abbrev REC_EXT_BASE_LO : Nat := 0xE18018
/-- REC_EXT_BASE_HI (R88). -/
abbrev REC_EXT_BASE_HI : Nat := 0xE1801A
/-- REC_EXT_LEN (R88). -/
abbrev REC_EXT_LEN : Nat := 0xE1801C
/-- REC_LOST (R88). -/
abbrev REC_LOST : Nat := 0xE1801E
/-- COURSE_CTRL (R92). -/
abbrev COURSE_CTRL : Nat := 0xE20000
/-- COURSE_CFG (R95). -/
abbrev COURSE_CFG : Nat := 0xE20002
/-- COURSE_WALL (R94). -/
abbrev COURSE_WALL : Nat := 0xE20004
/-- COURSE_STATUS (R92). -/
abbrev COURSE_STATUS : Nat := 0xE20006
/-- COURSE_PLAN_CMD (R101). -/
abbrev COURSE_PLAN_CMD : Nat := 0xE20008
/-- COURSE_PLAN_ERR (R101). -/
abbrev COURSE_PLAN_ERR : Nat := 0xE2000A
/-- COURSE_LATE (R96). -/
abbrev COURSE_LATE : Nat := 0xE2000C
/-- COURSE_ADJ (R94). -/
abbrev COURSE_ADJ : Nat := 0xE2000E
/-- COURSE_ASN_0 (R94). -/
abbrev COURSE_ASN_0 : Nat := 0xE20010
/-- COURSE_ASN_1 (R94). -/
abbrev COURSE_ASN_1 : Nat := 0xE20012
/-- COURSE_ASN_2 (R94). -/
abbrev COURSE_ASN_2 : Nat := 0xE20014
/-- COURSE_SLOT (R94). -/
abbrev COURSE_SLOT : Nat := 0xE20016
/-- COURSE_HFT_0 (R90). -/
abbrev COURSE_HFT_0 : Nat := 0xE20018
/-- COURSE_HFT_1 (R90). -/
abbrev COURSE_HFT_1 : Nat := 0xE2001A
/-- COURSE_HFT_2 (R90). -/
abbrev COURSE_HFT_2 : Nat := 0xE2001C
/-- COURSE_START_LO (R92). -/
abbrev COURSE_START_LO : Nat := 0xE20020
/-- COURSE_START_HI (R92). -/
abbrev COURSE_START_HI : Nat := 0xE20022
/-- COURSE_T_CCAOFS (R98). -/
abbrev COURSE_T_CCAOFS : Nat := 0xE20030
/-- COURSE_T_CCA (R98). -/
abbrev COURSE_T_CCA : Nat := 0xE20032
/-- COURSE_T_TXOFS (R98). -/
abbrev COURSE_T_TXOFS : Nat := 0xE20034
/-- COURSE_T_IDLE (R99). -/
abbrev COURSE_T_IDLE : Nat := 0xE20036
/-- COURSE_T_GUARD (R99). -/
abbrev COURSE_T_GUARD : Nat := 0xE20038
/-- COURSE_IW_REMAIN (R99). -/
abbrev COURSE_IW_REMAIN : Nat := 0xE2003A
/-- COURSE_CCA_THR (R107). -/
abbrev COURSE_CCA_THR : Nat := 0xE20040
/-- COURSE_TXRES_0 (R105). -/
abbrev COURSE_TXRES_0 : Nat := 0xE20044
/-- COURSE_TXRES_1 (R105). -/
abbrev COURSE_TXRES_1 : Nat := 0xE20046
/-- COURSE_TXEND_0 (R106). -/
abbrev COURSE_TXEND_0 : Nat := 0xE20048
/-- COURSE_TXEND_1 (R106). -/
abbrev COURSE_TXEND_1 : Nat := 0xE2004A
/-- COURSE_TXEND_N (R106). -/
abbrev COURSE_TXEND_N : Nat := 0xE2004C
/-- COURSE_DC_CTRL (R108). -/
abbrev COURSE_DC_CTRL (i : Nat) : Nat := 0xE20080 + 16 * i
/-- COURSE_DC_LO (R108). -/
abbrev COURSE_DC_LO (i : Nat) : Nat := 0xE20082 + 16 * i
/-- COURSE_DC_HI (R108). -/
abbrev COURSE_DC_HI (i : Nat) : Nat := 0xE20084 + 16 * i
/-- COURSE_DC_LIM (R108). -/
abbrev COURSE_DC_LIM (i : Nat) : Nat := 0xE20086 + 16 * i
/-- COURSE_DC_USED (R108). -/
abbrev COURSE_DC_USED (i : Nat) : Nat := 0xE20088 + 16 * i
/-- COURSE_DC_DENY (R108). -/
abbrev COURSE_DC_DENY (i : Nat) : Nat := 0xE2008A + 16 * i
/-- COURSE_SHADOW (R100). -/
abbrev COURSE_SHADOW (i : Nat) : Nat := 0xE20400 + 2 * i
/-- COURSE_ACTIVE (R100). -/
abbrev COURSE_ACTIVE (i : Nat) : Nat := 0xE20800 + 2 * i
/-- HOD_CTRL (R122). -/
abbrev HOD_CTRL : Nat := 0xE21000
/-- HOD_RING_BASE_LO (R122). -/
abbrev HOD_RING_BASE_LO : Nat := 0xE21002
/-- HOD_RING_BASE_HI (R122). -/
abbrev HOD_RING_BASE_HI : Nat := 0xE21004
/-- HOD_POOL_BASE_LO (R122). -/
abbrev HOD_POOL_BASE_LO : Nat := 0xE21006
/-- HOD_POOL_BASE_HI (R122). -/
abbrev HOD_POOL_BASE_HI : Nat := 0xE21008
/-- HOD_WR (R117). -/
abbrev HOD_WR : Nat := 0xE2100A
/-- HOD_RD (R117). -/
abbrev HOD_RD : Nat := 0xE2100C
/-- HOD_STATUS (R122). -/
abbrev HOD_STATUS : Nat := 0xE2100E
/-- HOD_NOTIFY (R117). -/
abbrev HOD_NOTIFY : Nat := 0xE21010
/-- HOD_GRANTS (R115). -/
abbrev HOD_GRANTS : Nat := 0xE21012
/-- HOD_TXPHY (R120). -/
abbrev HOD_TXPHY : Nat := 0xE21014
/-- HOD_ACK_CFG (R119). -/
abbrev HOD_ACK_CFG : Nat := 0xE21016
/-- HOD_CNT_ACKED (R114). -/
abbrev HOD_CNT_ACKED : Nat := 0xE21020
/-- HOD_CNT_CAPPED (R114). -/
abbrev HOD_CNT_CAPPED : Nat := 0xE21022
/-- HOD_CNT_TXFULL (R114). -/
abbrev HOD_CNT_TXFULL : Nat := 0xE21024
/-- HOD_CNT_FCSDROP (R114). -/
abbrev HOD_CNT_FCSDROP : Nat := 0xE21026
/-- HOD_CNT_RINGDROP (R114). -/
abbrev HOD_CNT_RINGDROP : Nat := 0xE21028
/-- HOD_CNT_NOBUF (R114). -/
abbrev HOD_CNT_NOBUF : Nat := 0xE2102A
/-- MACF_CTRL (R109). -/
abbrev MACF_CTRL : Nat := 0xE22000
/-- MACF_PANID (R110). -/
abbrev MACF_PANID : Nat := 0xE22002
/-- MACF_SHORT (R110). -/
abbrev MACF_SHORT : Nat := 0xE22004
/-- MACF_GROUP (R110). -/
abbrev MACF_GROUP : Nat := 0xE22006
/-- MACF_CNT_PASS (R109). -/
abbrev MACF_CNT_PASS : Nat := 0xE22010
/-- MACF_CNT_ADDR (R109). -/
abbrev MACF_CNT_ADDR : Nat := 0xE22012
/-- MACF_CNT_TYPE (R109). -/
abbrev MACF_CNT_TYPE : Nat := 0xE22014
/-- MACF_CNT_VER (R109). -/
abbrev MACF_CNT_VER : Nat := 0xE22016
/-- MACF_CNT_FMT (R109). -/
abbrev MACF_CNT_FMT : Nat := 0xE22018
/-- ASHLAR_CTRL (R149). -/
abbrev ASHLAR_CTRL : Nat := 0xE30000
/-- ASHLAR_STATUS (R149). -/
abbrev ASHLAR_STATUS : Nat := 0xE30002
/-- ASHLAR_CMD (R149). -/
abbrev ASHLAR_CMD : Nat := 0xE30004
/-- ASHLAR_EVT (R128). -/
abbrev ASHLAR_EVT : Nat := 0xE30006
/-- ASHLAR_STASH (R128). -/
abbrev ASHLAR_STASH : Nat := 0xE30008
/-- ASHLAR_ENTRIES_LO (R124). -/
abbrev ASHLAR_ENTRIES_LO : Nat := 0xE3000A
/-- ASHLAR_ENTRIES_HI (R124). -/
abbrev ASHLAR_ENTRIES_HI : Nat := 0xE3000C
/-- ASHLAR_DIRTYQ (R146). -/
abbrev ASHLAR_DIRTYQ : Nat := 0xE3000E
/-- ASHLAR_E_EUI (R152). -/
abbrev ASHLAR_E_EUI (i : Nat) : Nat := 0xE30010 + 2 * i
/-- ASHLAR_E_W (R152). -/
abbrev ASHLAR_E_W (i : Nat) : Nat := 0xE30018 + 2 * i
/-- ASHLAR_E_CMD (R152). -/
abbrev ASHLAR_E_CMD : Nat := 0xE30020
/-- ASHLAR_E_RES (R152). -/
abbrev ASHLAR_E_RES : Nat := 0xE30022
/-- ASHLAR_CNT (R140). -/
abbrev ASHLAR_CNT (i : Nat) : Nat := 0xE30030 + 2 * i
/-- ASHLAR_TSEL (R130). -/
abbrev ASHLAR_TSEL : Nat := 0xE30080
/-- ASHLAR_TCFG (R130). -/
abbrev ASHLAR_TCFG : Nat := 0xE30082
/-- ASHLAR_TEPOCH (R131). -/
abbrev ASHLAR_TEPOCH : Nat := 0xE30084
/-- ASHLAR_TQUOTA (R133). -/
abbrev ASHLAR_TQUOTA : Nat := 0xE30086
/-- ASHLAR_TRATE (R133). -/
abbrev ASHLAR_TRATE : Nat := 0xE30088
/-- ASHLAR_TCNT_ENTRIES (R124). -/
abbrev ASHLAR_TCNT_ENTRIES : Nat := 0xE30090
/-- ASHLAR_TCNT (R134). -/
abbrev ASHLAR_TCNT (i : Nat) : Nat := 0xE30092 + 2 * i
/-- CRYPTO_CTRL (R160). -/
abbrev CRYPTO_CTRL : Nat := 0xE40000
/-- CRYPTO_STATUS (R156). -/
abbrev CRYPTO_STATUS : Nat := 0xE40002
/-- CRYPTO_Q_BASE_LO (R160). -/
abbrev CRYPTO_Q_BASE_LO : Nat := 0xE40004
/-- CRYPTO_Q_BASE_HI (R160). -/
abbrev CRYPTO_Q_BASE_HI : Nat := 0xE40006
/-- CRYPTO_Q_WR (R160). -/
abbrev CRYPTO_Q_WR : Nat := 0xE40008
/-- CRYPTO_Q_RD (R160). -/
abbrev CRYPTO_Q_RD : Nat := 0xE4000A
/-- CRYPTO_EVT (R159). -/
abbrev CRYPTO_EVT : Nat := 0xE4000C
/-- CRYPTO_CNT_JOBS (R159). -/
abbrev CRYPTO_CNT_JOBS : Nat := 0xE4000E
/-- KEYS_CMD (R173). -/
abbrev KEYS_CMD : Nat := 0xE41000
/-- KEYS_ARG (R173). -/
abbrev KEYS_ARG (i : Nat) : Nat := 0xE41002 + 2 * i
/-- KEYS_STATUS (R174). -/
abbrev KEYS_STATUS : Nat := 0xE4100A
/-- KEYS_SEL (R171). -/
abbrev KEYS_SEL : Nat := 0xE4100C
/-- KEYS_ATTR0 (R171). -/
abbrev KEYS_ATTR0 : Nat := 0xE4100E
/-- KEYS_ATTR1 (R171). -/
abbrev KEYS_ATTR1 : Nat := 0xE41010
/-- KEYS_USES_LO (R161). -/
abbrev KEYS_USES_LO : Nat := 0xE41012
/-- KEYS_USES_HI (R161). -/
abbrev KEYS_USES_HI : Nat := 0xE41014
/-- KEYS_NCTR_LO (R161). -/
abbrev KEYS_NCTR_LO : Nat := 0xE41016
/-- KEYS_NCTR_HI (R161). -/
abbrev KEYS_NCTR_HI : Nat := 0xE41018
/-- KEYS_LC_NONCE (R173). -/
abbrev KEYS_LC_NONCE (i : Nat) : Nat := 0xE41020 + 2 * i
/-- KEYS_IDPUB (R170). -/
abbrev KEYS_IDPUB (i : Nat) : Nat := 0xE41100 + 2 * i
/-- KEYS_LCCERT (R178). -/
abbrev KEYS_LCCERT (i : Nat) : Nat := 0xE41140 + 2 * i
/-- PKE_CMD (R163). -/
abbrev PKE_CMD : Nat := 0xE42000
/-- PKE_ARG_LO (R163). -/
abbrev PKE_ARG_LO : Nat := 0xE42002
/-- PKE_ARG_HI (R163). -/
abbrev PKE_ARG_HI : Nat := 0xE42004
/-- PKE_LEN (R163). -/
abbrev PKE_LEN : Nat := 0xE42006
/-- PKE_STATUS (R165). -/
abbrev PKE_STATUS : Nat := 0xE42008
/-- PKE_QX (R165). -/
abbrev PKE_QX (i : Nat) : Nat := 0xE42100 + 2 * i
/-- PKE_QY (R165). -/
abbrev PKE_QY (i : Nat) : Nat := 0xE42120 + 2 * i
/-- PKE_HASH (R165). -/
abbrev PKE_HASH (i : Nat) : Nat := 0xE42140 + 2 * i
/-- PKE_R (R165). -/
abbrev PKE_R (i : Nat) : Nat := 0xE42160 + 2 * i
/-- PKE_S (R165). -/
abbrev PKE_S (i : Nat) : Nat := 0xE42180 + 2 * i
/-- TRNG_CTRL (R166). -/
abbrev TRNG_CTRL : Nat := 0xE43000
/-- TRNG_STATUS (R167). -/
abbrev TRNG_STATUS : Nat := 0xE43002
/-- TRNG_OUT (R166). -/
abbrev TRNG_OUT : Nat := 0xE43004
/-- TRNG_CNT_RCT (R167). -/
abbrev TRNG_CNT_RCT : Nat := 0xE43006
/-- TRNG_CNT_APT (R167). -/
abbrev TRNG_CNT_APT : Nat := 0xE43008
/-- LF_CTRL (R184). -/
abbrev LF_CTRL : Nat := 0xE50000
/-- LF_STATUS (R184). -/
abbrev LF_STATUS : Nat := 0xE50002
/-- LF_CMD (R185). -/
abbrev LF_CMD : Nat := 0xE50004
/-- LF_ISET (R184). -/
abbrev LF_ISET (i : Nat) : Nat := 0xE50010 + 8 * i
/-- LF_TUNE (R185). -/
abbrev LF_TUNE (i : Nat) : Nat := 0xE50012 + 8 * i
/-- LF_IPK (R184). -/
abbrev LF_IPK (i : Nat) : Nat := 0xE50014 + 8 * i
/-- PLUMB_LIMIT (R194). -/
abbrev PLUMB_LIMIT : Nat := 0xE51000
/-- PLUMB_CAL_BOARD (R194). -/
abbrev PLUMB_CAL_BOARD : Nat := 0xE51002
/-- PLUMB_FEM (R193). -/
abbrev PLUMB_FEM : Nat := 0xE51004
/-- PLUMB_TXLVL (R193). -/
abbrev PLUMB_TXLVL : Nat := 0xE51006
/-- PLUMB_RES (R194). -/
abbrev PLUMB_RES : Nat := 0xE51008
/-- PLUMB_CAL_INT (R194). -/
abbrev PLUMB_CAL_INT : Nat := 0xE5100A
/-- PLUMB_DMAX (R194). -/
abbrev PLUMB_DMAX : Nat := 0xE5100C
/-- PLUMB_DMIN (R194). -/
abbrev PLUMB_DMIN : Nat := 0xE5100E
/-- PLUMB_CNT_SESS (R192). -/
abbrev PLUMB_CNT_SESS : Nat := 0xE51010
/-- ACCESS_CTRL (R182). -/
abbrev ACCESS_CTRL : Nat := 0xE52000
/-- ACCESS_STATUS (R182). -/
abbrev ACCESS_STATUS : Nat := 0xE52002
/-- ACCESS_REL (R199). -/
abbrev ACCESS_REL : Nat := 0xE52004
/-- ACCESS_LO_CFG (R196). -/
abbrev ACCESS_LO_CFG : Nat := 0xE52006
/-- ACCESS_PCH (R193). -/
abbrev ACCESS_PCH : Nat := 0xE52008
/-- ACCESS_ZONE (R195). -/
abbrev ACCESS_ZONE (i : Nat) : Nat := 0xE5200A + 2 * i
/-- ACCESS_TBL_CMD (R200). -/
abbrev ACCESS_TBL_CMD : Nat := 0xE52012
/-- ACCESS_TOK_BASE_LO (R200). -/
abbrev ACCESS_TOK_BASE_LO : Nat := 0xE52014
/-- ACCESS_TOK_BASE_HI (R200). -/
abbrev ACCESS_TOK_BASE_HI : Nat := 0xE52016
/-- ACCESS_TOK_N (R200). -/
abbrev ACCESS_TOK_N : Nat := 0xE52018
/-- ACCESS_REV_BASE_LO (R200). -/
abbrev ACCESS_REV_BASE_LO : Nat := 0xE5201A
/-- ACCESS_REV_BASE_HI (R200). -/
abbrev ACCESS_REV_BASE_HI : Nat := 0xE5201C
/-- ACCESS_REV_N (R200). -/
abbrev ACCESS_REV_N : Nat := 0xE5201E
/-- ACCESS_EVT (R182). -/
abbrev ACCESS_EVT : Nat := 0xE52020
/-- ACCESS_LAST_VERDICT (R198). -/
abbrev ACCESS_LAST_VERDICT : Nat := 0xE52030
/-- ACCESS_LAST_TOK (R198). -/
abbrev ACCESS_LAST_TOK (i : Nat) : Nat := 0xE52032 + 2 * i
/-- ACCESS_LAST_STR_0 (R198). -/
abbrev ACCESS_LAST_STR_0 : Nat := 0xE5203A
/-- ACCESS_LAST_STR_1 (R198). -/
abbrev ACCESS_LAST_STR_1 : Nat := 0xE5203C
/-- ACCESS_CNT_KNOCK (R183). -/
abbrev ACCESS_CNT_KNOCK : Nat := 0xE52040
/-- ACCESS_CNT_BUSY (R183). -/
abbrev ACCESS_CNT_BUSY : Nat := 0xE52042
/-- ACCESS_CNT_REFUSED (R182). -/
abbrev ACCESS_CNT_REFUSED : Nat := 0xE52044
/-- ACCESS_CNT_FAIL (R196). -/
abbrev ACCESS_CNT_FAIL : Nat := 0xE52046
/-- ACCESS_CNT_RELEASE (R199). -/
abbrev ACCESS_CNT_RELEASE : Nat := 0xE52048
/-- ACCESS_CNT_STRAY (R183). -/
abbrev ACCESS_CNT_STRAY : Nat := 0xE5204A
/-- ACCESS_VER (R191). -/
abbrev ACCESS_VER : Nat := 0xE5204E
/-- PLINTH_STATUS (R308). -/
abbrev PLINTH_STATUS : Nat := 0xF00000
/-- PLINTH_EVT (R317). -/
abbrev PLINTH_EVT : Nat := 0xF00002
/-- RTC_0 (R304). -/
abbrev RTC_0 : Nat := 0xF00004
/-- RTC_1 (R304). -/
abbrev RTC_1 : Nat := 0xF00006
/-- RTC_2 (R304). -/
abbrev RTC_2 : Nat := 0xF00008
/-- RTC_SET_0 (R306). -/
abbrev RTC_SET_0 : Nat := 0xF0000A
/-- RTC_SET_1 (R306). -/
abbrev RTC_SET_1 : Nat := 0xF0000C
/-- RTC_SET_2 (R306). -/
abbrev RTC_SET_2 : Nat := 0xF0000E
/-- RTC_CMD (R307). -/
abbrev RTC_CMD : Nat := 0xF00010
/-- RTC_TRIM (R304). -/
abbrev RTC_TRIM : Nat := 0xF00012
/-- RTC_ALM_0 (R309). -/
abbrev RTC_ALM_0 : Nat := 0xF00014
/-- RTC_ALM_1 (R309). -/
abbrev RTC_ALM_1 : Nat := 0xF00016
/-- RTC_ALM_2 (R309). -/
abbrev RTC_ALM_2 : Nat := 0xF00018
/-- PLINTH_CTRL (R310). -/
abbrev PLINTH_CTRL : Nat := 0xF0001A
/-- TRIM_MEAS_LO (R310). -/
abbrev TRIM_MEAS_LO : Nat := 0xF0001C
/-- TRIM_MEAS_HI (R310). -/
abbrev TRIM_MEAS_HI : Nat := 0xF0001E
/-- PLINTH_MAINS (R313). -/
abbrev PLINTH_MAINS : Nat := 0xF00020
/-- PLINTH_TAMP (R314). -/
abbrev PLINTH_TAMP : Nat := 0xF00022
/-- TAMP_0_TS (R314). -/
abbrev TAMP_0_TS (i : Nat) : Nat := 0xF00024 + 2 * i
/-- TAMP_1_TS (R314). -/
abbrev TAMP_1_TS (i : Nat) : Nat := 0xF0002A + 2 * i
/-- TAMP_CNT (R314). -/
abbrev TAMP_CNT : Nat := 0xF00030
/-- PLINTH_TRICKLE (R316). -/
abbrev PLINTH_TRICKLE : Nat := 0xF00032
/-- PLINTH_LO_STATE (R197). -/
abbrev PLINTH_LO_STATE : Nat := 0xF00200
/-- PLINTH_LO_END_LO (R197). -/
abbrev PLINTH_LO_END_LO : Nat := 0xF00202
/-- PLINTH_LO_END_HI (R197). -/
abbrev PLINTH_LO_END_HI : Nat := 0xF00204
/-- PLINTH_LO_START_LO (R197). -/
abbrev PLINTH_LO_START_LO : Nat := 0xF00206
/-- PLINTH_LO_START_HI (R197). -/
abbrev PLINTH_LO_START_HI : Nat := 0xF00208
/-- PLINTH_LOCK_SEC_LO (R196). -/
abbrev PLINTH_LOCK_SEC_LO : Nat := 0xF0020A
/-- PLINTH_LOCK_SEC_HI (R196). -/
abbrev PLINTH_LOCK_SEC_HI : Nat := 0xF0020C
/-- TMR_CTRL (R318). -/
abbrev TMR_CTRL (i : Nat) : Nat := 0xE02000 + 32 * i
/-- TMR_CNT_LO (R319). -/
abbrev TMR_CNT_LO (i : Nat) : Nat := 0xE02002 + 32 * i
/-- TMR_CNT_HI (R319). -/
abbrev TMR_CNT_HI (i : Nat) : Nat := 0xE02004 + 32 * i
/-- TMR_CMP_LO (R320). -/
abbrev TMR_CMP_LO (i : Nat) : Nat := 0xE02006 + 32 * i
/-- TMR_CMP_HI (R320). -/
abbrev TMR_CMP_HI (i : Nat) : Nat := 0xE02008 + 32 * i
/-- TMR_ADD_LO (R320). -/
abbrev TMR_ADD_LO (i : Nat) : Nat := 0xE0200A + 32 * i
/-- TMR_ADD_HI (R320). -/
abbrev TMR_ADD_HI (i : Nat) : Nat := 0xE0200C + 32 * i
/-- TMR_CAP_LO (R323). -/
abbrev TMR_CAP_LO (i : Nat) : Nat := 0xE0200E + 32 * i
/-- TMR_CAP_HI (R323). -/
abbrev TMR_CAP_HI (i : Nat) : Nat := 0xE02010 + 32 * i
/-- TMR_STATUS (R320). -/
abbrev TMR_STATUS (i : Nat) : Nat := 0xE02012 + 32 * i
/-- TMR_FIRES (R320). -/
abbrev TMR_FIRES (i : Nat) : Nat := 0xE02014 + 32 * i
/-- TMR_WORLD (R318). -/
abbrev TMR_WORLD : Nat := 0xE02100
/-- SYSCTL_RST_CAUSE (R295). -/
abbrev SYSCTL_RST_CAUSE : Nat := 0xE00000
/-- SYSCTL_RST (R295). -/
abbrev SYSCTL_RST : Nat := 0xE00002
/-- SYSCTL_CLK (R291). -/
abbrev SYSCTL_CLK : Nat := 0xE00004
/-- SYSCTL_CLK_STATUS (R291). -/
abbrev SYSCTL_CLK_STATUS : Nat := 0xE00006
/-- SYSCTL_CORE_CTRL (R299). -/
abbrev SYSCTL_CORE_CTRL : Nat := 0xE00008
/-- SYSCTL_CORE_START_LO (R299). -/
abbrev SYSCTL_CORE_START_LO (i : Nat) : Nat := 0xE00010 + 4 * i
/-- SYSCTL_CORE_START_HI (R299). -/
abbrev SYSCTL_CORE_START_HI (i : Nat) : Nat := 0xE00012 + 4 * i
/-- SYSCTL_ADMIT (R261). -/
abbrev SYSCTL_ADMIT : Nat := 0xE00040
/-- SYSCTL_ADMIT_CAP (R261). -/
abbrev SYSCTL_ADMIT_CAP : Nat := 0xE00042
/-- SYSCTL_TEMP (R301). -/
abbrev SYSCTL_TEMP : Nat := 0xE00048
/-- DMA_CTRL (R300). -/
abbrev DMA_CTRL (i : Nat) : Nat := 0xE00080 + 16 * i
/-- DMA_SRC_LO (R300). -/
abbrev DMA_SRC_LO (i : Nat) : Nat := 0xE00082 + 16 * i
/-- DMA_SRC_HI (R300). -/
abbrev DMA_SRC_HI (i : Nat) : Nat := 0xE00084 + 16 * i
/-- DMA_DST_LO (R300). -/
abbrev DMA_DST_LO (i : Nat) : Nat := 0xE00086 + 16 * i
/-- DMA_DST_HI (R300). -/
abbrev DMA_DST_HI (i : Nat) : Nat := 0xE00088 + 16 * i
/-- DMA_LEN (R300). -/
abbrev DMA_LEN (i : Nat) : Nat := 0xE0008A + 16 * i
/-- DMA_RATE (R300). -/
abbrev DMA_RATE (i : Nat) : Nat := 0xE0008C + 16 * i
/-- SYSCTL_FENCE_BASE_LO (R299). -/
abbrev SYSCTL_FENCE_BASE_LO (i : Nat) : Nat := 0xE00100 + 16 * i
/-- SYSCTL_FENCE_BASE_HI (R299). -/
abbrev SYSCTL_FENCE_BASE_HI (i : Nat) : Nat := 0xE00102 + 16 * i
/-- SYSCTL_FENCE_LIMIT_LO (R299). -/
abbrev SYSCTL_FENCE_LIMIT_LO (i : Nat) : Nat := 0xE00104 + 16 * i
/-- SYSCTL_FENCE_LIMIT_HI (R299). -/
abbrev SYSCTL_FENCE_LIMIT_HI (i : Nat) : Nat := 0xE00106 + 16 * i
/-- SYSCTL_FENCE_ATTR (R299). -/
abbrev SYSCTL_FENCE_ATTR (i : Nat) : Nat := 0xE00108 + 16 * i
/-- PMU_PL (R285). -/
abbrev PMU_PL : Nat := 0xE01000
/-- PMU_PL_REQ (R283). -/
abbrev PMU_PL_REQ : Nat := 0xE01002
/-- PMU_PL_STAT (R284). -/
abbrev PMU_PL_STAT : Nat := 0xE01004
/-- PMU_SLEEP (R286). -/
abbrev PMU_SLEEP : Nat := 0xE01006
/-- PMU_STATUS (R286). -/
abbrev PMU_STATUS : Nat := 0xE01008
/-- PMU_WAKE_EN (R288). -/
abbrev PMU_WAKE_EN : Nat := 0xE0100A
/-- PMU_WAKE_SRC (R288). -/
abbrev PMU_WAKE_SRC : Nat := 0xE0100C
/-- PMU_SLP_TIMER_LO (R288). -/
abbrev PMU_SLP_TIMER_LO : Nat := 0xE0100E
/-- PMU_SLP_TIMER_HI (R288). -/
abbrev PMU_SLP_TIMER_HI : Nat := 0xE01010
/-- PMU_ABANDONED (R287). -/
abbrev PMU_ABANDONED : Nat := 0xE01012
/-- PMU_EVT (R285). -/
abbrev PMU_EVT : Nat := 0xE01014
/-- WDT_CTRL (R252). -/
abbrev WDT_CTRL (i : Nat) : Nat := 0xE03000 + 8 * i
/-- WDT_T1 (R252). -/
abbrev WDT_T1 (i : Nat) : Nat := 0xE03002 + 8 * i
/-- WDT_T2 (R252). -/
abbrev WDT_T2 (i : Nat) : Nat := 0xE03004 + 8 * i
/-- WDT_STATUS (R252). -/
abbrev WDT_STATUS : Nat := 0xE03030
/-- MB_DATA (R250). -/
abbrev MB_DATA (i : Nat) : Nat := 0xE60000 + 16 * i
/-- MB_STATUS (R250). -/
abbrev MB_STATUS (i : Nat) : Nat := 0xE60002 + 16 * i
/-- MBOX_BELL (R251). -/
abbrev MBOX_BELL : Nat := 0xE60100
/-- NVMC_CMD (R278). -/
abbrev NVMC_CMD : Nat := 0xE80000
/-- NVMC_ARG (R278). -/
abbrev NVMC_ARG (i : Nat) : Nat := 0xE80002 + 2 * i
/-- NVMC_STATUS (R277). -/
abbrev NVMC_STATUS : Nat := 0xE8000C
/-- NVMC_EVT (R266). -/
abbrev NVMC_EVT : Nat := 0xE8000E
/-- NVMC_RES_LEN (R278). -/
abbrev NVMC_RES_LEN : Nat := 0xE80010
/-- NVMC_RES_SEQ (R278). -/
abbrev NVMC_RES_SEQ : Nat := 0xE80012
/-- NVMC_ECC_CORR (R266). -/
abbrev NVMC_ECC_CORR : Nat := 0xE80014
/-- NVMC_SPLIT_CNT (R273). -/
abbrev NVMC_SPLIT_CNT : Nat := 0xE80016
/-- NVMC_UNC_ADDR_LO (R266). -/
abbrev NVMC_UNC_ADDR_LO : Nat := 0xE80018
/-- NVMC_UNC_ADDR_HI (R266). -/
abbrev NVMC_UNC_ADDR_HI : Nat := 0xE8001A
/-- NVMC_IMG_LOCK (R278). -/
abbrev NVMC_IMG_LOCK : Nat := 0xE8001C
/-- NVMC_FREE (R275). -/
abbrev NVMC_FREE : Nat := 0xE8001E
/-- HOSTIF_CTRL (R343). -/
abbrev HOSTIF_CTRL : Nat := 0xE61000
/-- HOSTIF_STATUS (R343). -/
abbrev HOSTIF_STATUS : Nat := 0xE61002
/-- HOSTIF_IN_BASE_LO (R343). -/
abbrev HOSTIF_IN_BASE_LO : Nat := 0xE61004
/-- HOSTIF_IN_BASE_HI (R343). -/
abbrev HOSTIF_IN_BASE_HI : Nat := 0xE61006
/-- HOSTIF_IN_LEN (R330). -/
abbrev HOSTIF_IN_LEN : Nat := 0xE61008
/-- HOSTIF_OQ_BASE_LO (R343). -/
abbrev HOSTIF_OQ_BASE_LO : Nat := 0xE6100A
/-- HOSTIF_OQ_BASE_HI (R343). -/
abbrev HOSTIF_OQ_BASE_HI : Nat := 0xE6100C
/-- HOSTIF_OQ_WR (R343). -/
abbrev HOSTIF_OQ_WR : Nat := 0xE6100E
/-- HOSTIF_OQ_RD (R343). -/
abbrev HOSTIF_OQ_RD : Nat := 0xE61010
/-- HOSTIF_CNT_WRITE (R327). -/
abbrev HOSTIF_CNT_WRITE : Nat := 0xE61012
/-- HOSTIF_CNT_READ (R328). -/
abbrev HOSTIF_CNT_READ : Nat := 0xE61014
/-- HOSTIF_CNT_ERR (R326). -/
abbrev HOSTIF_CNT_ERR : Nat := 0xE61016
/-- UART0_CTRL (R332). -/
abbrev UART0_CTRL : Nat := 0xE91000
/-- UART0_BAUD (R332). -/
abbrev UART0_BAUD : Nat := 0xE91002
/-- UART0_STATUS (R332). -/
abbrev UART0_STATUS : Nat := 0xE91004
/-- UART0_DATA (R332). -/
abbrev UART0_DATA : Nat := 0xE91006
/-- ASSAY_CTRL (R370). -/
abbrev ASSAY_CTRL : Nat := 0xE70000
/-- ASSAY_CMD (R364). -/
abbrev ASSAY_CMD : Nat := 0xE70002
/-- ASSAY_STATUS (R364). -/
abbrev ASSAY_STATUS : Nat := 0xE70004
/-- ASSAY_EVT (R368). -/
abbrev ASSAY_EVT : Nat := 0xE70006
/-- ASSAY_REGION_LO (R369). -/
abbrev ASSAY_REGION_LO : Nat := 0xE70008
/-- ASSAY_REGION_HI (R369). -/
abbrev ASSAY_REGION_HI : Nat := 0xE7000A
/-- ASSAY_VMAIN (R367). -/
abbrev ASSAY_VMAIN : Nat := 0xE7000C
/-- ASSAY_RES_SLICE (R368). -/
abbrev ASSAY_RES_SLICE : Nat := 0xE70010
/-- ASSAY_RES_OUTCOME (R371). -/
abbrev ASSAY_RES_OUTCOME : Nat := 0xE70012
/-- ASSAY_RES_DETAIL_LO (R371). -/
abbrev ASSAY_RES_DETAIL_LO : Nat := 0xE70014
/-- ASSAY_RES_DETAIL_HI (R371). -/
abbrev ASSAY_RES_DETAIL_HI : Nat := 0xE70016
/-- ASSAY_LANE_FAIL (R371). -/
abbrev ASSAY_LANE_FAIL (i : Nat) : Nat := 0xE70020 + 2 * i
/-- ASSAY_CNT_RUN (R368). -/
abbrev ASSAY_CNT_RUN : Nat := 0xE70030
/-- ASSAY_CNT_FAIL (R371). -/
abbrev ASSAY_CNT_FAIL : Nat := 0xE70032
/-- GPIO_DIR (R402). -/
abbrev GPIO_DIR (i : Nat) : Nat := 0xE90000 + 32 * i
/-- GPIO_OUT (R402). -/
abbrev GPIO_OUT (i : Nat) : Nat := 0xE90002 + 32 * i
/-- GPIO_SET (R402). -/
abbrev GPIO_SET (i : Nat) : Nat := 0xE90004 + 32 * i
/-- GPIO_CLR (R402). -/
abbrev GPIO_CLR (i : Nat) : Nat := 0xE90006 + 32 * i
/-- GPIO_IN (R402). -/
abbrev GPIO_IN (i : Nat) : Nat := 0xE90008 + 32 * i
/-- GPIO_EDGE_R (R402). -/
abbrev GPIO_EDGE_R (i : Nat) : Nat := 0xE9000A + 32 * i
/-- GPIO_EDGE_F (R402). -/
abbrev GPIO_EDGE_F (i : Nat) : Nat := 0xE9000C + 32 * i
/-- GPIO_EVT (R402). -/
abbrev GPIO_EVT (i : Nat) : Nat := 0xE9000E + 32 * i
/-- GPIO_WAKE (R399). -/
abbrev GPIO_WAKE (i : Nat) : Nat := 0xE90010 + 32 * i
/-- GPIO_OD (R402). -/
abbrev GPIO_OD (i : Nat) : Nat := 0xE90012 + 32 * i
/-- GPIO_WORLD (R401). -/
abbrev GPIO_WORLD (i : Nat) : Nat := 0xE90100 + 2 * i
/-- CORE_ID (R235). -/
abbrev CORE_ID (c : Nat) : Nat := coreKey c 0xFF0000 + 0x0
/-- THR_SELF (R232). -/
abbrev THR_SELF (c : Nat) : Nat := coreKey c 0xFF0000 + 0x2
/-- THR_STATE (R232). -/
abbrev THR_STATE (c : Nat) : Nat := coreKey c 0xFF0000 + 0x4
/-- THR_START (R233). -/
abbrev THR_START (c : Nat) : Nat := coreKey c 0xFF0000 + 0x6
/-- THR_KILL (R233). -/
abbrev THR_KILL (c : Nat) : Nat := coreKey c 0xFF0000 + 0x8
/-- THR_FAULT (R245). -/
abbrev THR_FAULT (c : Nat) : Nat := coreKey c 0xFF0000 + 0xA
/-- CORE_WDT_KICK (R252). -/
abbrev CORE_WDT_KICK (c : Nat) : Nat := coreKey c 0xFF0000 + 0xC
/-- THR_PC_LO (R232). -/
abbrev THR_PC_LO (c : Nat) (i : Nat) : Nat := coreKey c 0xFF0000 + 0x10 + 8 * i
/-- THR_PC_HI (R232). -/
abbrev THR_PC_HI (c : Nat) (i : Nat) : Nat := coreKey c 0xFF0000 + 0x12 + 8 * i
/-- THR_VEC_LO (R242). -/
abbrev THR_VEC_LO (c : Nat) (i : Nat) : Nat := coreKey c 0xFF0000 + 0x14 + 8 * i
/-- THR_VEC_HI (R242). -/
abbrev THR_VEC_HI (c : Nat) (i : Nat) : Nat := coreKey c 0xFF0000 + 0x16 + 8 * i
/-- THR_FADDR_LO (R241). -/
abbrev THR_FADDR_LO (c : Nat) (i : Nat) : Nat := coreKey c 0xFF0000 + 0x40 + 4 * i
/-- THR_FADDR_HI (R241). -/
abbrev THR_FADDR_HI (c : Nat) (i : Nat) : Nat := coreKey c 0xFF0000 + 0x42 + 4 * i
/-- EVU_MASK (R237). -/
abbrev EVU_MASK (c : Nat) (i : Nat) : Nat := coreKey c 0xFF0000 + 0x80 + 2 * i
/-- EVU_PEND (R236). -/
abbrev EVU_PEND (c : Nat) (i : Nat) : Nat := coreKey c 0xFF0000 + 0xA0 + 2 * i
/-- EVU_STALL_CNT (R239). -/
abbrev EVU_STALL_CNT (c : Nat) : Nat := coreKey c 0xFF0000 + 0xA8
end A

namespace F
abbrev ID_PART_FAMILY : Fld := ⟨A.ID_PART, 15, 8⟩
abbrev ID_PART_DEVICE : Fld := ⟨A.ID_PART, 7, 0⟩
abbrev ID_STEP_LETTER : Fld := ⟨A.ID_STEP, 15, 8⟩
abbrev ID_STEP_DIGIT : Fld := ⟨A.ID_STEP, 7, 0⟩
abbrev ID_GRADE_GRADE : Fld := ⟨A.ID_GRADE, 1, 0⟩
abbrev ID_ROMVER_MAJOR : Fld := ⟨A.ID_ROMVER, 15, 8⟩
abbrev ID_ROMVER_MINOR : Fld := ⟨A.ID_ROMVER, 7, 0⟩
abbrev ID_LIFECYCLE_STATE : Fld := ⟨A.ID_LIFECYCLE, 2, 0⟩
abbrev ID_CAPS0_PHYS_LANES : Fld := ⟨A.ID_CAPS0, 15, 8⟩
abbrev ID_CAPS0_LOGICAL_LANES : Fld := ⟨A.ID_CAPS0, 7, 0⟩
abbrev ID_CAPS1_AES_CORES : Fld := ⟨A.ID_CAPS1, 15, 12⟩
abbrev ID_CAPS1_AES_ACTIVE : Fld := ⟨A.ID_CAPS1, 11, 8⟩
abbrev ID_CAPS1_SPARES_TOTAL : Fld := ⟨A.ID_CAPS1, 3, 2⟩
abbrev ID_CAPS1_SPARES_FREE : Fld := ⟨A.ID_CAPS1, 1, 0⟩
abbrev RFE_CTRL_AGC_MODE (b : Band) : Fld := ⟨A.RFE_CTRL b, 3, 2⟩
abbrev RFE_CTRL_TX_EN (b : Band) : Fld := ⟨A.RFE_CTRL b, 1, 1⟩
abbrev RFE_CTRL_EN (b : Band) : Fld := ⟨A.RFE_CTRL b, 0, 0⟩
abbrev RFE_SPAN_LO_SIDE (b : Band) : Fld := ⟨A.RFE_SPAN b, 15, 15⟩
abbrev RFE_SPAN_SPAN_LO (b : Band) : Fld := ⟨A.RFE_SPAN b, 13, 0⟩
abbrev RFE_STATUS_LOCK_LOST (b : Band) : Fld := ⟨A.RFE_STATUS b, 6, 6⟩
abbrev RFE_STATUS_TX_ABORT (b : Band) : Fld := ⟨A.RFE_STATUS b, 5, 5⟩
abbrev RFE_STATUS_LOCK_FAIL (b : Band) : Fld := ⟨A.RFE_STATUS b, 4, 4⟩
abbrev RFE_STATUS_CAL_BUSY (b : Band) : Fld := ⟨A.RFE_STATUS b, 3, 3⟩
abbrev RFE_STATUS_TX_ACTIVE (b : Band) : Fld := ⟨A.RFE_STATUS b, 2, 2⟩
abbrev RFE_STATUS_MUTE (b : Band) : Fld := ⟨A.RFE_STATUS b, 1, 1⟩
abbrev RFE_STATUS_READY (b : Band) : Fld := ⟨A.RFE_STATUS b, 0, 0⟩
abbrev RFE_GAIN_GAIN_MAX (b : Band) : Fld := ⟨A.RFE_GAIN b, 11, 8⟩
abbrev RFE_GAIN_GAIN_SET (b : Band) : Fld := ⟨A.RFE_GAIN b, 7, 4⟩
abbrev RFE_GAIN_GAIN_IDX (b : Band) : Fld := ⟨A.RFE_GAIN b, 3, 0⟩
abbrev RFE_AGC_TOP_TOP_NEG (b : Band) : Fld := ⟨A.RFE_AGC_TOP b, 5, 0⟩
abbrev RFE_LEVEL_LEVEL_MAX (b : Band) : Fld := ⟨A.RFE_LEVEL b, 7, 0⟩
abbrev RFE_CAL_CMD_DC (b : Band) : Fld := ⟨A.RFE_CAL_CMD b, 2, 2⟩
abbrev RFE_CAL_CMD_RC (b : Band) : Fld := ⟨A.RFE_CAL_CMD b, 1, 1⟩
abbrev RFE_CAL_CMD_IQ (b : Band) : Fld := ⟨A.RFE_CAL_CMD b, 0, 0⟩
abbrev RFE_CAL_STATUS_IQ_FAIL (b : Band) : Fld := ⟨A.RFE_CAL_STATUS b, 5, 5⟩
abbrev RFE_CAL_STATUS_RC_FAIL (b : Band) : Fld := ⟨A.RFE_CAL_STATUS b, 4, 4⟩
abbrev RFE_CAL_STATUS_DC_FAIL (b : Band) : Fld := ⟨A.RFE_CAL_STATUS b, 3, 3⟩
abbrev RFE_CAL_STATUS_IQ_PEND (b : Band) : Fld := ⟨A.RFE_CAL_STATUS b, 2, 2⟩
abbrev RFE_CAL_STATUS_RC_PEND (b : Band) : Fld := ⟨A.RFE_CAL_STATUS b, 1, 1⟩
abbrev RFE_CAL_STATUS_DC_PEND (b : Band) : Fld := ⟨A.RFE_CAL_STATUS b, 0, 0⟩
abbrev RFE_RC_CODE_CODE (b : Band) : Fld := ⟨A.RFE_RC_CODE b, 5, 0⟩
abbrev RFE_DC_SEL_INDEX (b : Band) : Fld := ⟨A.RFE_DC_SEL b, 3, 0⟩
abbrev RFE_TX_NMAX_NMAX (b : Band) : Fld := ⟨A.RFE_TX_NMAX b, 4, 0⟩
abbrev RFE_TX_TOTAL_TOTAL (b : Band) : Fld := ⟨A.RFE_TX_TOTAL b, 8, 0⟩
abbrev RFE_TX_CARRIER_LEVEL (b : Band) : Fld := ⟨A.RFE_TX_CARRIER b, 8, 0⟩
abbrev RFE_RAMP_AMP (b : Band) (i : Nat) : Fld := ⟨A.RFE_RAMP b i, 9, 0⟩
abbrev FEM_S_LVL_TX (i : Nat) : Fld := ⟨A.FEM_S_LVL i, 2, 2⟩
abbrev FEM_S_LVL_RX (i : Nat) : Fld := ⟨A.FEM_S_LVL i, 1, 1⟩
abbrev FEM_S_LVL_IDLE (i : Nat) : Fld := ⟨A.FEM_S_LVL i, 0, 0⟩
abbrev FEM_S_TXOFF_TXOFF (i : Nat) : Fld := ⟨A.FEM_S_TXOFF i, 6, 0⟩
abbrev FEM_S_RXOFF_RXOFF (i : Nat) : Fld := ⟨A.FEM_S_RXOFF i, 8, 0⟩
abbrev FEM_I_LVL_TX (i : Nat) : Fld := ⟨A.FEM_I_LVL i, 2, 2⟩
abbrev FEM_I_LVL_RX (i : Nat) : Fld := ⟨A.FEM_I_LVL i, 1, 1⟩
abbrev FEM_I_LVL_IDLE (i : Nat) : Fld := ⟨A.FEM_I_LVL i, 0, 0⟩
abbrev FEM_I_TXOFF_TXOFF (i : Nat) : Fld := ⟨A.FEM_I_TXOFF i, 6, 0⟩
abbrev FEM_I_RXOFF_RXOFF (i : Nat) : Fld := ⟨A.FEM_I_RXOFF i, 8, 0⟩
abbrev LANE_CTRL_BYP_DFE (n : Nat) : Fld := ⟨A.LANE_CTRL n, 4, 4⟩
abbrev LANE_CTRL_BYP_IQC (n : Nat) : Fld := ⟨A.LANE_CTRL n, 3, 3⟩
abbrev LANE_CTRL_BYP_ACF (n : Nat) : Fld := ⟨A.LANE_CTRL n, 2, 2⟩
abbrev LANE_CUR0_ROLE (n : Nat) : Fld := ⟨A.LANE_CUR0 n, 15, 14⟩
abbrev LANE_CUR0_BAND (n : Nat) : Fld := ⟨A.LANE_CUR0 n, 13, 13⟩
abbrev LANE_CUR0_MODE (n : Nat) : Fld := ⟨A.LANE_CUR0 n, 12, 8⟩
abbrev LANE_CUR0_OFS_17_16 (n : Nat) : Fld := ⟨A.LANE_CUR0 n, 1, 0⟩
abbrev LANE_SYNC_PRE_MIN (n : Nat) : Fld := ⟨A.LANE_SYNC n, 15, 10⟩
abbrev LANE_SYNC_SFD_ERR (n : Nat) : Fld := ⟨A.LANE_SYNC n, 9, 8⟩
abbrev LANE_SYNC_CORR_THR (n : Nat) : Fld := ⟨A.LANE_SYNC n, 7, 0⟩
abbrev LANE_DGAIN_HYST (n : Nat) : Fld := ⟨A.LANE_DGAIN n, 15, 12⟩
abbrev LANE_DGAIN_TARGET_NEG (n : Nat) : Fld := ⟨A.LANE_DGAIN n, 11, 6⟩
abbrev LANE_DFE_MU_TRAIN (n : Nat) : Fld := ⟨A.LANE_DFE n, 15, 12⟩
abbrev LANE_DFE_MU_TRACK (n : Nat) : Fld := ⟨A.LANE_DFE n, 11, 8⟩
abbrev LANE_PHYOPT_FEC_SCHEME (n : Nat) : Fld := ⟨A.LANE_PHYOPT n, 15, 14⟩
abbrev LANE_PHYOPT_MAX_LEN (n : Nat) : Fld := ⟨A.LANE_PHYOPT n, 10, 0⟩
abbrev LANE_PHYS_WITHDRAWN (n : Nat) : Fld := ⟨A.LANE_PHYS n, 15, 15⟩
abbrev LANE_PHYS_SPARE (n : Nat) : Fld := ⟨A.LANE_PHYS n, 14, 14⟩
abbrev LANE_PHYS_PHYS (n : Nat) : Fld := ⟨A.LANE_PHYS n, 6, 0⟩
abbrev LANE_ST0_STATE (n : Nat) : Fld := ⟨A.LANE_ST0 n, 15, 13⟩
abbrev LANE_ST0_PWR_NEG (n : Nat) : Fld := ⟨A.LANE_ST0 n, 7, 0⟩
abbrev LANE_ST1_GSTEP (n : Nat) : Fld := ⟨A.LANE_ST1 n, 15, 15⟩
abbrev LANE_ST1_CUT (n : Nat) : Fld := ⟨A.LANE_ST1 n, 14, 14⟩
abbrev LANE_ST1_FCS_ERR (n : Nat) : Fld := ⟨A.LANE_ST1 n, 13, 13⟩
abbrev LANE_ST1_ERAS (n : Nat) : Fld := ⟨A.LANE_ST1 n, 12, 12⟩
abbrev LANE_ST1_XCOURSE (n : Nat) : Fld := ⟨A.LANE_ST1 n, 11, 11⟩
abbrev LANE_ST1_CODED (n : Nat) : Fld := ⟨A.LANE_ST1 n, 10, 10⟩
abbrev LANE_ST1_DW (n : Nat) : Fld := ⟨A.LANE_ST1 n, 9, 9⟩
abbrev LANE_ST1_FCS32 (n : Nat) : Fld := ⟨A.LANE_ST1 n, 8, 8⟩
abbrev LANE_ST1_DFE (n : Nat) : Fld := ⟨A.LANE_ST1 n, 7, 7⟩
abbrev LANE_ST1_GSTEP_N (n : Nat) : Fld := ⟨A.LANE_ST1 n, 6, 4⟩
abbrev LANE_ST4_LEN (n : Nat) : Fld := ⟨A.LANE_ST4 n, 10, 0⟩
abbrev LANE_ST5_LQI (n : Nat) : Fld := ⟨A.LANE_ST5 n, 15, 8⟩
abbrev LANE_ST5_ERAS (n : Nat) : Fld := ⟨A.LANE_ST5 n, 7, 0⟩
abbrev LANE_EVT_KNOCK (n : Nat) : Fld := ⟨A.LANE_EVT n, 1, 1⟩
abbrev LANE_EVT_BADPLAN (n : Nat) : Fld := ⟨A.LANE_EVT n, 0, 0⟩
abbrev REC_SRC_KIND : Fld := ⟨A.REC_SRC, 15, 14⟩
abbrev REC_SRC_EXT : Fld := ⟨A.REC_SRC, 8, 8⟩
abbrev REC_SRC_LANE : Fld := ⟨A.REC_SRC, 5, 0⟩
abbrev REC_TRIG_TLANE : Fld := ⟨A.REC_TRIG, 15, 10⟩
abbrev REC_TRIG_TICK : Fld := ⟨A.REC_TRIG, 5, 5⟩
abbrev REC_TRIG_OVL : Fld := ⟨A.REC_TRIG, 4, 4⟩
abbrev REC_TRIG_KNOCK : Fld := ⟨A.REC_TRIG, 3, 3⟩
abbrev REC_TRIG_GSTEP : Fld := ⟨A.REC_TRIG, 2, 2⟩
abbrev REC_TRIG_FCS : Fld := ⟨A.REC_TRIG, 1, 1⟩
abbrev REC_TRIG_SFD : Fld := ⟨A.REC_TRIG, 0, 0⟩
abbrev REC_PRE_GROUPS : Fld := ⟨A.REC_PRE, 14, 0⟩
abbrev REC_CMD_SWTRIG : Fld := ⟨A.REC_CMD, 2, 2⟩
abbrev REC_CMD_STOP : Fld := ⟨A.REC_CMD, 1, 1⟩
abbrev REC_CMD_ARM : Fld := ⟨A.REC_CMD, 0, 0⟩
abbrev REC_STATUS_STARVED : Fld := ⟨A.REC_STATUS, 5, 5⟩
abbrev REC_STATUS_CFG_ERR : Fld := ⟨A.REC_STATUS, 4, 4⟩
abbrev REC_STATUS_STATE : Fld := ⟨A.REC_STATUS, 2, 0⟩
abbrev REC_EXT_BASE_LO_ADDR_15_4 : Fld := ⟨A.REC_EXT_BASE_LO, 15, 4⟩
abbrev REC_EXT_BASE_HI_ADDR_23_16 : Fld := ⟨A.REC_EXT_BASE_HI, 7, 0⟩
abbrev COURSE_CTRL_START_AT : Fld := ⟨A.COURSE_CTRL, 1, 1⟩
abbrev COURSE_CTRL_RUN : Fld := ⟨A.COURSE_CTRL, 0, 0⟩
abbrev COURSE_CFG_LEN : Fld := ⟨A.COURSE_CFG, 2, 0⟩
abbrev COURSE_WALL_LEN : Fld := ⟨A.COURSE_WALL, 9, 0⟩
abbrev COURSE_STATUS_TXEND_OVF : Fld := ⟨A.COURSE_STATUS, 8, 8⟩
abbrev COURSE_STATUS_CFG_REFUSED : Fld := ⟨A.COURSE_STATUS, 7, 7⟩
abbrev COURSE_STATUS_PLAN_ERR : Fld := ⟨A.COURSE_STATUS, 6, 6⟩
abbrev COURSE_STATUS_LATE : Fld := ⟨A.COURSE_STATUS, 5, 5⟩
abbrev COURSE_STATUS_XO_STOP : Fld := ⟨A.COURSE_STATUS, 4, 4⟩
abbrev COURSE_STATUS_IW_OPEN : Fld := ⟨A.COURSE_STATUS, 3, 3⟩
abbrev COURSE_STATUS_COPY : Fld := ⟨A.COURSE_STATUS, 2, 2⟩
abbrev COURSE_STATUS_COMMIT_PEND : Fld := ⟨A.COURSE_STATUS, 1, 1⟩
abbrev COURSE_STATUS_RUNNING : Fld := ⟨A.COURSE_STATUS, 0, 0⟩
abbrev COURSE_PLAN_CMD_COMMIT : Fld := ⟨A.COURSE_PLAN_CMD, 0, 0⟩
abbrev COURSE_PLAN_ERR_CODE : Fld := ⟨A.COURSE_PLAN_ERR, 15, 12⟩
abbrev COURSE_PLAN_ERR_INDEX : Fld := ⟨A.COURSE_PLAN_ERR, 6, 0⟩
abbrev COURSE_ASN_2_ASN_39_32 : Fld := ⟨A.COURSE_ASN_2, 7, 0⟩
abbrev COURSE_SLOT_SLOT : Fld := ⟨A.COURSE_SLOT, 9, 0⟩
abbrev COURSE_CCA_THR_ISM : Fld := ⟨A.COURSE_CCA_THR, 15, 8⟩
abbrev COURSE_CCA_THR_SUB : Fld := ⟨A.COURSE_CCA_THR, 7, 0⟩
abbrev COURSE_TXEND_0_RESULT : Fld := ⟨A.COURSE_TXEND_0, 15, 12⟩
abbrev COURSE_TXEND_0_BAND : Fld := ⟨A.COURSE_TXEND_0, 11, 11⟩
abbrev COURSE_TXEND_0_ENTRY : Fld := ⟨A.COURSE_TXEND_0, 10, 8⟩
abbrev COURSE_TXEND_N_COUNT : Fld := ⟨A.COURSE_TXEND_N, 4, 0⟩
abbrev COURSE_DC_CTRL_EN (i : Nat) : Fld := ⟨A.COURSE_DC_CTRL i, 15, 15⟩
abbrev COURSE_DC_CTRL_BAND (i : Nat) : Fld := ⟨A.COURSE_DC_CTRL i, 14, 14⟩
abbrev COURSE_DC_CTRL_WIN (i : Nat) : Fld := ⟨A.COURSE_DC_CTRL i, 11, 0⟩
abbrev HOD_CTRL_BUF_SIZE : Fld := ⟨A.HOD_CTRL, 4, 2⟩
abbrev HOD_CTRL_FCS_KEEP : Fld := ⟨A.HOD_CTRL, 1, 1⟩
abbrev HOD_CTRL_EN : Fld := ⟨A.HOD_CTRL, 0, 0⟩
abbrev HOD_RING_BASE_LO_ADDR_15_5 : Fld := ⟨A.HOD_RING_BASE_LO, 15, 5⟩
abbrev HOD_RING_BASE_HI_ADDR_23_16 : Fld := ⟨A.HOD_RING_BASE_HI, 7, 0⟩
abbrev HOD_POOL_BASE_LO_ADDR_15_7 : Fld := ⟨A.HOD_POOL_BASE_LO, 15, 7⟩
abbrev HOD_POOL_BASE_HI_ADDR_23_16 : Fld := ⟨A.HOD_POOL_BASE_HI, 7, 0⟩
abbrev HOD_WR_INDEX : Fld := ⟨A.HOD_WR, 8, 0⟩
abbrev HOD_RD_INDEX : Fld := ⟨A.HOD_RD, 8, 0⟩
abbrev HOD_STATUS_CFG_ERR : Fld := ⟨A.HOD_STATUS, 2, 2⟩
abbrev HOD_STATUS_RD_ERR : Fld := ⟨A.HOD_STATUS, 1, 1⟩
abbrev HOD_STATUS_RING_DROP : Fld := ⟨A.HOD_STATUS, 0, 0⟩
abbrev HOD_NOTIFY_TICK_FLUSH : Fld := ⟨A.HOD_NOTIFY, 15, 15⟩
abbrev HOD_NOTIFY_THRESH : Fld := ⟨A.HOD_NOTIFY, 8, 0⟩
abbrev HOD_GRANTS_ISM : Fld := ⟨A.HOD_GRANTS, 12, 8⟩
abbrev HOD_GRANTS_SUB : Fld := ⟨A.HOD_GRANTS, 4, 0⟩
abbrev HOD_TXPHY_PRE_OCT : Fld := ⟨A.HOD_TXPHY, 7, 0⟩
abbrev HOD_ACK_CFG_TCIE : Fld := ⟨A.HOD_ACK_CFG, 0, 0⟩
abbrev MACF_CTRL_NODST : Fld := ⟨A.MACF_CTRL, 5, 5⟩
abbrev MACF_CTRL_GROUP_EN : Fld := ⟨A.MACF_CTRL, 4, 4⟩
abbrev MACF_CTRL_FTMASK : Fld := ⟨A.MACF_CTRL, 3, 0⟩
abbrev ASHLAR_CTRL_EN : Fld := ⟨A.ASHLAR_CTRL, 0, 0⟩
abbrev ASHLAR_STATUS_CMD_ERR : Fld := ⟨A.ASHLAR_STATUS, 8, 8⟩
abbrev ASHLAR_STATUS_HK_WAIT : Fld := ⟨A.ASHLAR_STATUS, 7, 7⟩
abbrev ASHLAR_STATUS_LEASE_SWEEP : Fld := ⟨A.ASHLAR_STATUS, 6, 6⟩
abbrev ASHLAR_STATUS_REBUILD_QUEUED : Fld := ⟨A.ASHLAR_STATUS, 5, 5⟩
abbrev ASHLAR_STATUS_REBUILD : Fld := ⟨A.ASHLAR_STATUS, 4, 4⟩
abbrev ASHLAR_STATUS_RESTORE : Fld := ⟨A.ASHLAR_STATUS, 3, 3⟩
abbrev ASHLAR_STATUS_RESTORED : Fld := ⟨A.ASHLAR_STATUS, 2, 2⟩
abbrev ASHLAR_STATUS_CMD_BUSY : Fld := ⟨A.ASHLAR_STATUS, 1, 1⟩
abbrev ASHLAR_STATUS_RUN : Fld := ⟨A.ASHLAR_STATUS, 0, 0⟩
abbrev ASHLAR_CMD_RESTORE : Fld := ⟨A.ASHLAR_CMD, 1, 1⟩
abbrev ASHLAR_CMD_REBUILD : Fld := ⟨A.ASHLAR_CMD, 0, 0⟩
abbrev ASHLAR_EVT_CMD_DONE : Fld := ⟨A.ASHLAR_EVT, 6, 6⟩
abbrev ASHLAR_EVT_TEPOCH_ERR : Fld := ⟨A.ASHLAR_EVT, 5, 5⟩
abbrev ASHLAR_EVT_LEASE_ERR : Fld := ⟨A.ASHLAR_EVT, 4, 4⟩
abbrev ASHLAR_EVT_FULL : Fld := ⟨A.ASHLAR_EVT, 3, 3⟩
abbrev ASHLAR_EVT_STASH_HIGH : Fld := ⟨A.ASHLAR_EVT, 2, 2⟩
abbrev ASHLAR_EVT_RESTORE_DONE : Fld := ⟨A.ASHLAR_EVT, 1, 1⟩
abbrev ASHLAR_EVT_REBUILD_DONE : Fld := ⟨A.ASHLAR_EVT, 0, 0⟩
abbrev ASHLAR_STASH_COUNT : Fld := ⟨A.ASHLAR_STASH, 6, 0⟩
abbrev ASHLAR_ENTRIES_HI_COUNT_16 : Fld := ⟨A.ASHLAR_ENTRIES_HI, 0, 0⟩
abbrev ASHLAR_DIRTYQ_COUNT : Fld := ⟨A.ASHLAR_DIRTYQ, 7, 0⟩
abbrev ASHLAR_E_CMD_OP : Fld := ⟨A.ASHLAR_E_CMD, 3, 0⟩
abbrev ASHLAR_E_RES_RESULT : Fld := ⟨A.ASHLAR_E_RES, 3, 0⟩
abbrev ASHLAR_TSEL_TENANT : Fld := ⟨A.ASHLAR_TSEL, 11, 0⟩
abbrev ASHLAR_TCFG_ROOT : Fld := ⟨A.ASHLAR_TCFG, 15, 15⟩
abbrev ASHLAR_TCFG_EN : Fld := ⟨A.ASHLAR_TCFG, 14, 14⟩
abbrev ASHLAR_TCFG_AUTO : Fld := ⟨A.ASHLAR_TCFG, 13, 13⟩
abbrev ASHLAR_TCFG_GRACE : Fld := ⟨A.ASHLAR_TCFG, 12, 12⟩
abbrev ASHLAR_TCFG_USAGE : Fld := ⟨A.ASHLAR_TCFG, 4, 0⟩
abbrev ASHLAR_TEPOCH_EPOCH : Fld := ⟨A.ASHLAR_TEPOCH, 7, 0⟩
abbrev CRYPTO_CTRL_EN : Fld := ⟨A.CRYPTO_CTRL, 0, 0⟩
abbrev CRYPTO_STATUS_Q_ERR : Fld := ⟨A.CRYPTO_STATUS, 12, 12⟩
abbrev CRYPTO_STATUS_FENCED : Fld := ⟨A.CRYPTO_STATUS, 11, 8⟩
abbrev CRYPTO_STATUS_OUT : Fld := ⟨A.CRYPTO_STATUS, 7, 4⟩
abbrev CRYPTO_STATUS_BUSY : Fld := ⟨A.CRYPTO_STATUS, 3, 0⟩
abbrev CRYPTO_Q_BASE_LO_ADDR_15_4 : Fld := ⟨A.CRYPTO_Q_BASE_LO, 15, 4⟩
abbrev CRYPTO_Q_BASE_HI_ADDR_23_16 : Fld := ⟨A.CRYPTO_Q_BASE_HI, 7, 0⟩
abbrev CRYPTO_Q_WR_INDEX : Fld := ⟨A.CRYPTO_Q_WR, 4, 0⟩
abbrev CRYPTO_Q_RD_INDEX : Fld := ⟨A.CRYPTO_Q_RD, 4, 0⟩
abbrev CRYPTO_EVT_BUSERR : Fld := ⟨A.CRYPTO_EVT, 1, 1⟩
abbrev CRYPTO_EVT_DONE : Fld := ⟨A.CRYPTO_EVT, 0, 0⟩
abbrev KEYS_CMD_OP : Fld := ⟨A.KEYS_CMD, 3, 0⟩
abbrev KEYS_STATUS_READY : Fld := ⟨A.KEYS_STATUS, 15, 15⟩
abbrev KEYS_STATUS_BUSY : Fld := ⟨A.KEYS_STATUS, 14, 14⟩
abbrev KEYS_STATUS_KS_LOST : Fld := ⟨A.KEYS_STATUS, 13, 13⟩
abbrev KEYS_STATUS_CMD_ERR : Fld := ⟨A.KEYS_STATUS, 12, 12⟩
abbrev KEYS_STATUS_LEASE_ERR : Fld := ⟨A.KEYS_STATUS, 11, 11⟩
abbrev KEYS_STATUS_RESULT : Fld := ⟨A.KEYS_STATUS, 3, 0⟩
abbrev KEYS_SEL_SLOT : Fld := ⟨A.KEYS_SEL, 5, 0⟩
abbrev PKE_CMD_ID : Fld := ⟨A.PKE_CMD, 15, 15⟩
abbrev PKE_CMD_SLOT : Fld := ⟨A.PKE_CMD, 13, 8⟩
abbrev PKE_CMD_OP : Fld := ⟨A.PKE_CMD, 3, 0⟩
abbrev PKE_ARG_HI_DSLOT : Fld := ⟨A.PKE_ARG_HI, 13, 8⟩
abbrev PKE_ARG_HI_ADDR_23_16 : Fld := ⟨A.PKE_ARG_HI, 7, 0⟩
abbrev PKE_STATUS_BUSY : Fld := ⟨A.PKE_STATUS, 15, 15⟩
abbrev PKE_STATUS_CMD_ERR : Fld := ⟨A.PKE_STATUS, 14, 14⟩
abbrev PKE_STATUS_RESULT : Fld := ⟨A.PKE_STATUS, 3, 0⟩
abbrev TRNG_CTRL_RESEED : Fld := ⟨A.TRNG_CTRL, 1, 1⟩
abbrev TRNG_CTRL_RESTART : Fld := ⟨A.TRNG_CTRL, 0, 0⟩
abbrev TRNG_STATUS_UNDERRUN : Fld := ⟨A.TRNG_STATUS, 4, 4⟩
abbrev TRNG_STATUS_HEALTH_FAIL : Fld := ⟨A.TRNG_STATUS, 3, 3⟩
abbrev TRNG_STATUS_STARTUP : Fld := ⟨A.TRNG_STATUS, 2, 2⟩
abbrev TRNG_STATUS_READY : Fld := ⟨A.TRNG_STATUS, 1, 1⟩
abbrev TRNG_STATUS_OUT_VALID : Fld := ⟨A.TRNG_STATUS, 0, 0⟩
abbrev LF_CTRL_DATA_ANT : Fld := ⟨A.LF_CTRL, 5, 4⟩
abbrev LF_CTRL_EN : Fld := ⟨A.LF_CTRL, 3, 0⟩
abbrev LF_STATUS_SHORT : Fld := ⟨A.LF_STATUS, 15, 12⟩
abbrev LF_STATUS_OPEN : Fld := ⟨A.LF_STATUS, 11, 8⟩
abbrev LF_STATUS_VLF_LOW : Fld := ⟨A.LF_STATUS, 2, 2⟩
abbrev LF_STATUS_TUNE_BUSY : Fld := ⟨A.LF_STATUS, 1, 1⟩
abbrev LF_STATUS_BUSY : Fld := ⟨A.LF_STATUS, 0, 0⟩
abbrev LF_CMD_TUNE : Fld := ⟨A.LF_CMD, 3, 0⟩
abbrev LF_ISET_ISET (i : Nat) : Fld := ⟨A.LF_ISET i, 7, 0⟩
abbrev LF_TUNE_CODE (i : Nat) : Fld := ⟨A.LF_TUNE i, 5, 0⟩
abbrev LF_IPK_PEAK (i : Nat) : Fld := ⟨A.LF_IPK i, 7, 0⟩
abbrev PLUMB_LIMIT_EARLY : Fld := ⟨A.PLUMB_LIMIT, 15, 8⟩
abbrev PLUMB_LIMIT_LATE : Fld := ⟨A.PLUMB_LIMIT, 7, 0⟩
abbrev PLUMB_FEM_PTX : Fld := ⟨A.PLUMB_FEM, 13, 8⟩
abbrev PLUMB_FEM_PRX : Fld := ⟨A.PLUMB_FEM, 5, 0⟩
abbrev PLUMB_TXLVL_TOTAL : Fld := ⟨A.PLUMB_TXLVL, 8, 0⟩
abbrev PLUMB_RES_PASS : Fld := ⟨A.PLUMB_RES, 15, 15⟩
abbrev PLUMB_RES_BITERR : Fld := ⟨A.PLUMB_RES, 14, 14⟩
abbrev PLUMB_RES_REPERR : Fld := ⟨A.PLUMB_RES, 13, 13⟩
abbrev PLUMB_RES_OK_ROUNDS : Fld := ⟨A.PLUMB_RES, 5, 0⟩
abbrev ACCESS_CTRL_ROOT : Fld := ⟨A.ACCESS_CTRL, 13, 8⟩
abbrev ACCESS_CTRL_EN : Fld := ⟨A.ACCESS_CTRL, 0, 0⟩
abbrev ACCESS_STATUS_STATE : Fld := ⟨A.ACCESS_STATUS, 15, 12⟩
abbrev ACCESS_STATUS_LOCKED : Fld := ⟨A.ACCESS_STATUS, 11, 11⟩
abbrev ACCESS_STATUS_RELEASE : Fld := ⟨A.ACCESS_STATUS, 10, 10⟩
abbrev ACCESS_STATUS_TBL_BUSY : Fld := ⟨A.ACCESS_STATUS, 9, 9⟩
abbrev ACCESS_STATUS_TBL_OK : Fld := ⟨A.ACCESS_STATUS, 8, 8⟩
abbrev ACCESS_STATUS_REL_CUT : Fld := ⟨A.ACCESS_STATUS, 3, 3⟩
abbrev ACCESS_STATUS_LOCK_FAULT : Fld := ⟨A.ACCESS_STATUS, 2, 2⟩
abbrev ACCESS_STATUS_TBL_ERR : Fld := ⟨A.ACCESS_STATUS, 1, 1⟩
abbrev ACCESS_STATUS_LOG_ERR : Fld := ⟨A.ACCESS_STATUS, 0, 0⟩
abbrev ACCESS_REL_PULSE : Fld := ⟨A.ACCESS_REL, 12, 0⟩
abbrev ACCESS_LO_CFG_FAILS : Fld := ⟨A.ACCESS_LO_CFG, 15, 12⟩
abbrev ACCESS_LO_CFG_WIN_MIN : Fld := ⟨A.ACCESS_LO_CFG, 11, 6⟩
abbrev ACCESS_LO_CFG_BASE_MIN : Fld := ⟨A.ACCESS_LO_CFG, 5, 0⟩
abbrev ACCESS_PCH_PCH : Fld := ⟨A.ACCESS_PCH, 6, 0⟩
abbrev ACCESS_ZONE_ZMAX (i : Nat) : Fld := ⟨A.ACCESS_ZONE i, 15, 8⟩
abbrev ACCESS_ZONE_ZMIN (i : Nat) : Fld := ⟨A.ACCESS_ZONE i, 7, 0⟩
abbrev ACCESS_TBL_CMD_LOAD : Fld := ⟨A.ACCESS_TBL_CMD, 0, 0⟩
abbrev ACCESS_TOK_BASE_LO_ADDR : Fld := ⟨A.ACCESS_TOK_BASE_LO, 15, 1⟩
abbrev ACCESS_TOK_BASE_HI_ADDR : Fld := ⟨A.ACCESS_TOK_BASE_HI, 7, 0⟩
abbrev ACCESS_TOK_N_COUNT : Fld := ⟨A.ACCESS_TOK_N, 8, 0⟩
abbrev ACCESS_REV_BASE_LO_ADDR : Fld := ⟨A.ACCESS_REV_BASE_LO, 15, 1⟩
abbrev ACCESS_REV_BASE_HI_ADDR : Fld := ⟨A.ACCESS_REV_BASE_HI, 7, 0⟩
abbrev ACCESS_REV_N_COUNT : Fld := ⟨A.ACCESS_REV_N, 10, 0⟩
abbrev ACCESS_EVT_KNOCK_REF : Fld := ⟨A.ACCESS_EVT, 3, 3⟩
abbrev ACCESS_EVT_LOCKOUT : Fld := ⟨A.ACCESS_EVT, 2, 2⟩
abbrev ACCESS_EVT_RELEASE : Fld := ⟨A.ACCESS_EVT, 1, 1⟩
abbrev ACCESS_EVT_SESSION_END : Fld := ⟨A.ACCESS_EVT, 0, 0⟩
abbrev ACCESS_LAST_VERDICT_VERDICT : Fld := ⟨A.ACCESS_LAST_VERDICT, 15, 12⟩
abbrev ACCESS_LAST_VERDICT_CLASS : Fld := ⟨A.ACCESS_LAST_VERDICT, 11, 10⟩
abbrev ACCESS_LAST_VERDICT_VER : Fld := ⟨A.ACCESS_LAST_VERDICT, 7, 0⟩
abbrev ACCESS_VER_MAX : Fld := ⟨A.ACCESS_VER, 15, 8⟩
abbrev ACCESS_VER_MIN : Fld := ⟨A.ACCESS_VER, 7, 0⟩
abbrev PLINTH_STATUS_XO_LF_RUN : Fld := ⟨A.PLINTH_STATUS, 4, 4⟩
abbrev PLINTH_STATUS_PWR_VBAK : Fld := ⟨A.PLINTH_STATUS, 3, 3⟩
abbrev PLINTH_STATUS_LOM : Fld := ⟨A.PLINTH_STATUS, 2, 2⟩
abbrev PLINTH_STATUS_SHIFT_PEND : Fld := ⟨A.PLINTH_STATUS, 1, 1⟩
abbrev PLINTH_STATUS_SET_PEND : Fld := ⟨A.PLINTH_STATUS, 0, 0⟩
abbrev PLINTH_EVT_COLD : Fld := ⟨A.PLINTH_EVT, 9, 9⟩
abbrev PLINTH_EVT_OSC_STOP : Fld := ⟨A.PLINTH_EVT, 8, 8⟩
abbrev PLINTH_EVT_CMD_ERR : Fld := ⟨A.PLINTH_EVT, 7, 7⟩
abbrev PLINTH_EVT_TRIM_VOID : Fld := ⟨A.PLINTH_EVT, 6, 6⟩
abbrev PLINTH_EVT_TRIM_DONE : Fld := ⟨A.PLINTH_EVT, 5, 5⟩
abbrev PLINTH_EVT_MAINS_BACK : Fld := ⟨A.PLINTH_EVT, 4, 4⟩
abbrev PLINTH_EVT_MAINS_LOSS : Fld := ⟨A.PLINTH_EVT, 3, 3⟩
abbrev PLINTH_EVT_TAMP1 : Fld := ⟨A.PLINTH_EVT, 2, 2⟩
abbrev PLINTH_EVT_TAMP0 : Fld := ⟨A.PLINTH_EVT, 1, 1⟩
abbrev PLINTH_EVT_ALARM : Fld := ⟨A.PLINTH_EVT, 0, 0⟩
abbrev RTC_CMD_KEY : Fld := ⟨A.RTC_CMD, 15, 8⟩
abbrev RTC_CMD_SHIFT : Fld := ⟨A.RTC_CMD, 1, 0⟩
abbrev PLINTH_CTRL_ALM_EN : Fld := ⟨A.PLINTH_CTRL, 15, 15⟩
abbrev PLINTH_CTRL_AUTO : Fld := ⟨A.PLINTH_CTRL, 14, 14⟩
abbrev PLINTH_CTRL_TSRC : Fld := ⟨A.PLINTH_CTRL, 13, 12⟩
abbrev PLINTH_CTRL_WIN : Fld := ⟨A.PLINTH_CTRL, 11, 8⟩
abbrev PLINTH_MAINS_HZ60 : Fld := ⟨A.PLINTH_MAINS, 4, 4⟩
abbrev PLINTH_MAINS_LOM_CYC : Fld := ⟨A.PLINTH_MAINS, 3, 0⟩
abbrev PLINTH_TAMP_EN1 : Fld := ⟨A.PLINTH_TAMP, 5, 5⟩
abbrev PLINTH_TAMP_EDGE1 : Fld := ⟨A.PLINTH_TAMP, 4, 3⟩
abbrev PLINTH_TAMP_EN0 : Fld := ⟨A.PLINTH_TAMP, 2, 2⟩
abbrev PLINTH_TAMP_EDGE0 : Fld := ⟨A.PLINTH_TAMP, 1, 0⟩
abbrev TAMP_CNT_CNT1 : Fld := ⟨A.TAMP_CNT, 15, 8⟩
abbrev TAMP_CNT_CNT0 : Fld := ⟨A.TAMP_CNT, 7, 0⟩
abbrev PLINTH_TRICKLE_KEY : Fld := ⟨A.PLINTH_TRICKLE, 15, 8⟩
abbrev PLINTH_TRICKLE_EN : Fld := ⟨A.PLINTH_TRICKLE, 3, 3⟩
abbrev PLINTH_TRICKLE_I : Fld := ⟨A.PLINTH_TRICKLE, 2, 1⟩
abbrev PLINTH_TRICKLE_CLAMP : Fld := ⟨A.PLINTH_TRICKLE, 0, 0⟩
abbrev PLINTH_LO_STATE_LOCKED : Fld := ⟨A.PLINTH_LO_STATE, 15, 15⟩
abbrev PLINTH_LO_STATE_COLD : Fld := ⟨A.PLINTH_LO_STATE, 14, 14⟩
abbrev PLINTH_LO_STATE_LEVEL : Fld := ⟨A.PLINTH_LO_STATE, 9, 8⟩
abbrev PLINTH_LO_STATE_FAILS : Fld := ⟨A.PLINTH_LO_STATE, 3, 0⟩
abbrev TMR_CTRL_RUN (i : Nat) : Fld := ⟨A.TMR_CTRL i, 15, 15⟩
abbrev TMR_CTRL_CMP_EN (i : Nat) : Fld := ⟨A.TMR_CTRL i, 14, 14⟩
abbrev TMR_CTRL_CAP_EN (i : Nat) : Fld := ⟨A.TMR_CTRL i, 13, 13⟩
abbrev TMR_CTRL_EDGE (i : Nat) : Fld := ⟨A.TMR_CTRL i, 12, 11⟩
abbrev TMR_CTRL_PRESC (i : Nat) : Fld := ⟨A.TMR_CTRL i, 10, 8⟩
abbrev TMR_CTRL_CAPSEL (i : Nat) : Fld := ⟨A.TMR_CTRL i, 7, 0⟩
abbrev TMR_STATUS_CAP_NEW (i : Nat) : Fld := ⟨A.TMR_STATUS i, 6, 6⟩
abbrev TMR_STATUS_CAP_OVR (i : Nat) : Fld := ⟨A.TMR_STATUS i, 5, 5⟩
abbrev TMR_STATUS_OVW (i : Nat) : Fld := ⟨A.TMR_STATUS i, 4, 4⟩
abbrev TMR_STATUS_LATE (i : Nat) : Fld := ⟨A.TMR_STATUS i, 3, 3⟩
abbrev TMR_STATUS_WERR (i : Nat) : Fld := ⟨A.TMR_STATUS i, 2, 2⟩
abbrev TMR_STATUS_CAP (i : Nat) : Fld := ⟨A.TMR_STATUS i, 1, 1⟩
abbrev TMR_STATUS_FIRE (i : Nat) : Fld := ⟨A.TMR_STATUS i, 0, 0⟩
abbrev TMR_WORLD_OPEN : Fld := ⟨A.TMR_WORLD, 7, 0⟩
abbrev SYSCTL_RST_CAUSE_WDT_CORE : Fld := ⟨A.SYSCTL_RST_CAUSE, 10, 8⟩
abbrev SYSCTL_RST_CAUSE_CAUSE : Fld := ⟨A.SYSCTL_RST_CAUSE, 7, 0⟩
abbrev SYSCTL_CLK_XO_EN : Fld := ⟨A.SYSCTL_CLK, 2, 2⟩
abbrev SYSCTL_CLK_PLL_EN : Fld := ⟨A.SYSCTL_CLK, 1, 1⟩
abbrev SYSCTL_CLK_SRC : Fld := ⟨A.SYSCTL_CLK, 0, 0⟩
abbrev SYSCTL_CLK_STATUS_XO_LOSS : Fld := ⟨A.SYSCTL_CLK_STATUS, 3, 3⟩
abbrev SYSCTL_CLK_STATUS_CLK_ERR : Fld := ⟨A.SYSCTL_CLK_STATUS, 2, 2⟩
abbrev SYSCTL_CLK_STATUS_PLL_LOCK : Fld := ⟨A.SYSCTL_CLK_STATUS, 1, 1⟩
abbrev SYSCTL_CLK_STATUS_XO_OK : Fld := ⟨A.SYSCTL_CLK_STATUS, 0, 0⟩
abbrev SYSCTL_CORE_CTRL_RUN : Fld := ⟨A.SYSCTL_CORE_CTRL, 5, 1⟩
abbrev SYSCTL_CORE_CTRL_RUN0 : Fld := ⟨A.SYSCTL_CORE_CTRL, 0, 0⟩
abbrev SYSCTL_CORE_START_LO_ADDR (i : Nat) : Fld := ⟨A.SYSCTL_CORE_START_LO i, 15, 2⟩
abbrev SYSCTL_CORE_START_HI_ADDR (i : Nat) : Fld := ⟨A.SYSCTL_CORE_START_HI i, 7, 0⟩
abbrev SYSCTL_ADMIT_ERR : Fld := ⟨A.SYSCTL_ADMIT, 15, 15⟩
abbrev SYSCTL_ADMIT_BYTES : Fld := ⟨A.SYSCTL_ADMIT, 11, 0⟩
abbrev SYSCTL_ADMIT_CAP_BYTES : Fld := ⟨A.SYSCTL_ADMIT_CAP, 11, 0⟩
abbrev SYSCTL_TEMP_VALID : Fld := ⟨A.SYSCTL_TEMP, 15, 15⟩
abbrev SYSCTL_TEMP_DEG : Fld := ⟨A.SYSCTL_TEMP, 10, 0⟩
abbrev DMA_CTRL_EN (i : Nat) : Fld := ⟨A.DMA_CTRL i, 15, 15⟩
abbrev DMA_CTRL_DONE (i : Nat) : Fld := ⟨A.DMA_CTRL i, 14, 14⟩
abbrev DMA_CTRL_ERR (i : Nat) : Fld := ⟨A.DMA_CTRL i, 13, 13⟩
abbrev DMA_SRC_LO_ADDR (i : Nat) : Fld := ⟨A.DMA_SRC_LO i, 15, 1⟩
abbrev DMA_SRC_HI_ADDR (i : Nat) : Fld := ⟨A.DMA_SRC_HI i, 7, 0⟩
abbrev DMA_DST_LO_ADDR (i : Nat) : Fld := ⟨A.DMA_DST_LO i, 15, 1⟩
abbrev DMA_DST_HI_ADDR (i : Nat) : Fld := ⟨A.DMA_DST_HI i, 7, 0⟩
abbrev DMA_RATE_BYTES (i : Nat) : Fld := ⟨A.DMA_RATE i, 10, 0⟩
abbrev SYSCTL_FENCE_BASE_HI_ADDR (i : Nat) : Fld := ⟨A.SYSCTL_FENCE_BASE_HI i, 7, 0⟩
abbrev SYSCTL_FENCE_LIMIT_HI_ADDR (i : Nat) : Fld := ⟨A.SYSCTL_FENCE_LIMIT_HI i, 7, 0⟩
abbrev SYSCTL_FENCE_ATTR_EN (i : Nat) : Fld := ⟨A.SYSCTL_FENCE_ATTR i, 15, 15⟩
abbrev SYSCTL_FENCE_ATTR_XWR (i : Nat) : Fld := ⟨A.SYSCTL_FENCE_ATTR i, 2, 0⟩
abbrev PMU_PL_CUR : Fld := ⟨A.PMU_PL, 1, 0⟩
abbrev PMU_PL_REQ_TARGET : Fld := ⟨A.PMU_PL_REQ, 1, 0⟩
abbrev PMU_PL_STAT_BUSY : Fld := ⟨A.PMU_PL_STAT, 15, 15⟩
abbrev PMU_PL_STAT_WAITING : Fld := ⟨A.PMU_PL_STAT, 14, 14⟩
abbrev PMU_PL_STAT_RESULT : Fld := ⟨A.PMU_PL_STAT, 3, 0⟩
abbrev PMU_SLEEP_KEY : Fld := ⟨A.PMU_SLEEP, 15, 8⟩
abbrev PMU_SLEEP_STATE : Fld := ⟨A.PMU_SLEEP, 1, 0⟩
abbrev PMU_STATUS_SLP_ERR : Fld := ⟨A.PMU_STATUS, 15, 15⟩
abbrev PMU_STATUS_SLP_WHY : Fld := ⟨A.PMU_STATUS, 11, 8⟩
abbrev PMU_STATUS_LAST : Fld := ⟨A.PMU_STATUS, 1, 0⟩
abbrev PMU_WAKE_EN_EN : Fld := ⟨A.PMU_WAKE_EN, 8, 0⟩
abbrev PMU_WAKE_SRC_SRC : Fld := ⟨A.PMU_WAKE_SRC, 8, 0⟩
abbrev PMU_EVT_PL_REFUSED : Fld := ⟨A.PMU_EVT, 2, 2⟩
abbrev PMU_EVT_PL_DONE : Fld := ⟨A.PMU_EVT, 1, 1⟩
abbrev PMU_EVT_WOKE : Fld := ⟨A.PMU_EVT, 0, 0⟩
abbrev WDT_CTRL_EN (i : Nat) : Fld := ⟨A.WDT_CTRL i, 0, 0⟩
abbrev WDT_STATUS_APP_RST : Fld := ⟨A.WDT_STATUS, 9, 6⟩
abbrev WDT_STATUS_STAGE2 : Fld := ⟨A.WDT_STATUS, 5, 0⟩
abbrev MB_STATUS_OVF (i : Nat) : Fld := ⟨A.MB_STATUS i, 15, 15⟩
abbrev MB_STATUS_UNDER (i : Nat) : Fld := ⟨A.MB_STATUS i, 14, 14⟩
abbrev MB_STATUS_COUNT (i : Nat) : Fld := ⟨A.MB_STATUS i, 5, 0⟩
abbrev MBOX_BELL_TARGET : Fld := ⟨A.MBOX_BELL, 5, 0⟩
abbrev NVMC_CMD_OP : Fld := ⟨A.NVMC_CMD, 3, 0⟩
abbrev NVMC_STATUS_BUSY : Fld := ⟨A.NVMC_STATUS, 15, 15⟩
abbrev NVMC_STATUS_CMD_ERR : Fld := ⟨A.NVMC_STATUS, 14, 14⟩
abbrev NVMC_STATUS_RESULT : Fld := ⟨A.NVMC_STATUS, 3, 0⟩
abbrev NVMC_EVT_ECC_UNC : Fld := ⟨A.NVMC_EVT, 3, 3⟩
abbrev NVMC_EVT_NV_SPLIT : Fld := ⟨A.NVMC_EVT, 2, 2⟩
abbrev NVMC_EVT_FAIL : Fld := ⟨A.NVMC_EVT, 1, 1⟩
abbrev NVMC_EVT_DONE : Fld := ⟨A.NVMC_EVT, 0, 0⟩
abbrev NVMC_RES_LEN_VER : Fld := ⟨A.NVMC_RES_LEN, 15, 12⟩
abbrev NVMC_RES_LEN_LEN : Fld := ⟨A.NVMC_RES_LEN, 5, 0⟩
abbrev NVMC_UNC_ADDR_HI_ADDR : Fld := ⟨A.NVMC_UNC_ADDR_HI, 7, 0⟩
abbrev NVMC_IMG_LOCK_B : Fld := ⟨A.NVMC_IMG_LOCK, 1, 1⟩
abbrev NVMC_IMG_LOCK_A : Fld := ⟨A.NVMC_IMG_LOCK, 0, 0⟩
abbrev NVMC_FREE_EVT : Fld := ⟨A.NVMC_FREE, 11, 8⟩
abbrev NVMC_FREE_LEASE : Fld := ⟨A.NVMC_FREE, 7, 4⟩
abbrev NVMC_FREE_CFG : Fld := ⟨A.NVMC_FREE, 3, 0⟩
abbrev HOSTIF_CTRL_FMT : Fld := ⟨A.HOSTIF_CTRL, 2, 2⟩
abbrev HOSTIF_CTRL_RECOV : Fld := ⟨A.HOSTIF_CTRL, 1, 1⟩
abbrev HOSTIF_CTRL_EN : Fld := ⟨A.HOSTIF_CTRL, 0, 0⟩
abbrev HOSTIF_STATUS_Q_ERR : Fld := ⟨A.HOSTIF_STATUS, 8, 8⟩
abbrev HOSTIF_STATUS_CFG_ERR : Fld := ⟨A.HOSTIF_STATUS, 7, 7⟩
abbrev HOSTIF_STATUS_OQ_DONE : Fld := ⟨A.HOSTIF_STATUS, 6, 6⟩
abbrev HOSTIF_STATUS_BADOP : Fld := ⟨A.HOSTIF_STATUS, 5, 5⟩
abbrev HOSTIF_STATUS_BADFRM : Fld := ⟨A.HOSTIF_STATUS, 4, 4⟩
abbrev HOSTIF_STATUS_WRBUSY : Fld := ⟨A.HOSTIF_STATUS, 3, 3⟩
abbrev HOSTIF_STATUS_ACTIVE : Fld := ⟨A.HOSTIF_STATUS, 2, 2⟩
abbrev HOSTIF_STATUS_HRDY : Fld := ⟨A.HOSTIF_STATUS, 1, 1⟩
abbrev HOSTIF_STATUS_IN_FULL : Fld := ⟨A.HOSTIF_STATUS, 0, 0⟩
abbrev HOSTIF_IN_BASE_LO_ADDR : Fld := ⟨A.HOSTIF_IN_BASE_LO, 15, 1⟩
abbrev HOSTIF_IN_BASE_HI_ADDR : Fld := ⟨A.HOSTIF_IN_BASE_HI, 7, 0⟩
abbrev HOSTIF_IN_LEN_LEN : Fld := ⟨A.HOSTIF_IN_LEN, 10, 0⟩
abbrev HOSTIF_OQ_BASE_LO_ADDR : Fld := ⟨A.HOSTIF_OQ_BASE_LO, 15, 2⟩
abbrev HOSTIF_OQ_BASE_HI_ADDR : Fld := ⟨A.HOSTIF_OQ_BASE_HI, 7, 0⟩
abbrev HOSTIF_OQ_WR_INDEX : Fld := ⟨A.HOSTIF_OQ_WR, 4, 0⟩
abbrev HOSTIF_OQ_RD_INDEX : Fld := ⟨A.HOSTIF_OQ_RD, 4, 0⟩
abbrev UART0_CTRL_RXIE : Fld := ⟨A.UART0_CTRL, 1, 1⟩
abbrev UART0_CTRL_EN : Fld := ⟨A.UART0_CTRL, 0, 0⟩
abbrev UART0_BAUD_DIV : Fld := ⟨A.UART0_BAUD, 12, 0⟩
abbrev UART0_STATUS_FERR : Fld := ⟨A.UART0_STATUS, 4, 4⟩
abbrev UART0_STATUS_OVR : Fld := ⟨A.UART0_STATUS, 3, 3⟩
abbrev UART0_STATUS_TXE : Fld := ⟨A.UART0_STATUS, 2, 2⟩
abbrev UART0_STATUS_TXNF : Fld := ⟨A.UART0_STATUS, 1, 1⟩
abbrev UART0_STATUS_RXNE : Fld := ⟨A.UART0_STATUS, 0, 0⟩
abbrev UART0_DATA_OCTET : Fld := ⟨A.UART0_DATA, 7, 0⟩
abbrev ASSAY_CTRL_EN : Fld := ⟨A.ASSAY_CTRL, 0, 0⟩
abbrev ASSAY_CMD_SLICE : Fld := ⟨A.ASSAY_CMD, 15, 8⟩
abbrev ASSAY_CMD_TARGET : Fld := ⟨A.ASSAY_CMD, 6, 0⟩
abbrev ASSAY_STATUS_REPAIR_ERR : Fld := ⟨A.ASSAY_STATUS, 10, 10⟩
abbrev ASSAY_STATUS_CMD_ERR : Fld := ⟨A.ASSAY_STATUS, 9, 9⟩
abbrev ASSAY_STATUS_RUNNING : Fld := ⟨A.ASSAY_STATUS, 8, 8⟩
abbrev ASSAY_STATUS_QUEUED : Fld := ⟨A.ASSAY_STATUS, 3, 0⟩
abbrev ASSAY_EVT_DONE : Fld := ⟨A.ASSAY_EVT, 0, 0⟩
abbrev ASSAY_REGION_LO_ADDR : Fld := ⟨A.ASSAY_REGION_LO, 15, 15⟩
abbrev ASSAY_REGION_HI_ADDR : Fld := ⟨A.ASSAY_REGION_HI, 7, 0⟩
abbrev ASSAY_VMAIN_MV : Fld := ⟨A.ASSAY_VMAIN, 11, 0⟩
abbrev ASSAY_RES_SLICE_SLICE : Fld := ⟨A.ASSAY_RES_SLICE, 15, 8⟩
abbrev ASSAY_RES_SLICE_TARGET : Fld := ⟨A.ASSAY_RES_SLICE, 6, 0⟩
abbrev ASSAY_RES_OUTCOME_ACTION : Fld := ⟨A.ASSAY_RES_OUTCOME, 15, 8⟩
abbrev ASSAY_RES_OUTCOME_OUTCOME : Fld := ⟨A.ASSAY_RES_OUTCOME, 3, 0⟩
abbrev CORE_ID_CORE (c : Nat) : Fld := ⟨A.CORE_ID c, 2, 0⟩
abbrev THR_SELF_THREAD (c : Nat) : Fld := ⟨A.THR_SELF c, 1, 0⟩
abbrev THR_STATE_STATE (c : Nat) : Fld := ⟨A.THR_STATE c, 7, 0⟩
abbrev THR_START_START (c : Nat) : Fld := ⟨A.THR_START c, 3, 0⟩
abbrev THR_KILL_KILL (c : Nat) : Fld := ⟨A.THR_KILL c, 3, 0⟩
abbrev THR_FAULT_FAULT (c : Nat) : Fld := ⟨A.THR_FAULT c, 3, 0⟩
abbrev THR_PC_LO_ADDR (c : Nat) (i : Nat) : Fld := ⟨A.THR_PC_LO c i, 15, 2⟩
abbrev THR_PC_HI_ADDR (c : Nat) (i : Nat) : Fld := ⟨A.THR_PC_HI c i, 7, 0⟩
abbrev THR_VEC_LO_ADDR (c : Nat) (i : Nat) : Fld := ⟨A.THR_VEC_LO c i, 15, 2⟩
abbrev THR_VEC_HI_ADDR (c : Nat) (i : Nat) : Fld := ⟨A.THR_VEC_HI c i, 7, 0⟩
abbrev THR_FADDR_HI_ADDR (c : Nat) (i : Nat) : Fld := ⟨A.THR_FADDR_HI c i, 7, 0⟩
end F

end Sys2Proof.Machine
end

