-- ==== Sys2Proof/Machine/Sparse.lean ====
section
/-! DEFINITION. Sparse maps in one canonical form: a list of (key, value) pairs with strictly rising keys, and no
entry equal to what an unlisted key reads as. Every memory, register file and table of State is one, so that
equal contents are equal data. -/
namespace Sys2Proof.Machine

/-- A sparse map from natural-number keys. -/
abbrev Sparse (α : Type) := List (Nat × α)

/-- Read a key: the listed value, else what an unlisted key reads as (`d`). -/
def sparseGet {α : Type} (d : Nat → α) : Sparse α → Nat → α
  | [], k => d k
  | (k', v) :: m, k => if k = k' then v else sparseGet d m k

/-- Put a pair in its place by key order. -/
def sparseInsert {α : Type} (k : Nat) (v : α) : Sparse α → Sparse α
  | [] => [(k, v)]
  | (k', v') :: m => if k < k' then (k, v) :: (k', v') :: m else (k', v') :: sparseInsert k v m

/-- Write a key: the key's old entry goes, and the new value is listed unless an unlisted key reads as it. -/
def sparseSet {α : Type} [DecidableEq α] (d : Nat → α) (m : Sparse α) (k : Nat) (v : α) : Sparse α :=
  let m' := m.filter (fun p => p.1 != k)
  if v = d k then m' else sparseInsert k v m'

/-- Drop every entry whose key lies in `[lo, hi)`: those keys read as unlisted keys again. -/
def sparseClear {α : Type} (m : Sparse α) (lo hi : Nat) : Sparse α :=
  m.filter (fun p => p.1 < lo || hi ≤ p.1)

/-- Change every listed value, keeping the canonical form. -/
def sparseMap {α : Type} [DecidableEq α] (d : Nat → α) (f : α → α) (m : Sparse α) : Sparse α :=
  m.foldl (fun acc p => sparseSet d acc p.1 (f p.2)) []

/-- The canonical form: keys strictly rising, no entry equal to what an unlisted key reads as. -/
def sparseWf {α : Type} [DecidableEq α] (d : Nat → α) : Sparse α → Bool
  | [] => true
  | [(k, v)] => v != d k
  | (k, v) :: (k', v') :: m => k < k' && v != d k && sparseWf d ((k', v') :: m)

end Sys2Proof.Machine
end

