-- ==== Sys2Proof/Machine/State.lean ====
section
/-! DEFINITION. The state of the CZ64: registers, memories, and what each block holds beside its registers. Plain
data throughout. A field whose docstring cites a rule is state the spec gives the machine; the model's own fields
(the queue of waiting commands, the free-value counter, the answer of the last read) say so. -/
namespace Sys2Proof.Machine

/-- A register file: 16-bit registers by key, unlisted keys at their reset value. -/
abbrev Regs := Sparse Half

/-- An octet memory: cells by address. -/
abbrev Memory := List Host.Cell

/-! ## Radio front ends (chapter 02) -/

/-- How far the enable sequence of R36 has come. -/
inductive FePhase where
  | off | locking | locked | corrected | ready
  deriving DecidableEq, Repr

/-- The three calibrations of R45, in the order in which they run. -/
inductive CalKind where
  | rc | dc | iq
  deriving DecidableEq, Repr

/-- A carrier granted or admitted on a band (R48 to R51): an acknowledgement or a scheduled frame. -/
structure Carrier where
  /-- Scheduled transmit entry (`some e`, R105), or acknowledgement (`none`, R50). -/
  entry : Option Nat
  /-- ASN bits 15-0 of the course in whose active plan the entry stood (R106), or of the acknowledged frame. -/
  asn : Nat
  /-- HF tick of the first preamble symbol (t_ACK or t_TX). -/
  start : Nat
  /-- HF tick of the end of the last symbol. -/
  stop : Nat
  started : Bool
  /-- A t_CT has ended the course of this scheduled carrier (R106). -/
  crossed : Bool
  mode : Nat
  ofs : Int
  /-- SUN FSK coding and its FEC scheme, as in a received frame, and PN9 whitening (R104, R120). -/
  coded : Bool := false
  fec : Nat := 0
  dw : Bool := false
  /-- The PSDU sent, FCS included, before whitening. -/
  psdu : List Byte
  deriving DecidableEq, Repr

/-- The phases of a burst (R56, R57). -/
inductive BurstPhase where
  | sequencing | driving | rampDown | driverOff
  deriving DecidableEq, Repr

/-- A burst in progress on a band. -/
structure Burst where
  /-- HF tick at which sequencing started. -/
  seq : Nat
  phase : BurstPhase
  /-- HF tick of t_EOT, once the ramp-down has started. -/
  eot : Option Nat
  /-- t_EOT of a burst whose mute had not ended when this one was sequenced: its ramp-down may still play (R52). -/
  prev : Option Nat := none
  deriving DecidableEq, Repr

/-- What a front end holds beside its registers. -/
structure Rfe where
  phase : FePhase := .off
  /-- HF tick of t_EN and of the instant "lock" (R36). -/
  tEn : Nat := 0
  tLock : Nat := 0
  /-- VANA_SUB or VANA_ISM regulator (R36, R38). -/
  regOn : Bool := false
  /-- Frequency of the LO synthesiser in 100 kHz, 0 while it is off (R32, R35). -/
  lo : Nat := 0
  /-- The LO synthesiser is locked (R36, R37). -/
  loLocked : Bool := false
  /-- Lock was lost and has not been back for 30 µs; and the band is unlocked: from the loss until it unmutes (R37). -/
  lost : Bool := false
  unlocked : Bool := false
  /-- A disable waits for the end of the burst's mute (R38). -/
  disablePend : Bool := false
  /-- Causes of a mute beside the disabled band: a burst (R58), a calibration (R45), a Plumb session (R192), an
  ASSAY slice of the band (R368). -/
  muteBurst : Bool := false
  muteCal : Bool := false
  mutePlumb : Bool := false
  muteAssay : Bool := false
  /-- Highest referred level of the course so far, in dB (R39). -/
  levelHi : Option Int := none
  /-- Inside the level window that is open, the gain changed; a mute (a calibration mutes too) ended (R39). -/
  gainMoved : Bool := false
  muteIn : Bool := false
  /-- HF tick t_OVL of a declared overload whose step is under way (R42), and whether the analogue gain has stepped. -/
  ovl : Option Nat := none
  ovlStepped : Bool := false
  /-- HF tick from which conversions stand in the clip window, and the tick before which the window is not full (R42,
  R43). -/
  clipFrom : Nat := 0
  clipFull : Nat := 0
  /-- Die temperature, in 0.25 °C, at the last RC and the last IQ run (R45). -/
  rcTemp : Option Int := none
  iqTemp : Option Int := none
  /-- The calibration that runs (R45). -/
  cal : Option CalKind := none
  /-- Lock was lost during the calibration that runs (R46). -/
  calLost : Bool := false
  /-- HF tick at which the band was last unmuted (R105: a mute during a CCA window). -/
  lastUnmute : Nat := 0
  /-- DC table: I and Q offset by gain index (R45). -/
  dc : List (Half × Half) := List.replicate 15 (0, 0)
  /-- RC code, receive and transmit IQ corrections, and DC table index applied to the path (R36, R46, R57). -/
  rcApplied : Nat := 0
  iqApplied : Half × Half × Half × Half := (0, 0, 0, 0)
  dcApplied : Nat := 0
  /-- Granted and admitted carriers that have not ended. -/
  carriers : List Carrier := []
  /-- Carriers of the burst that have ended: their ramp-down may still play (R51). -/
  fading : List Carrier := []
  burst : Option Burst := none
  /-- Driven levels of the six FEM balls (bit n: ball n) and which pins have made their RX to TX edge (R54). -/
  femPins : BitVec 6 := 0
  femTx : BitVec 6 := 0
  /-- TX to RX edges still to come of a burst that another followed within its mute: pin and HF tick (R54). -/
  femDue : List (Fin 6 × Nat) := []
  deriving DecidableEq, Repr

/-! ## Demodulation lanes and frames (chapters 03 to 05) -/

/-- The MACF decision on a frame (R109). -/
inductive MacfRes where
  | undecided
  | passed (dclass : Nat)
  | dropped
  deriving DecidableEq, Repr

/-- What ASHLAR has worked out for a frame (R133 to R138). -/
structure Check where
  /-- Verdict code of the first failed check of steps 1 to 15, if one failed. -/
  failed : Option Nat
  tenant : Nat
  eui : BitVec 64
  keyIndex : Nat
  counter : Nat
  level : Nat
  /-- The sender was not found at step 9 and holds a pending admission. -/
  admission : Bool
  /-- Frame key of R136. -/
  key : List Byte
  /-- Outcome of the tag comparison (R138). -/
  mic : Option Bool
  /-- The private payload is written decrypted (R135). -/
  dec : Bool
  deriving DecidableEq, Repr

/-- A hand-off (R76 to R78). -/
structure Handoff where
  status : Half
  rssi : Half
  lqi : Nat
  tsEof : Nat
  fcsErr : Bool
  cut : Bool
  /-- ASN of the course in which t_EOF falls (R115), and the t_CT of that course. -/
  asn : Nat
  ct : Nat
  deriving DecidableEq, Repr

/-- A frame from preamble detection to its settlement by the Hod. -/
structure Frame where
  /-- Serial number of the frame in the model (the model's own name for it). -/
  fid : Nat
  lane : Nat
  band : Band
  mode : Nat
  ofs : Int
  /-- The lane keeps knock watch (R84). -/
  knock : Bool
  fofs : Half
  dfe : Bool
  coded : Bool
  /-- FEC scheme with which a coded frame is decoded: 0 NRNSC, 1 RSC with interleaving (R69). -/
  fec : Nat
  dw : Bool
  fcs32 : Bool
  len : Nat
  octets : List Byte
  tsSfd : Nat
  /-- t_CT of the course in which TS_SFD falls (R121). -/
  sfdCt : Nat
  gstepN : Nat
  eras : Nat
  /-- HF tick at which each erased DFE symbol starts (R82, R83). -/
  erased : List Nat
  xcourse : Bool
  macf : MacfRes
  buf : Option Nat
  check : Option Check
  /-- Verdict octet once fixed (R134). -/
  verdict : Option Nat
  /-- Frame Pending fixed at the commit (R120, R143). -/
  pending : Bool
  /-- The commit has been made or ruled out (R142). -/
  committed : Bool
  handoff : Option Handoff
  /-- The Hod has placed the frame in order (R113). -/
  placed : Bool
  /-- The Hod has settled the frame (R114). -/
  settled : Bool
  deriving DecidableEq, Repr

/-- What a logical lane holds beside its registers. -/
structure Lane where
  /-- Entry deferred to the hand-off: LANE_CUR0 and LANE_CUR1 words (R66). -/
  deferred : Option (Half × Half) := none
  /-- Serial of the frame in reception. -/
  frame : Option Nat := none
  /-- Digital gain in 0.01 dB with its compensation: whole dB within 0 to 90 from each return to SEARCH to the next
  marker (R74, R81). No rule gives its first value: 0 dB at reset and after an ASSAY return (DESIGN CHOICE, log entry 68). -/
  dgain : Int := 0
  /-- The NCO in 100 Hz: minus the channel offset and, from PREAMBLE on, minus the estimated offset (R72, R75); and
  whether the band's receive image correction is applied (R72). -/
  nco : Int := 0
  iqc : Bool := true
  /-- The adaptive notch: the tone that it is engaged on and follows, as its offset from the channel in 100 Hz (R73). -/
  notch : Option Int := none
  /-- HF tick at which the SFD timeout started (R75). -/
  sfdFrom : Nat := 0
  /-- DFE taps in 2^-15, the eight feed-forward ones first, and the exponent of the LMS step in force (R79); at reset, as R79
  resets them (DESIGN CHOICE, log entry 68). `adapts` is the HF tick from which they adapt, none while they are held. -/
  taps : List Int := [0, 0, 0, 32768, 0, 0, 0, 0, 0, 0, 0, 0]
  mu : Nat := 0
  adapts : Option Nat := none
  /-- DFE adaptation is frozen, until the HF tick `thaw` (R79, R82, R83). -/
  frozen : Bool := false
  thaw : Nat := 0
  deriving DecidableEq, Repr

/-- What the recorder holds beside its registers (R86 to R88). -/
structure Rec where
  /-- HF tick of the ARM write. -/
  tArm : Nat := 0
  /-- Groups recorded since ARMED in the pre-trigger ring, and the ring's next index. -/
  held : Nat := 0
  ring : Nat := 0
  /-- Groups completed from the trigger group on, and how many of them were lost to a full FIFO (R88). -/
  post : Nat := 0
  lost : Nat := 0
  /-- Extension FIFO: groups waiting for general SRAM with their group index (R88). -/
  fifo : List (Nat × BitVec 128) := []
  deriving DecidableEq, Repr

/-! ## COURSE, MACF and the Hod (chapter 04) -/

/-- A duty-cycle account's time in use (R108): the HF tick at which the open bucket ends, and the buckets in 10 µs
units, the open one first, 17 at most. -/
structure Buckets where
  roll : Nat := 0
  used : List Nat := []
  deriving DecidableEq, Repr

/-- The course whose end a pending COURSE_ADJ moves (R94). -/
inductive AdjTarget where
  | none | current | following
  deriving DecidableEq, Repr

/-- What COURSE holds beside its registers. -/
structure Course where
  /-- HF tick of the t_CT of the course in progress and of the next t_CT (R91). -/
  ct : Nat := 0
  nextCt : Nat := 0
  /-- The next t_CT is the first after a start: no ASN advance, no lateness (R94, R102). -/
  first : Bool := false
  /-- Selection made at t_PL (R102): `some true` swap, `some false` repeat. -/
  sel : Option Bool := none
  /-- A stop is pending (R93), and a start waits for it. -/
  stopPend : Bool := false
  restart : Bool := false
  /-- t_PL of the coming t_CT has passed (R93, R103). -/
  locked : Bool := false
  /-- A check of the shadow buffer runs (R101). -/
  checking : Bool := false
  /-- The copy of the active buffer into the shadow runs (R103), and the shadow writes (`some`) and COMMITs (`none`)
  that wait for its end, in order (R102, R103). -/
  copying : Bool := false
  stalled : List (Option (Nat × Half)) := []
  /-- The course whose end the pending COURSE_ADJ moves (R94). -/
  adj : AdjTarget := .none
  /-- Transmit-end FIFO (R106). -/
  txend : List (Half × Half) := []
  /-- CCA results of this course by transmit entry: `some busy`, or `none` where the band was muted (R105, R107). -/
  cca : List (Nat × Option Bool) := []
  /-- Transmit entries of the active plan that are not to be sent again: the plan repeats (R102). -/
  repeated : Bool := false
  /-- Entries of the active plan already tested in this course (R105). -/
  tested : BitVec 8 := 0
  /-- Buckets of the eight duty-cycle accounts (R108). -/
  duty : Vector Buckets 8 := Vector.replicate 8 {}
  /-- Grants of the previous course per band, its ASN and its t_CT (R115, R121). -/
  prevSub : Nat := 0
  prevIsm : Nat := 0
  prevAsn : Nat := 0
  prevCt : Nat := 0
  deriving DecidableEq, Repr

/-- What the Hod holds beside its registers (R113 to R116). -/
structure Hod where
  /-- Buffers in use, by index. -/
  bufs : List Nat := []
  /-- Buffer of each descriptor not yet consumed, by ring index 0-511. -/
  descBuf : List (Nat × Nat) := []
  /-- The last acknowledgement built (R119), as sent. -/
  lastAck : List Byte := []
  deriving DecidableEq, Repr

/-! ## ASHLAR (chapter 05) -/

/-- An Ashlar entry (R124). A free way is the all-zero entry. -/
structure AEntry where
  eui : BitVec 64 := 0
  hwm : BitVec 32 := 0
  valid : Bool := false
  pending : Bool := false
  quarantine : Bool := false
  dirty : Bool := false
  tenant : BitVec 12 := 0
  heard : Byte := 0
  epoch : Byte := 0
  deriving DecidableEq, Repr

/-- A tenant of the tenant store (R130). -/
structure Tenant where
  root : Option (List Byte) := none
  en : Bool := false
  auto : Bool := false
  grace : Bool := false
  usage : Nat := 24
  epoch : Nat := 0
  quota : Nat := 0
  rate : Nat := 0
  cntFull : Nat := 0
  cntQuota : Nat := 0
  cntMic : Nat := 0
  cntReplay : Nat := 0
  /-- Times the tenant has passed step 15 in the course in progress (R133). -/
  rateCount : Nat := 0
  deriving DecidableEq, Repr

/-- A lease-log record handed to NVMC (R146, R147): the state of the entry that it was made of. -/
structure LeaseRec where
  /-- KIND of R147: LEASE, or DELETE (`false`). -/
  lease : Bool
  eui : BitVec 64
  tenant : BitVec 12
  epoch : Byte
  quarantine : Bool
  /-- block(HWM) + 256, or 0 for DELETE. -/
  value : Nat
  deriving DecidableEq, Repr

/-- What ASHLAR holds beside its registers. -/
structure Ashlar where
  /-- The table: way `4 * bucket + way` (R123). -/
  ways : Sparse AEntry := []
  /-- The 64-entry stash, in place order (R123). -/
  stash : List AEntry := []
  /-- Hash key in force, none before the first is drawn, and the old key while a rebuild runs (R126, R150). -/
  hk : List Byte := []
  oldHk : Option (List Byte) := none
  tenants : Sparse Tenant := []
  /-- Dirty queue, and the senders whose DELETE record has not been handed on (R146, R152). -/
  dirtyQ : List (BitVec 64) := []
  deletes : List LeaseRec := []
  /-- The record handed to NVMC and not yet reported (R146), whether a reclamation wrote it (R148), and whether the entry it was made
  of is gone since: an entry inserted again for the same sender is another one (R146). -/
  leaseOut : Option LeaseRec := none
  outFresh : Bool := false
  outGone : Bool := false
  /-- A reclamation under way (R148): the segment, and the senders whose fresh record is still to be handed over. -/
  reclaim : Option (Nat × List (BitVec 64)) := none
  /-- The rebuild or restore under way has not drawn its hash key yet (R149, R150). -/
  wantHk : Bool := false
  /-- The rebuild under way has visited every place (R150). -/
  replaced : Bool := false
  /-- The entry operation under way: its code and the RESULT it will write (R152). -/
  op : Option (Nat × Nat) := none
  deriving DecidableEq, Repr

/-- The radio half of the chip. -/
structure Radio where
  sub : Rfe := {}
  ism : Rfe := {}
  lanes : Sparse Lane := []
  frames : List Frame := []
  /-- Serial of the next frame. -/
  nextFid : Nat := 0
  recd : Rec := {}
  course : Course := {}
  hod : Hod := {}
  ashlar : Ashlar := {}
  deriving DecidableEq, Repr

/-! ## CRYPTO, PKE, TRNG and KEYS (chapter 06) -/

/-- A job running on an AES core (R157 to R159). -/
structure Job where
  /-- AES core, and ring index 0-31 of the descriptor. -/
  core : Nat
  idx : Nat
  slot : Nat
  irq : Bool
  /-- STATUS with which the job will end, the octets it will have written to DST, and the issued counter. -/
  status : Nat
  dst : Nat
  out : List Byte
  issued : Option Nat
  deriving DecidableEq, Repr

/-- What CRYPTO holds beside its registers. -/
structure Crypto where
  /-- Submitter of each descriptor 0-15 (Lintel core 0 or 1) (R160). -/
  submitter : List Nat := List.replicate 16 0
  jobs : List Job := []
  /-- Ring index of the descriptor to be started next (R160). -/
  next : Nat := 0
  /-- Ring indices whose word 18 has been written, ahead of RD (R160). -/
  written : List Nat := []
  /-- EN = 0 waits for the running jobs (R160). -/
  stopPend : Bool := false
  deriving DecidableEq, Repr

/-- A key slot (R171): attributes, key octets, uses left U, floor F, counter C and its lease L (R161). For a P256 slot
the key octets hold the private key. -/
structure Slot where
  attr0 : Half := 0
  attr1 : Half := 0
  /-- USES at load (R171). -/
  uses : Nat := 0
  key : List Byte := []
  u : Nat := 0
  f : Nat := 0
  c : Nat := 0
  l : Nat := 0
  deriving DecidableEq, Repr

/-- A KEYS command as written: code, submitting Lintel core, KEYS_ARG0 to 3 (R173); an LC_CHANGE that has been judged and
refused (R178). -/
structure KeysCmd where
  op : Nat
  core : Nat
  args : List Half
  refused : Bool := false
  deriving DecidableEq, Repr

/-- Phases of a life-cycle transition (R180). -/
inductive LcPhase where
  | none
  /-- A transition under way toward a state code, with its transition signature r ‖ s, empty where there is none (R178). -/
  | running (target : Nat) (cert : List Byte)
  /-- The transition is made, and the reset waits for the response of KEY LC_CHANGE to leave (R341). -/
  | written
  deriving DecidableEq, Repr

/-- What KEYS holds beside its registers. Its stores, which no bus reaches, are MRAM (R168, R170, R180). -/
structure Keys where
  slots : Sparse Slot := []
  /-- Valid life-cycle nonce (R173). -/
  nonce : Option (List Byte) := none
  lcPhase : LcPhase := .none
  /-- The command in progress (R174). -/
  cmd : Option KeysCmd := none
  /-- A use or counter lease commit in progress (R161): slot, new F, new L. -/
  commit : Option (Nat × Nat × Nat) := none
  /-- Slots whose last use has been taken (R162). -/
  lastUse : List Nat := []
  deriving DecidableEq, Repr

/-- A SHA-256 computation in progress (R163): hash words, octets not yet hashed, octets taken in all. -/
structure Sha where
  h : List (BitVec 32)
  buf : List Byte
  len : Nat
  deriving DecidableEq, Repr

/-- A PKE operation as written: code, SLOT, ID, requester, ARG, DSLOT and LEN (R163, R164). -/
structure PkeCmd where
  op : Nat
  slot : Nat
  ident : Bool
  core : Nat
  arg : Nat
  dslot : Nat
  len : Nat
  deriving DecidableEq, Repr

/-- What PKE holds beside its registers. -/
structure Pke where
  sha : Option Sha := none
  /-- The operation in progress. -/
  cmd : Option PkeCmd := none
  /-- KEYS holds PKE (R165). -/
  held : Bool := false
  deriving DecidableEq, Repr

/-- What the TRNG holds beside its registers (R166, R167). -/
structure Trng where
  /-- Requests served since the last reseed, and whether RESEED waits for the next request. -/
  requests : Nat := 0
  reseed : Bool := false
  /-- The bits that TRNG_OUT holds while OUT_VALID = 1 (R166). -/
  out : Half := 0
  /-- Count of DRBG octets drawn: the argument of the free octets (the model's own field). -/
  drawn : Nat := 0
  deriving DecidableEq, Repr

/-! ## Enclosure access (chapter 07) -/

/-- A token session (R182, R187 to R195). -/
structure Session where
  /-- Slot of the access root (R189). -/
  slot : Nat := 0
  token : BitVec 64 := 0
  /-- Class: 1 S, 2 M. -/
  cls : Nat := 0
  ver : Nat := 0
  session : Nat := 0
  na : List Byte := []
  nt : List Byte := []
  k : List Byte := []
  str : List Byte := [0, 0, 0, 0]
  /-- Verdict on the way to LOG. -/
  verdict : Option Nat := none
  /-- Largest d_k and rounds passed of a Plumb session (R201). -/
  dmax : Option Int := none
  passed : Nat := 0
  /-- What the KNOCK offered: classes and versions (R188); check 14 repeats 5 and 6 (R198). -/
  offered : Nat := 0
  vmin : Nat := 0
  vmax : Nat := 0
  deriving DecidableEq, Repr

/-- One measured round of PLUMB (R194): arrival offset t_coarse in 1/16 ns, the phases in 1/1024 turn, the bit. -/
structure Round where
  coarse : Int
  pa1 : Nat
  pa2 : Nat
  bit : Bool
  detected : Bool
  deriving DecidableEq, Repr

/-- A pulse of PLUMB (R193): the levels of FEM_I, its tones in MHz, their total level as RFE_TX_TOTAL, and whether its second
half is inverted. -/
structure Pulse where
  pins : BitVec 6
  f1 : Nat
  f2 : Nat
  level : Nat
  invert : Bool
  deriving DecidableEq, Repr

/-- What ACCESS, PLUMB and LF hold beside their registers. -/
structure Access where
  sess : Session := {}
  /-- HF ticks of t_K, t_L, of the Plumb request and of t_PS (R182, R193). -/
  tK : Nat := 0
  tL : Nat := 0
  tReq : Nat := 0
  tPs : Nat := 0
  /-- HF tick of the last hand-off of an RFE_ISM lane (R192). -/
  lastIsm : Option Nat := none
  /-- KNOCKs that wait for tuning to end, the oldest first (R185). -/
  waitKnock : List (List Byte) := []
  /-- Octets of the LF telegram of the session, preamble and sync word first (R187); what was last sent: the antenna and
  the octets, none where its driver was excluded. -/
  telegram : List Byte := []
  lfSent : Option (Nat × List Byte) := none
  /-- Enrolment and revocation tables as copied (R200): token ID and class; token IDs. -/
  enrol : List (BitVec 64 × Nat) := []
  revoked : List (BitVec 64) := []
  /-- Levels driven on LOCK_A and LOCK_B (R199). -/
  lockA : Bool := false
  lockB : Bool := true
  /-- HF tick at which a release pulse ends (R199). -/
  relEnd : Nat := 0
  /-- Access records not yet committed, the oldest first: the payload words, and whether it is the record of the session
  that waits in LOG (R182, R201). -/
  records : List (List Half × Bool) := []
  /-- Poll schedule (R186): ms since the last schedule event, and ms until the next burst. -/
  since : Nat := 0
  toBurst : Nat := 250
  /-- A burst or telegram is in progress: true for a telegram. -/
  burst : Option Bool := none
  /-- Drivers switched off for the rest of the burst (R184). -/
  offDrv : BitVec 4 := 0
  /-- Drivers whose tuning is requested, and those being tuned (R185). -/
  tuneReq : BitVec 4 := 0
  tuning : BitVec 4 := 0
  /-- PLUMB: challenge bits and the rounds measured (R193, R194). -/
  chal : BitVec 32 := 0
  rounds : List Round := []
  /-- PLUMB: the output ball is disconnected; the pulse last sent (R193). -/
  loopBack : Bool := false
  pulse : Option Pulse := none
  /-- Gain of RFE_ISM before the session, restored at t_PS + 168 µs (R193). -/
  savedGain : Nat := 0
  deriving DecidableEq, Repr

/-- Plinth lock-out state beside its registers (R196): times of the last failures, newest first. -/
abbrev FailRing := List Nat

/-! ## Cores (chapters 08 and 09) -/

/-- Thread states (R232). -/
inductive ThrState where
  | dead | ready | run | wait
  deriving DecidableEq, Repr

/-- Where a pending result lands (R222). -/
inductive Target where
  | d (i : Fin 16)
  | p (i : Fin 8)
  /-- Bits 23-16 of a pointer (LPH). -/
  | pHi (i : Fin 8)
  | lr
  /-- A control register by its CR number (R220). -/
  | cr (n : Nat)
  /-- The flags of PSW alone: an MTC to PSW in unprivileged mode (R240). -/
  | flags
  deriving DecidableEq, Repr

/-- A pending result: it lands for the position `pos`. -/
structure Pending where
  pos : Nat
  tgt : Target
  val : Nat
  deriving DecidableEq, Repr

/-- A hardware thread (R205). -/
structure Thread where
  st : ThrState := .dead
  d : Vector Half 16 := Vector.replicate 16 0
  p : Vector Ptr 8 := Vector.replicate 8 0
  lr : Ptr := 0
  lc0 : Half := 0
  lc1 : Half := 0
  ls0 : Ptr := 0
  ls1 : Ptr := 0
  le0 : Ptr := 0
  le1 : Ptr := 0
  psw : Half := 0
  epc : Ptr := 0
  cause : Half := 0
  pc : Ptr := 0
  /-- Position of the next instruction (R222). -/
  pos : Nat := 0
  pend : List Pending := []
  /-- The next instruction is a delay slot: address of the branch and where execution goes after the slot (R225). -/
  slot : Option (Ptr × Ptr) := none
  /-- In WAIT: address of the WAIT and, where the WAIT is a delay slot, of its branch (R243). -/
  waitAt : Option (Ptr × Option Ptr) := none
  /-- Where a blocked WAIT goes on if a loop starts at an address that is no multiple of 4: a free address. -/
  waitNext : Ptr := 0
  /-- Asynchronous exceptions held until EXL = 0 (R239, R243, R252): STALL, WDOG. -/
  holdStall : Bool := false
  holdWdog : Bool := false
  /-- TROWEL: halt requested, halted, and the register selected by RSEL (R406). -/
  haltReq : Bool := false
  halted : Bool := false
  rsel : Byte := 0
  /-- TROWEL: a step runs; the first instruction after a RESUME or STEP does not match the slot that halted it (R406). -/
  stepping : Bool := false
  passed : Option (Fin 4) := none
  deriving DecidableEq, Repr

/-- An MPU window (R247). -/
structure Window where
  base : Ptr := 0
  limit : Ptr := 0
  attr : Half := 0
  deriving DecidableEq, Repr

/-- A core: threads and windows, and its watchdog (R252). -/
structure Core where
  thr : Vector Thread 4 := Vector.replicate 4 {}
  win : Vector Window 8 := Vector.replicate 8 {}
  /-- The thread that runs, or ran last (R234). -/
  cur : Fin 4 := 0
  /-- Watchdog stage: 0 stopped, 1 or 2 counting; held while the core is held or halted. -/
  wdStage : Nat := 0
  /-- Breakpoint slots: address and enable, the thread each names, and BKHIT (R404, R406, R407). -/
  bkpt : Vector (Ptr × Bool) 4 := Vector.replicate 4 (0, false)
  bkthr : Vector (Fin 4) 4 := Vector.replicate 4 0
  bkhit : Bool := false
  deriving DecidableEq, Repr

/-! ## NVMC, PMU, SYSCTL, Plinth, TIMER (chapters 10 to 12) -/

/-- Sources of NVMC in their order of service (R277). -/
inductive NvSource where
  | keys | assay | access | lease | firmware
  deriving DecidableEq, Repr

/-- A record request at NVMC: source, TYPE, VER, payload, SEQ. -/
structure NvReq where
  src : NvSource
  typ : Nat
  ver : Nat
  payload : List Half
  seq : Half
  deriving DecidableEq, Repr

/-- What NVMC holds beside its registers. -/
structure Nvm where
  /-- Records at the request ports, in order of arrival (R277). -/
  reqs : List NvReq := []
  /-- The firmware command in progress: its code and ARG0 to ARG4 (R278). -/
  cmd : Option (Nat × List Half) := none
  /-- The source that NVMC serves (R277). -/
  cur : Option NvSource := none
  /-- The model's own, `none` between commands: while a cut of NVMC's work is worked out (R267, R276), the words still to be
  written whole, and how the next word then reads: 0 old, 1 new, 2 uncorrectable. -/
  left : Option (Nat × Nat) := none
  /-- Where appending resumes in each region: configuration, lease, event log (byte address; 0: none open). -/
  posCfg : Nat := 0
  posLease : Nat := 0
  posEvt : Nat := 0
  /-- Freed segments whose background erase has not completed, by base address (R275). -/
  erasing : List Nat := []
  /-- The lease segment whose header copies are being written to 0xFFFF (R275, R276), by base address. -/
  freeing : Option Nat := none
  /-- NVMC has made its scan since the reset: until then NVMC_FREE holds its reset value (R7, R275). -/
  scanned : Bool := false
  deriving DecidableEq, Repr

/-- Where a sleep entry stands (R287). -/
inductive SleepPhase where
  | awake
  /-- Entry under way to NAP (1) or SHELF (2) or PLINTH (3); a wake source has risen if `woken`. -/
  | entering (state : Nat) (woken : Bool)
  | asleep (state : Nat)
  deriving DecidableEq, Repr

/-- What PMU and SYSCTL hold beside their registers. -/
structure Sys where
  /-- XO_HF runs (R27, R90, R291). -/
  xoRun : Bool := false
  /-- The PLL has been started (R291). -/
  pllOn : Bool := false
  /-- A level change: the request that waits, and the change in progress: its target and whether the divider has
  switched (R283 to R285). -/
  plPend : Option Nat := none
  plChange : Option (Nat × Bool) := none
  sleep : SleepPhase := .awake
  /-- Wake sources that have risen during entry or sleep (R288). -/
  risen : BitVec 9 := 0
  /-- The wake sources that the sleep knows, as PMU_WAKE_EN stood at the entry (R288, R290). -/
  wakeEn : BitVec 9 := 0
  /-- The device is in reset, waiting for its release (R295), and the bit number of the last reset's cause. -/
  inReset : Bool := false
  cause : Nat := 0
  /-- The device has halted after a sag (R293, R294). -/
  halted : Bool := false
  /-- VIO is present (R279). -/
  vio : Bool := true
  /-- Lintel firmware runs (after the jump of R297 step 7); the boot ROM serves Adsin: in recovery, or the SYS class
  alone in BLANK and SCRAPPED (R297, R340). -/
  fwRun : Bool := false
  recovery : Bool := false
  romSys : Bool := false
  /-- DMA channels as started: source, destination, halfwords (R300). -/
  dma : List (Nat × Nat × Nat) := [(0, 0, 0), (0, 0, 0), (0, 0, 0), (0, 0, 0)]
  /-- Host I/O: the notch in progress, the head message's length has been shown, HCS_N low (R331). -/
  notch : Bool := false
  shown : Bool := false
  /-- A transaction has set BADOP, BADFRM or WRBUSY since the last status word (R326). -/
  spiErr : Bool := false
  /-- What the device drove in the latest transaction, clock by clock (R325): in 1-1-1 the level on HIO1, in 1-4-4 the nibble on
  HIO3 to HIO0; none where it drove no ball. -/
  hio : List (Option Nat) := []
  deriving DecidableEq, Repr

/-- What the Plinth domain holds beside its registers. -/
structure Plinth where
  powered : Bool := true
  /-- Trim accumulator (R304). -/
  acc : Int := 0
  shiftFwd : Bool := false
  almLate : Bool := false
  /-- Raw XO_LF ticks since power-up; the count at the edge that opened the trim window and at the one that it closes at, the
  reference seconds counted in it, the mains cycles of the second in progress, and the last edge of PPS_IN (R310, R311). -/
  raw : Nat := 0
  winOpen : Option Nat := none
  refs : Nat := 0
  cycles : Nat := 0
  closeAt : Option Nat := none
  lastPps : Option Nat := none
  /-- Mains detector (R313): last counted edge in raw ticks, an edge has been counted since detection started, consecutive
  in-tolerance edges. -/
  lastMains : Option Nat := none
  detect : Bool := false
  good : Nat := 0
  /-- Failure times of R196, newest first. -/
  ring : FailRing := []
  deriving DecidableEq, Repr

/-- What a TIMER channel holds beside its registers (R318 to R323): the count as it stood at an HF tick from which it is
counted on, the captured value in full, and a capture held for one cycle. -/
structure Timer where
  base : Nat := 0
  since : Nat := 0
  late : Bool := false
  cap : Nat := 0
  /-- A capture that came in the cycle of a read and is held, and the HF tick of that (R323). -/
  held : Option Nat := none
  heldAt : Nat := 0
  /-- The HF tick of the last read of CAP_LO. -/
  readAt : Option Nat := none
  /-- The HF tick of the last edge at the ball that the channel selects, while that may have begun a pulse too short to capture; and the
  capture that lands if it has not (R322). -/
  edgeAt : Option Nat := none
  due : Option Nat := none
  /-- The HF tick of the last auto-add, and the low word of CMP before it (R321). -/
  added : Option (Nat × Half) := none
  /-- A low word of CNT or of CMP has been written and is held until its high word is (R26). -/
  cntHeld : Bool := false
  cmpHeld : Bool := false
  deriving DecidableEq, Repr

/-! ## Host interface and Adsin (chapter 13) -/

/-- What UART0 holds beside its registers: FIFOs and the frame receiver (R332). -/
structure Uart where
  rx : List Byte := []
  tx : List Byte := []
  /-- The last octet outside a frame was 0xA5. -/
  a5 : Bool := false
  /-- The receiver is inside a frame; the octets of it that have come behind 0xA5 0x5A. -/
  inFrame : Bool := false
  frame : List Byte := []
  deriving DecidableEq, Repr

/-- What an outstanding request waits for (R335, R341). -/
inductive Await where
  | nothing | plSet | feEn (b : Band) | courseStop | tune | timeShift | keys | nvmc | entryOp | planCheck | tblLoad
  /-- The CRYPTO job at a ring index, whose result of so many octets lies at an address. -/
  | crypto (idx dst n : Nat)
  deriving DecidableEq, Repr

/-- What the firmware does once a response has left (R341): the device reset of SYS RESET; that of KEY LC_CHANGE, once the
transition is made; the sleep of PWR SLEEP, with the values of PMU_WAKE_EN, of the timer and of PMU_SLEEP. -/
inductive After where
  | reset
  | lc
  | sleep (wake : Half) (timer : Nat) (st : Nat)
  deriving DecidableEq, Repr

/-- An outstanding request of a channel (R336): class, command, SEQ, its response once made, what it waits for, its
payload while its block is busy with another request, the words its response begins with, and what follows its
response. -/
structure Request where
  cls : Nat
  cmd : Nat
  seq : Half
  resp : Option (List Half) := none
  wait : Await := .nothing
  held : Option (List Half) := none
  first : List Half := []
  after : Option After := none
  deriving DecidableEq, Repr

/-- A message in a channel's outbound queue. -/
structure Msg where
  event : Bool
  words : List Half
  after : Option After := none
  deriving DecidableEq, Repr

/-- An Adsin channel (R324, R336 to R339). -/
structure Channel where
  version : Option Nat := none
  mask : List Half := List.replicate 12 0
  evtSeq : Half := 0
  outstanding : List Request := []
  outq : List Msg := []
  /-- The words of an inbound message that have come over a mailbox so far (R333). -/
  part : List Half := []
  /-- Octets (UART0) or words (mailboxes) of the head message that have left. -/
  sendPos : Nat := 0
  requests : Nat := 0
  busy : Nat := 0
  dropped : Nat := 0
  discarded : Nat := 0
  deriving DecidableEq, Repr

/-- A SEND accepted from a channel (R341): course ASN, entry index, channel. -/
structure Sent where
  asn : Nat
  entry : Nat
  chan : Nat
  deriving DecidableEq, Repr

/-- A schedule of ASSAY slices (R374): target mask, period in courses, courses gone by since the last request, the target last
requested, and the targets to be requested again ahead of the rotation. -/
structure Sched where
  mask : List Half := []
  period : Nat := 0
  gone : Nat := 0
  last : Option Nat := none
  redo : List Nat := []
  deriving DecidableEq, Repr

/-- Lintel firmware's Adsin state. -/
structure Adsin where
  chans : Vector Channel 6 := Vector.replicate 6 {}
  /-- Frame routes: tenant (or 0xFFFF) to destination and REJECT delivery; unlisted: HOSTSPI without (R341). -/
  routes : Sparse (Nat × Bool) := []
  sent : List Sent := []
  /-- Schedules by slice number (R374). -/
  schedules : Sparse Sched := []
  /-- Statistics per slice number: runs, failures, last outcome, last target. -/
  sliceStats : Sparse (Nat × Nat × Nat × Nat) := []
  /-- SEND requests accepted for a course whose plan is not yet made: the transmit entry words 0 to 2 and the PSDU octets
  by course ASN and entry (R341). -/
  later : List (Nat × Nat × List Half × List Byte) := []
  /-- Transmit entries that SEND has placed in the shadow buffer, by the ASN of their course. -/
  placed : List (Nat × Nat) := []
  /-- The HF tick 100 ms after a SYS RESET response was queued (R341). -/
  resetAt : Option Nat := none
  /-- The message of firmware's that stands in the HOSTIF queue. -/
  spiHead : Option (List Half) := none
  deriving DecidableEq, Repr

/-! ## Fabric, ASSAY, update, pins and debug (chapters 14 to 17) -/

/-- A neighbour of the anchor fabric (R349 to R351). -/
structure Neighbour where
  eui : BitVec 64
  /-- Of its latest HELLO: short address, RANK, JOINED and OPEN, VMIN, VMAX, HRMIN, HRMAX, ASN and TS_SFD, and below the root's
  EUI-64, ROOT, and the number of children. -/
  addr : Nat
  rank : Nat
  joined : Bool
  opened : Bool
  vMin : Nat
  vMax : Nat
  hrMin : Nat
  hrMax : Nat
  asn : Nat
  tsSfd : Nat
  root : BitVec 64
  isRoot : Bool
  children : Nat
  /-- PHY mode of the latest HELLO. -/
  mode : Nat
  /-- The last 8 expected HELLOs of the backbone and the fallback band, newest first: the LQI, or none where missed; and
  the ASN up to which they are counted. -/
  bb : List (Option Nat)
  fb : List (Option Nat)
  bbAsn : Nat
  fbAsn : Nat
  /-- The link uses the backbone (R350). -/
  backbone : Bool
  /-- Unicasts in a row that were not acknowledged (R356). -/
  fails : Nat
  /-- HF tick of the last VERSION event (R351). -/
  verEvt : Option Nat
  deriving DecidableEq, Repr

/-- A route: destination address, next-hop neighbour, ASN of its last refresh, and installed by JOIN_RSP across a version 1
link (R354). -/
structure Route where
  dest : Nat
  hop : BitVec 64
  seen : Nat
  fixed : Bool
  deriving DecidableEq, Repr

/-- How far a fabric frame has come on its way out (R345, R347): not yet secured; in a CCM_ENC job at a ring index, whose result of
so many octets will lie at an address; secured; in a transmit entry of the plan of a course; or without a key. -/
inductive Fstage where
  | waiting
  | job (idx dst n : Nat)
  | ready (psdu : List Byte)
  | placed (psdu : List Byte) (asn entry : Nat)
  | failed
  deriving DecidableEq, Repr

/-- A unicast frame on the outbound queue (R355): TYPE, next hop, the MAC payload, SEQ of a host frame, times sent, and the
backbone or the fallback band from its first transmit entry on (R350). -/
structure Fmsg where
  typ : Nat
  hop : BitVec 64
  payload : List Byte
  host : Option Nat
  sends : Nat := 0
  stage : Fstage := .waiting
  onBb : Option Bool := none
  deriving DecidableEq, Repr

/-- A HELLO for the hello channel of the backbone or the fallback band in a course (R348). -/
structure Fhello where
  bb : Bool
  asn : Nat
  payload : List Byte
  stage : Fstage := .waiting
  deriving DecidableEq, Repr

/-- A fabric frame received and not yet taken by the protocol (R346): sender, logical lane, LQI, TS_SFD and the t_CT of the course in which it
falls, mode, MAC payload. -/
structure Frecv where
  eui : BitVec 64
  lane : Nat
  lqi : Nat
  tsSfd : Nat
  sfdCt : Nat
  mode : Nat
  payload : List Byte
  deriving DecidableEq, Repr

/-- The fabric state of Lintel firmware (chapter 14). -/
structure Fabric where
  /-- The words of FABRIC CFG (R360), none before the first. -/
  cfg : List Half := []
  /-- 0 stopped, 1 scanning, 2 joining, 3 joined. -/
  st : Nat := 0
  addr : Nat := 0xFFFF
  rank : Nat := 0xFFFF
  parent : Option (BitVec 64) := none
  nbrs : List Neighbour := []
  routes : List Route := []
  /-- Join requests relayed: joiner, the neighbour each came from, the version of the link to it, HF tick (R352). -/
  joins : List (BitVec 64 × BitVec 64 × Nat × Nat) := []
  /-- The anchor's own outstanding JOIN_REQ: HF tick; and the ASN from which it may try again (R352). -/
  asked : Option Nat := none
  retryAt : Nat := 0
  queue : List Fmsg := []
  inbox : List Frecv := []
  /-- HELLOs made for the two hello channels and not yet in a plan. -/
  hellos : List Fhello := []
  /-- The words that the reserved lanes held in the plan before START (R360). -/
  laneSave : List Half := []
  seq : Nat := 0
  /-- Sources with the SEQs seen, newest first, 64 at most each (R355). -/
  seen : Sparse (List Nat) := []
  drops : Nat := 0
  /-- Assignment table of the root (R352). -/
  assigned : List (BitVec 64 × Nat) := []
  /-- The address of the anchor's configuration record (R352, R353; log entry 40), and the root's EUI-64 of the parent's
  latest HELLO. -/
  savedAddr : Nat := 0xFFFF
  rootEui : BitVec 64 := 0
  /-- Offsets of the parent's HELLOs in the group, each with its HELLO's ASN; their last mean; and that mean less the correction made of it,
  with the ASN of the group's last HELLO (R359). -/
  offsets : List (Int × Nat) := []
  mean : Int := 0
  prevMean : Option (Int × Nat) := none
  deriving DecidableEq, Repr

/-- A slice on the ASSAY queue or running: slice number and target (R364). -/
structure Slice where
  slice : Nat
  target : Nat
  deriving DecidableEq, Repr

/-- What ASSAY holds beside its registers (chapter 15). -/
structure Assay where
  /-- The requests, the head first, each with the idle windows it has waited; and whether the head has passed its
  checks. -/
  queue : List (Slice × Nat) := []
  checked : Bool := false
  /-- The running slice, its t_AS, and whether its target is isolated (the supply check has passed). -/
  running : Option Slice := none
  tAs : Nat := 0
  isolated : Bool := false
  /-- SEQ of the repair record last loaded or written (R373). -/
  repairSeq : Nat := 0
  /-- The repair records that wait for NVMC, oldest first: payload and SEQ (R372, R373). -/
  repairOut : List (List Half × Half) := []
  deriving DecidableEq, Repr

/-- What Lintel firmware, or the boot ROM, does once a configuration record it writes has ended; slots 0 A, 1 B, slot codes 1 A, 2 B. -/
inductive FwNext where
  | nothing
  /-- UPDATE BEGIN has cleared PREV, and erases the slot (R381). -/
  | erase (slot : Fin 2)
  /-- ACTIVATE 0 has written PEND (R381). -/
  | pending (slot : Fin 2)
  /-- In recovery, a VERIFY that has passed has written PEND (R393). -/
  | staged (slot : Fin 2)
  /-- ABORT of a set that is PENDING or RUNNING has cleared PEND and HANDOVER (R381). -/
  | withdrawn (slot : Fin 2)
  /-- The new firmware has written PEND and HANDOVER (R389): its slot's code and the old set's. -/
  | tookOver (slot old : Nat)
  /-- The boot ROM boots a slot code (R383). -/
  | boot (slot : Nat)
  /-- The boot ROM goes on with the selection, the pending set having failed (R383). -/
  | select
  deriving DecidableEq, Repr

/-- A configuration record that firmware has still to write by CFG_WRITE: VER, payload, and what follows. -/
structure CfgJob where
  ver : Nat
  payload : List Half
  next : FwNext
  deriving DecidableEq, Repr

/-- Where a handover stands (R386 to R389). -/
inductive Hand where
  | none
  /-- The standby core starts at the new entry: target slot, and the HFT tick 500 ms on, by which the core rings (kept so: DESIGN CHOICE,
  log entry 105). -/
  | starting (slot due : Nat)
  /-- Ready; the cutover waits for an idle window. -/
  | ready (slot : Nat)
  /-- From t_IW: the old firmware takes no new work, and lets its commands end. -/
  | quiet (slot : Nat)
  /-- The block is written; the standby core reads it: target slot, and t_D as a tick (log entry 105).
  -/
  | block (slot tD : Nat)
  /-- ACCEPT is written, and the old core's doorbell rung. -/
  | accepted (slot : Nat)
  /-- GO. -/
  | go (slot : Nat)
  deriving DecidableEq, Repr

/-- What the update service holds (chapter 16). Image slots are 0 (A) and 1 (B). -/
structure Update where
  /-- Owner public key of the confirmed set, x ‖ y (R178, R383). -/
  owner : Option (List Byte) := none
  /-- State of each slot (R381). -/
  slots : Vector Nat 2 := #v[0, 0]
  /-- IMAGE_WORDS of the last BEGIN, and the image's slot. -/
  imgWords : Nat := 0
  staging : Fin 2 := 0
  hand : Hand := .none
  /-- The Lintel core that runs the active firmware, and the slot it runs from. -/
  active : Fin 2 := 0
  runs : Nat := 0
  /-- SET_VERSION of the set at whose VERs the firmware writes its records: a RUNNING set writes at those of the old set (R392). -/
  writes : Nat := 0
  /-- Configuration records that firmware has still to write, oldest first, and what follows the one that NVMC writes. -/
  jobs : List CfgJob := []
  inCfg : Option FwNext := none
  /-- Usable calibration records were loaded at boot (R297); and firmware has started, and has its first work still to do (R200, R352,
  R377). -/
  calGot : Bool := false
  fresh : Bool := false
  /-- The Lintel cores that run their standby loop, which only kicks the core's watchdog (R388, R389). -/
  loops : List (Fin 2) := []
  deriving DecidableEq, Repr

/-- The states of a test access port controller (R408), as IEEE 1149.1 has them (PRESUMED, log entry 92). -/
inductive Tap where
  | testLogicReset | runTestIdle
  | selectDr | captureDr | shiftDr | exit1Dr | pauseDr | exit2Dr | updateDr
  | selectIr | captureIr | shiftIr | exit1Ir | pauseIr | exit2Ir | updateIr
  deriving DecidableEq, Repr

/-- TROWEL, JTAG and the pins (chapter 17). -/
structure Debug where
  /-- TROWEL: the address register, and the reason of the last FAULT (R404, R407). -/
  addr : Ptr := 0
  reason : BitVec 3 := 0
  /-- TROWEL: the RD16 answered WAIT, with its address and the value that came, and whether a WR16 is still completing (R404). -/
  held : Option (Ptr × Half) := none
  writing : Bool := false
  /-- Boundary scan is on; its controller, its instruction and boundary registers (R408 to R410). -/
  scan : Bool := false
  tap : Tap := .testLogicReset
  ir : BitVec 4 := 15
  cells : BitVec 157 := 0
  /-- Levels at the GPIO balls as driven from outside. -/
  balls : BitVec 32 := 0
  deriving DecidableEq, Repr

/-- What the last command that reads something returned: the model's own observation of a read. -/
inductive Seen where
  | nothing
  | value (v : Half)
  | octets (l : List Byte)
  /-- The access was refused (R17). -/
  | refused
  /-- TROWEL answered WAIT (R403). -/
  | wait
  deriving DecidableEq, Repr

/-! ## The whole machine -/

/-- The state of the CZ64. -/
structure State where
  /-- The register files: what a read of a register returns (R3), by address; a core-local register under the key of
  its core (R17). Registers whose value follows from other state (THR_STATE, MBk_STATUS.COUNT, the selected-slot and
  selected-tenant windows, COURSE_HFT and the like) have their home there and are computed on a read. -/
  regs : Regs := []
  /-- Configuration in force where it can differ from the register: held and committed values (R26, R35, R53, R59,
  R80, R89, R100, R108, R122, R252, R318, R343). -/
  inForce : Regs := []
  /-- Snapshots of the status groups (R23). -/
  snap : Regs := []
  /-- General SRAM, recorder SRAM (R17); an octet nothing has written reads 0 (R281). -/
  sram : Memory := []
  recRam : Memory := []
  /-- MRAM (R17); an unlisted octet is erased, 0xFF (R263). The stores of KEYS, which are MRAM outside the address map
  (chapter 10), stand at keys from 0x1000000 on. -/
  mram : Memory := []
  /-- The 22-bit codewords of MRAM (R263): by the word's address, the bits of the codeword that differ from the codeword of
  the word `mram` lists; none for a whole word. -/
  mramFlip : Sparse (BitVec 22) := []
  /-- The 8-byte MRAM line that each core keeps from its last fetch, by its address divided by 8 (R264). -/
  lines : Vector (Option Nat) 6 := Vector.replicate 6 none
  radio : Radio := {}
  crypto : Crypto := {}
  keys : Keys := {}
  pke : Pke := {}
  trng : Trng := {}
  access : Access := {}
  cores : Vector Core 6 := Vector.replicate 6 {}
  nvm : Nvm := {}
  sys : Sys := {}
  plinth : Plinth := {}
  timers : Vector Timer 8 := Vector.replicate 8 {}
  uart : Uart := {}
  /-- The mailboxes, oldest word first (R250). -/
  mbox : Vector (List Half) 8 := Vector.replicate 8 []
  adsin : Adsin := {}
  fabric : Fabric := {}
  assay : Assay := {}
  update : Update := {}
  dbg : Debug := {}
  /-- The 48-bit HF tick count (R90). -/
  hft : Nat := 0
  /-- The model's own: count of free values drawn, the argument of `Config.freeNat`. -/
  free : Nat := 0
  /-- The model's own: what the last read returned. -/
  seen : Seen := .nothing
  /-- The model's own: the commands that wait, first in, first out. -/
  pending : List Instr := []
  deriving DecidableEq, Repr

/-- Why the machine stops. The spec gives the block no behaviour that stops it; no command raises a fault. -/
inductive Fault where
  /-- Raised by no command: kept so that the type has an inhabitant. Safe. -/
  | stuck
  deriving DecidableEq, Repr

/-- Why a command has no meaning. -/
inductive Refusal where
  /-- The command of that mnemonic has no meaning yet. Raised by Dispatch alone. Safe: nothing follows from it. -/
  | notModelled (mnemonic : String)
  deriving DecidableEq, Repr

/-- A core right after reset: on Lintel core 0, thread 0 runs in the boot ROM (R233, R296); WORLD is the core's (R15). -/
def Core.reset (c : Fin 6) : Core :=
  let w : Half := if c.val < 2 then 0 else 0x1000
  let t : Thread := { psw := w }
  { thr := if c = 0 then #v[{ t with st := .run, psw := 0x8000 }, t, t, t] else #v[t, t, t, t] }

/-- The machine right after the release of a power-on reset of a part as made: every register at its reset value, the
memories empty, the life-cycle store BLANK. -/
def State.reset : State := { cores := #v[Core.reset 0, Core.reset 1, Core.reset 2, Core.reset 3, Core.reset 4, Core.reset 5] }

end Sys2Proof.Machine
end

