-- ==== Sys2Proof/Machine/Ops.lean ====
section
/-! DEFINITION. The named operations over registers, memories, free values and the HF tick count. -/
namespace Sys2Proof.Machine

/-- What a command answers. -/
abbrev Out := Host.Outcome State Fault Refusal

/-! ## Bits -/

/-- Bits `hi` to `lo` of a number. -/
def bits (v hi lo : Nat) : Nat := v / 2 ^ lo % 2 ^ (hi + 1 - lo)

/-- A number with bits `hi` to `lo` replaced by `n`. -/
def putBits (v hi lo n : Nat) : Nat := v - bits v hi lo * 2 ^ lo + n % 2 ^ (hi + 1 - lo) * 2 ^ lo

/-- A number read as a two's-complement value of `w` bits. -/
def toSigned (w v : Nat) : Int := if v % 2 ^ w < 2 ^ (w - 1) then (v % 2 ^ w : Nat) else (v % 2 ^ w : Nat) - (2 ^ w : Nat)

/-- The two's-complement code of an integer in `w` bits. -/
def ofSigned (w : Nat) (i : Int) : Nat := (i % (2 ^ w : Nat)).toNat

/-- A 16-bit word from a number. -/
abbrev half (n : Nat) : Half := BitVec.ofNat 16 n

/-- An octet from a number. -/
abbrev byte (n : Nat) : Byte := BitVec.ofNat 8 n

/-- 1 for true. -/
abbrev bit (b : Bool) : Nat := if b then 1 else 0

/-- An integer held between two bounds. -/
def clampInt (lo hi i : Int) : Int := if i < lo then lo else if hi < i then hi else i

/-- Integer division rounded to the nearest, a half away from zero, for a positive divisor. -/
def divRound (a : Int) (b : Nat) : Int :=
  if a < 0 then -(((2 * -a + b) / (2 * b) : Int)) else (2 * a + b) / (2 * b)

/-! ## Octet strings -/

/-- Octets of a number, the most significant first. -/
def beOctets : Nat → Nat → List Byte
  | 0, _ => []
  | n + 1, v => beOctets n (v / 256) ++ [byte v]

/-- Octets of a number, the least significant first. -/
def leOctets : Nat → Nat → List Byte
  | 0, _ => []
  | n + 1, v => byte v :: leOctets n (v / 256)

/-- The number that octets spell, the most significant first. -/
def beNat (l : List Byte) : Nat := l.foldl (fun a b => a * 256 + b.toNat) 0

/-- The number that octets spell, the least significant first. -/
def leNat : List Byte → Nat
  | [] => 0
  | b :: l => b.toNat + 256 * leNat l

/-- Words of an octet string, the first octet in bits 15 to 8, an odd last octet padded with 0 (R334). -/
def packWords : List Byte → List Half
  | [] => []
  | [a] => [half (a.toNat * 256)]
  | a :: b :: l => half (a.toNat * 256 + b.toNat) :: packWords l

/-- Octets of words, bits 15 to 8 first. -/
def wordOctets (l : List Half) : List Byte := l.flatMap (fun w => [byte (w.toNat / 256), byte w.toNat])

/-- Octet `i` of a string, 0 past its end. -/
def octAt (l : List Byte) (i : Nat) : Byte := l.getD i 0

/-- Word `i` of a list as a number, 0 past its end. -/
def wordAt (l : List Half) (i : Nat) : Nat := (l.getD i 0).toNat

/-- Exclusive or of two octet strings, to the length of the shorter. -/
def xorOctets (a b : List Byte) : List Byte := List.zipWith (· ^^^ ·) a b

/-- `n` octets from position `i`, padded with 0. -/
def slice (l : List Byte) (i n : Nat) : List Byte := ((l.drop i).take n) ++ List.replicate (n - (l.drop i).length) 0

/-! ## Reset values and descriptions of registers -/

/-- The reset values of the driver ramp (R52). -/
def rampReset : List Nat :=
  [2, 10, 22, 39, 60, 86, 116, 150, 187, 227, 270, 316, 363, 412, 461, 512, 562, 611, 660, 707, 753, 796, 836, 873,
   907, 937, 963, 984, 1001, 1013, 1021, 1023]

/-- The block windows of the peripheral region and the Plinth registers, with the registers of each (R19). LANE is
apart: it repeats every 64 octets. -/
def blocks : List (Nat × List RegDesc) :=
  [(0xE00000, regsSysctl), (0xE01000, regsPmu), (0xE02000, regsTimer), (0xE03000, regsWdt), (0xE0F000, regsId),
   (0xE10000, regsRfeSub), (0xE11000, regsRfeIsm), (0xE12000, regsFem), (0xE18000, regsRec), (0xE20000, regsCourse),
   (0xE21000, regsHod), (0xE22000, regsMacf), (0xE30000, regsAshlar), (0xE40000, regsCrypto), (0xE41000, regsKeys),
   (0xE42000, regsPke), (0xE43000, regsTrng), (0xE50000, regsLf), (0xE51000, regsPlumb), (0xE52000, regsAccess),
   (0xE60000, regsMbox), (0xE61000, regsHostif), (0xE70000, regsAssay), (0xE80000, regsNvmc), (0xE90000, regsGpio),
   (0xE91000, regsUart0), (0xF00000, regsPlinth)]

/-- The description that covers an offset, with the index of the repetition. -/
def descIn (off : Nat) : List RegDesc → Option (RegDesc × Nat)
  | [] => none
  | d :: l =>
    if d.off ≤ off ∧ off < d.off + d.stride * d.count ∧ (off - d.off) % d.stride = 0
    then some (d, (off - d.off) / d.stride) else descIn off l

/-- The description of the register at an address, or none where no register stands (R21). -/
def regDesc (a : Nat) : Option (RegDesc × Nat) :=
  if 0x1000000 ≤ a then descIn (a % 0x1000000 - 0xFF0000) regsCore
  else if 0xE14000 ≤ a ∧ a < 0xE15000 then descIn ((a - 0xE14000) % 0x40) regsLane
  else match blocks.lookup (a / 0x1000 * 0x1000) with
    | some l => descIn (a % 0x1000) l
    | none => none

/-- Reset values that depend on the repetition or on the part: the FEM pins (R61), the ramp (R52), the identity
remap (R62), the core number, the fused identity (R29). -/
def resetSpecial (a : Nat) : Option Nat :=
  if 0x1000000 ≤ a ∧ a % 0x1000000 = 0xFF0000 then some (a / 0x1000000 - 1)
  else if 0xE12000 ≤ a ∧ a < 0xE13000 then
    let p := a % 0x100 / 8
    match a % 8 with
    | 0 => some ([2, 2, 4, 4, 4, 0].getD p 0)
    | 2 => some ([0, 4, 8, 12, 16, 0].getD p 0)
    | 4 => some ([48, 44, 40, 36, 32, 0].getD p 0)
    | _ => none
  else if (0xE10040 ≤ a ∧ a < 0xE10080) ∨ (0xE11040 ≤ a ∧ a < 0xE11080) then some (rampReset.getD (a % 0x40 / 2) 0)
  else if 0xE14000 ≤ a ∧ a < 0xE15000 ∧ a % 0x40 = 0x10 then some ((a - 0xE14000) / 0x40)
  else if a = 0xE0F006 then some (if Config.fusedGradeE then 2 else 1)
  else if 0xE0F010 ≤ a ∧ a < 0xE0F018 then some (Config.fusedEui.toNat / 2 ^ (16 * (3 - (a - 0xE0F010) / 2)) % 65536)
  else none

/-- The reset value of the register at an address; 0 where none stands. -/
def regReset (a : Nat) : Half :=
  match resetSpecial a with
  | some v => half v
  | none => match regDesc a with
    | some (d, _) => half d.reset
    | none => 0

/-! ## Registers -/

/-- The register at an address. -/
def State.reg (s : State) (a : Nat) : Half := sparseGet regReset s.regs a

/-- Put a whole register. -/
def State.setReg (s : State) (a : Nat) (v : Half) : State := { s with regs := sparseSet regReset s.regs a v }

/-- A register as a number. -/
abbrev State.regN (s : State) (a : Nat) : Nat := (s.reg a).toNat

/-- A 32-bit value held in two registers, the low word at `a`. -/
abbrev State.reg32 (s : State) (a : Nat) : Nat := s.regN a + 65536 * s.regN (a + 2)

/-- Put a 32-bit value in two registers, the low word at `a`. -/
abbrev State.setReg32 (s : State) (a v : Nat) : State := (s.setReg a (half v)).setReg (a + 2) (half (v / 65536))

/-- A field's value in a register value. -/
def Fld.of (f : Fld) (v : Half) : Nat := bits v.toNat f.hi f.lo

/-- A register value with a field replaced. -/
def Fld.put (f : Fld) (v : Half) (n : Nat) : Half := half (putBits v.toNat f.hi f.lo n)

/-- A field. -/
def State.fld (s : State) (f : Fld) : Nat := f.of (s.reg f.reg)

/-- Put a field, leaving the other bits of its register. -/
def State.setFld (s : State) (f : Fld) (n : Nat) : State := s.setReg f.reg (f.put (s.reg f.reg) n)

/-- A one-bit field as a truth value. -/
def State.flag (s : State) (f : Fld) : Bool := s.fld f != 0

/-- Set or clear a one-bit field. -/
def State.setFlag (s : State) (f : Fld) (b : Bool := true) : State := s.setFld f (bit b)

/-- Raise a counter by `n`, saturating at the largest value of its field (R5). -/
def State.countFld (s : State) (f : Fld) (n : Nat := 1) : State :=
  s.setFld f (min (s.fld f + n) (2 ^ (f.hi + 1 - f.lo) - 1))

/-- Raise a 16-bit counter by `n`, saturating. -/
def State.count (s : State) (a : Nat) (n : Nat := 1) : State := s.setReg a (half (min (s.regN a + n) 65535))

/-- The configuration in force (R26 and the rules that hold writes). -/
def State.eff (s : State) (a : Nat) : Half := sparseGet regReset s.inForce a

/-- A field of the configuration in force. -/
def State.effFld (s : State) (f : Fld) : Nat := f.of (s.eff f.reg)

/-- Put a register in force. -/
def State.setEff (s : State) (a : Nat) (v : Half) : State := { s with inForce := sparseSet regReset s.inForce a v }

/-- Bring registers in force as they read. -/
def State.commit (s : State) (l : List Nat) : State := l.foldl (fun s a => s.setEff a (s.reg a)) s

/-- The registers of a range put back to their reset values, in every register file. -/
def State.resetRegs (s : State) (lo hi : Nat) : State :=
  { s with regs := sparseClear s.regs lo hi, inForce := sparseClear s.inForce lo hi, snap := sparseClear s.snap lo hi }

/-- Whether an encoding of a field is not reserved (R6). -/
def FieldDesc.admits (d : FieldDesc) (n : Nat) : Bool := d.legal.isEmpty || d.legal.any (fun r => r.1 ≤ n && n ≤ r.2)

/-- One field of a write: the access codes of R3, reserved encodings keeping the old value (R6). -/
def writeField (w : Half) (v : Half) (d : FieldDesc) : Half :=
  let n := bits w.toNat d.hi d.lo
  let o := bits v.toNat d.hi d.lo
  match d.acc with
  | .rw => if d.admits n then half (putBits v.toNat d.hi d.lo n) else v
  | .w1c => half (putBits v.toNat d.hi d.lo (o &&& (2 ^ (d.hi + 1 - d.lo) - 1 - n)))
  | .w1s => half (putBits v.toNat d.hi d.lo (o ||| n))
  | .ro | .wo | .rcl => v

/-- A write by the access codes alone: R3, R4, R6. -/
def writeFields (fs : List FieldDesc) (old w : Half) : Half := fs.foldl (writeField w) old

/-- The fields of the register at an address; none of its bits is a field where no register stands. -/
def fieldsAt (a : Nat) : List FieldDesc := match regDesc a with | some (d, _) => d.fields | none => []

/-- A write of a register by its access codes, with no further effect. -/
def State.plainWrite (s : State) (a : Nat) (w : Half) : State := s.setReg a (writeFields (fieldsAt a) (s.reg a) w)

/-- What is left of a register after a read: its RCL fields cleared (R3). -/
def clearRcl (fs : List FieldDesc) (v : Half) : Half :=
  fs.foldl (fun v d => if d.acc = .rcl then half (putBits v.toNat d.hi d.lo 0) else v) v

/-- A read of a register by its access codes: the value, and the RCL fields cleared. -/
def State.plainRead (s : State) (a : Nat) : Half × State := (s.reg a, s.setReg a (clearRcl (fieldsAt a) (s.reg a)))

/-- A snapshot word (R23). -/
def State.snapReg (s : State) (a : Nat) : Half := sparseGet regReset s.snap a

/-- Copy words into their snapshot. -/
def State.takeSnap (s : State) (l : List (Nat × Half)) : State :=
  { s with snap := l.foldl (fun m p => sparseSet regReset m p.1 p.2) s.snap }

/-! ## Memories -/

/-- An octet of a memory whose unlisted octets read `d`. -/
def memGet (d : Byte) (m : Memory) (a : Nat) : Byte := sparseGet (fun _ => d) m a

/-- Put an octet. -/
def memSet (d : Byte) (m : Memory) (a : Nat) (v : Byte) : Memory := sparseSet (fun _ => d) m a v

/-- Put octets in ascending addresses. -/
def memPut (d : Byte) : Memory → Nat → List Byte → Memory
  | m, _, [] => m
  | m, a, v :: l => memPut d (memSet d m a v) (a + 1) l

/-- Octets in ascending addresses. -/
def memTake (d : Byte) (m : Memory) (a : Nat) : Nat → List Byte
  | 0 => []
  | n + 1 => memGet d m a :: memTake d m (a + 1) n

/-- Octets of general SRAM. -/
def State.sramTake (s : State) (a n : Nat) : List Byte := memTake 0 s.sram a n

/-- The general SRAM holds a range wholly (R17). -/
def inSram (a n : Nat) : Bool := 0x100000 ≤ a && a + n ≤ 0x300000

/-- Write octets of general SRAM; a range that does not lie wholly in it is not written. -/
def State.sramPut (s : State) (a : Nat) (l : List Byte) : State :=
  if inSram a l.length then { s with sram := memPut 0 s.sram a l } else s

/-- A 16-bit word of general SRAM, little-endian (R206). -/
def State.sramHalf (s : State) (a : Nat) : Half := half (leNat (s.sramTake a 2))

/-- Write a 16-bit word of general SRAM. -/
def State.setSramHalf (s : State) (a : Nat) (v : Half) : State := s.sramPut a (leOctets 2 v.toNat)

/-- `n` words of general SRAM. -/
def State.sramWords (s : State) (a : Nat) : Nat → List Half
  | 0 => []
  | n + 1 => s.sramHalf a :: State.sramWords s (a + 2) n

/-- Write words of general SRAM. -/
def State.setSramWords (s : State) (a : Nat) (l : List Half) : State := s.sramPut a (l.flatMap (fun w => leOctets 2 w.toNat))

/-- What a read makes of a codeword of MRAM (R266): the stored value, the stored value after a correction, an
uncorrectable word, a wrong value after a "correction", or another valid word. -/
inductive Ecc where
  | whole | corrected | uncorrectable | miscorrected | other
  deriving DecidableEq, Repr

/-- Flipped bits of a codeword. -/
def flipCount (f : BitVec 22) : Nat := ((List.range 22).filter (fun i => f.getLsbD i)).length

/-- SEC-DED (R263, R266): one flipped bit is corrected, two are detected, three or more have one of three outcomes. -/
def eccOf (a : Nat) (f : BitVec 22) : Ecc :=
  match flipCount f with
  | 0 => .whole
  | 1 => .corrected
  | 2 => .uncorrectable
  | _ => match Config.eccSee a f % 3 with | 0 => .uncorrectable | 1 => .miscorrected | _ => .other

/-- The MRAM words that read as uncorrectable, by byte address (R266). -/
def State.mramBad (s : State) : List Nat := (s.mramFlip.filter (fun p => eccOf p.1 p.2 == .uncorrectable)).map (·.1)

/-- MRAM words of a range whose read is a corrected one (R266). -/
def State.mramCorrected (s : State) (lo hi : Nat) : Nat :=
  (s.mramFlip.filter (fun p => lo ≤ p.1 && p.1 < hi && (eccOf p.1 p.2 == .corrected || eccOf p.1 p.2 == .miscorrected))).length

/-- An octet of MRAM as it reads; an erased octet reads 0xFF (R263, R266). -/
def State.mramOctet (s : State) (a : Nat) : Byte :=
  let b := memGet 0xFF s.mram a
  match s.mramFlip.lookup (a / 2 * 2) with
  | none => b
  | some f => match eccOf (a / 2 * 2) f with
    | .miscorrected | .other =>
      let w := Config.eccWrong (a / 2 * 2) f
      b ^^^ byte (if a % 2 = 0 then w.toNat else w.toNat / 256)
    | _ => b

/-- Octets of MRAM as they read. -/
def State.mramTake (s : State) (a n : Nat) : List Byte :=
  if s.mramFlip.isEmpty then memTake 0xFF s.mram a n else (List.range n).map (fun i => s.mramOctet (a + i))

/-- Write octets of MRAM, of the address map or of the stores of KEYS. -/
def State.mramPut (s : State) (a : Nat) (l : List Byte) : State :=
  if (0x800000 ≤ a ∧ a + l.length ≤ 0xC00000) ∨ 0x1000000 ≤ a then { s with mram := memPut 0xFF s.mram a l } else s

/-- The device EUI-64 in ID_EUI_0 to ID_EUI_3, word 0 the most significant (R29). -/
def State.deviceEui (s : State) : Nat :=
  ((s.regN (A.ID_EUI 0) * 65536 + s.regN (A.ID_EUI 1)) * 65536 + s.regN (A.ID_EUI 2)) * 65536 + s.regN (A.ID_EUI 3)

/-! ## Free values and the HF tick count -/

/-- Draw a free value below `n` (log entry 2). -/
def State.draw (s : State) (n : Nat) : Nat × State := (Config.freeNat s.free % n, { s with free := s.free + 1 })

/-- Draw `n` free octets. -/
def State.drawOctets (s : State) (n : Nat) : List Byte × State :=
  ((List.range n).map (fun i => byte (Config.freeNat (s.free + i))), { s with free := s.free + n })

/-- HF ticks of a number of microseconds: XO_HF runs at 48 MHz. -/
abbrev us (n : Nat) : Nat := 48 * n

/-- Time has passed up to a recorded instant, if it has not passed it already; the count holds while XO_HF does not run
(R90). -/
def State.passTo (s : State) (t : Nat) : State := { s with hft := if s.sys.xoRun then max s.hft t else s.hft }

/-! ## Parts of the state -/

/-- Put an element of a vector at an index that may lie outside it. -/
def vset {α : Type} {n : Nat} (v : Vector α n) (i : Nat) (x : α) : Vector α n := v.setIfInBounds i x

/-- Change the radio half. -/
def State.modRadio (s : State) (f : Radio → Radio) : State := { s with radio := f s.radio }

/-- A front end's state beside its registers. -/
def State.rfe (s : State) : Band → Rfe
  | .sub => s.radio.sub
  | .ism => s.radio.ism

/-- Change a front end. -/
def State.modRfe (s : State) (b : Band) (f : Rfe → Rfe) : State :=
  s.modRadio (fun r => match b with | .sub => { r with sub := f r.sub } | .ism => { r with ism := f r.ism })

/-- A lane's state beside its registers. -/
def State.lane (s : State) (n : Nat) : Lane := sparseGet (fun _ => {}) s.radio.lanes n

/-- Change a lane. -/
def State.modLane (s : State) (n : Nat) (f : Lane → Lane) : State :=
  s.modRadio (fun r => { r with lanes := sparseSet (fun _ => {}) r.lanes n (f (s.lane n)) })

/-- The frame of a serial number. -/
def State.frame? (s : State) (fid : Nat) : Option Frame := s.radio.frames.find? (fun f => f.fid = fid)

/-- Change the frame of a serial number. -/
def State.modFrame (s : State) (fid : Nat) (g : Frame → Frame) : State :=
  s.modRadio (fun r => { r with frames := r.frames.map (fun f => if f.fid = fid then g f else f) })

/-- Forget a frame. -/
def State.dropFrame (s : State) (fid : Nat) : State :=
  s.modRadio (fun r => { r with frames := r.frames.filter (fun f => f.fid != fid) })

/-- Change the recorder. -/
def State.modRec (s : State) (f : Rec → Rec) : State := s.modRadio (fun r => { r with recd := f r.recd })

/-- Change COURSE. -/
def State.modCourse (s : State) (f : Course → Course) : State := s.modRadio (fun r => { r with course := f r.course })

/-- Change the Hod. -/
def State.modHod (s : State) (f : Hod → Hod) : State := s.modRadio (fun r => { r with hod := f r.hod })

/-- Change ASHLAR. -/
def State.modAshlar (s : State) (f : Ashlar → Ashlar) : State := s.modRadio (fun r => { r with ashlar := f r.ashlar })

/-- COURSE beside its registers. -/
abbrev State.course (s : State) : Course := s.radio.course

/-- ASHLAR beside its registers. -/
abbrev State.ashlar (s : State) : Ashlar := s.radio.ashlar

/-- Change CRYPTO. -/
def State.modCrypto (s : State) (f : Crypto → Crypto) : State := { s with crypto := f s.crypto }

/-- Change KEYS. -/
def State.modKeys (s : State) (f : Keys → Keys) : State := { s with keys := f s.keys }

/-- Change PKE. -/
def State.modPke (s : State) (f : Pke → Pke) : State := { s with pke := f s.pke }

/-- Change the TRNG. -/
def State.modTrng (s : State) (f : Trng → Trng) : State := { s with trng := f s.trng }

/-- Change ACCESS. -/
def State.modAccess (s : State) (f : Access → Access) : State := { s with access := f s.access }

/-- Change the access session. -/
def State.modSess (s : State) (f : Session → Session) : State := s.modAccess (fun a => { a with sess := f a.sess })

/-- Change a core. -/
def State.modCore (s : State) (c : Fin 6) (f : Core → Core) : State := { s with cores := s.cores.set c (f s.cores[c]) }

/-- A thread. -/
abbrev State.thr (s : State) (c : Fin 6) (t : Fin 4) : Thread := s.cores[c].thr[t]

/-- Change a thread. -/
def State.modThr (s : State) (c : Fin 6) (t : Fin 4) (f : Thread → Thread) : State :=
  s.modCore c (fun k => { k with thr := k.thr.set t (f k.thr[t]) })

/-- Change NVMC. -/
def State.modNvm (s : State) (f : Nvm → Nvm) : State := { s with nvm := f s.nvm }

/-- Change PMU and SYSCTL. -/
def State.modSys (s : State) (f : Sys → Sys) : State := { s with sys := f s.sys }

/-- Change the Plinth domain. -/
def State.modPlinth (s : State) (f : Plinth → Plinth) : State := { s with plinth := f s.plinth }

/-- Change a TIMER channel. -/
def State.modTimer (s : State) (k : Fin 8) (f : Timer → Timer) : State := { s with timers := s.timers.set k (f s.timers[k]) }

/-- Change UART0. -/
def State.modUart (s : State) (f : Uart → Uart) : State := { s with uart := f s.uart }

/-- Change Adsin. -/
def State.modAdsin (s : State) (f : Adsin → Adsin) : State := { s with adsin := f s.adsin }

/-- Change an Adsin channel. -/
def State.modChan (s : State) (k : Fin 6) (f : Channel → Channel) : State :=
  s.modAdsin (fun a => { a with chans := a.chans.set k (f a.chans[k]) })

/-- Change the fabric. -/
def State.modFabric (s : State) (f : Fabric → Fabric) : State := { s with fabric := f s.fabric }

/-- Change ASSAY. -/
def State.modAssay (s : State) (f : Assay → Assay) : State := { s with assay := f s.assay }

/-- Change the update service. -/
def State.modUpdate (s : State) (f : Update → Update) : State := { s with update := f s.update }

/-- Change TROWEL, JTAG and the pins. -/
def State.modDebug (s : State) (f : Debug → Debug) : State := { s with dbg := f s.dbg }

/-- Note what a read returned. -/
def State.see (s : State) (x : Seen) : State := { s with seen := x }

/-- Both Lintel cores. -/
def lintel : List (Fin 6) := [0, 1]

/-- The four application cores. -/
def apps : List (Fin 6) := [2, 3, 4, 5]

/-- All six cores. -/
def allCores : List (Fin 6) := [0, 1, 2, 3, 4, 5]

/-- Apply a change for each element of a list, in order. -/
def forEach {α : Type} (l : List α) (s : State) (f : State → α → State) : State := l.foldl f s

/-! ## Power (R280, R294) -/

/-- The device runs and answers: not held in reset or by a sag, not asleep. -/
def State.alive (s : State) : Bool :=
  !s.sys.inReset && !s.sys.halted && (match s.sys.sleep with | .asleep _ => false | _ => true)

end Sys2Proof.Machine
end

