-- ==== Sys2Proof/Machine/Aes.lean ====
section
/-! DEFINITION. The AES block cipher (FIPS 197), CMAC (SP 800-38B) and CCM (SP 800-38C), as chapters 05 and 06 name
them (PRESUMED, log entry 23). -/
namespace Sys2Proof.Machine

/-- The S-box, 16 values to a number, the first in the lowest octet. -/
def sboxRows : List Nat :=
  [0x76ABD7FE2B670130C56F6BF27B777C63,
   0xC072A49CAFA2D4ADF04759FA7DC982CA,
   0x1531D871F1E5A534CCF73F362693FDB7,
   0x75B227EBE28012079A059618C323C704,
   0x842FE329B3D63B52A05A6E1B1A2C8309,
   0xCF584C4A39BECB6A5BB1FC20ED00D153,
   0xA89F3C507F02F94585334D43FBAAEFD0,
   0xD2F3FF1021DAB6BCF5389D928F40A351,
   0x73195D643D7EA7C41744975FEC130CCD,
   0xDB0B5EDE14B8EE4688902A22DC4F8160,
   0x79E4959162ACD3C25C2406490A3A32E0,
   0x08AE7A65EAF4566CA94ED58D6D37C8E7,
   0x8A8BBD4B1F74DDE8C6B4A61C2E2578BA,
   0x9E1DC186B95735610EF6034866B53E70,
   0xDF2855CEE9871E9B948ED9691198F8E1,
   0x16BB54B00F2D99416842E6BF0D89A18C]

/-- The inverse S-box in the same form. -/
def invSboxRows : List Nat :=
  [0xFBD7F3819EA340BF38A53630D56A0952,
   0xCBE9DEC444438E3487FF2F9B8239E37C,
   0x4EC3FA420B954CEE3D23C2A632947B54,
   0x25D18B6D49A25B76B224D92866A12E08,
   0x92B6655DCC5CA4D41698688664F6F872,
   0x849D8DA75746155EDAB9EDFD5048706C,
   0x0645B3B80558E4F70AD3BC8C00ABD890,
   0x6B8A130103BDAFC1020F3FCA8F1E2CD0,
   0x73E6B4F0CECFF297EADC674F4111913A,
   0x6EDF751CE837F9E28535ADE72274AC96,
   0x1BBE18AA0E62B76F89C5291D711AF147,
   0xF45ACD78FEC0DB9A2079D2C64B3E56FC,
   0x5FEC8027591012B131C7078833A8DD1F,
   0xEF9CC9939F7AE52D0D4AB519A97F5160,
   0x619953833CBBEBC8B0F52AAE4D3BE0A0,
   0x7D0C2155631469E126D677BA7E042B17]

/-- Look an octet up in a table of 16 rows. -/
def lookupBox (t : List Nat) (b : Byte) : Byte := byte (t.getD (b.toNat / 16) 0 / 256 ^ (b.toNat % 16))

/-- The S-box. -/
abbrev sbox (b : Byte) : Byte := lookupBox sboxRows b

/-- Doubling in GF(2^8). -/
def xtime (b : Byte) : Byte := (b <<< 1) ^^^ (if b.getLsbD 7 then 0x1B else 0)

/-- Multiplication in GF(2^8) by a constant below 16. -/
def gmul (n : Nat) (b : Byte) : Byte :=
  let b2 := xtime b
  let b4 := xtime b2
  let b8 := xtime b4
  (if n % 2 = 1 then b else 0) ^^^ (if n / 2 % 2 = 1 then b2 else 0) ^^^ (if n / 4 % 2 = 1 then b4 else 0) ^^^
    (if n / 8 % 2 = 1 then b8 else 0)

/-- One column times the circulant matrix of four constants. -/
def mixColumn (m : Nat × Nat × Nat × Nat) (c : List Byte) : List Byte :=
  match c with
  | [a, b, d, e] =>
    let (p, q, r, t) := m
    [gmul p a ^^^ gmul q b ^^^ gmul r d ^^^ gmul t e, gmul t a ^^^ gmul p b ^^^ gmul q d ^^^ gmul r e,
     gmul r a ^^^ gmul t b ^^^ gmul p d ^^^ gmul q e, gmul q a ^^^ gmul r b ^^^ gmul t d ^^^ gmul p e]
  | _ => c

/-- A block cut into its four columns. -/
def columns (s : List Byte) : List (List Byte) := [slice s 0 4, slice s 4 4, slice s 8 4, slice s 12 4]

/-- MixColumns, or its inverse. -/
def mixColumns (m : Nat × Nat × Nat × Nat) (s : List Byte) : List Byte := (columns s).flatMap (mixColumn m)

/-- ShiftRows by a step: 4 forward, 12 for the inverse. -/
def shiftRows (k : Nat) (s : List Byte) : List Byte := (List.range 16).map (fun i => octAt s ((i + k * (i % 4)) % 16))

/-- The key schedule: `n` further words after those of the key, newest first. -/
def expandWords (nk : Nat) : Nat → Nat → Byte → List (List Byte) → List (List Byte)
  | 0, _, _, w => w
  | n + 1, i, rc, w =>
    let t := w.getD 0 []
    let rot := slice t 1 3 ++ slice t 0 1
    let t' := if i % nk = 0 then xorOctets (rot.map sbox) [rc, 0, 0, 0]
      else if 6 < nk ∧ i % nk = 4 then t.map sbox else t
    expandWords nk n (i + 1) (if i % nk = 0 then xtime rc else rc) (xorOctets (w.getD (nk - 1) []) t' :: w)

/-- The words of a key. -/
def keyWords (k : List Byte) : List (List Byte) := (List.range (k.length / 4)).map (fun i => slice k (4 * i) 4)

/-- The round keys, in order: 11 for a 128-bit key, 15 for a 256-bit key. -/
def roundKeys (k : List Byte) : List (List Byte) :=
  let nk := k.length / 4
  let ws := (expandWords nk (4 * (nk + 7) - nk) nk 1 (keyWords k).reverse).reverse
  (List.range (nk + 7)).map (fun r => (ws.drop (4 * r)).take 4 |>.flatten)

/-- The rounds after the first key, the last without MixColumns. -/
def aesRounds : List (List Byte) → List Byte → List Byte
  | [], s => s
  | [k], s => xorOctets (shiftRows 4 (s.map sbox)) k
  | k :: ks, s => aesRounds ks (xorOctets (mixColumns (2, 3, 1, 1) (shiftRows 4 (s.map sbox))) k)

/-- AES encryption of a block under a 16- or 32-octet key. -/
def aesEncrypt (key block : List Byte) : List Byte :=
  match roundKeys key with
  | [] => block
  | k :: ks => aesRounds ks (xorOctets block k)

/-- The inverse rounds. -/
def aesInvRounds : List (List Byte) → List Byte → List Byte
  | [], s => s
  | [k], s => xorOctets ((shiftRows 12 s).map (lookupBox invSboxRows)) k
  | k :: ks, s => aesInvRounds ks (mixColumns (14, 11, 13, 9) (xorOctets ((shiftRows 12 s).map (lookupBox invSboxRows)) k))

/-- AES decryption of a block. -/
def aesDecrypt (key block : List Byte) : List Byte :=
  match (roundKeys key).reverse with
  | [] => block
  | k :: ks => aesInvRounds ks (xorOctets block k)

/-- A string cut into blocks of 16 octets, the last one short if need be; `n` bounds their number. -/
def blocks16 : Nat → List Byte → List (List Byte)
  | 0, _ => []
  | n + 1, l => if l.isEmpty then [] else l.take 16 :: blocks16 n (l.drop 16)

/-- The blocks of a string. -/
def toBlocks (l : List Byte) : List (List Byte) := blocks16 (l.length / 16 + 1) l

/-- CBC-MAC of whole blocks from an initial value. -/
def cbcMac (key : List Byte) (iv : List Byte) (bs : List (List Byte)) : List Byte :=
  bs.foldl (fun x b => aesEncrypt key (xorOctets x b)) iv

/-- Sixteen zero octets. -/
def zero16 : List Byte := List.replicate 16 0

/-- Doubling of a block in GF(2^128), the first octet the most significant. -/
def doubleBlock (b : List Byte) : List Byte :=
  let v := beNat b
  beOctets 16 ((v * 2 % 2 ^ 128) ^^^ (if v / 2 ^ 127 = 1 then 0x87 else 0))

/-- AES-CMAC (SP 800-38B). -/
def cmac (key m : List Byte) : List Byte :=
  let k1 := doubleBlock (aesEncrypt key zero16)
  let bs := toBlocks m
  let last := bs.getLastD []
  let last' := if last.length = 16 then xorOctets last k1
    else xorOctets (last ++ [0x80] ++ List.replicate (15 - last.length) 0) (doubleBlock k1)
  cbcMac key zero16 (bs.dropLast ++ [last'])

/-- A string padded with zeros to whole blocks. -/
def pad16 (l : List Byte) : List Byte := l ++ List.replicate ((16 - l.length % 16) % 16) 0

/-- Counter block A_i of CCM with a 2-octet length field. -/
def ccmCounter (nonce : List Byte) (i : Nat) : List Byte := 0x01 :: nonce ++ beOctets 2 i

/-- The CCM keystream applied to a message from counter `i` on. -/
def ccmStream (key nonce : List Byte) (i : Nat) : List (List Byte) → List Byte
  | [] => []
  | b :: bs => xorOctets b (aesEncrypt key (ccmCounter nonce i)) ++ ccmStream key nonce (i + 1) bs

/-- Encrypt or decrypt a message under CCM. -/
def ccmCrypt (key nonce m : List Byte) : List Byte := ccmStream key nonce 1 (toBlocks m)

/-- The length of the authenticated data as CCM puts it before them (SP 800-38C): 2 octets below 0xFF00, else 0xFFFE and 4. -/
def ccmLength (n : Nat) : List Byte := if n < 0xFF00 then beOctets 2 n else [0xFF, 0xFE] ++ beOctets 4 n

/-- The CCM tag of `mlen` octets over authenticated data and plain message (SP 800-38C, length field of 2 octets):
B0 flags carry Adata and (M − 2) / 2. -/
def ccmTag (key nonce a m : List Byte) (mlen : Nat) : List Byte :=
  let flags := byte ((if a.isEmpty then 0 else 64) + (mlen - 2) / 2 * 8 + 1)
  let b0 := flags :: nonce ++ beOctets 2 m.length
  let ad := if a.isEmpty then [] else pad16 (ccmLength a.length ++ a)
  let t := cbcMac key zero16 (toBlocks (b0 ++ ad ++ pad16 m))
  (xorOctets t (aesEncrypt key (ccmCounter nonce 0))).take mlen

/-- The SP 800-108 counter-mode KDF of one iteration with AES-CMAC as PRF: i ‖ label ‖ 0x00 ‖ context ‖ L = 128. -/
def kdf (root label context : List Byte) : List Byte := cmac root ([0x01] ++ label ++ [0x00] ++ context ++ [0x00, 0x80])

end Sys2Proof.Machine
end

