-- ==== Sys2Proof/Machine/Entropy.lean ====
section
/-! DEFINITION. The DRBG as its consumers see it (R166, R167). -/
namespace Sys2Proof.Machine

/-- The DRBG gives output: it is seeded, no start-up test runs and no health test has failed (R166, R167). -/
def State.drbgReady (s : State) : Bool := s.flag F.TRNG_STATUS_READY

/-- A KEYS command waits for the DRBG, which serves KEYS first (R167): GENERATE, LC_NONCE, and an LC_CHANGE to DEPLOYED that is still to
be judged. -/
def State.keysWantsDrbg (s : State) : Bool :=
  match s.keys.cmd with | some c => c.op = 3 || c.op = 7 || (c.op = 8 && !c.refused && bits (wordAt c.args 0) 2 0 = 2) | none => false

/-- A PKE operation waits for the DRBG: SIGN and KEYGEN (R167). -/
def State.pkeWantsDrbg (s : State) : Bool := match s.pke.cmd with | some c => c.op = 5 || c.op = 7 | none => false

/-- KEYS, ASHLAR or PKE waits for the DRBG, ahead of TRNG_OUT (R167). -/
def State.drbgWanted (s : State) : Bool := s.keysWantsDrbg || s.ashlar.wantHk || s.pkeWantsDrbg

/-- One request of the DRBG for `n` octets (R166): it reseeds first after 65,536 requests and where RESEED waits. The octets
are free values (log entry 2). -/
def State.drbg (s : State) (n : Nat) : List Byte × State :=
  ((List.range n).map (fun i => Config.drbgOctet (s.trng.drawn + i)),
   s.modTrng (fun t => { t with
     drawn := t.drawn + n
     reseed := false
     requests := if t.reseed || 65536 ≤ t.requests then 1 else t.requests + 1 }))

/-- TRNG_OUT takes fresh bits where it holds none, once output is released and no consumer ahead of it waits (R166, R167). -/
def State.trngFill (s : State) : State :=
  if s.drbgReady && !s.flag F.TRNG_STATUS_OUT_VALID && !s.drbgWanted then
    let (o, s) := s.drbg 2
    (s.setFlag F.TRNG_STATUS_OUT_VALID).modTrng (fun t => { t with out := half (beNat o) })
  else s

end Sys2Proof.Machine
end

