-- ==== Sys2Proof/Machine/Landing.lean ====
section
/-! DEFINITION. A thread's control registers, the landing of its results, the hardware loop check, and the completion of a WAIT
that has blocked (R220, R222, R228, R237, R247). -/
namespace Sys2Proof.Machine

/-! ## PSW (chapter 09) -/

/-- A bit of PSW. -/
abbrev pswBit (v : Half) (i : Nat) : Bool := v.getLsbD i
/-- PSW.PRIV. -/
abbrev Thread.priv (t : Thread) : Bool := pswBit t.psw 15
/-- PSW.PPRIV. -/
abbrev Thread.ppriv (t : Thread) : Bool := pswBit t.psw 14
/-- PSW.EXL. -/
abbrev Thread.exl (t : Thread) : Bool := pswBit t.psw 13

/-- PSW with PRIV, PPRIV and EXL replaced. -/
def pswMode (v : Half) (priv ppriv exl : Bool) : Half :=
  (v &&& 0x1FFF) ||| half (bit priv * 0x8000 + bit ppriv * 0x4000 + bit exl * 0x2000)

/-! ## Control registers (R220, R247) -/

/-- The control register names of R220 outside the MPU windows, with their width. -/
def crWidth (n : Nat) : Option Nat :=
  if n = 0 ∨ n = 2 ∨ n = 4 ∨ n = 7 then some 16
  else if n = 1 ∨ n = 3 ∨ n = 5 ∨ n = 6 ∨ n = 8 ∨ n = 9 then some 24
  else if 0x20 ≤ n ∧ n < 0x40 then some (if n % 4 < 2 then 24 else 16)
  else none

/-- A control register as MFC reads it. -/
def Core.crRead (k : Core) (t : Thread) (n : Nat) : Nat :=
  match n with
  | 0 => t.psw.toNat
  | 1 => t.epc.toNat
  | 2 => t.cause.toNat
  | 3 => t.lr.toNat
  | 4 => t.lc0.toNat
  | 5 => t.ls0.toNat
  | 6 => t.le0.toNat
  | 7 => t.lc1.toNat
  | 8 => t.ls1.toNat
  | 9 => t.le1.toNat
  | _ =>
    if h : 0x20 ≤ n ∧ n < 0x40 then
      let w := k.win[(n - 0x20) / 4]
      match n % 4 with | 0 => w.base.toNat | 1 => w.limit.toNat | 2 => w.attr.toNat | _ => 0
    else 0

/-- A landed write of a thread's own control register; WORLD and the reserved bits of PSW never change. -/
def Thread.crPut (t : Thread) (n v : Nat) : Thread :=
  match n with
  | 0 => { t with psw := (t.psw &&& 0x1FF0) ||| (half v &&& 0xE00F) }
  | 1 => { t with epc := BitVec.ofNat 24 v }
  | 2 => { t with cause := half v &&& 0xC01F }
  | 3 => { t with lr := BitVec.ofNat 24 v }
  | 4 => { t with lc0 := half v }
  | 5 => { t with ls0 := BitVec.ofNat 24 v }
  | 6 => { t with le0 := BitVec.ofNat 24 v }
  | 7 => { t with lc1 := half v }
  | 8 => { t with ls1 := BitVec.ofNat 24 v }
  | 9 => { t with le1 := BitVec.ofNat 24 v }
  | _ => t

/-- A landed write of an inner MPU window register (R247). -/
def Core.winPut (k : Core) (n v : Nat) : Core :=
  if h : 0x30 ≤ n ∧ n < 0x40 then
    let i := (n - 0x20) / 4
    let w := k.win[i]
    { k with win := k.win.set i (match n % 4 with
      | 0 => { w with base := BitVec.ofNat 24 v }
      | 1 => { w with limit := BitVec.ofNat 24 v }
      | 2 => { w with attr := half v &&& 0x8007 }
      | _ => w) }
  else k

/-! ## Landing (R222) -/

/-- One pending result lands. -/
def Core.landOne (k : Core) (t : Fin 4) (p : Pending) : Core :=
  let th := k.thr[t]
  match p.tgt with
  | .d i => { k with thr := k.thr.set t { th with d := th.d.set i (half p.val) } }
  | .p i => { k with thr := k.thr.set t { th with p := th.p.set i (BitVec.ofNat 24 p.val) } }
  | .pHi i =>
    let v := th.p[i].toNat % 65536 + p.val % 256 * 65536
    { k with thr := k.thr.set t { th with p := th.p.set i (BitVec.ofNat 24 v) } }
  | .lr => { k with thr := k.thr.set t { th with lr := BitVec.ofNat 24 p.val } }
  | .flags => { k with thr := k.thr.set t { th with psw := (th.psw &&& 0xFFF0) ||| (half p.val &&& 0x000F) } }
  | .cr n => ({ k with thr := k.thr.set t (th.crPut n p.val) } : Core).winPut n p.val

/-- The results of a thread that are due at a position land, the earlier instruction's first. -/
def Core.landAt (k : Core) (t : Fin 4) (pos : Nat) : Core :=
  let th := k.thr[t]
  let k := { k with thr := k.thr.set t { th with pend := th.pend.filter (fun p => pos < p.pos) } }
  (th.pend.filter (fun p => p.pos ≤ pos)).foldl (fun k p => k.landOne t p) k

/-- Every pending result lands, position by position (R224). -/
def Core.landAll (k : Core) (t : Fin 4) : Core :=
  let pos := k.thr[t].pos
  [0, 1, 2, 3, 4].foldl (fun k i => k.landAt t (pos + i)) k

/-! ## Loops and WAIT (R228 to R230, R237) -/

/-- An instruction at the LE address of an active level (R228, R229). -/
def Thread.atLe (t : Thread) : Bool := (t.lc0 != 0 && t.le0 == t.pc) || (t.lc1 != 0 && t.le1 == t.pc)

/-- The loop check of R228 at the address of a completed instruction: level 1 first where both end there (DESIGN CHOICE, log entry 61). -/
def Thread.loopCheck (t : Thread) : Thread × Option Ptr :=
  let l1 := t.lc1 != 0 && t.le1 == t.pc
  let l0 := t.lc0 != 0 && t.le0 == t.pc
  if l1 ∧ 1 < t.lc1.toNat then ({ t with lc1 := t.lc1 - 1 }, some t.ls1)
  else
    let t := if l1 then { t with lc1 := 0 } else t
    if l0 ∧ 1 < t.lc0.toNat then ({ t with lc0 := t.lc0 - 1 }, some t.ls0)
    else (if l0 then { t with lc0 := 0 } else t, none)

/-- A WAIT that blocked completes (R230, R237, R246): the loop check applies now, and the thread goes on after it; at a start
that is no multiple of 4 it takes the free address drawn when it blocked. A PC that TROWEL has written since stays. -/
def Core.waitEnds (k : Core) (t : Fin 4) : Core :=
  let th := k.thr[t]
  let here : Bool := (th.waitAt.map (·.1)) == some th.pc
  let r := if here then th.loopCheck else (th, none)
  let go : Ptr := match th.slot with
    | some (_, tgt) => tgt
    | none => r.2.getD (th.pc + 4)
  let go : Ptr := if !here then th.pc else if go.toNat % 4 = 0 then go else th.waitNext
  let k := ({ k with thr := k.thr.set t r.1 } : Core).landAt t (th.pos + 1)
  let th' := { k.thr[t] with st := .ready, pos := th.pos + 1, pc := go, slot := none, waitAt := none }
  { k with thr := k.thr.set t th' }

end Sys2Proof.Machine
end

