-- ==== Sys2Proof/Machine/Events.lean ====
section
/-! DEFINITION. What leaves a block: its event line to the cores (R235 to R237), and the Adsin event that Lintel
firmware makes of it (R337, R338, R342). -/
namespace Sys2Proof.Machine

/-! ## Event lines -/

/-- A line is pending on a core. -/
def State.linePending (s : State) (c : Fin 6) (l : Nat) : Bool := (s.reg (A.EVU_PEND c (l / 16))).getLsbD (l % 16)

/-- The wait mask of a thread meets the pending bits (R237). -/
def State.maskMet (s : State) (c : Fin 6) (t : Fin 4) : Bool :=
  [0, 1, 2, 3].any (fun w => s.reg (A.EVU_MASK c (4 * t + w)) &&& s.reg (A.EVU_PEND c w) != 0)

/-- The next READY thread after `t`, in the order t + 1, t + 2, t + 3, then `t` itself (R234); a thread halted by TROWEL is
not selected (R406). -/
def Core.nextReady (k : Core) (t : Fin 4) : Option (Fin 4) :=
  [t + 1, t + 2, t + 3, t].find? (fun u => k.thr[u].st == .ready && !k.thr[u].halted)

/-- A core none of whose threads runs starts its next READY thread (R234). -/
def Core.wakeup (k : Core) : Core :=
  if [0, 1, 2, 3].any (fun t : Fin 4 => k.thr[t].st == .run) then k
  else match k.nextReady k.cur with
    | some u => { k with thr := k.thr.set u { k.thr[u] with st := .run }, cur := u }
    | none => k

/-- Waiting threads whose mask meets the pending bits become READY: their WAIT completes (R232, R237). -/
def State.wakeThreads (s : State) (c : Fin 6) : State :=
  let s' := forEach [0, 1, 2, 3] s (fun s t =>
    if (s.thr c t).st == .wait && s.maskMet c t
    then s.modCore c (fun k => k.waitEnds t) else s)
  s'.modCore c Core.wakeup

/-- Set a line's pending bit on a core (R236), and wake the threads that wait for it (R237). -/
def State.post (s : State) (c : Fin 6) (l : Nat) : State :=
  (s.setReg (A.EVU_PEND c (l / 16)) (s.reg (A.EVU_PEND c (l / 16)) ||| half (2 ^ (l % 16)))).wakeThreads c

/-- Post a line to some cores. -/
def State.postAll (s : State) (cs : List (Fin 6)) (l : Nat) : State := forEach cs s (fun s c => s.post c l)

/-- The cores of the world that a TIMER channel belongs to (R235). -/
def State.timerCores (s : State) (k : Fin 8) : List (Fin 6) :=
  if (s.reg A.TMR_WORLD).getLsbD k then apps else lintel

/-- Pins of a GPIO group whose event bit is set, by the world they belong to (R401). -/
def State.gpioEvents (s : State) (g : Nat) (openWorld : Bool) : Half :=
  s.reg (A.GPIO_EVT g) &&& (if openWorld then s.reg (A.GPIO_WORLD g) else ~~~ s.reg (A.GPIO_WORLD g))

/-- HOSTIF raises its event while IN_FULL or any bit of [8:3] is 1 (R343). -/
def State.hostifRaised (s : State) : Bool := s.reg A.HOSTIF_STATUS &&& 0x1F9 != 0

/-- UART0 raises its event while RXNE = 1 with RXIE = 1, or while any W1C bit is 1 (chapter 13). -/
def State.uartRaised (s : State) : Bool :=
  (s.flag F.UART0_CTRL_RXIE && !s.uart.rx.isEmpty) || s.flag F.UART0_STATUS_FERR || s.flag F.UART0_STATUS_OVR

/-- A lane event bit is 1 in some logical lane (R85). -/
def State.laneRaised (s : State) : Bool := (List.range 64).any (fun n => s.reg (A.LANE_EVT n) != 0)

/-- The source of a line is still raised on a core (R236): the lines whose block holds its event while a status bit is 1, TIMER
while FIRE or CAP is 1 (R318), a mailbox while it holds words (R250). -/
def State.lineHeld (s : State) (c : Fin 6) (l : Nat) : Bool :=
  let onLintel := c.val < 2
  match l with
  | 5 => onLintel && s.reg A.ASHLAR_EVT != 0
  | 6 => onLintel && s.reg A.CRYPTO_EVT != 0
  | 10 => onLintel && s.laneRaised
  | 14 => onLintel && s.reg A.ACCESS_EVT != 0
  | 15 => onLintel && s.reg A.NVMC_EVT != 0
  | 16 => onLintel && s.hostifRaised
  | 17 => onLintel && s.uartRaised
  | 18 => onLintel && s.reg A.ASSAY_EVT != 0
  | 19 => onLintel && (s.reg A.PMU_EVT != 0 || s.reg A.PLINTH_EVT != 0)
  | 28 => s.gpioEvents 0 (!onLintel) != 0
  | 29 => s.gpioEvents 1 (!onLintel) != 0
  | _ =>
    if h : 20 ≤ l ∧ l < 28 then
      (s.timerCores ⟨l - 20, by omega⟩).contains c && s.reg (A.TMR_STATUS (l - 20)) &&& 3 != 0
    else if 48 ≤ l ∧ l < 52 then onLintel && !(s.mbox.toList.getD (l - 48) []).isEmpty
    else if 52 ≤ l ∧ l < 56 then c.val = l - 50 && !(s.mbox.toList.getD (l - 48) []).isEmpty
    else false

/-- The pending bits of a core whose sources are still raised are set again (R236, R250). -/
def State.repost (s : State) (c : Fin 6) : State :=
  forEach (List.range 64) s (fun s l => if s.lineHeld c l then s.post c l else s)

/-! ## Adsin events -/

/-- The event bits a channel may receive, by class (R342): the host channels all but those of another channel; an
application channel CHAN_RESET, the mains events, FRAME and TX_DONE. The bits of class 8 are those of the FABRIC
events. -/
def evtAllowed (host : Bool) : List Half :=
  if host then [0x3, 0x7, 0x7, 0x1F, 0x3, 0xF, 0, 0x7, 0x7F, 0x1, 0x3, 0x3]
  else [0x4, 0x3, 0, 0x3, 0, 0, 0, 0, 0, 0, 0, 0]

/-- A channel is a host channel (R324). -/
abbrev isHost (k : Fin 6) : Bool := k.val < 2

/-- Word 1 of a message header (R334). -/
def headWord (cls kind cmd : Nat) : Half := half (cls * 4096 + kind * 1024 + cmd)

/-- An event message (R334): CLASS, event code, SEQ, payload. -/
def eventWords (cls code : Nat) (seq : Half) (payload : List Half) : List Half :=
  half (4 + payload.length) :: headWord cls 2 code :: seq :: 0 :: payload

/-- An event is created for a channel (R338, R342): SYS READY and CHAN_RESET always, any other where the channel is negotiated and
its mask enables it. -/
def Channel.takes (k : Channel) (cls code : Nat) : Bool :=
  (cls == 0 && (code == 0x80 || code == 0x82)) || (k.version.isSome && (k.mask.getD cls 0).getLsbD (code - 0x80))

/-- Create an event for a channel (R337, R338), where it is created; PWR MAINS_LOSS ahead of every message; an event that finds 64 queued is dropped but
uses its number. -/
def Channel.event (k : Channel) (cls code : Nat) (payload : List Half) : Channel :=
  if k.takes cls code then
    let m : Msg := { event := true, words := eventWords cls code k.evtSeq payload }
    let k' := { k with evtSeq := k.evtSeq + 1 }
    if (k.outq.filter (·.event)).length ≥ 64 then { k' with dropped := k.dropped + 1 }
    else if cls = 1 ∧ code = 0x80 then
      let begun := if k.sendPos = 0 then 0 else 1
      { k' with outq := k.outq.take begun ++ m :: k.outq.drop begun }
    else { k' with outq := k.outq ++ [m] }
  else k

/-- Lintel firmware, while it runs, sends an event to some channels. -/
def State.event (s : State) (chans : List (Fin 6)) (cls code : Nat) (payload : List Half) : State :=
  if s.sys.fwRun then forEach chans s (fun s k => s.modChan k (fun c => c.event cls code payload)) else s

/-- The queued events go, but for one that has begun to leave (R333, R339). -/
def Channel.dropEvents (k : Channel) : List Msg :=
  let begun := if k.sendPos = 0 then 0 else 1
  k.outq.take begun ++ (k.outq.drop begun).filter (fun m => !m.event)

/-- The two host channels. -/
def hostChans : List (Fin 6) := [0, 1]

/-- All six channels. -/
def allChans : List (Fin 6) := [0, 1, 2, 3, 4, 5]

/-- Event SYS FAULT (R342): the event line and the block's status word (DESIGN CHOICE, log entry 12: of the lines that report a
fault and have no Adsin event of their own). -/
def State.faultEvent (s : State) (l : Nat) : State :=
  match l with
  | 9 => s.event hostChans 0 0x81 [9, s.reg A.TRNG_STATUS]
  | 13 => s.event hostChans 0 0x81 [13, s.reg A.SYSCTL_CLK_STATUS]
  | 30 => s.event hostChans 0 0x81 [30, s.reg A.WDT_STATUS]
  | _ => s

/-- A source posted to both Lintel cores rises (R235). -/
def State.raise (s : State) (l : Nat) : State := (s.postAll lintel l).faultEvent l

/-- A thread of core `c` has halted: line 31 on the core, and line 30 on the Lintel cores for an application core
(R245). -/
def State.threadHalted (s : State) (c : Fin 6) : State :=
  let s := s.post c 31
  if c.val < 2 then s else s.raise 30

/-- Set bits of an event register and raise its line to the Lintel cores. -/
def State.raiseEvt (s : State) (f : Fld) (l : Nat) : State := (s.setFlag f).raise l

/-! ## Adsin responses -/

/-- A response message (R334, R335). -/
def respWords (r : Request) (status detail : Nat) (payload : List Half) : List Half :=
  half (4 + payload.length) :: headWord r.cls 1 r.cmd :: r.seq :: half (detail * 256 + status) :: payload

/-- Requests at the head of the order whose response is ready leave (R336). -/
def readyOf : List Request → List Msg × List Request
  | [] => ([], [])
  | r :: l => match r.resp with
    | some w => let (m, rest) := readyOf l; ({ event := false, words := w, after := r.after } :: m, rest)
    | none => ([], r :: l)

/-- Responses that are ready and next in order enter the outbound queue (R336, R337). -/
def Channel.flush (k : Channel) : Channel :=
  let (m, rest) := readyOf k.outstanding
  { k with outq := k.outq ++ m, outstanding := rest }

/-- The requests that wait for something are answered (R335). -/
def Channel.complete (k : Channel) (w : Await) (status detail : Nat) (payload : List Half) : Channel :=
  Channel.flush { k with outstanding := k.outstanding.map (fun r =>
    if r.wait = w ∧ r.resp = none then
      { r with resp := some (respWords r status detail (if status = 0 then r.first ++ payload else payload)) } else r) }

/-- What a block operation ends is answered on every channel that waits for it (R335): OK with its payload, or FAIL
with the block's code in DETAIL. -/
def State.complete (s : State) (w : Await) (status detail : Nat) (payload : List Half) : State :=
  forEach allChans s (fun s k => s.modChan k (fun c => c.complete w status detail payload))

/-! ## Configuration records of Lintel firmware (R269, R392) -/

/-- The VER at which the set of a version writes a record of a CID; those of CIDs 1 and 2 are fixed (R373, R380). -/
def recVer (version cid : Nat) : Nat := if cid = 1 ∨ cid = 2 then 1 else Config.recVer version cid % 15 + 1

/-- CIDs of records whose format is the model's own (DESIGN CHOICE, log entry 40): 3, the fabric address of an anchor; from 0x0100 on, the
entries of a root's assignment table, EUI-64 and address. -/
abbrev cidAddr : Nat := 3
abbrev cidAssign : Nat := 0x100
def cfgOwnCid (cid : Nat) : Bool := cid == cidAddr || cidAssign ≤ cid

/-- Firmware has a configuration record to write, at the VER it writes (R392); `next` follows. -/
def State.cfgPush (s : State) (payload : List Half) (next : FwNext := .nothing) : State :=
  let v := recVer s.update.writes (wordAt payload 0)
  s.modUpdate (fun u => { u with jobs := u.jobs ++ [⟨v, payload, next⟩] })

/-- The codes of R335 that a completed operation answers with. -/
abbrev stOk : Nat := 0x00
abbrev stAccepted : Nat := 0x01
abbrev stBadArg : Nat := 0x0A
abbrev stNotFound : Nat := 0x0B
abbrev stFull : Nat := 0x0C
abbrev stFail : Nat := 0x0D

end Sys2Proof.Machine
end

