-- ==== Sys2Proof/Machine/Recorder.lean ====
section
/-! DEFINITION. The IQ recorder (R86 to R89). -/
namespace Sys2Proof.Machine

/-- The recorder states as REC_STATUS.STATE codes them. -/
abbrev recIdle : Nat := 0
abbrev recArming : Nat := 1
abbrev recArmed : Nat := 2
abbrev recTriggered : Nat := 3
abbrev recDone : Nat := 4

/-- Key under which the value that an event latches from a committed pair is held, beside the pair in force. -/
abbrev latched (a : Nat) : Nat := a + 0x80000000

/-- Latch committed pairs at the event that applies them (R88, R122, R160, R343). -/
def State.latch (s : State) (l : List Nat) : State := forEach l s (fun s a => s.setEff (latched a) (s.eff a))

/-- A 24-bit address in force from a committed LO and HI pair. -/
def State.effAddr (s : State) (lo : Nat) : Nat := (s.eff lo).toNat + 65536 * ((s.eff (lo + 2)).toNat % 256)

/-- A 24-bit address latched from a pair. -/
def State.latAddr (s : State) (lo : Nat) : Nat := s.effAddr (latched lo)

/-- The recorder's configuration registers (R89). -/
def recConfig : List Nat := [A.REC_SRC, A.REC_TRIG, A.REC_PRE, A.REC_POST, A.REC_EXT_LEN]

/-- Whether ARM finds the written configuration valid (R87). -/
def State.recConfigOk (s : State) : Bool :=
  let ext := s.flag F.REC_SRC_EXT
  let n := s.regN A.REC_PRE + s.regN A.REC_POST
  let len := s.regN A.REC_EXT_LEN
  if ext then n ≤ 32768 + len && s.fld F.REC_SRC_KIND != 1 && s.fld F.REC_SRC_KIND != 2 &&
      inSram (s.effAddr A.REC_EXT_BASE_LO) (16 * len)
  else n ≤ 32768

/-- REC_CMD.ARM (R86, R87, R89). In ARMED an invalid configuration sets CFG_ERR and the recorder stays ARMED, and in ARMING an ARM has no
effect: R86 lists neither case (DEDUCED, log entry 76). -/
def State.recArm (s : State) : State :=
  let st := s.fld F.REC_STATUS_STATE
  if st = recTriggered ∨ st = recArming then s
  else if s.recConfigOk then
    let s := (s.commit recConfig).latch [A.REC_EXT_BASE_LO, A.REC_EXT_BASE_HI]
    let s := forEach [A.REC_PRE_COUNT, A.REC_POST_COUNT, A.REC_FIRST, A.REC_LOST] s (fun s a => s.setReg a 0)
    (s.setFld F.REC_STATUS_STATE recArming).modRec (fun _ => { tArm := s.hft })
  else s.setFlag F.REC_STATUS_CFG_ERR

/-- Groups written from the trigger group on: a group lost to a full FIFO is not among them, one that waits in the FIFO is (R86, R88;
DESIGN CHOICE, log entry 107). -/
abbrev Rec.written (r : Rec) : Nat := r.post - r.lost

/-- REC_CMD.STOP (R86). -/
def State.recStop (s : State) : State :=
  let st := s.fld F.REC_STATUS_STATE
  if st = recArming ∨ st = recArmed then s.setFld F.REC_STATUS_STATE recIdle
  else if st = recTriggered then
    (s.setFld F.REC_STATUS_STATE recDone).setReg A.REC_POST_COUNT (half s.radio.recd.written)
  else s

/-- A trigger arrives (R86, R87): it is latched in ARMED and counted in ARMING. -/
def State.recTrigger (s : State) : State :=
  let st := s.fld F.REC_STATUS_STATE
  let pre := (s.eff A.REC_PRE).toNat
  if st = recArming then s.count A.REC_MISSED
  else if st = recArmed then
    let r := s.radio.recd
    let s := s.setReg32 A.REC_TRIG_TS_LO s.hft
    let s := s.setReg A.REC_PRE_COUNT (half (min r.held pre))
    let s := s.setReg A.REC_FIRST (half (if r.held < pre then 0 else r.ring))
    s.setFld F.REC_STATUS_STATE recTriggered
  else s

/-- A trigger source of REC_TRIG rises; the configuration in force decides whether it counts (R86, R89). -/
def State.recSource (s : State) (f : Fld) : State := if s.effFld f = 1 then s.recTrigger else s

/-- An event of a logical lane: it triggers if the lane is TLANE and the source is enabled (R86). -/
def State.recLane (s : State) (f : Fld) (n : Nat) : State :=
  if s.effFld F.REC_TRIG_TLANE = n then s.recSource f else s

/-- A group of a band's overload step: it triggers if the source records that band's stream or a lane on it (R86). -/
def State.recOverload (s : State) (b : Band) : State :=
  let src : Option Band := match s.effFld F.REC_SRC_KIND with
    | 1 => some .sub
    | 2 => some .ism
    | 3 => some (if s.flag (F.LANE_CUR0_BAND (s.effFld F.REC_SRC_LANE)) then .ism else .sub)
    | _ => none
  if src = some b then s.recSource F.REC_TRIG_OVL else s

/-- The source records zero samples: a muted band, or a lane that is idle, out or under ASSAY (chapter 03). -/
def State.recSilent (s : State) : Bool :=
  let muted (b : Band) := s.flag (F.RFE_STATUS_MUTE b)
  match s.effFld F.REC_SRC_KIND with
  | 1 => muted .sub
  | 2 => muted .ism
  | 3 =>
    let n := s.effFld F.REC_SRC_LANE
    let st := s.fld (F.LANE_ST0_STATE n)
    st = 0 || st = 5 || st = 6 || muted (if s.flag (F.LANE_CUR0_BAND n) then .ism else .sub)
  | _ => true

/-- Write a group to the recorder SRAM. -/
def State.recStore (s : State) (index : Nat) (g : BitVec 128) : State :=
  { s with recRam := memPut 0 s.recRam (0x600000 + 16 * index) (leOctets 16 g.toNat) }

/-- A group of four samples is complete: it goes to the pre-trigger ring, to its index in the recorder SRAM, or past
index 32,767 through the FIFO to general SRAM, where a full FIFO loses it (R87, R88). -/
def State.recGroup (s : State) (data : BitVec 128) : State :=
  let g := if s.recSilent then 0 else data
  let st := s.fld F.REC_STATUS_STATE
  let r := s.radio.recd
  let pre := (s.eff A.REC_PRE).toNat
  if st = recArmed then
    if pre = 0 then s
    else (s.recStore r.ring g).modRec (fun r => { r with held := min (r.held + 1) pre, ring := (r.ring + 1) % pre })
  else if st = recTriggered ∧ r.post < (s.eff A.REC_POST).toNat then
    let i := pre + r.post
    let s := s.modRec (fun r => { r with post := r.post + 1 })
    let t := s.setReg A.REC_POST_COUNT (half (r.written + 1))
    if i < 32768 then t.recStore i g
    else if r.fifo.length < 16 then t.modRec (fun r => { r with fifo := r.fifo ++ [(i, g)] })
    else ((s.modRec (fun r => { r with lost := r.lost + 1 })).count A.REC_LOST).setFlag F.REC_STATUS_STARVED
  else s

/-- The oldest group of the FIFO reaches general SRAM (R88). -/
def State.recDrain (s : State) : State :=
  match s.radio.recd.fifo with
  | [] => s
  | (i, g) :: l =>
    (s.sramPut (s.latAddr A.REC_EXT_BASE_LO + 16 * (i - 32768)) (leOctets 16 g.toNat)).modRec
      (fun r => { r with fifo := l })

/-- REC_ARM (R86): a write of REC_CMD.ARM alone. -/
def execRecArm (s : State) : Out := .next s.recArm

/-- REC_STOP (R86): a write of REC_CMD.STOP, or of several bits. -/
def execRecStop (s : State) : Out := .next s.recStop

/-- REC_SWTRIG (R86): a write of REC_CMD.SWTRIG alone. -/
def execRecSwtrig (s : State) : Out := .next s.recTrigger

/-- REC_ARMED (R86): 2 µs after ARM. -/
def execRecArmed (s : State) : Out :=
  .next (if s.fld F.REC_STATUS_STATE = recArming
    then (s.passTo (s.radio.recd.tArm + us 2)).setFld F.REC_STATUS_STATE recArmed else s)

/-- REC_GROUP_COMPLETE (R87, R88): four samples of the source. -/
def execRecGroupComplete (data : BitVec 128) (s : State) : Out := .next (s.recGroup data)

/-- REC_DONE (R86): POST groups from the trigger group on have been completed; a lost one counts among them, since the index advances
past it (R88; DESIGN CHOICE, log entry 107). -/
def execRecDone (s : State) : Out :=
  .next (if s.fld F.REC_STATUS_STATE = recTriggered ∧ (s.eff A.REC_POST).toNat ≤ s.radio.recd.post then
      let s := (s.setFld F.REC_STATUS_STATE recDone).raise 11
      s.event hostChans 3 0x84 [s.reg A.REC_STATUS]
    else s)

/-- A write of a recorder configuration register: it reads back, and takes effect at the next ARM; the extension base
commits on its HI write (R26, R89). -/
def State.recConfigWrite (s : State) (a : Nat) (w : Half) : State :=
  let s := s.plainWrite a w
  if a = A.REC_EXT_BASE_HI then s.commit [A.REC_EXT_BASE_LO, A.REC_EXT_BASE_HI] else s

/-- The configuration registers of the recorder by number: SRC, TRIG, PRE, POST, EXT_BASE_LO, EXT_BASE_HI, EXT_LEN. -/
def recConfigReg (r : Fin 7) : Nat :=
  match r with
  | 0 => A.REC_SRC | 1 => A.REC_TRIG | 2 => A.REC_PRE | 3 => A.REC_POST
  | 4 => A.REC_EXT_BASE_LO | 5 => A.REC_EXT_BASE_HI | 6 => A.REC_EXT_LEN

/-- REC_CONFIG_WRITE (R89). -/
def execRecConfigWrite (r : Fin 7) (w : Half) (s : State) : Out := .next (s.recConfigWrite (recConfigReg r) w)

/-- A write of REC_CMD (R86): with more than one bit at 1 it acts as STOP alone. -/
def State.recCmdWrite (s : State) (w : Half) : State :=
  match bits w.toNat 2 0 with
  | 1 => s.recArm
  | 4 => s.recTrigger
  | 0 => s
  | _ => s.recStop

end Sys2Proof.Machine
end

