-- ==== Sys2Proof/Machine/Lane.lean ====
section
/-! DEFINITION. PHY modes, frame check sequences and airtimes; the demodulation lanes (R62 to R85). Octet delivery,
MACF and the Hod follow in other files; the hand-off of a knock-watch lane is completed with ACCESS. -/
namespace Sys2Proof.Machine

/-! ## PHY modes (R68) -/

/-- A PHY mode: its kind, whether RFE_ISM alone has it, HF ticks of a bit at the data rate, the channel filter in kHz,
HF ticks of a DFE symbol, and whether the DFE serves it. -/
structure Mode where
  kind : ModeKind
  ismOnly : Bool
  bitTicks : Nat
  filter : Nat
  dfeTicks : Nat
  dfe : Bool
  deriving DecidableEq, Repr

/-- The modes of R68; every other code is reserved. -/
def modeOf (m : Nat) : Option Mode :=
  match m with
  | 0x00 => some ⟨.fsk2, false, 960, 120, 960, false⟩
  | 0x01 => some ⟨.fsk2, false, 480, 240, 480, false⟩
  | 0x02 => some ⟨.fsk2, false, 320, 260, 320, false⟩
  | 0x03 => some ⟨.fsk2, false, 240, 330, 240, true⟩
  | 0x04 => some ⟨.fsk2, false, 160, 500, 160, true⟩
  | 0x05 => some ⟨.fsk2, false, 120, 660, 120, true⟩
  | 0x08 => some ⟨.fsk4, false, 960, 60, 1920, false⟩
  | 0x09 => some ⟨.fsk4, false, 480, 120, 960, false⟩
  | 0x0A => some ⟨.fsk4, false, 320, 170, 640, false⟩
  | 0x0B => some ⟨.fsk4, false, 240, 220, 480, true⟩
  | 0x0C => some ⟨.fsk4, false, 160, 330, 320, true⟩
  | 0x0D => some ⟨.fsk4, false, 120, 440, 240, true⟩
  | 0x10 => some ⟨.oqpsk, true, 192, 2600, 24, true⟩
  | 0x18 => some ⟨.czhr, true, 24, 2400, 48, true⟩
  | _ => none

/-- A mode is one of the SUN FSK modes (R68). -/
def isSun (m : Nat) : Bool := match modeOf m with | some k => k.kind == .fsk2 || k.kind == .fsk4 | none => false

/-- HF ticks of the PHR. -/
def phrTicks (m : Nat) : Nat :=
  match modeOf m with
  | some k => match k.kind with | .oqpsk => 8 * k.bitTicks | _ => 16 * k.bitTicks
  | none => 0

/-- HF ticks of one PSDU octet. -/
def octetTicks (m : Nat) : Nat := match modeOf m with | some k => 8 * k.bitTicks | none => 0

/-- HF ticks from the end of the SFD to the end of the last symbol, for a PSDU of `len` octets (PRESUMED, log entry 22: the
padding of a coded SUN FSK frame is that of IEEE 802.15.4-2020). -/
def payloadTicks (m : Nat) (coded : Bool) (len : Nat) : Nat :=
  if coded then
    match modeOf m with
    | some k => 2 * k.bitTicks * (16 + 8 * len + 3 + (if len % 2 = 1 then 5 else 13))
    | none => 0
  else phrTicks m + octetTicks m * len

/-- HF ticks of preamble and SFD for a SUN FSK preamble of `pre` octets (R68, R120, R121). -/
def shrTicks (m pre : Nat) : Nat :=
  match modeOf m with
  | some k => match k.kind with
    | .fsk2 => (pre + 2) * 8 * k.bitTicks
    | .fsk4 => (pre + 4) * 8 * k.bitTicks
    | .oqpsk => us 160
    | .czhr => us 48
  | none => 0

/-- Airtime in HF ticks, from the first preamble symbol to the last symbol. -/
def airTicks (m : Nat) (coded : Bool) (pre len : Nat) : Nat := shrTicks m pre + payloadTicks m coded len

/-! ## Frame check sequences (IEEE 802.15.4-2020, PRESUMED, log entry 21) -/

/-- One bit of a reflected CRC. -/
def crcBit (poly c : Nat) : Nat := if c % 2 = 1 then (c / 2) ^^^ poly else c / 2

/-- One octet of a reflected CRC. -/
def crcOctet (poly c : Nat) (b : Byte) : Nat := Nat.repeat (crcBit poly) 8 (c ^^^ b.toNat)

/-- A reflected CRC over octets. -/
def crcReflected (poly init : Nat) (l : List Byte) : Nat := l.foldl (crcOctet poly) init

/-- The 16-bit FCS as sent. -/
def fcs16 (l : List Byte) : List Byte := leOctets 2 (crcReflected 0x8408 0 l)

/-- The 32-bit FCS as sent; a field shorter than 4 octets is padded with zeros for the calculation. -/
def fcs32 (l : List Byte) : List Byte :=
  leOctets 4 (crcReflected 0xEDB88320 0xFFFFFFFF (l ++ List.replicate (4 - l.length) 0) ^^^ 0xFFFFFFFF)

/-- Octets of the FCS. -/
abbrev fcsLen (f32 : Bool) : Nat := if f32 then 4 else 2

/-- A PSDU with its FCS appended. -/
def withFcs (f32 : Bool) (l : List Byte) : List Byte := l ++ (if f32 then fcs32 l else fcs16 l)

/-- The FCS of a whole PSDU is right. -/
def fcsGood (f32 : Bool) (psdu : List Byte) : Bool :=
  let n := psdu.length - fcsLen f32
  psdu == withFcs f32 (psdu.take n) && fcsLen f32 ≤ psdu.length

/-! ## Whitening (PN9 of IEEE 802.15.4-2020, PRESUMED, log entry 96) -/

/-- A step of the PN9 generator: `r` holds the last nine bits, the latest in bit 0. -/
def pn9Step (r : Nat) : Nat := (2 * r + (r / 256 + r / 8) % 2) % 512

/-- The next octet of the PN9 sequence, its first bit in bit 0, with `n` bits still to come. -/
def pn9Octet : Nat → Nat → Nat × Nat
  | 0, r => (0, r)
  | n + 1, r =>
    let r' := pn9Step r
    let p := pn9Octet n r'
    (r' % 2 + 2 * p.1, p.2)

/-- Octets of the PN9 sequence. -/
def pn9 : Nat → Nat → List Byte
  | 0, _ => []
  | n + 1, r => let p := pn9Octet 8 r; byte p.1 :: pn9 n p.2

/-- A PSDU whitened, or de-whitened, where `dw` says so: PN9 from the all-ones seed (R69, R71). -/
def whiten (dw : Bool) (l : List Byte) : List Byte := if dw then xorOctets l (pn9 l.length 511) else l

/-! ## Gain steps -/

/-- The analogue gain of a band at an index, in 0.01 dB above that of index 0: calibrated steps of 6 dB, each within 0.05 dB
(R42, R81). -/
def gainAt (b : Band) (i : Nat) : Int :=
  (List.range i).foldl (fun g k => g + 595 + ((Config.gainStep (match b with | .sub => false | .ism => true) k % 11 : Nat) : Int)) 0

/-! ## Lane state -/

abbrev laneIdle : Nat := 0
abbrev laneSearch : Nat := 1
abbrev lanePreamble : Nat := 2
abbrev laneHeader : Nat := 3
abbrev lanePayload : Nat := 4
abbrev laneOut : Nat := 5
abbrev laneAssay : Nat := 6

/-- LANE_ST0.STATE. -/
abbrev State.laneState (s : State) (n : Nat) : Nat := s.fld (F.LANE_ST0_STATE n)

/-- Put LANE_ST0.STATE. -/
abbrev State.setLaneState (s : State) (n st : Nat) : State := s.setFld (F.LANE_ST0_STATE n) st

/-- Band of the entry in force. -/
def State.laneBand (s : State) (n : Nat) : Band := if s.flag (F.LANE_CUR0_BAND n) then .ism else .sub

/-- Mode of the entry in force. -/
abbrev State.laneMode (s : State) (n : Nat) : Nat := s.fld (F.LANE_CUR0_MODE n)

/-- Channel offset in kHz of an entry's two words (R66). -/
def entryOfs (w0 w1 : Half) : Int := toSigned 18 (bits w0.toNat 1 0 * 65536 + w1.toNat)

/-- Channel offset of the entry in force. -/
def State.laneOfs (s : State) (n : Nat) : Int := entryOfs (s.reg (A.LANE_CUR0 n)) (s.reg (A.LANE_CUR1 n))

/-- The stream of a band is muted. -/
abbrev State.muted (s : State) (b : Band) : Bool := s.flag (F.RFE_STATUS_MUTE b)

/-- The frame a lane is receiving. -/
def State.laneFrame (s : State) (n : Nat) : Option Frame := (s.lane n).frame.bind s.frame?

/-- The taps of a lane's DFE at HF tick `t` (R79): while they adapt they follow the received symbols, so they are free values, real and
imaginary part apart for O-QPSK (DESIGN CHOICE, log entry 97); else they are held. -/
def Lane.tapsAt (l : Lane) (oqpsk : Bool) (t : Nat) : List Int :=
  match l.adapts with
  | none => l.taps
  | some u => if t ≤ u then l.taps
    else (List.range (if oqpsk then 24 else 12)).map (fun i => toSigned 18 (Config.dfeTap (l.frame.getD 0) t i))

/-- The taps of a lane as they stand now (R79). -/
def State.lmsTaps (s : State) (n : Nat) : List Int := (s.lane n).tapsAt (s.laneMode n == 0x10) s.hft

/-- A lane enters SEARCH: written LANE_CTRL bits take effect (R80), the notch releases (R73), the NCO stands at the channel
(R72), the digital gain folds its compensation in, rounded to 1 dB, a half away from zero, and clamped (R74, R81; the half is
a DESIGN CHOICE, log entry 36). -/
def State.enterSearch (s : State) (n : Nat) : State :=
  let s := s.commit [A.LANE_CTRL n]
  let taps := s.lmsTaps n
  let s := s.modLane n (fun l => { l with
    notch := none, frozen := false, frame := none, taps := taps, adapts := none, nco := -10 * s.laneOfs n, iqc := s.effFld (F.LANE_CTRL_BYP_IQC n) == 0
    dgain := 100 * clampInt 0 90 (divRound l.dgain 100) })
  s.setLaneState n laneSearch

/-- The image correction that a lane applies at its channel, none where it is bypassed (R72). -/
def State.laneIqc (s : State) (n : Nat) : Option (Half × Half) :=
  if (s.lane n).iqc then
    let r := (match s.laneBand n with | .sub => s.radio.sub | .ism => s.radio.ism).iqApplied
    some (r.1, r.2.1)
  else none

/-- The entry in force becomes `(w0, w1)` and the lane takes it up: SEARCH for receive and knock watch, IDLE for idle
(R66, R75). -/
def State.retune (s : State) (n : Nat) (e : Half × Half) : State :=
  let s := (s.setReg (A.LANE_CUR0 n) e.1).setReg (A.LANE_CUR1 n) e.2
  if bits e.1.toNat 15 14 = 0 then (s.modLane n (fun l => { l with
    frame := none, taps := s.lmsTaps n, adapts := none })).setLaneState n laneIdle
  else s.enterSearch n

/-- An entry that a lane refuses (R67): reserved ROLE or MODE, a mode not allowed on the band, or an OFS whose filter
edges lie outside the stream. -/
def entryBad (w0 w1 : Half) : Bool :=
  let ism := w0.getLsbD 13
  bits w0.toNat 15 14 = 3 ||
  match modeOf (bits w0.toNat 12 8) with
  | none => true
  | some k => (k.ismOnly && !ism) ||
      2 * (entryOfs w0 w1).natAbs + k.filter > 2 * (if ism then 50000 else 20000)

/-- The lane ends a frame's reception without a hand-off and returns to SEARCH. -/
def State.abandon (s : State) (n : Nat) : State :=
  let s := match (s.lane n).frame with | some f => s.dropFrame f | none => s
  s.enterSearch n

/-- Maximum logical lanes of a performance level (R282). -/
def plLanes (pl : Nat) : Nat := [0, 16, 40, 64].getD pl 0

/-- At t_CT a lane compares its new entry with the entry in force (R66, R67). An entry the lane refuses counts as the
idle entry and sets BADPLAN. A lane that the level powers down stays out (R65; DESIGN CHOICE, log entry 45). -/
def State.laneTick (s : State) (n : Nat) (w0 w1 : Half) : State :=
  let st := s.laneState n
  if st = laneOut ∨ st = laneAssay then s
  else if plLanes (s.fld F.PMU_PL_CUR) ≤ n then s.setLaneState n laneOut
  else
    let bad := entryBad w0 w1
    let s := if bad then (s.setFlag (F.LANE_EVT_BADPLAN n)).raise 10 else s
    let e : Half × Half := if bad then (0, 0) else (w0 &&& 0xFF03, w1)
    let same := e == (s.reg (A.LANE_CUR0 n), s.reg (A.LANE_CUR1 n))
    if st = laneHeader ∨ st = lanePayload then
      let s := match (s.lane n).frame with
        | some f => s.modFrame f (fun f => { f with xcourse := true })
        | none => s
      if same then s.modLane n (fun l => { l with deferred := none })
      else (s.modLane n (fun l => { l with deferred := some e })).count (A.LANE_CNT_DEFER n)
    else if same then (if st = laneIdle then s.retune n e else s)
    else if st = lanePreamble then ((s.count (A.LANE_CNT_SYNC n)).abandon n).retune n e
    else s.retune n e

/-- After a frame a lane returns to SEARCH, or takes up an entry that was deferred to the frame's end (R66). The rule names the
hand-off; a frame that ends without one (its PHR rejected, or muted in HEADER) has the entry applied at its return to SEARCH
(DESIGN CHOICE, log entry 107). -/
def State.afterFrame (s : State) (n : Nat) : State :=
  match (s.lane n).deferred with
  | some e => (s.modLane n (fun l => { l with deferred := none })).retune n e
  | none => s.enterSearch n

/-! ## Frames -/

/-- HF tick of t_EOF as the frame's length gives it. -/
def Frame.eof (f : Frame) : Nat := f.tsSfd + payloadTicks f.mode f.coded f.len

/-- The frame status word of R78. -/
def Frame.statusWord (f : Frame) (cut bad : Bool) : Half :=
  half (bit (f.gstepN != 0) * 32768 + bit cut * 16384 + bit bad * 8192 + bit (f.eras != 0) * 4096 +
    bit f.xcourse * 2048 + bit f.coded * 1024 + bit f.dw * 512 + bit f.fcs32 * 256 + bit f.dfe * 128 +
    min f.gstepN 7 * 16)

/-- The hand-off's writes (R78): status word, LANE_ST2 to ST5, timestamps and a counter, and the recorder's triggers
FCS and GSTEP. -/
def State.handoffRegs (s : State) (n : Nat) (f : Frame) (h : Handoff) : State :=
  let s := s.setReg (A.LANE_ST1 n) h.status
  let s := s.setReg (A.LANE_ST2 n) h.rssi
  let s := s.setReg (A.LANE_ST3 n) f.fofs
  let s := s.setReg (A.LANE_ST4 n) (half f.len)
  let s := s.setReg (A.LANE_ST5 n) (half (h.lqi * 256 + min f.eras 255))
  let s := s.setReg32 (A.LANE_TS_SFD_LO n) f.tsSfd
  let s := s.setReg32 (A.LANE_TS_EOF_LO n) h.tsEof
  let s := s.count (if h.fcsErr then A.LANE_CNT_FCS n else A.LANE_CNT_OK n)
  let s := if h.fcsErr then s.recLane F.REC_TRIG_FCS n else s
  if f.gstepN != 0 then s.recLane F.REC_TRIG_GSTEP n else s

/-- The course of an instant: the one in progress, or the one before it (R115): ASN bits and t_CT. -/
def State.courseAt (s : State) (t : Nat) : Nat × Nat :=
  if s.course.ct ≤ t then (s.regN A.COURSE_ASN_0, s.course.ct) else (s.course.prevAsn, s.course.prevCt)

/-- A frame is handed off: a frame of a receive lane that MACF has passed waits for the Hod, any other goes no further
(R78, R84, R111). -/
def State.handoff (s : State) (n : Nat) (f : Frame) (h : Handoff) : State :=
  let s := s.handoffRegs n f h
  let s := if f.band = .ism then s.modAccess (fun a => { a with lastIsm := some s.hft }) else s
  match f.macf with
  | .passed _ => if f.knock then s.dropFrame f.fid else s.modFrame f.fid (fun f => { f with handoff := some h })
  | _ => s.dropFrame f.fid

/-- HF ticks of `n` bits of PHR and PSDU: coding at rate 1/2 doubles them (R69). -/
def Frame.bitSpan (f : Frame) (n : Nat) : Nat :=
  match modeOf f.mode with
  | some k => (if f.coded then 2 else 1) * k.bitTicks * n
  | none => 0

/-- HF tick at which the last bit of PSDU octet `k`, counted from 1, has been received. -/
def Frame.octetAt (f : Frame) (k : Nat) : Nat :=
  f.tsSfd + (if f.coded then f.bitSpan (16 + 8 * k) else phrTicks f.mode + k * octetTicks f.mode)

/-- Octets of a frame that are decided when it is cut at `t`: those whose last bit lies before `t`, in an uncoded frame and with
NRNSC; with RSC and interleaving a block's octets arrive together, and how many a block holds is a free value (R69, R77,
R111). -/
def State.cutOctets (s : State) (f : Frame) (t : Nat) : Nat × State :=
  let k := ((List.range f.len).filter (fun i => f.octetAt (i + 1) < t)).length
  if f.coded && f.fec == 1 then
    let (back, s) := s.draw (k + 1)
    (k - back, s)
  else (k, s)

/-- A mute or a withdrawal meets a lane (R75, R77): PREAMBLE and HEADER end with CNT_SYNC, PAYLOAD with a hand-off
that carries CUT and FCS_ERR at the instant of the cut. RSSI and LQI are measured: free values. -/
def State.laneCut (s : State) (n : Nat) : State :=
  let st := s.laneState n
  if st = lanePreamble ∨ st = laneHeader then
    let s := (s.count (A.LANE_CNT_SYNC n))
    let s := match (s.lane n).frame with | some f => s.dropFrame f | none => s
    s.afterFrame n
  else if st = lanePayload then
    match s.laneFrame n with
    | some f =>
      let (k, s) := s.cutOctets f s.hft
      let (rssi, s) := s.draw 65536
      let (lqi, s) := s.draw 256
      let (asn, ct) := s.courseAt s.hft
      let f := { f with octets := f.octets.take k }
      let s := s.modFrame f.fid (fun g => { g with octets := f.octets })
      let s := s.handoff n f ⟨f.statusWord true true, half rssi, lqi, s.hft, true, true, asn, ct⟩
      s.afterFrame n
    | none => s.afterFrame n
  else s

/-- A mute meets a lane: a frame whose t_EOF lies before it is whole, and its hand-off is still to come (R50). -/
def State.laneMuted (s : State) (n : Nat) : State :=
  match s.laneFrame n with
  | some f => if s.laneState n = lanePayload ∧ f.eof < s.hft then s else s.laneCut n
  | none => s.laneCut n

/-- The lanes of a band are muted. -/
def State.cutLanes (s : State) (b : Band) : State :=
  forEach (List.range 64) s (fun s n => if s.laneBand n = b then s.laneMuted n else s)

/-- A lane goes out of service to OUT or ASSAY: its frame ends as if the band were muted (R75). -/
def State.laneLeave (s : State) (n st : Nat) : State :=
  if s.laneState n = laneOut then s
  else (s.laneCut n).setLaneState n st |>.modLane n (fun l => { l with deferred := none })

/-- HF ticks of a frame's DFE symbol. -/
def Frame.dfeTicks (f : Frame) : Nat := match modeOf f.mode with | some m => m.dfeTicks | none => 1

/-- The DFE symbols, counted from the SFD, whose period overlaps the 1 µs from `t` on: first and last (R82). -/
def Frame.hit (f : Frame) (t : Nat) : Nat × Nat := ((t - f.tsSfd) / f.dfeTicks, (t + 47 - f.tsSfd) / f.dfeTicks)

/-- HF ticks at which the symbols of a frame that a marker at `t` erases start, without those already erased: symbols of the
frame alone, up to t_EOF once its length is known (R82). -/
def Frame.newErased (f : Frame) (payload : Bool) (t : Nat) : List Nat :=
  let h := f.hit t
  ((List.range (h.2 + 1 - h.1)).map (fun i => f.tsSfd + (h.1 + i) * f.dfeTicks)).filter
    (fun u => !f.erased.contains u && (!payload || u < f.eof))

/-- A symbol erased goes to the FEC decoder of a coded frame as a zero soft value; the slicer decision stands in an uncoded
one, and feeds the feedback taps in both (R83). -/
def Frame.softZero (f : Frame) (t : Nat) : Bool := f.coded && f.erased.contains t

/-- The first octet whose decision the erased symbols `e` can move: none of those decided before `t`; of an uncoded frame none, since
the slicer decision stands; with RSC and interleaving the octets of the block that a symbol falls in arrive together (R69, R83). -/
def Frame.moved (f : Frame) (e : List Nat) (t : Nat) : Option Nat :=
  if e.any f.softZero then
    let k := ((List.range f.len).filter (fun i => f.octetAt (i + 1) < t)).length
    some (if f.fec == 1 then k - Config.fecBack f.fid t % (k + 1) else k)
  else none

/-- The frame once the symbols `e` have been erased at `t`: in PAYLOAD what the decoder of a coded frame makes of the octets that they
can move is a free value (R83; DESIGN CHOICE, log entry 97). -/
def Frame.erase (f : Frame) (e : List Nat) (t : Nat) : Frame :=
  let f := { f with gstepN := f.gstepN + 1, eras := f.eras + e.length, erased := f.erased ++ e }
  match f.moved e t with
  | some k => { f with octets := f.octets.mapIdx (fun i b => if i < k then b else Config.fecOctet f.fid t i) }
  | none => f

/-- A marker reaches a lane (R81 to R83): the digital gain moves against the step of `c` hundredths of a dB. A frame past SEARCH
whose t_EOF has not passed carries GSTEP, and the DFE symbols that overlap the 1 µs transient are erased. In every state past
SEARCH adaptation freezes, the taps held as it has left them, up to 8 DFE symbols after the last symbol hit. -/
def State.laneMarker (s : State) (n : Nat) (c : Int) : State :=
  let st := s.laneState n
  if st = laneIdle ∨ st = laneOut ∨ st = laneAssay then s
  else
    let s := s.modLane n (fun l => { l with dgain := l.dgain + c })
    if st = laneSearch then s
    else match s.laneFrame n with
      | none => s
      | some f =>
        let t := s.hft
        let e := if f.dfe then f.newErased (st = lanePayload) t else []
        let s := if st = lanePayload ∧ f.eof < t then s
          else s.modFrame f.fid (fun f => f.erase e t)
        if f.dfe then s.modLane n (fun l => { l with
          taps := l.tapsAt (s.laneMode n == 0x10) t, adapts := none
          frozen := true, thaw := f.tsSfd + ((f.hit t).2 + 9) * f.dfeTicks }) else s

/-- The gain of a band changes by `c` hundredths of a dB: every lane of the band sees the marker (R44). -/
def State.markBand (s : State) (b : Band) (c : Int) : State :=
  forEach (List.range 64) s (fun s n => if s.laneBand n = b then s.laneMarker n (-c) else s)

/-- HF ticks of a preamble symbol, in which SFD_TO counts (R68, R75). -/
def symbolTicks (m : Nat) : Nat :=
  match modeOf m with
  | some k => if k.kind = .oqpsk then us 16 else k.dfeTicks
  | none => 0

/-- Preamble symbols in a row that detection takes: PRE_MIN, and for O-QPSK an eighth of it, rounded up (R75). -/
def State.preMin (s : State) (n : Nat) : Nat :=
  let p := s.fld (F.LANE_SYNC_PRE_MIN n)
  if s.laneMode n = 0x10 then max 1 ((p + 7) / 8) else p

/-- The taps at the reset of the DFE: feed-forward tap 3 at 1.0, counted from 0, every other at 0 (R79; the count from 0 is a
DESIGN CHOICE, log entry 97). -/
def dfeReset : List Int := [0, 0, 0, 32768, 0, 0, 0, 0, 0, 0, 0, 0]

/-- The DFE of a frame has adapted up to now, unless it is frozen, and goes on (R79). -/
def State.adaptTaps (s : State) (n : Nat) (dfe : Bool) : State :=
  if !dfe || (s.lane n).frozen then s
  else
    let taps := s.lmsTaps n
    s.modLane n (fun l => { l with taps := taps, adapts := some s.hft })

/-- Whether a PHR is accepted in a mode with the lane's MAX_LEN (R69 to R71). -/
def phrOk (m maxLen : Nat) (p : Phr) : Bool :=
  match modeOf m with
  | none => false
  | some k => match k.kind with
    | .oqpsk => 5 ≤ p.len.toNat && p.len.toNat ≤ 127
    | .czhr => p.ver == 0 && p.res == 0 && 7 ≤ p.len.toNat && p.len.toNat ≤ maxLen
    | _ => !p.ms && fcsLen p.fcs32 + 3 ≤ p.len.toNat && p.len.toNat ≤ maxLen

/-! ## Commands -/

/-- DGAIN_ADJUST (R74): a window of 4 DFE symbols in SEARCH measured `lvl` hundredths of a dBFS. Where a half goes in
round(-TARGET_NEG - L) no rule says: away from zero (DESIGN CHOICE, log entry 36). -/
def execDgainAdjust (n : Fin 64) (lvl : Int) (s : State) : Out :=
  .next (if s.laneState n = laneSearch then
      let d : Int := -100 * s.fld (F.LANE_DGAIN_TARGET_NEG n) - lvl
      if d.natAbs > 100 * s.fld (F.LANE_DGAIN_HYST n)
      then s.modLane n (fun l => { l with dgain := clampInt 0 9000 (l.dgain + 100 * divRound d 100) }) else s
    else s)

/-- A tone engages the notch of a lane in mode `m`: inside the passband, 6 dB over the mean for 16 DFE symbols (R73). -/
def toneEngages (x : Tone) (m : Nat) : Bool :=
  match modeOf m with
  | some k => 2 * x.ofs.natAbs ≤ 10 * k.filter && 600 ≤ x.above && 16 ≤ x.syms
  | none => false

/-- NOTCH_ENGAGE (R73). A command at an engaged notch says where its tone has gone, and the notch follows it (DESIGN CHOICE, log entry
107). -/
def execNotchEngage (x : Tone) (s : State) : Out :=
  let n := x.lane
  let st := s.laneState n
  .next (if st = laneIdle ∨ st = laneOut ∨ st = laneAssay ∨ s.effFld (F.LANE_CTRL_BYP_ACF n) = 1 then s
    else if (s.lane n).notch.isSome ∨ toneEngages x (s.laneMode n) then s.modLane n (fun l => { l with notch := some x.ofs })
    else s)

/-- PREAMBLE_DETECT (R75, R79): PRE_MIN preamble symbols in a row correlate at the threshold or above; an offset beyond 25 % of the channel filter does not correlate, nor does a muted stream. The gain freezes,
the NCO is corrected, the DFE is reset and the SFD timeout starts. -/
def execPreambleDetect (n : Fin 64) (x : Preamble) (s : State) : Out :=
  .next (match modeOf (s.laneMode n) with
    | none => s
    | some k =>
      if s.laneState n = laneSearch ∧ !s.muted (s.laneBand n) ∧ s.preMin n ≤ x.syms ∧ s.fld (F.LANE_SYNC_CORR_THR n) ≤ x.corr ∧
          4 * (toSigned 16 x.fofs.toNat).natAbs ≤ 10 * k.filter then
        let fid := s.radio.nextFid
        let f : Frame := {
          fid := fid, lane := n, band := s.laneBand n, mode := s.laneMode n, ofs := s.laneOfs n
          knock := s.fld (F.LANE_CUR0_ROLE n) == 2
          fofs := x.fofs, dfe := k.dfe && s.effFld (F.LANE_CTRL_BYP_DFE n) == 0
          coded := false, fec := 0, dw := false, fcs32 := false, len := 0, octets := [], tsSfd := s.hft, sfdCt := s.course.ct
          gstepN := 0, eras := 0, erased := [], xcourse := false, macf := .undecided, buf := none, check := none, verdict := none
          pending := false, committed := false, handoff := none, placed := false, settled := false }
        let s := s.modRadio (fun r => { r with frames := r.frames ++ [f], nextFid := fid + 1 })
        (s.modLane n (fun l => { l with
          frame := some fid, frozen := false, nco := -10 * s.laneOfs n - toSigned 16 x.fofs.toNat, sfdFrom := s.hft
          taps := if f.dfe then dfeReset else l.taps, adapts := if f.dfe then some s.hft else none, mu := s.fld (F.LANE_DFE_MU_TRAIN n) })).setLaneState n lanePreamble
      else s)

/-- A preamble comes to nothing: CNT_SYNC + 1 and back to SEARCH (R75). -/
def State.preambleEnd (s : State) (n : Nat) : State :=
  if s.laneState n = lanePreamble then (s.count (A.LANE_CNT_SYNC n)).abandon n else s

/-- PREAMBLE_LOST (R75): 8 symbols in a row correlate below the threshold. -/
def execPreambleLost (x : Fade) (s : State) : Out :=
  .next (if 8 ≤ x.syms ∧ x.corr < s.fld (F.LANE_SYNC_CORR_THR x.lane) then s.preambleEnd x.lane else s)

/-- SFD_TIMEOUT (R75): SFD_TO symbols have passed since the preamble was detected. -/
def execSfdTimeout (n : Fin 64) (s : State) : Out :=
  .next (if s.laneState n = lanePreamble then
      (s.passTo ((s.lane n).sfdFrom + s.regN (A.LANE_SFD_TO n) * symbolTicks (s.laneMode n))).preambleEnd n
    else s)

/-- SFD_FOUND (R69 to R71, R75): the SFD ends with `errs` bit errors; SUN FSK lanes look for the coded SFD too, and
O-QPSK tolerates none. A coded frame is decoded with FEC_SCHEME. The DFE has trained over preamble and SFD, and tracks from
here on (R79). -/
def execSfdFound (n : Fin 64) (coded : Bool) (errs : Nat) (s : State) : Out :=
  let m := s.laneMode n
  let limit := if m = 0x10 then 0 else s.fld (F.LANE_SYNC_SFD_ERR n)
  .next (if s.laneState n = lanePreamble ∧ errs ≤ limit ∧ (!coded ∨ isSun m) then
      match (s.lane n).frame with
      | some f =>
        let s := s.adaptTaps n ((s.frame? f).any (·.dfe))
        let s := s.modFrame f (fun f => { f with
          coded := coded, fec := s.fld (F.LANE_PHYOPT_FEC_SCHEME n), tsSfd := s.hft, sfdCt := s.course.ct })
        let s := s.modLane n (fun l => { l with mu := s.fld (F.LANE_DFE_MU_TRACK n) })
        (s.setLaneState n laneHeader).recLane F.REC_TRIG_SFD n
      | none => s
    else s)

/-- PHR_VALID (R69 to R71, R75): the PHR is accepted and the PSDU octets begin to arrive; `octets` is the PSDU as the
demodulator and the FEC decoder yield it, whitened where the sender whitened it. -/
def execPhrValid (n : Fin 64) (phr : Phr) (octets : List Byte) (s : State) : Out :=
  let m := s.laneMode n
  .next (if s.laneState n = laneHeader ∧ phrOk m (s.fld (F.LANE_PHYOPT_MAX_LEN n)) phr then
      match (s.lane n).frame with
      | some f =>
        let sun := isSun m
        let dw := if sun then phr.dw else m == 0x18
        let s := s.adaptTaps n ((s.frame? f).any (·.dfe))
        (s.modFrame f (fun f => { f with
          len := phr.len.toNat, octets := whiten dw (slice octets 0 phr.len.toNat)
          dw := dw
          fcs32 := if sun then phr.fcs32 else m = 0x18 })).setLaneState n lanePayload
      | none => s
    else s)

/-- PHR_REJECTED (R69 to R71, R75). -/
def execPhrRejected (n : Fin 64) (phr : Phr) (s : State) : Out :=
  .next (if s.laneState n = laneHeader ∧ !phrOk (s.laneMode n) (s.fld (F.LANE_PHYOPT_MAX_LEN n)) phr
    then
      let s := s.count (A.LANE_CNT_HDR n)
      let s := match (s.lane n).frame with | some f => s.dropFrame f | none => s
      s.afterFrame n
    else s)

/-- LQI of LANE_ST5 from the estimated SNR in hundredths of a dB: clamp(round(8 × (SNR + 5 dB)), 0, 255), a half away from
zero (no rule says where it goes: DESIGN CHOICE, log entry 36). -/
def lqiOf (snr : Int) : Nat := (clampInt 0 255 (divRound (8 * (snr + 500)) 100)).toNat

/-- The lane's part of the hand-off of a whole frame (R76, R78, R84): FCS check, status and timestamps, and for a
knock-watch lane the frame for ACCESS. `err` shifts TS_EOF by −2 to +2 HF ticks. -/
def State.handoffWhole (s : State) (n : Nat) (f : Frame) (rssi : Half) (snr : Int) (err : Fin 5) : State :=
  let bad := !fcsGood f.fcs32 f.octets
  let eof := f.eof + err - 2
  let s := s.passTo f.eof
  let (asn, ct) := s.courseAt eof
  let s := s.handoff n f ⟨f.statusWord false bad, rssi, lqiOf snr, eof, bad, false, asn, ct⟩
  let s := if f.knock ∧ !bad ∧ f.octets.take 2 = leOctets 2 (s.regN (A.LANE_KNOCK n)) then
      ((s.setFlag (F.LANE_EVT_KNOCK n)).raise 10).recLane F.REC_TRIG_KNOCK n
    else s
  s.afterFrame n

/-- The frame that a knock-watch lane hands to ACCESS (R84). -/
def State.knockFrame (s : State) (f : Frame) : Bool :=
  f.knock && fcsGood f.fcs32 f.octets && f.octets.take 2 == leOctets 2 (s.regN (A.LANE_KNOCK f.lane))

/-- DFE_ADAPT_RESUME (R82, R83): at the end of the 8th DFE symbol after the last erased one. -/
def execDfeAdaptResume (n : Fin 64) (s : State) : Out :=
  .next (if (s.lane n).frozen then (s.passTo (s.lane n).thaw).modLane n (fun l => { l with
      frozen := false, adapts := some (s.lane n).thaw }) else s)

end Sys2Proof.Machine
end

