-- ==== Sys2Proof/Machine/Rfe.lean ====
section
/-! DEFINITION. The radio front ends: enable and lock, gain, calibrations, the transmit chain and the FEM pins (R32 to
R61), and the results of scheduled carriers (R105, R106). -/
namespace Sys2Proof.Machine

/-- A band's number where the spec codes it: 0 RFE_SUB, 1 RFE_ISM. -/
abbrev bandCode (b : Band) : Nat := match b with | .sub => 0 | .ism => 1

/-- The band of a code bit. -/
abbrev bandOf (i : Bool) : Band := if i then .ism else .sub

/-! ## FEM pins -/

/-- FEM level register of a pin of a band. -/
abbrev femLvl (b : Band) (p : Nat) : Nat := match b with | .sub => A.FEM_S_LVL p | .ism => A.FEM_I_LVL p
/-- FEM TXOFF register of a pin of a band. -/
abbrev femTxoff (b : Band) (p : Nat) : Nat := match b with | .sub => A.FEM_S_TXOFF p | .ism => A.FEM_I_TXOFF p
/-- FEM RXOFF register of a pin of a band. -/
abbrev femRxoff (b : Band) (p : Nat) : Nat := match b with | .sub => A.FEM_S_RXOFF p | .ism => A.FEM_I_RXOFF p

/-- The FEM registers of a band. -/
def femRegs (b : Band) : List Nat := (List.range 6).flatMap (fun p => [femLvl b p, femTxoff b p, femRxoff b p])

/-- The level in force of a pin: bit 0 IDLE, 1 RX, 2 TX. -/
def State.femLevel (s : State) (b : Band) (p bitNo : Nat) : Bool := (s.eff (femLvl b p)).getLsbD bitNo

/-- All six pins at one of their levels. -/
def State.femAll (s : State) (b : Band) (bitNo : Nat) : BitVec 6 :=
  BitVec.ofNat 6 ((List.range 6).foldl (fun a p => a + bit (s.femLevel b p bitNo) * 2 ^ p) 0)

/-- Drive one pin. -/
def State.femDrive (s : State) (b : Band) (p : Fin 6) (v : Bool) : State :=
  s.modRfe b (fun r => { r with femPins := if v then r.femPins ||| BitVec.ofNat 6 (2 ^ p.val)
    else r.femPins &&& ~~~ BitVec.ofNat 6 (2 ^ p.val) })

/-! ## Muting -/

/-- The band is enabled: from the write of EN = 1 until a disable takes effect (R38). -/
def Rfe.enabled (r : Rfe) : Bool := r.phase != .off

/-- The stream is muted: disabled or not yet ready, unlocked, or held muted by a burst, a calibration, a Plumb session
or a band slice (R36, R37, R45, R58). -/
def Rfe.isMuted (r : Rfe) : Bool :=
  r.phase != .ready || r.lost || r.muteBurst || r.muteCal || r.mutePlumb || r.muteAssay

/-- MUTE follows its causes. A mute cuts the frames of the band's lanes (R75, R77) and empties the clip window (R43): an
overload declared whose analogue step is still to come is dropped, one that has stepped keeps its marker (DESIGN CHOICE, log
entry 95). An unmute is noted. -/
def State.syncMute (s : State) (b : Band) : State :=
  let m := (s.rfe b).isMuted
  let was := s.muted b
  let s := s.setFlag (F.RFE_STATUS_MUTE b) m
  if m && !was then (s.cutLanes b).modRfe b (fun r => if r.ovlStepped then r else { r with ovl := none })
  else if !m && was then
    s.modRfe b (fun r => { r with lastUnmute := s.hft, unlocked := false, muteIn := true, clipFrom := s.hft })
  else s

/-! ## Results of scheduled carriers -/

/-- The result field of a transmit entry in COURSE_TXRES (R105). -/
def txresFld (e : Nat) : Fld := ⟨if e < 4 then A.COURSE_TXRES_0 else A.COURSE_TXRES_1, e % 4 * 4 + 3, e % 4 * 4⟩

/-- A fabric frame whose transmit entry was not sent in full may be sent in another course (R105, R355). -/
def Fstage.unsent (asn e : Nat) : Fstage → Fstage
  | .placed p a i => if a % 65536 = asn ∧ i = e then .ready p else .placed p a i
  | x => x

/-- The result of a transmit entry (R105): the event RADIO TX_DONE to the channel that sent the entry's frame (R341, R342); a fabric
frame that was not sent in full waits for another course. -/
def State.txDone (s : State) (asn e code : Nat) : State :=
  let s := if code = 1 then s
    else s.modFabric (fun f => { f with queue := f.queue.map (fun m => { m with stage := m.stage.unsent asn e }) })
  match s.adsin.sent.find? (fun m => m.asn % 65536 = asn ∧ m.entry = e) with
  | some m =>
    let s := s.modAdsin (fun a => { a with sent := a.sent.filter (· != m) })
    s.event (if h : m.chan < 6 then [⟨m.chan, h⟩] else []) 3 0x81
      [half m.asn, half (m.asn / 65536), half (m.asn / 2 ^ 32), half e, half code]
  | none => s

/-- A result in COURSE_TXRES and its report. -/
def State.txResult (s : State) (e code : Nat) : State :=
  (s.setFld (txresFld e) code).txDone (s.regN A.COURSE_ASN_0) e code

/-- A carrier ends with a result (R105, R106): an acknowledgement reports none; a scheduled carrier reports in
COURSE_TXRES, or in the transmit-end FIFO once a t_CT has ended its course: firmware reports it from there, so that a record lost to a
full FIFO is reported by no event. -/
def State.carrierResult (s : State) (b : Band) (c : Carrier) (code : Nat) : State :=
  match c.entry with
  | none => s
  | some e =>
    if c.crossed then
      if s.course.txend.length < 16 then
        let s := s.modCourse (fun k => { k with
          txend := k.txend ++ [(half (code * 4096 + bandCode b * 2048 + e * 256), half c.asn)] })
        s.setFld F.COURSE_TXEND_N_COUNT s.course.txend.length
      else s.setFlag F.COURSE_STATUS_TXEND_OVF
    else s.txResult e code

/-- Every carrier of a band is stopped or never sent: scheduled ones report ABORT, and TX_ABORT is set if there was
one (R37, R38). -/
def State.abortCarriers (s : State) (b : Band) : State :=
  let cs := (s.rfe b).carriers
  let s := s.modRfe b (fun r => { r with carriers := [] })
  let s := forEach cs s (fun s c => s.carrierResult b c 9)
  if cs.isEmpty then s else s.setFlag (F.RFE_STATUS_TX_ABORT b)

/-! ## Transmit configuration -/

/-- 4 × (10·log10(N) + 3 dB), rounded up, by N; 0 for N = 1 (R49). -/
def carrierBackoff : List Nat := [0, 0, 25, 32, 37, 40, 44, 46, 49, 51, 52, 54, 56, 57, 58, 60, 61]

/-- The transmit configuration registers of a band (R53). -/
def txRegs (b : Band) : List Nat :=
  [A.RFE_TX_NMAX b, A.RFE_TX_TOTAL b] ++ (List.range 32).map (fun i => A.RFE_RAMP b i)

/-- The written transmit configuration comes into force, and the carrier level with it (R49, R53). -/
def State.applyTx (s : State) (b : Band) : State :=
  let s := s.commit (txRegs b)
  let lvl := toSigned 9 (s.fld (F.RFE_TX_TOTAL_TOTAL b)) - carrierBackoff.getD (s.fld (F.RFE_TX_NMAX_NMAX b)) 0
  s.setFld (F.RFE_TX_CARRIER_LEVEL b) (ofSigned 9 lvl)

/-- A write of a transmit configuration register: held while TX_ACTIVE = 1 (R53). -/
def State.txConfigWrite (s : State) (b : Band) (a : Nat) (w : Half) : State :=
  let s := s.plainWrite a w
  if s.flag (F.RFE_STATUS_TX_ACTIVE b) then s else s.applyTx b

/-- Whether a carrier from `start` to `stop` keeps the number of carriers active at every instant within `nmax`
(R50). -/
def carrierFits (cs : List Carrier) (nmax start stop : Nat) : Bool :=
  (start :: (cs.map (·.start)).filter (fun t => start ≤ t && t < stop)).all
    (fun t => (cs.filter (fun c => c.start ≤ t && t < c.stop)).length + 1 ≤ nmax)

/-- R50's test on a band. -/
def State.carrierFits (s : State) (b : Band) (start stop : Nat) : Bool :=
  Sys2Proof.Machine.carrierFits (s.rfe b).carriers (s.effFld (F.RFE_TX_NMAX_NMAX b)) start stop

/-- Admit a carrier. -/
def State.addCarrier (s : State) (b : Band) (c : Carrier) : State :=
  s.modRfe b (fun r => { r with carriers := r.carriers ++ [c] })

/-- The band can take carriers: TX_EN = 1, READY = 1 and not unlocked (R37, R105, R114). -/
def State.txReady (s : State) (b : Band) : Bool :=
  s.flag (F.RFE_CTRL_TX_EN b) && s.flag (F.RFE_STATUS_READY b) && !(s.rfe b).unlocked

/-! ## Enable and disable -/

/-- Put GAIN_IDX, and announce the change to the lanes (R44). -/
def State.setGain (s : State) (b : Band) (i : Nat) : State :=
  let old := s.fld (F.RFE_GAIN_GAIN_IDX b)
  if i = old then s
  else
    let s := (s.setFld (F.RFE_GAIN_GAIN_IDX b) i).modRfe b (fun r => { r with gainMoved := true })
    s.markBand b (gainAt b i - gainAt b old)

/-- The disable takes effect (R38): held FEM writes apply and the pins go to IDLE, the stream is muted, the regulator
turns off, a calibration is abandoned and stays pending (so R38 says of a loss of XO_HF; for a written EN = 0 it is a DESIGN
CHOICE, log entry 95). GAIN_IDX reads 0 from here with no marker: R38 gives what a disabled band reads, and the model takes only a
change of the gain of an enabled band, that of READY among them, as a gain change to announce (R44; DESIGN CHOICE, log entry 107). -/
def State.disableNow (s : State) (b : Band) : State :=
  let s := s.commit (femRegs b)
  let idle := s.femAll b 0
  let s := s.modRfe b (fun r => { r with
    phase := .off, regOn := false, loLocked := false, lost := false, unlocked := false, disablePend := false, muteBurst := false
    muteCal := false, cal := none, calLost := false, ovl := none, ovlStepped := false, burst := none
    lo := 0, femPins := idle, femTx := 0, femDue := [], fading := [] })
  let s := s.setFlag (F.RFE_STATUS_CAL_BUSY b) false
  let s := s.setFlag (F.RFE_STATUS_READY b) false
  let s := s.setFlag (F.RFE_STATUS_TX_ACTIVE b) false
  let s := s.syncMute b
  let s := s.setFld (F.RFE_GAIN_GAIN_IDX b) 0
  let s := s.commit [A.RFE_SPAN b]
  s.applyTx b

/-! ## Spans and the LO (R32 to R34, R47) -/

/-- The usable span in force, lower and upper edge, in 100 kHz (R32). -/
def State.span (s : State) (b : Band) : Nat × Nat :=
  match b with
  | .sub => let l := s.effFld (F.RFE_SPAN_SPAN_LO .sub); (l, l + 320)
  | .ism => (24000, 24840)

/-- Where the span in force puts the LO, in 100 kHz: 2 MHz below the span, or above it (R32). -/
def State.loOf (s : State) (b : Band) : Nat :=
  if s.effFld (F.RFE_SPAN_LO_SIDE b) = 1 then (s.span b).2 + 20 else (s.span b).1 - 20

/-- The frequency of the LO with the trim in force, in units of 0.1 mHz: a trim is in 0.001 ppm (R47). -/
def State.loTrimmed (s : State) (b : Band) : Int :=
  (s.rfe b).lo * (1000000000 + toSigned 16 (s.eff (A.RFE_XO_TRIM .sub)).toNat)

/-- The image of a frequency about the LO, both in 100 kHz (R33). -/
def imageOf (lo f : Nat) : Int := 2 * (lo : Int) - f

/-- The radio frequency of a lane's or carrier's offset from the span centre, in 100 Hz units with the offset in kHz: the
same for both sides of the LO (R34). -/
def State.rfOf (s : State) (b : Band) (ofs : Int) : Int :=
  500 * (((s.span b).1 + (s.span b).2 : Nat) : Int) + 10 * ofs

/-- The write of EN = 1 (R36, R38): it starts the enable sequence, or withdraws a pending disable. -/
def State.feEnable (s : State) (b : Band) : State :=
  let r := s.rfe b
  let s := s.setFlag (F.RFE_CTRL_EN b)
  if r.disablePend then s.modRfe b (fun r => { r with disablePend := false })
  else if r.enabled then s
  else
    let s := s.commit [A.RFE_SPAN b]
    s.modRfe b (fun r => { r with phase := .locking, tEn := s.hft, regOn := true, lo := s.loOf b })

/-- The write of EN = 0 (R38): at once, or pending while a burst is in progress: here until its mute ends at t_EOT + 72 µs,
where R50 and R37 count it until t_EOT. At once, carriers granted and not sequenced are dropped, TX_ABORT is set and scheduled
ones report ABORT. Both are a DESIGN CHOICE, log entry 95. -/
def State.feDisable (s : State) (b : Band) : State :=
  let r := s.rfe b
  let s := s.setFlag (F.RFE_CTRL_EN b) false
  if !r.enabled then s
  else if r.burst.isSome then s.modRfe b (fun r => { r with disablePend := true })
  else (s.abortCarriers b).disableNow b

/-- A loss of XO_HF disables the band at once, with no turnaround (R38). -/
def State.feXoLoss (s : State) (b : Band) : State :=
  let s := s.setFlag (F.RFE_CTRL_EN b) false
  if (s.rfe b).enabled then (s.abortCarriers b).disableNow b else s

/-- A write of RFE_CTRL (R36, R38, R53). -/
def State.rfeCtrlWrite (s : State) (b : Band) (w : Half) : State :=
  let en := s.fld (F.RFE_CTRL_EN b)
  let s := (s.plainWrite (A.RFE_CTRL b) w).setFld (F.RFE_CTRL_EN b) en
  if w.getLsbD 0 then s.feEnable b else s.feDisable b

/-- FE_ENABLE (R36, R38): a write of RFE_CTRL with EN = 1; the other fields of the write take effect too. -/
def execFeEnable (b : Band) (w : Half) (s : State) : Out := .next (s.rfeCtrlWrite b (w ||| 1))

/-- FE_DISABLE (R38): a write of RFE_CTRL with EN = 0. -/
def execFeDisable (b : Band) (w : Half) (s : State) : Out := .next (s.rfeCtrlWrite b (w &&& 0xFFFE))

/-- LO_LOCK (R36, R37): the LO locks, or locks again after a loss. -/
def execLoLock (b : Band) (s : State) : Out :=
  let r := s.rfe b
  .next (if r.loLocked then s
    else if r.phase = .locking then
      let rx := s.femAll b 1
      s.modRfe b (fun r => { r with phase := .locked, loLocked := true, tLock := s.hft, femPins := rx })
    else if r.enabled then s.modRfe b (fun r => { r with loLocked := true, tLock := s.hft })
    else s)

/-- The corrections in the registers are applied to the path (R36). -/
def State.applyCorrections (s : State) (b : Band) : State :=
  s.modRfe b (fun r => { r with
    rcApplied := s.fld (F.RFE_RC_CODE_CODE b)
    iqApplied := (s.reg (A.RFE_IQ_GAIN b), s.reg (A.RFE_IQ_PHASE b), s.reg (A.RFE_TXIQ_GAIN b), s.reg (A.RFE_TXIQ_PHASE b))
    dcApplied := s.fld (F.RFE_GAIN_GAIN_SET b) })

/-- FE_CORRECTIONS_APPLY (R36): at lock + 10 µs. -/
def execFeCorrectionsApply (b : Band) (s : State) : Out :=
  let r := s.rfe b
  .next (if r.phase = .locked ∧ r.loLocked then
      ((s.passTo (r.tLock + us 10)).applyCorrections b).modRfe b (fun r => { r with phase := .corrected })
    else s)

/-- FE_READY (R36, R37): at lock + 30 µs the gain is set and the band unmutes; after a loss of lock the band unmutes
again, the gain in force kept. -/
def execFeReady (b : Band) (s : State) : Out :=
  let r := s.rfe b
  .next (if r.phase = .corrected ∧ r.loLocked then
      let s := s.passTo (r.tLock + us 30)
      let s := s.setGain b (s.fld (F.RFE_GAIN_GAIN_SET b))
      let s := (s.modRfe b (fun r => { r with phase := .ready, lost := false })).setFlag (F.RFE_STATUS_READY b)
      let s := s.syncMute b
      s.complete (.feEn b) stOk 0 [s.reg (A.RFE_STATUS b)]
    else if r.phase = .ready ∧ r.lost ∧ r.loLocked then
      ((s.passTo (r.tLock + us 30)).modRfe b (fun r => { r with lost := false })).syncMute b
    else s)

/-- LOCK_FAIL (R36): no lock 200 µs after the enable. -/
def execLockFail (b : Band) (s : State) : Out :=
  let r := s.rfe b
  .next (if r.phase = .locking then
      let s := (s.passTo (r.tEn + us 200)).setFlag (F.RFE_STATUS_LOCK_FAIL b)
      s.complete (.feEn b) stOk 0 [s.reg (A.RFE_STATUS b)]
    else s)

/-- LOCK_LOST (R37): the band mutes, a burst is ramped down from this instant, carriers not yet started are not sent.
A loss before READY sends the sequence back to wait for lock. -/
def execLockLost (b : Band) (s : State) : Out :=
  let r := s.rfe b
  .next (if !r.loLocked then s
    else
      let s := s.modRfe b (fun r => { r with
        loLocked := false, calLost := r.cal.isSome
        lost := r.phase == .ready, unlocked := r.phase == .ready
        phase := if r.phase = .ready then .ready else .locking
        burst := r.burst.map (fun k => if k.eot.isNone then { k with phase := .rampDown, eot := some s.hft } else k) })
      let cutBurst := match r.burst with | some k => k.eot.isNone | none => false
      let s := s.abortCarriers b
      let s := if cutBurst then s.setFlag (F.RFE_STATUS_TX_ABORT b) else s
      let s := (s.setFlag (F.RFE_STATUS_LOCK_LOST b)).syncMute b
      (s.raise 12).event hostChans 3 0x83 [half (bandCode b), s.reg (A.RFE_STATUS b)])

/-- FE_DISABLE_TAKES_EFFECT (R38): at t_EOT + 72 µs. -/
def execFeDisableTakesEffect (b : Band) (s : State) : Out :=
  let r := s.rfe b
  .next (match r.burst.bind (·.eot) with
    | some t => if r.disablePend then (s.passTo (t + us 72)).disableNow b else s
    | none => s)

/-- A write of RFE_SPAN (R35). -/
def State.spanWrite (s : State) (b : Band) (w : Half) : State :=
  let s := s.plainWrite (A.RFE_SPAN b) w
  if (s.rfe b).enabled then s else s.commit [A.RFE_SPAN b]

/-- RFE_SPAN_WRITE (R35). -/
def execRfeSpanWrite (b : Band) (w : Half) (s : State) : Out := .next (s.spanWrite b w)

/-! ## Gain -/

/-- A band's open level window is excluded from the statistics: the band is or was muted in it, a calibration ran (which
mutes) or the gain changed (R39). -/
def State.levelExcluded (s : State) (b : Band) : Bool :=
  s.muted b || (s.rfe b).cal.isSome || (s.rfe b).gainMoved || (s.rfe b).muteIn

/-- LEVEL_WINDOW (R39): a 2 µs window closes with a mean power of `lvl` dBFS, rounded down. -/
def execLevelWindow (b : Band) (lvl : Int) (s : State) : Out :=
  .next (if !s.flag F.COURSE_STATUS_RUNNING then s
    else
      let ref := lvl - 6 * s.fld (F.RFE_GAIN_GAIN_IDX b)
      s.modRfe b (fun r => { r with
        gainMoved := false
        muteIn := false
        levelHi := if s.levelExcluded b then r.levelHi else some (match r.levelHi with | some l => max l ref | none => ref) }))

/-- Complex samples in an HF tick: 96 or 192 MS/s (R32, R41). -/
abbrev samplesPerTick (b : Band) : Nat := match b with | .sub => 2 | .ism => 4

/-- Clipped conversions that stand in the clip window, of samples given by their age in samples, the youngest first: the last
2 µs, from `lim` samples back at most; I and Q count apart (R41). -/
def clipSum (lim : Nat) : Nat → List (Nat × Bool × Bool) → Nat
  | _, [] => 0
  | from_, (age, i, q) :: l => if from_ ≤ age ∧ age < lim then bit i + bit q + clipSum lim (age + 1) l else clipSum lim from_ l

/-- The samples that the clip window holds now (R41, R43). -/
def State.clipSpan (s : State) (b : Band) : Nat :=
  min (96 * samplesPerTick b) ((s.hft + 1 - (s.rfe b).clipFrom) * samplesPerTick b)

/-- The clipped samples complete the overload count at the youngest sample: more than 1/256 of the conversions of 2 µs
(R41). -/
def State.overloads (s : State) (b : Band) (clips : List (Nat × Bool × Bool)) : Bool :=
  (clips.any (fun c => c.1 == 0 && (c.2.1 || c.2.2))) && 192 * samplesPerTick b < 256 * clipSum (s.clipSpan b) 0 clips

/-- Overload detection is on, its window is full where a step demands it (R42), and the conversion is not that at t_CT
(R43). -/
def State.detects (s : State) (b : Band) : Bool :=
  let r := s.rfe b
  !(s.muted b || r.cal.isSome || r.ovl.isSome) && r.clipFull ≤ s.hft &&
    !(s.flag F.COURSE_STATUS_RUNNING && s.hft == s.course.ct)

/-- OVERLOAD (R41 to R43): the clip count completes; at GAIN_IDX 0 only FLOOR_CNT rises, once for each 2 µs. -/
def execOverload (x : Clips) (s : State) : Out :=
  let b := x.band
  .next (if !s.detects b || !s.overloads b x.clipped then s
    else if s.fld (F.RFE_GAIN_GAIN_IDX b) = 0 then
      (s.count (A.RFE_FLOOR_CNT b)).modRfe b (fun r => { r with clipFrom := s.hft + 1, clipFull := s.hft + us 2 })
    else s.modRfe b (fun r => { r with ovl := some s.hft, ovlStepped := false }))

/-- GAIN_STEP (R42): at t_OVL + 0.10 µs, the fifth HF tick. -/
def execGainStep (b : Band) (s : State) : Out :=
  .next (match (s.rfe b).ovl with
    | some t => if (s.rfe b).ovlStepped then s else (s.passTo (t + 5)).modRfe b (fun r => { r with ovlStepped := true })
    | none => s)

/-- GAIN_MARKER (R42, R44, R81, R82, R86): the first stream sample at the new gain. -/
def execGainMarker (b : Band) (s : State) : Out :=
  .next (if (s.rfe b).ovl.isSome ∧ (s.rfe b).ovlStepped then
      let s := s.modRfe b (fun r => { r with ovl := none, ovlStepped := false, clipFrom := s.hft, clipFull := s.hft + us 2 })
      let s := s.setGain b (s.fld (F.RFE_GAIN_GAIN_IDX b) - 1)
      (s.count (A.RFE_STEP_CNT b)).recOverload b
    else s)

/-- The largest multiple of 6 not above a value. -/
def floor6 (x : Int) : Int := x / 6 * 6

/-- The gain that R39 sets from the course's highest level, in dB. -/
def agcGain (levelMax gain topNeg gainMax : Nat) : Nat :=
  let l : Int := -(levelMax : Int)
  let top : Int := -(topNeg : Int)
  let g : Int := 6 * gain
  let g' := if levelMax = 0xFF then g
    else if l + g > top then floor6 (top - l)
    else if l + g + 6 ≤ top - 3 then floor6 (top - 3 - l)
    else g
  (clampInt 0 (6 * gainMax) g' / 6).toNat

/-- At t_CT (R39, R40, R43, R58): the level of the course just ended is stored and the clip window emptied; outside a mute that
holds it, the gain of an enabled band is set, READY or not. A first t_CT stores 0xFF. A gain that changes here counts as a change in the new course's first
window, which is excluded (DESIGN CHOICE, log entry 95). -/
def State.rfeTick (s : State) (b : Band) (first : Bool) : State :=
  let r := s.rfe b
  let lvl : Nat := match r.levelHi with
    | some l => if first then 0xFF else (clampInt 0 254 (-l)).toNat
    | none => 0xFF
  let s := (s.setReg (A.RFE_LEVEL b) (half lvl)).modRfe b (fun r => { r with
    levelHi := none, gainMoved := false, muteIn := false, clipFrom := s.hft + 1
    ovl := if r.ovl = some s.hft ∧ !r.ovlStepped then none else r.ovl })
  if !r.enabled || r.muteBurst || r.mutePlumb || r.muteAssay then s
  else
    let g := s.fld (F.RFE_GAIN_GAIN_IDX b)
    let i := if s.fld (F.RFE_CTRL_AGC_MODE b) = 1 then s.fld (F.RFE_GAIN_GAIN_SET b)
      else agcGain lvl g (s.fld (F.RFE_AGC_TOP_TOP_NEG b)) (s.fld (F.RFE_GAIN_GAIN_MAX b))
    s.setGain b i

/-! ## Calibrations -/

/-- The PEND bit of a calibration. -/
abbrev calPend (b : Band) (k : CalKind) : Fld :=
  match k with | .rc => F.RFE_CAL_STATUS_RC_PEND b | .dc => F.RFE_CAL_STATUS_DC_PEND b | .iq => F.RFE_CAL_STATUS_IQ_PEND b

/-- The FAIL bit of a calibration. -/
abbrev calFail (b : Band) (k : CalKind) : Fld :=
  match k with | .rc => F.RFE_CAL_STATUS_RC_FAIL b | .dc => F.RFE_CAL_STATUS_DC_FAIL b | .iq => F.RFE_CAL_STATUS_IQ_FAIL b

/-- Duration of a calibration in µs (R45). -/
def calTime (k : CalKind) : Nat := match k with | .rc => 120 | .dc => 300 | .iq => 900

/-- A calibration is requested; a request already pending is not duplicated (R45). -/
def State.calRequest (s : State) (b : Band) (k : CalKind) : State := s.setFlag (calPend b k)

/-- A write of RFE_CAL_CMD (R45). -/
def State.calCmdWrite (s : State) (b : Band) (w : Half) : State :=
  let s := if w.getLsbD 1 then s.calRequest b .rc else s
  let s := if w.getLsbD 2 then s.calRequest b .dc else s
  if w.getLsbD 0 then s.calRequest b .iq else s

/-- CAL_REQUEST_RC (R45). -/
def execCalRequestRc (b : Band) (s : State) : Out := .next (s.calRequest b .rc)

/-- CAL_REQUEST_DC (R45). -/
def execCalRequestDc (b : Band) (s : State) : Out := .next (s.calRequest b .dc)

/-- CAL_REQUEST_IQ (R45). -/
def execCalRequestIq (b : Band) (s : State) : Out := .next (s.calRequest b .iq)

/-- Whole µs left in the idle window; 0 outside it (R99). -/
def State.iwRemain (s : State) : Nat :=
  if s.flag F.COURSE_STATUS_IW_OPEN then (s.course.nextCt - us (s.regN A.COURSE_T_GUARD) - s.hft) / 48 else 0

/-- Work confined to the idle window may start now (R99); while COURSE is stopped there is no window to wait for. -/
def State.windowFor (s : State) (t : Nat) : Bool := !s.flag F.COURSE_STATUS_RUNNING || t ≤ s.iwRemain

/-- CALIBRATION_START (R45): the first pending calibration in the order RC, DC, IQ, if the window has room for it; none starts
within a Plumb session (R192). -/
def execCalibrationStart (b : Band) (s : State) : Out :=
  let r := s.rfe b
  .next (match [CalKind.rc, .dc, .iq].find? (fun k => s.flag (calPend b k)) with
    | none => s
    | some k =>
      if r.cal.isNone ∧ s.flag (F.RFE_STATUS_READY b) ∧ !r.mutePlumb ∧ s.windowFor (calTime k) then
        let s := s.modRfe b (fun r => { r with cal := some k, calLost := false, muteCal := true })
        (s.setFlag (F.RFE_STATUS_CAL_BUSY b)).syncMute b
      else s)

/-- A signed 16-bit code within plus or minus a bound. -/
def within (w : Half) (n : Nat) : Bool := (toSigned 16 w.toNat).natAbs ≤ n

/-- A calibration's results lie in their valid ranges, and an IQ run rejects the image by 58 dB (R46). -/
def calGood (k : CalKind) (m : CalResult) : Bool :=
  match k with
  | .rc => m.rc.toNat ≤ 63
  | .dc => m.dc.length == 15 && m.dc.all (fun p => -2048 ≤ toSigned 16 p.1.toNat && toSigned 16 p.1.toNat ≤ 2047 &&
      -2048 ≤ toSigned 16 p.2.toNat && toSigned 16 p.2.toNat ≤ 2047)
  | .iq => within m.iqGain 1000 && within m.iqPhase 5000 && within m.txGain 1000 && within m.txPhase 5000 &&
      58 ≤ m.rejection

/-- The results of a calibration are written and in force (R45). -/
def State.calStore (s : State) (b : Band) (k : CalKind) (m : CalResult) : State :=
  match k with
  | .rc => (s.setReg (A.RFE_RC_CODE b) m.rc).modRfe b (fun r => { r with rcApplied := m.rc.toNat })
  | .dc => s.modRfe b (fun r => { r with dc := m.dc })
  | .iq =>
    let s := (s.setReg (A.RFE_IQ_GAIN b) m.iqGain).setReg (A.RFE_IQ_PHASE b) m.iqPhase
    let s := (s.setReg (A.RFE_TXIQ_GAIN b) m.txGain).setReg (A.RFE_TXIQ_PHASE b) m.txPhase
    s.modRfe b (fun r => { r with iqApplied := (m.iqGain, m.iqPhase, m.txGain, m.txPhase) })

/-- The die temperature in 0.25 °C, none before a conversion (R301). -/
def State.dieTemp (s : State) : Option Int :=
  if s.flag F.SYSCTL_TEMP_VALID then some (toSigned 11 (s.fld F.SYSCTL_TEMP_DEG)) else none

/-- The temperature of the last RC and of the last IQ run is kept (R45). -/
def State.calRan (s : State) (b : Band) (k : CalKind) : State :=
  let t := s.dieTemp
  s.modRfe b (fun r => match k with | .rc => { r with rcTemp := t } | .iq => { r with iqTemp := t } | .dc => r)

/-- The die temperature has moved by 10 °C since a run; a run with no reading beside it compares with none (R45). -/
def tempMoved (now last : Option Int) : Bool :=
  match now, last with
  | some t, some u => 40 ≤ (t - u).natAbs
  | _, _ => false

/-- Lintel firmware's recalibration rule after a reading of the die temperature (R45): RC and IQ are requested again when it has
moved by 10 °C since their last run; a run made before the first reading takes that reading as its temperature (DESIGN CHOICE,
log entry 95). -/
def State.recalibrate (s : State) (b : Band) : State :=
  let t := s.dieTemp
  let s := if tempMoved t (s.rfe b).rcTemp then s.calRequest b .rc else s
  let s := if tempMoved t (s.rfe b).iqTemp then s.calRequest b .iq else s
  s.modRfe b (fun r => { r with rcTemp := r.rcTemp.or t, iqTemp := r.iqTemp.or t })

/-- CALIBRATION_END (R45, R46): the run ends with what it measured. A request written while the calibration ran leaves PEND as
it was, and the end clears it (DESIGN CHOICE, log entry 95). -/
def execCalibrationEnd (b : Band) (m : CalResult) (s : State) : Out :=
  let r := s.rfe b
  .next (match r.cal with
    | none => s
    | some k =>
      let s := (s.setFlag (calPend b k) false).calRan b k
      let s := if r.calLost || !calGood k m then s.setFlag (calFail b k) else s.calStore b k m
      let s := s.modRfe b (fun r => { r with cal := none, calLost := false, muteCal := false })
      let s := (s.setFlag (F.RFE_STATUS_CAL_BUSY b) false).syncMute b
      s.event hostChans 3 0x82 [half (bandCode b), s.reg (A.RFE_CAL_STATUS b)])

/-- A write of RFE_XO_TRIM (R47). A value outside -2,000 to +2,000 leaves the register's value, as a reserved encoding of R6 does:
chapter 02 gives the range and calls no value reserved (DESIGN CHOICE, log entry 107). -/
def State.trimWrite (s : State) (w : Half) : State :=
  let a := A.RFE_XO_TRIM .sub
  let s := s.plainWrite a w
  if s.flag F.COURSE_STATUS_RUNNING then s else s.commit [a]

/-- XO_TRIM_WRITE (R47). -/
def execXoTrimWrite (w : Half) (s : State) : Out := .next (s.trimWrite w)

/-- The transmit configuration register of a number: NMAX, TOTAL, then the ramp entries. -/
def txConfigReg (b : Band) (r : Fin 34) : Nat :=
  if r.val = 0 then A.RFE_TX_NMAX b else if r.val = 1 then A.RFE_TX_TOTAL b else A.RFE_RAMP b (r.val - 2)

/-- TX_CONFIG_WRITE (R53). -/
def execTxConfigWrite (b : Band) (r : Fin 34) (w : Half) (s : State) : Out := .next (s.txConfigWrite b (txConfigReg b r) w)

/-- A write of a FEM register (R59): held while the band is enabled, else at once, the pins following a new IDLE
level. A write of TXOFF with bits above its 7-bit field stores the field: the bits above are reserved bits under R4, not a
reserved encoding of the field under R6 (DEDUCED, log entry 95). -/
def State.femWrite (s : State) (b : Band) (a : Nat) (w : Half) : State :=
  let s := s.plainWrite a w
  if (s.rfe b).enabled then s
  else
    let s := s.commit [a]
    let idle := s.femAll b 0
    s.modRfe b (fun r => { r with femPins := idle })

/-- The FEM register of a pin and a kind: LVL, TXOFF, RXOFF. -/
def femReg (b : Band) (p : Fin 6) (k : Fin 3) : Nat :=
  match k with | 0 => femLvl b p | 1 => femTxoff b p | 2 => femRxoff b p

/-- FEM_REGISTER_WRITE (R59). -/
def execFemRegisterWrite (b : Band) (p : Fin 6) (k : Fin 3) (w : Half) (s : State) : Out :=
  .next (s.femWrite b (femReg b p k) w)

/-! ## Bursts (R50 to R58) -/

/-- The first start among the carriers that wait. -/
def firstStart (cs : List Carrier) : Option Nat :=
  (cs.filter (fun c => !c.started)).foldl (fun m c => match m with | some t => some (min t c.start) | none => some c.start) none

/-- A burst is in progress: from its sequencing to t_EOT (R37, R50). -/
def Rfe.bursting (r : Rfe) : Bool := match r.burst with | some k => k.eot.isNone | none => false

/-- HF ticks of an offset in a FEM edge register, which counts 0.25 µs (R54). -/
def State.femTicks (s : State) (a : Nat) : Nat := 12 * (s.eff a).toNat

/-- The TX to RX edges still to come of the band's burst (R54). -/
def State.edgesDue (s : State) (b : Band) : List (Fin 6 × Nat) :=
  let r := s.rfe b
  match r.burst.bind (·.eot) with
  | none => []
  | some t => ([0, 1, 2, 3, 4, 5].filter (fun p : Fin 6 => r.femTx.getLsbD p)).map (fun p => (p, t + s.femTicks (femRxoff b p)))

/-- BURST_SEQUENCING_START (R56): 32 µs before the first carrier. A burst whose mute has not ended keeps the TX to RX edges it has
still to make. -/
def execBurstSequencingStart (b : Band) (s : State) : Out :=
  let r := s.rfe b
  .next (if r.bursting || !r.enabled then s
    else match firstStart r.carriers with
      | none => s
      | some t =>
        let s := s.passTo (t - us 32)
        let due := s.edgesDue b
        let s := s.modRfe b (fun r => { r with
          burst := some ⟨t - us 32, .sequencing, none, r.burst.bind (·.eot)⟩, muteBurst := true, femTx := 0
          femDue := r.femDue ++ due, fading := [] })
        (s.setFlag (F.RFE_STATUS_TX_ACTIVE b)).syncMute b)

/-- FEM_TX_EDGE (R54): a pin moves to its TX level at the start of sequencing + 0.25 µs × TXOFF. -/
def execFemTxEdge (b : Band) (p : Fin 6) (s : State) : Out :=
  let r := s.rfe b
  .next (match r.burst with
    | some k =>
      if k.eot.isSome || r.femTx.getLsbD p || s.femLevel b p 1 == s.femLevel b p 2 then s
      else
        let s := s.passTo (k.seq + s.femTicks (femTxoff b p))
        let s := s.femDrive b p (s.femLevel b p 2)
        s.modRfe b (fun r => { r with femTx := r.femTx ||| BitVec.ofNat 6 (2 ^ p.val) })
    | none => s)

/-- DRIVER_RAMP_UP (R52, R56): 24 µs after the start of sequencing the ramp-up starts with entry 0. -/
def execDriverRampUp (b : Band) (s : State) : Out :=
  .next (match (s.rfe b).burst with
    | some k => if k.phase = .sequencing then
        let s := s.passTo (k.seq + us 24)
        s.modRfe b (fun r => { r with burst := some { k with phase := .driving } })
      else s
    | none => s)

/-- Replace the first carrier that meets a test. -/
def updFirst (p : Carrier → Bool) (g : Carrier → Carrier) : List Carrier → List Carrier
  | [] => []
  | c :: l => if p c then g c :: l else c :: updFirst p g l

/-- CARRIER_START (R51, R55): the carrier due next sends its first preamble symbol. -/
def execCarrierStart (b : Band) (s : State) : Out :=
  let r := s.rfe b
  .next (match r.burst, firstStart r.carriers with
    | some k, some t => if k.phase = .driving then
        (s.passTo t).modRfe b (fun r => { r with
          carriers := updFirst (fun c => !c.started && c.start == t) (fun c => { c with started := true }) r.carriers })
      else s
    | _, _ => s)

/-- The end due next among the carriers that have started. -/
def firstStop (cs : List Carrier) : Option Carrier :=
  (cs.filter (·.started)).foldl (fun m c => match m with
    | some d => if c.stop < d.stop then some c else some d
    | none => some c) none

/-- The carrier due next ends; a scheduled one reports SENT (R51, R105, R106). -/
def State.carrierEnd (s : State) (b : Band) : State :=
  match firstStop (s.rfe b).carriers with
  | some c =>
    let s := s.passTo c.stop
    let s := s.modRfe b (fun r => { r with carriers := r.carriers.erase c, fading := r.fading ++ [c] })
    s.carrierResult b c 1
  | none => s

/-- BURST_END (R57): t_EOT, the end of the last carrier. -/
def execBurstEnd (b : Band) (s : State) : Out :=
  let r := s.rfe b
  .next (match r.burst with
    | some k => if k.phase = .driving ∧ r.carriers.isEmpty
      then s.modRfe b (fun r => { r with burst := some { k with phase := .rampDown, eot := some s.hft } }) else s
    | none => s)

/-- DRIVER_OFF (R53, R57): at t_EOT + 8 µs; held transmit configuration takes effect. -/
def execDriverOff (b : Band) (s : State) : Out :=
  .next (match (s.rfe b).burst with
    | some k => match k.phase, k.eot with
      | .rampDown, some t =>
        let s := s.passTo (t + us 8)
        let s := s.modRfe b (fun r => { r with burst := some { k with phase := .driverOff }, fading := [] })
        (s.setFlag (F.RFE_STATUS_TX_ACTIVE b) false).applyTx b
      | _, _ => s
    | none => s)

/-- FEM_RX_EDGE (R54): a pin that made its TX edge returns to its RX level at t_EOT + 0.25 µs × RXOFF; an edge of an earlier
burst comes first. -/
def execFemRxEdge (b : Band) (p : Fin 6) (s : State) : Out :=
  let r := s.rfe b
  .next (match r.femDue.find? (fun d => d.1 = p) with
    | some d => ((s.passTo d.2).femDrive b p (s.femLevel b p 1)).modRfe b (fun r => { r with femDue := r.femDue.erase d })
    | none => match r.burst.bind (·.eot) with
      | some t => if r.femTx.getLsbD p then
          let s := s.passTo (t + s.femTicks (femRxoff b p))
          let s := s.femDrive b p (s.femLevel b p 1)
          s.modRfe b (fun r => { r with femTx := r.femTx &&& ~~~ BitVec.ofNat 6 (2 ^ p.val) })
        else s
      | none => s)

/-! ## What the transmit chain plays at this instant (R51, R52, R56, R57) -/

/-- Entry `i` of the driver ramp in force. -/
def State.rampEntry (s : State) (b : Band) (i : Nat) : Nat := (s.eff (A.RFE_RAMP b i)).toNat

/-- The amplitude of a ramp-down that started at t_EOT `e`: entry 31 to entry 0, 0.25 µs each, then none (R52, R57). -/
def State.rampDown (s : State) (b : Band) (e : Nat) : Nat :=
  if s.hft < e + us 8 then s.rampEntry b (31 - (s.hft - e) / 12) else 0

/-- The amplitude of the band's driver now, of 1023 (R52): ramp-up from the start of sequencing + 24 µs, entry 31 between the
ramps, ramp-down from t_EOT. A burst that loss of lock ends before its ramp-up plays none (DESIGN CHOICE, log entry 95). -/
def State.driverAmp (s : State) (b : Band) : Nat :=
  match (s.rfe b).burst with
  | none => 0
  | some k =>
    match k.eot with
    | some e => if k.phase = .rampDown ∧ k.seq + us 24 ≤ e then s.rampDown b e else 0
    | none =>
      if k.phase = .sequencing then (match k.prev with | some e => s.rampDown b e | none => 0)
      else s.rampEntry b (min 31 ((s.hft - (k.seq + us 24)) / 12))

/-- The digital amplitude of a carrier now, of 1023, and whether it is an unmodulated tone (R51): a carrier of the burst's first
instant follows the driver alone; a later one is ramped over the 2 µs before its start, as a tone; one that ends before t_EOT
over the 2 µs after its last symbol. Each entry of the default table lasts 1/16 µs. -/
def State.carrierAmp (s : State) (b : Band) (c : Carrier) : Nat × Bool :=
  match (s.rfe b).burst with
  | none => (0, false)
  | some k =>
    if s.hft < c.start then
      (if c.start = k.seq + us 32 then 1023
        else if c.start - us 2 ≤ s.hft then rampReset.getD ((s.hft - (c.start - us 2)) / 3) 0 else 0, true)
    else if s.hft < c.stop then (1023, false)
    else match k.eot with
      | some e => if c.stop = e then (1023, false)
        else (if s.hft < c.stop + us 2 then rampReset.getD (31 - (s.hft - c.stop) / 3) 0 else 0, false)
      | none => (if s.hft < c.stop + us 2 then rampReset.getD (31 - (s.hft - c.stop) / 3) 0 else 0, false)

/-- The DC table entry on the path (R36, R57): after a burst the entry for GAIN_IDX is back at t_EOT + 48 µs at the latest; R57
gives +12 to +48 µs, and the model takes the end of that time (DESIGN CHOICE, log entry 95). -/
def State.dcEntry (s : State) (b : Band) : Nat :=
  match (s.rfe b).burst.bind (·.eot) with
  | some e => if e + us 48 ≤ s.hft then s.fld (F.RFE_GAIN_GAIN_IDX b) else (s.rfe b).dcApplied
  | none => (s.rfe b).dcApplied

/-- BURST_MUTE_END (R55, R57, R58): at t_EOT + 72 µs the band unmutes, unless another cause holds it; a pending disable
takes effect instead (R38). -/
def execBurstMuteEnd (b : Band) (s : State) : Out :=
  let r := s.rfe b
  .next (match r.burst with
    | some k => match k.phase, k.eot with
      | .driverOff, some t =>
        let s := s.passTo (t + us 72)
        if r.disablePend then s.disableNow b
        else
          let g := s.fld (F.RFE_GAIN_GAIN_IDX b)
          (s.modRfe b (fun r => { r with burst := none, muteBurst := false, dcApplied := g })).syncMute b
      | _, _ => s
    | none => s)

end Sys2Proof.Machine
end

