-- ==== Sys2Proof/Machine/Timer.lean ====
section
/-! DEFINITION. TIMER: counters, compares and captures (R318 to R323). -/
namespace Sys2Proof.Machine

/-- HF ticks between counting ticks. -/
def State.tmrStep (s : State) (k : Fin 8) : Nat := 2 ^ s.fld (F.TMR_CTRL_PRESC k)

/-- The count of a channel: a running one has advanced at every counting tick since `since`. -/
def State.tmrCnt (s : State) (k : Fin 8) : Nat :=
  let t := s.timers[k]
  let p := s.tmrStep k
  if s.flag (F.TMR_CTRL_RUN k) then (t.base + (s.hft / p - t.since / p)) % 2 ^ 32 else t.base

/-- The compare value in force. -/
def State.tmrCmp (s : State) (k : Fin 8) : Nat := (s.eff (A.TMR_CMP_LO k)).toNat + 65536 * (s.eff (A.TMR_CMP_HI k)).toNat

/-- The auto-add in force. -/
def State.tmrAdd (s : State) (k : Fin 8) : Nat := (s.eff (A.TMR_ADD_LO k)).toNat + 65536 * (s.eff (A.TMR_ADD_HI k)).toNat

/-- A compare value is ahead of a count (R320). -/
def ahead (cmp cnt : Nat) : Bool :=
  let d := (cmp + 2 ^ 32 - cnt % 2 ^ 32) % 2 ^ 32
  decide (1 ≤ d) && decide (d < 2 ^ 31)

/-- Put the count of a channel, and count on from now. -/
def State.tmrSet (s : State) (k : Fin 8) (c : Nat) : State := s.modTimer k (fun t => { t with base := c % 2 ^ 32, since := s.hft })

/-- Lateness is tested with the count as it stands, from which the channel counts on. -/
def State.tmrTest (s : State) (k : Fin 8) : State :=
  let c := s.tmrCnt k
  (s.tmrSet k c).modTimer k (fun t => { t with late := !ahead (s.tmrCmp k) c })

/-- Put a value in force in an LO and HI pair at `lo`; a low word that a write holds stays as it is held (R26). -/
def State.putPair (s : State) (lo v : Nat) (held : Bool) : State :=
  let s := (s.setEff lo (half v)).setEff (lo + 2) (half (v / 65536))
  let s := s.setReg (lo + 2) (half (v / 65536))
  if held then s else s.setReg lo (half v)

/-- The channel stops and latches its count (R319). -/
def State.tmrLatch (s : State) (k : Fin 8) (c : Nat) : State :=
  ((s.setFlag (F.TMR_CTRL_RUN k) false).putPair (A.TMR_CNT_LO k) (c % 2 ^ 32) s.timers[k].cntHeld).tmrSet k c

/-- A status bit of a channel, and its line on the cores of its world (R318). -/
def State.tmrRaise (s : State) (k : Fin 8) (f : Fld) : State := (s.setFlag f).postAll (s.timerCores k) (20 + k)

/-- TIMER_COMPARE_FIRE (R320): the counting tick of the compare, or the first one after the last test where the compare is late. A repeating
channel counts on from there. -/
def execTimerCompareFire (k : Fin 8) (s : State) : Out :=
  let t := s.timers[k]
  let p := s.tmrStep k
  .next (if s.flag (F.TMR_CTRL_RUN k) && s.flag (F.TMR_CTRL_CMP_EN k) && s.sys.xoRun then
    let c := if t.late then (t.base + 1) % 2 ^ 32 else s.tmrCmp k
    let at_ := (t.since / p + (c + 2 ^ 32 - t.base) % 2 ^ 32) * p
    let s := s.passTo at_
    let s := (s.tmrRaise k (F.TMR_STATUS_FIRE k)).count (A.TMR_FIRES k)
    let s := if t.late then s.setFlag (F.TMR_STATUS_LATE k) else s
    let add := s.tmrAdd k
    if add = 0 then (s.tmrLatch k c).modTimer k (fun t => { t with late := false })
    else
      let cmp := (s.tmrCmp k + add) % 2 ^ 32
      let old := s.eff (A.TMR_CMP_LO k)
      let s := s.putPair (A.TMR_CMP_LO k) cmp s.timers[k].cmpHeld
      s.modTimer k (fun t => { t with base := c, since := at_, late := !ahead cmp c, added := some (s.hft, old) })
  else s)

/-- A write of TMR_k_CNT_LO or HI: the value commits on HI, unless the channel runs (R319). -/
def State.tmrCntWrite (s : State) (k : Fin 8) (hi : Bool) (w : Half) : State :=
  if !hi then (s.setReg (A.TMR_CNT_LO k) w).modTimer k (fun t => { t with cntHeld := true })
  else
    let s := s.modTimer k (fun t => { t with cntHeld := false })
    if s.flag (F.TMR_CTRL_RUN k) then
      (s.setReg (A.TMR_CNT_LO k) (s.eff (A.TMR_CNT_LO k))).setFlag (F.TMR_STATUS_WERR k)
    else
      let s := (s.setReg (A.TMR_CNT_HI k) w).commit [A.TMR_CNT_LO k, A.TMR_CNT_HI k]
      s.tmrSet k (s.reg32 (A.TMR_CNT_LO k))

/-- TIMER_CNT_COMMIT (R319). -/
def execTimerCntCommit (k : Fin 8) (w : Half) (s : State) : Out := .next (s.tmrCntWrite k true w)

/-- A write of TMR_k_CMP_LO or HI. Where no low word is held, a write of the high word at the HF tick of a fire discards the auto-add of the
low word too (R321; DESIGN CHOICE, log entry 107: that tick is the cycle of the fire). -/
def State.tmrCmpWrite (s : State) (k : Fin 8) (hi : Bool) (w : Half) : State :=
  if !hi then (s.setReg (A.TMR_CMP_LO k) w).modTimer k (fun t => { t with cmpHeld := true })
  else
    let s := match s.timers[k].added with
      | some (t, lo) => if !s.timers[k].cmpHeld ∧ t = s.hft then s.setReg (A.TMR_CMP_LO k) lo else s
      | none => s
    let s := s.modTimer k (fun t => { t with cmpHeld := false })
    ((s.setReg (A.TMR_CMP_HI k) w).commit [A.TMR_CMP_LO k, A.TMR_CMP_HI k]).tmrTest k

/-- TIMER_CMP_COMMIT (R320). -/
def execTimerCmpCommit (k : Fin 8) (w : Half) (s : State) : Out := .next (s.tmrCmpWrite k true w)

/-- A write of TMR_WORLD: the channels whose FIRE or CAP is 1 raise their lines on the cores of their worlds (R318). -/
def State.tmrWorldWrite (s : State) (w : Half) : State :=
  forEach [0, 1, 2, 3, 4, 5, 6, 7] (s.plainWrite A.TMR_WORLD w) (fun s (k : Fin 8) =>
    if s.reg (A.TMR_STATUS k) &&& 3 != 0 then s.postAll (s.timerCores k) (20 + k) else s)

/-- A write of TMR_k_CTRL: the count carries on across a change of PRESC, and a pulse that has begun is not waited for. -/
def State.tmrCtrlWrite (s : State) (k : Fin 8) (w : Half) : State :=
  let run := s.flag (F.TMR_CTRL_RUN k)
  let en := s.flag (F.TMR_CTRL_CMP_EN k)
  let c := s.tmrCnt k
  let s := s.plainWrite (A.TMR_CTRL k) w
  if run && !s.flag (F.TMR_CTRL_RUN k) then s.tmrLatch k c
  else
    let s := (s.tmrSet k c).modTimer k (fun t => { t with edgeAt := none, due := none })
    if (!run && s.flag (F.TMR_CTRL_RUN k)) || (!en && s.flag (F.TMR_CTRL_CMP_EN k)) then s.tmrTest k else s

/-- TIMER_RUN (R319): a write of TMR_k_CTRL with RUN = 1. -/
def execTimerRun (k : Fin 8) (w : Half) (s : State) : Out := .next (s.tmrCtrlWrite k (w ||| 0x8000))

/-- TIMER_STOP (R319): a write of TMR_k_CTRL with RUN = 0. -/
def execTimerStop (k : Fin 8) (w : Half) (s : State) : Out := .next (s.tmrCtrlWrite k (w &&& 0x7FFF))

/-! ## Captures (R322, R323) -/

/-- A capture lands. -/
def State.tmrLand (s : State) (k : Fin 8) (t : Nat) : State :=
  let s := if s.flag (F.TMR_STATUS_CAP_NEW k) then s.setFlag (F.TMR_STATUS_OVW k) else s
  let s := (s.modTimer k (fun x => { x with cap := t, held := none })).setReg (A.TMR_CAP_LO k) (half t)
  (s.setFlag (F.TMR_STATUS_CAP_NEW k)).tmrRaise k (F.TMR_STATUS_CAP k)

/-- A held capture lands one cycle later. -/
def State.tmrHeld (s : State) (k : Fin 8) : State :=
  match s.timers[k].held with | some t => s.tmrLand k t | none => s

/-- The captures of a channel that time has brought about: the one held, and that of an edge whose level has lasted 3 HF ticks (R322,
R323). -/
def State.tmrSettle (s : State) (k : Fin 8) : State :=
  let s := if s.timers[k].heldAt < s.hft then s.tmrHeld k else s
  match s.timers[k].due, s.timers[k].edgeAt with
  | some v, some at_ =>
    if at_ + 3 ≤ s.hft then
      let s := s.modTimer k (fun x => { x with due := none })
      if s.timers[k].held.isSome then s.setFlag (F.TMR_STATUS_CAP_OVR k) else s.tmrLand k v
    else s
  | _, _ => s

/-- A channel captures from a source. -/
def State.capOn (s : State) (k : Fin 8) (src : Nat) : Bool :=
  s.flag (F.TMR_CTRL_CAP_EN k) && s.fld (F.TMR_CTRL_CAPSEL k) == src && src != 0 && s.sys.xoRun

/-- A channel takes an edge of a source, of the kind its EDGE selects; CAPSEL 3 and 4 name one kind. -/
def State.capTakes (s : State) (k : Fin 8) (src : Nat) (rising : Bool) : Bool :=
  s.capOn k src && (src == 3 || src == 4 || (s.fld (F.TMR_CTRL_EDGE k)).testBit (if rising then 0 else 1))

/-- The HFT of an edge, known to ±1 HF tick (R322, log entry 2). -/
def State.capTime (s : State) : Nat × State :=
  let (e, s) := s.draw 3
  ((s.hft + 2 ^ 32 - 1 + e) % 2 ^ 32, s)

/-- A channel captures (R323). `coincident`: in the cycle of a read of CAP_LO, and held for one cycle; one that comes while another is
held is lost. -/
def State.capture1 (s : State) (k : Fin 8) (t : Nat) (coincident : Bool) : State :=
  let s := s.tmrSettle k
  if s.timers[k].held.isSome then s.setFlag (F.TMR_STATUS_CAP_OVR k)
  else if coincident then s.modTimer k (fun x => { x with held := some t, heldAt := s.hft })
  else s.tmrLand k t

/-- An edge at a ball may begin a pulse, and a capture that lands once the level has lasted 3 HF ticks. -/
def State.capBegin (s : State) (k : Fin 8) (takes : Bool) : State :=
  let (v, s) := s.capTime
  s.modTimer k (fun x => { x with edgeAt := some s.hft, due := if takes then some v else none })

/-- An edge at the ball that a channel selects: one that comes before the level has lasted 3 HF ticks ends a pulse too short to capture,
and neither of the two counts (R322; DESIGN CHOICE, log entry 107). -/
def State.capPulse (s : State) (k : Fin 8) (takes : Bool) : State :=
  match s.timers[k].edgeAt with
  | some at_ =>
    if s.hft < at_ + 3 then s.modTimer k (fun x => { x with edgeAt := none, due := none }) else s.capBegin k takes
  | none => s.capBegin k takes

/-- An edge of a capture source reaches every channel that selects it (R322). One of t_CT or of the RTC at the HF tick of a read of CAP_LO
may come in the cycle of it, which is a free value (R323, log entry 2). -/
def State.capEdge (s : State) (src : Nat) (rising : Bool) : State :=
  forEach [0, 1, 2, 3, 4, 5, 6, 7] s (fun s (k : Fin 8) =>
    let s := s.tmrSettle k
    if !s.capOn k src then s
    else if src = 3 ∨ src = 4 then
      let (v, s) := s.capTime
      let (c, s) := s.draw (if s.timers[k].readAt = some s.hft then 2 else 1)
      s.capture1 k v (c = 1)
    else s.capPulse k (s.capTakes k src rising))

/-- TIMER_CAPTURE (R322, R323): a channel captures an edge of the ball that it selects, beside those that COURSE_TICK, RTC_TICK,
PPS_IN_EDGE, MAINS_EDGE and the edges of GPIO pins capture themselves (DESIGN CHOICE, log entry 60). -/
def execTimerCapture (k : Fin 8) (e : CaptureEdge) (s : State) : Out :=
  let src := s.fld (F.TMR_CTRL_CAPSEL k)
  .next (if s.capTakes k src e.rising && src != 3 && src != 4 then
    let (v, s) := s.capTime
    s.capture1 k v e.coincident
  else s)

/-- A read of TMR_k_CAP_LO. -/
def State.tmrCapRead (s : State) (k : Fin 8) : Half × State :=
  let s := (s.tmrHeld k).tmrSettle k
  let c := s.timers[k].cap
  let s := s.modTimer k (fun x => { x with readAt := some s.hft })
  (half c, (s.setReg (A.TMR_CAP_HI k) (half (c / 65536))).setFlag (F.TMR_STATUS_CAP_NEW k) false)

/-- TIMER_CAP_READ (R323). -/
def execTimerCapRead (k : Fin 8) (s : State) : Out :=
  let (v, s) := s.tmrCapRead k
  .next (s.see (.value v))

end Sys2Proof.Machine
end

