-- ==== Sys2Proof/Machine/Course.lean ====
section
/-! DEFINITION. COURSE: start and stop, the course boundary, the idle window, the lane plan and its check, scheduled
transmissions, CCA and the duty-cycle accounts (R90 to R108). -/
namespace Sys2Proof.Machine

/-! ## Template and start -/

/-- Course length in HF ticks (R91). -/
def State.courseLen (s : State) : Nat := 240000 * (s.fld F.COURSE_CFG_LEN + 1)

/-- The template is valid for the course length (R98). -/
def State.templateOk (s : State) : Bool :=
  let t := s.regN
  t A.COURSE_T_CCAOFS + t A.COURSE_T_CCA + 32 ≤ t A.COURSE_T_TXOFS && t A.COURSE_T_TXOFS < t A.COURSE_T_IDLE &&
    t A.COURSE_T_IDLE + t A.COURSE_T_GUARD ≤ s.courseLen / 48

/-- COURSE runs. -/
abbrev State.running (s : State) : Bool := s.flag F.COURSE_STATUS_RUNNING

/-- A start of COURSE (R92): refused on an invalid template or without XO_HF; the first t_CT falls 2 HF ticks on, or at
COURSE_START where that lies ahead. RUNNING reads 1 from this write on, and a RUN = 0 before the first t_CT stops COURSE at the instant
that would have been that t_CT: R92 and R93 say neither (DESIGN CHOICE, log entry 107). -/
def State.courseBegin (s : State) : State :=
  if !s.templateOk || !s.sys.xoRun then
    (s.setFlag F.COURSE_CTRL_RUN false).setFlag F.COURSE_STATUS_CFG_REFUSED
  else
    let start := (s.eff A.COURSE_START_LO).toNat + 65536 * (s.eff A.COURSE_START_HI).toNat
    let d := (start + 2 ^ 32 - s.hft % 2 ^ 32) % 2 ^ 32
    let at' := if s.flag F.COURSE_CTRL_START_AT ∧ 2 ≤ d ∧ d < 2 ^ 31 then s.hft + d else s.hft + 2
    let s := (s.setFlag F.COURSE_CTRL_RUN).setFlag F.COURSE_STATUS_RUNNING
    s.modCourse (fun c => { c with nextCt := at', first := true, sel := none, locked := false, stopPend := false, restart := false })

/-- The write of RUN = 1 (R92, R93). Between a write at or after the plan lock of a pending stop and that stop, RUN goes on to read 0:
R93 does not say (DESIGN CHOICE, log entry 107). -/
def State.courseRun (s : State) : State :=
  if !s.running then s.courseBegin
  else if s.course.stopPend then
    if s.course.locked then s.modCourse (fun c => { c with restart := true })
    else (s.setFlag F.COURSE_CTRL_RUN).modCourse (fun c => { c with stopPend := false })
  else s

/-- The write of RUN = 0 (R93): a stop is pending at the end of the course. A start made during the pending stop is
taken back. -/
def State.courseRunClear (s : State) : State :=
  if s.running then
    (s.setFlag F.COURSE_CTRL_RUN false).modCourse (fun c => { c with stopPend := true, restart := false })
  else s.setFlag F.COURSE_CTRL_RUN false

/-- A write of COURSE_CTRL. -/
def State.courseCtrlWrite (s : State) (w : Half) : State :=
  let s := s.setFld F.COURSE_CTRL_START_AT (bit (w.getLsbD 1))
  if w.getLsbD 0 then s.courseRun else s.courseRunClear

/-- COURSE_RUN (R92): a write of COURSE_CTRL with RUN = 1. -/
def execCourseRun (startAt : Bool) (s : State) : Out := .next (s.courseCtrlWrite (half (1 + 2 * bit startAt)))

/-- COURSE_RUN_CLEAR (R93): a write of COURSE_CTRL with RUN = 0. -/
def execCourseRunClear (startAt : Bool) (s : State) : Out := .next (s.courseCtrlWrite (half (2 * bit startAt)))

/-! ## ASN and the plan -/

/-- The absolute slot number in force (R94). -/
def State.asn (s : State) : Nat :=
  (s.eff A.COURSE_ASN_0).toNat + 65536 * (s.eff A.COURSE_ASN_1).toNat + 2 ^ 32 * ((s.eff A.COURSE_ASN_2).toNat % 256)

/-- Put the ASN in its registers and in force. -/
def State.setAsn (s : State) (n : Nat) : State :=
  let s := s.setReg A.COURSE_ASN_0 (half n)
  let s := s.setReg A.COURSE_ASN_1 (half (n / 65536))
  let s := s.setReg A.COURSE_ASN_2 (half (n / 2 ^ 32 % 256))
  s.commit [A.COURSE_ASN_0, A.COURSE_ASN_1, A.COURSE_ASN_2]

/-- A word of a plan buffer: shadow or active, by word index 0 to 511. -/
def State.planWord (s : State) (shadow : Bool) (i : Nat) : Half :=
  s.reg (if shadow then A.COURSE_SHADOW i else A.COURSE_ACTIVE i)

/-- A hop list's descriptor of a plan buffer (R100): BAND, LEN, channel 0 offset, spacing, and whether a reserved bit
is set. -/
structure HopList where
  ism : Bool
  len : Nat
  ch0 : Int
  spacing : Nat
  reserved : Bool

/-- Hop list `k` of a plan buffer. -/
def State.hopList (s : State) (shadow : Bool) (k : Nat) : HopList :=
  let w (j : Nat) : Nat := (s.planWord shadow (0x80 + 4 * k + j)).toNat
  { ism := bits (w 0) 15 15 = 1, len := bits (w 0) 7 0, ch0 := toSigned 18 (bits (w 2) 1 0 * 65536 + w 1)
    spacing := w 3, reserved := bits (w 0) 14 8 != 0 || bits (w 2) 15 2 != 0 }

/-- Entry `j` of hop list `k`. -/
def State.hopEntry (s : State) (shadow : Bool) (k j : Nat) : Nat :=
  let w := (s.planWord shadow (0x100 + 0x40 * k + j / 2)).toNat
  if j % 2 = 0 then w % 256 else w / 256

/-- Offset in kHz that a lane or transmit entry gives for a course, computed exactly (R100). -/
def State.planOfs (s : State) (shadow : Bool) (w0 w1 : Half) (asn : Nat) : Int :=
  if w0.getLsbD 7 then
    let k := bits w1.toNat 15 14
    let h := s.hopList shadow k
    h.ch0 + s.hopEntry shadow k ((asn + bits w1.toNat 11 0) % max 1 h.len) * h.spacing
  else entryOfs w0 w1

/-- The two words of LANE_CUR that an entry of the active plan gives for a course. -/
def State.laneEntry (s : State) (n asn : Nat) : Half × Half :=
  let w0 := s.planWord false (2 * n)
  let o := ofSigned 18 (s.planOfs false w0 (s.planWord false (2 * n + 1)) asn)
  (half (w0.toNat / 256 * 256 + o / 65536), half o)

/-! ## The plan check (R101) -/

/-- Band limit of |OFS| + half the channel filter width, in kHz. -/
abbrev ofsLimit (ism : Bool) : Nat := if ism then 42000 else 16000

/-- Tests 0x1, 0x2, 0x4 and 0x3 of an entry at `index`: its ROLE and reserved bits are judged by the caller. Word 0 bits [1:0] of an
entry with HOP = 1 count as reserved bits: a transmit entry's row gives them a meaning for HOP = 0 alone (DESIGN CHOICE, log entry
107). -/
def State.entryFault (s : State) (index : Nat) (w0 w1 : Half) (reserved : Bool) : Option (Nat × Nat) :=
  let ism := w0.getLsbD 13
  let hop := w0.getLsbD 7
  match modeOf (bits w0.toNat 12 8) with
  | none => some (1, index)
  | some m =>
    if reserved || (hop && (bits w0.toNat 1 0 != 0 || bits w1.toNat 13 12 != 0)) then some (1, index)
    else if m.ismOnly && !ism then some (2, index)
    else
      let k := bits w1.toNat 15 14
      let h := s.hopList true k
      if hop && (h.len = 0 || h.len > 128 || h.ism != ism || h.reserved) then some (4, 72 + k)
      else
        let far (o : Int) : Bool := 2 * o.natAbs + m.filter > 2 * ofsLimit ism
        let bad := if hop then (List.range h.len).any (fun j => far (h.ch0 + s.hopEntry true k j * h.spacing))
          else far (entryOfs w0 w1)
        if bad then some (3, index) else none

/-- The start S of a transmit entry, 0 standing for T_TXOFS (R104). -/
def State.txStart (s : State) (w2 : Half) : Nat := if w2 = 0 then s.regN A.COURSE_T_TXOFS else w2.toNat

/-- Largest PSDU in octets, FCS included, that R105 admits in a mode. -/
abbrev maxPsdu (m : Nat) : Nat := if m = 0x10 then 127 else 2047

/-- Whether a transmit entry's FCS has 32 bits (R104). -/
def txFcs32 (w0 : Half) : Bool :=
  let m := bits w0.toNat 12 8
  if isSun m then w0.getLsbD 4 else m = 0x18

/-- The first failure of a transmit entry. -/
def State.txFault (s : State) (e : Nat) : Option (Nat × Nat) :=
  let w (j : Nat) : Half := s.planWord true (0x90 + 4 * e + j)
  if !(w 0).getLsbD 15 then none
  else
    match s.entryFault (64 + e) (w 0) (w 1) (bits (w 0).toNat 3 2 != 0) with
    | some f => some f
    | none =>
      let st := s.txStart (w 2)
      let lbt := (w 0).getLsbD 14
      if st < 40 || (lbt && st + s.regN A.COURSE_T_CCAOFS < s.regN A.COURSE_T_TXOFS) || s.regN A.COURSE_T_IDLE ≤ st
      then some (5, 64 + e)
      else if inSram ((w 3).toNat * 256) (2 + maxPsdu (bits (w 0).toNat 12 8) - fcsLen (txFcs32 (w 0))) then none
      else some (6, 64 + e)

/-- The first failure of the shadow buffer: code and index. -/
def State.planFault (s : State) : Option (Nat × Nat) :=
  match (List.range 64).findSome? (fun n =>
    let w0 := s.planWord true (2 * n)
    s.entryFault n w0 (s.planWord true (2 * n + 1)) (bits w0.toNat 15 14 == 3 || bits w0.toNat 6 2 != 0)) with
  | some f => some f
  | none => (List.range 8).findSome? s.txFault

/-- The ASN of the first course that can use a plan committed now (R102). -/
def State.nextPlanAsn (s : State) : Nat :=
  (if !s.running || s.course.first then s.asn else if s.course.locked then s.asn + 2 else s.asn + 1) % 2 ^ 40

/-- A check begins, or waits for the end of the copy (R101, R102). -/
def State.planCommit (s : State) : State :=
  if s.flag F.COURSE_STATUS_COPY then s.modCourse (fun c => { c with stalled := c.stalled ++ [none] })
  else (s.setFlag F.COURSE_STATUS_COMMIT_PEND false).modCourse (fun c => { c with checking := true })

/-- PLAN_COMMIT (R101, R102): a write of COURSE_PLAN_CMD.COMMIT. -/
def execPlanCommit (s : State) : Out := .next s.planCommit

/-- Event COURSE LATE or PLAN_ERR: where it is created, COURSE_LATE is read, and so cleared (R342). -/
def State.courseEvent (s : State) (code : Nat) : State :=
  if s.sys.fwRun ∧ hostChans.any (fun k => s.adsin.chans[k].takes 4 code) then
    let (late, s) := s.plainRead A.COURSE_LATE
    s.event hostChans 4 code [late, s.reg A.COURSE_PLAN_ERR]
  else s

/-- PLAN_CHECK_DONE (R101). -/
def execPlanCheckDone (s : State) : Out :=
  .next (if !s.course.checking then s
    else
      let s := s.modCourse (fun c => { c with checking := false })
      match s.planFault with
      | none =>
        let s := s.setFlag F.COURSE_STATUS_COMMIT_PEND
        let a := s.nextPlanAsn
        s.complete .planCheck stOk 0 [half a, half (a / 65536), half (a / 2 ^ 32)]
      | some (code, i) =>
        let s := (s.setReg A.COURSE_PLAN_ERR (half (code * 4096 + i))).setFlag F.COURSE_STATUS_PLAN_ERR
        let s := (s.raise 2).complete .planCheck stFail 0 [s.reg A.COURSE_PLAN_ERR]
        s.courseEvent 0x81)

/-- A write reaches the shadow buffer: it withdraws a pending commit and abandons a check (R103). -/
def State.shadowPut (s : State) (i : Nat) (w : Half) : State :=
  ((s.setReg (A.COURSE_SHADOW i) w).setFlag F.COURSE_STATUS_COMMIT_PEND false).modCourse (fun c => { c with checking := false })

/-- A write to the shadow buffer, stalled while the copy is due or runs (R103). The words from 0xB0 to 0xFF lie between the transmit
entries and the hop lists: they name no register, and a write there has no effect (R21). -/
def State.shadowWrite (s : State) (i : Nat) (w : Half) : State :=
  if 0xB0 ≤ i ∧ i < 0x100 then s
  else if s.flag F.COURSE_STATUS_COPY then s.modCourse (fun c => { c with stalled := c.stalled ++ [some (i, w)] })
  else s.shadowPut i w

/-- SHADOW_WRITE (R103). -/
def execShadowWrite (x : Fin 512) (w : Half) (s : State) : Out := .next (s.shadowWrite x w)

/-- The shadow accesses that waited complete, in their order (R102, R103). -/
def State.unstall (s : State) : State :=
  let l := s.course.stalled
  let s := (s.setFlag F.COURSE_STATUS_COPY false).modCourse (fun c => { c with copying := false, stalled := [] })
  forEach l s (fun s x => match x with | some (i, w) => s.shadowPut i w | none => s.planCommit)

/-- SHADOW_COPY_DONE (R103). -/
def execShadowCopyDone (s : State) : Out := .next (if s.course.copying then s.unstall else s)

/-! ## The course boundary -/

/-- PLAN_LOCK (R102): 20 µs before t_CT COURSE selects the pending plan or repeats the active one; with a stop pending
it makes no selection, and a start has no lock. -/
def execPlanLock (s : State) : Out :=
  .next (if !s.running || s.course.first || s.course.locked then s
    else
      let s := s.passTo (s.course.nextCt - us 20)
      let s := s.modCourse (fun c => { c with locked := true })
      if s.course.stopPend then s
      else
        let p := s.flag F.COURSE_STATUS_COMMIT_PEND
        (s.modCourse (fun c => { c with sel := some p })).setFlag F.COURSE_STATUS_COPY p)

/-- The shadow buffer becomes the active buffer; the copy back leaves the shadow with the same words (R102). -/
def State.swapPlan (s : State) : State :=
  let sh := s.regs.filter (fun p => 0xE20400 ≤ p.1 && p.1 < 0xE20800)
  { s with regs := sh.foldl (fun m p => sparseSet regReset m (p.1 + 0x400) p.2) (sparseClear s.regs 0xE20800 0xE20C00) }

/-- The VALID entries of a repeated plan report REPEAT (R102). -/
def State.repeatEntries (s : State) : State :=
  forEach (List.range 8) s (fun s e => if (s.planWord false (0x90 + 4 * e)).getLsbD 15 then s.txResult e 6 else s)

/-- Every lane takes its entry of the course (R66, R67). -/
def State.applyPlan (s : State) (asn : Nat) : State :=
  forEach (List.range 64) s (fun s n => let e := s.laneEntry n asn; s.laneTick n e.1 e.2)

/-- The end of the course in progress that COURSE_ADJ gives, and which course it moves next (R94). -/
def State.courseEnd (s : State) (ct : Nat) : State :=
  let adj := toSigned 16 (s.regN A.COURSE_ADJ)
  match s.course.adj with
  | .following => s.modCourse (fun c => { c with nextCt := ((ct + s.courseLen : Nat) + adj).toNat, adj := .current })
  | .current => (s.setReg A.COURSE_ADJ 0).modCourse (fun c => { c with nextCt := ct + s.courseLen, adj := .none })
  | .none => s.modCourse (fun c => { c with nextCt := ct + s.courseLen })

/-- A value pending for the course that ends now is spent (R94). -/
def State.adjSpent (s : State) : State :=
  if s.course.adj = .current then (s.setReg A.COURSE_ADJ 0).modCourse (fun c => { c with adj := .none }) else s

/-- The scheduled carriers still in progress outlive their course: they report through the transmit-end FIFO (R106). -/
def State.crossCarriers (s : State) : State :=
  let cross (r : Rfe) : Rfe := { r with carriers := r.carriers.map (fun k => { k with crossed := true }) }
  (s.modRfe .sub cross).modRfe .ism cross

/-- A read of COURSE_TXEND_0 (R106): it takes the oldest record, and the second word goes to its snapshot. -/
def State.txendRead (s : State) : Half × State :=
  match s.course.txend with
  | [] => (0, s.takeSnap [(A.COURSE_TXEND_1, 0)])
  | (a, b) :: l =>
    let s := s.modCourse (fun c => { c with txend := l })
    (a, (s.setFld F.COURSE_TXEND_N_COUNT l.length).takeSnap [(A.COURSE_TXEND_1, b)])

/-- At a tick event Lintel firmware reads the transmit-end FIFO empty and reports each record in RADIO TX_DONE (R106). -/
def State.txendReport (s : State) : State :=
  if s.sys.fwRun then
    forEach s.course.txend s (fun s r => s.txendRead.2.txDone r.2.toNat (bits r.1.toNat 10 8) (bits r.1.toNat 15 12))
  else s

/-- A window opens long enough for a handover that is ready, the next plan being committed: firmware takes no more work (R388). -/
def State.handQuiet (s : State) : State :=
  match s.update.hand with
  | .ready k => if 600 ≤ s.iwRemain ∧ s.flag F.COURSE_STATUS_COMMIT_PEND then s.modUpdate (fun u => { u with hand := .quiet k }) else s
  | _ => s

/-- The window closes before the cutover has begun: it waits for a later one (R388). -/
def State.handLoud (s : State) : State :=
  match s.update.hand with
  | .quiet k => s.modUpdate (fun u => { u with hand := .ready k })
  | _ => s

/-- The idle window closes, or COURSE stops in it. -/
def State.iwShut (s : State) : State := (s.setFlag F.COURSE_STATUS_IW_OPEN false).handLoud

/-- COURSE_TICK (R96): the actions of a t_CT in their order. -/
def State.courseTick (s : State) : State :=
  let c := s.course
  let ct := c.nextCt
  let first := c.first
  let s := s.passTo ct
  let p := match c.sel with | some p => p | none => s.flag F.COURSE_STATUS_COMMIT_PEND
  let s := s.adjSpent
  -- carriers in progress and transmit results
  let s := s.crossCarriers
  let s := (s.setReg A.COURSE_TXRES_0 0).setReg A.COURSE_TXRES_1 0
  -- ASN, wall and the course in progress
  let prevAsn := s.regN A.COURSE_ASN_0
  let s := s.modCourse (fun k => { k with
    prevAsn := prevAsn, prevCt := k.ct, prevSub := s.fld F.HOD_GRANTS_SUB, prevIsm := s.fld F.HOD_GRANTS_ISM
    ct := ct, first := false, sel := none, locked := false, tested := 0, cca := [], repeated := !p && !first })
  let asn := if first then s.asn else (s.asn + 1) % 2 ^ 40
  let s := (s.setAsn asn).commit [A.COURSE_WALL]
  let s := s.setFld F.COURSE_SLOT_SLOT (asn % max 1 (s.effFld F.COURSE_WALL_LEN))
  let s := s.courseEnd ct
  let s := s.iwShut
  -- plan
  let s := if p then
      (s.swapPlan.setFlag F.COURSE_STATUS_COMMIT_PEND false).setFlag F.COURSE_STATUS_COPY
        |>.modCourse (fun k => { k with copying := true })
    else if first then s
    else
      let s := s.repeatEntries
      ((s.count A.COURSE_LATE).setFlag F.COURSE_STATUS_LATE).raise 1
  -- lanes, gain, trim
  let s := s.applyPlan asn
  let s := (s.rfeTick .sub first).rfeTick .ism first
  let s := s.commit [A.RFE_XO_TRIM .sub]
  -- the Hod's grants, ASHLAR's rate counts
  let s := s.setReg A.HOD_GRANTS 0
  let s := s.modAshlar (fun a => { a with tenants := sparseMap (fun _ => {}) (fun t => { t with rateCount := 0 }) a.tenants })
  -- ASSAY schedules (R374)
  let s := s.modAdsin (fun a => { a with schedules := sparseMap (fun _ => {}) (fun c => if c.period = 0 then c else { c with gone := c.gone + 1 }) a.schedules })
  -- events, and the captures of t_CT (R322)
  let s := s.recSource F.REC_TRIG_TICK
  let s := (s.postAll allCores 0).capEdge 0x03 true
  let s := if s.flag F.HOD_NOTIFY_TICK_FLUSH && s.reg A.HOD_WR != s.reg A.HOD_RD then s.raise 4 else s
  let s := s.txendReport
  if !p && !first then s.courseEvent 0x80 else s

/-- COURSE_TICK (R96), outside a pending stop. -/
def execCourseTick (s : State) : Out :=
  .next (if s.running && !s.course.stopPend then s.courseTick else s)

/-- The stop of COURSE at the instant that would have been the next t_CT (R93). A carrier in progress finishes and is recorded as one
that crosses a t_CT is (R106). A trim that is held then stays held until the next t_CT after a start (DESIGN CHOICE, log entry 95:
R47 says at once of a write while COURSE is stopped). -/
def State.courseStop (s : State) : State :=
  let s := s.passTo s.course.nextCt
  let again := s.course.restart
  let s := s.adjSpent.crossCarriers
  let s := forEach (List.range 64) s (fun s n => s.laneTick n 0 0)
  let s := (s.setFlag F.COURSE_STATUS_RUNNING false).iwShut
  let s := s.modCourse (fun c => { c with stopPend := false, restart := false, sel := none, locked := false, first := false })
  let s := s.unstall
  let s := s.complete .courseStop stOk 0 []
  if again then s.courseBegin else s

/-- COURSE_STOP_TAKES_EFFECT (R93). -/
def execCourseStopTakesEffect (s : State) : Out :=
  .next (if s.running && s.course.stopPend then s.courseStop else s)

/-- A read of the shadow buffer stalls until the copy ends (R103): the course boundary that it waits for, and the end of the copy,
come first, within the command that reads (DESIGN CHOICE, log entry 99). -/
def State.awaitCopy (s : State) : State :=
  if !s.flag F.COURSE_STATUS_COPY then s
  else if s.course.copying then s.unstall
  else if s.course.stopPend then s.courseStop
  else
    let s := s.courseTick
    if s.course.copying then s.unstall else s

/-- COURSE stops at once on a loss of XO_HF (R93); a pending COURSE_ADJ is kept for the first course after the next start
(R94). -/
def State.courseXoLoss (s : State) : State :=
  if s.running then
    let s := s.modCourse (fun c => { c with
      stopPend := false, restart := false, sel := none, locked := false, first := false
      adj := if c.adj = .none then .none else .following })
    let s := (s.setFlag F.COURSE_STATUS_RUNNING false).setFlag F.COURSE_CTRL_RUN false
    (s.iwShut.setFlag F.COURSE_STATUS_XO_STOP).unstall.complete .courseStop stOk 0 []
  else s

/-- An admissible value of COURSE_ADJ (R94): it moves the end of the course in progress before its midpoint, else of the next. The
midpoint is half the nominal length, also of a course whose end an earlier value moves (DESIGN CHOICE, log entry 107). -/
def State.adjPut (s : State) (w : Half) : State :=
  let v := writeFields (fieldsAt A.COURSE_ADJ) (s.reg A.COURSE_ADJ) w
  let s := s.setReg A.COURSE_ADJ v
  if !s.running || s.course.first then s.modCourse (fun c => { c with adj := .following })
  else
    let len := s.courseLen
    let ct := s.course.ct
    if s.hft < ct + len / 2 then
      s.modCourse (fun c => { c with adj := .current, nextCt := ((ct + len : Nat) + toSigned 16 v.toNat).toNat })
    else s.modCourse (fun c => { c with adj := .following, nextCt := ct + len })

/-- A write of COURSE_ADJ (R94); a reserved value leaves the register, the pending value and its course as they are (R6). -/
def State.adjWrite (s : State) (w : Half) : State := if within w 4800 then s.adjPut w else s

/-- COURSE_ADJ_WRITE (R94). -/
def execCourseAdjWrite (w : Half) (s : State) : Out := .next (s.adjWrite w)

/-- COURSE_WALL_WRITE (R94): in force from the next t_CT. -/
def execCourseWallWrite (w : Half) (s : State) : Out := .next (s.plainWrite A.COURSE_WALL w)

/-- The registers that R95 refuses while COURSE runs, by number: CFG, ASN_0 to ASN_2, T_CCAOFS, T_CCA, T_TXOFS,
T_IDLE, T_GUARD. -/
def courseCfgReg (r : Fin 9) : Nat :=
  match r with
  | 0 => A.COURSE_CFG | 1 => A.COURSE_ASN_0 | 2 => A.COURSE_ASN_1 | 3 => A.COURSE_ASN_2
  | 4 => A.COURSE_T_CCAOFS | 5 => A.COURSE_T_CCA | 6 => A.COURSE_T_TXOFS | 7 => A.COURSE_T_IDLE | 8 => A.COURSE_T_GUARD

/-- A write that R95 governs; the ASN words commit on COURSE_ASN_2 (R26). -/
def State.courseCfgWrite (s : State) (a : Nat) (w : Half) : State :=
  if s.running then s.setFlag F.COURSE_STATUS_CFG_REFUSED
  else
    let s := s.plainWrite a w
    if a = A.COURSE_ASN_2 then s.commit [A.COURSE_ASN_0, A.COURSE_ASN_1, A.COURSE_ASN_2] else s

/-- COURSE_CFG_WRITE (R95). -/
def execCourseCfgWrite (r : Fin 9) (w : Half) (s : State) : Out := .next (s.courseCfgWrite (courseCfgReg r) w)

/-- IDLE_WINDOW_OPEN (R99): at t_CT + T_IDLE, if the window has not closed again. -/
def execIdleWindowOpen (s : State) : Out :=
  let close := s.course.nextCt - us (s.regN A.COURSE_T_GUARD)
  .next (if s.running && !s.course.first && !s.flag F.COURSE_STATUS_IW_OPEN && s.hft < close then
      (((s.passTo (s.course.ct + us (s.regN A.COURSE_T_IDLE))).setFlag F.COURSE_STATUS_IW_OPEN).raise 3).handQuiet
    else s)

/-- IDLE_WINDOW_CLOSE (R99): T_GUARD before the next t_CT; a window more that the requests of ASSAY have waited (R365). -/
def execIdleWindowClose (s : State) : Out :=
  .next (if s.flag F.COURSE_STATUS_IW_OPEN then
      let s := (s.passTo (s.course.nextCt - us (s.regN A.COURSE_T_GUARD))).iwShut
      s.modAssay (fun a => { a with queue := a.queue.map (fun q => (q.1, q.2 + 1)) })
    else s)

/-! ## Duty-cycle accounts (R108) -/

/-- USED of an account in 10 µs units. -/
def State.dutyUsed (s : State) (k : Fin 8) : Nat := (s.course.duty[k].used).foldl (· + ·) 0

/-- An enabled account covers a carrier of a band at an offset in kHz. -/
def State.dutyCovers (s : State) (k : Fin 8) (b : Band) (ofs : Int) : Bool :=
  s.flag (F.COURSE_DC_CTRL_EN k) && bandOf (s.flag (F.COURSE_DC_CTRL_BAND k)) == b &&
    10 * toSigned 16 (s.eff (A.COURSE_DC_LO k)).toNat ≤ ofs && ofs ≤ 10 * toSigned 16 (s.eff (A.COURSE_DC_HI k)).toNat

/-- An account has no room for some airtime. -/
def State.dutyFull (s : State) (k : Fin 8) (air : Nat) : Bool := 100 * s.regN (A.COURSE_DC_LIM k) < s.dutyUsed k + air

/-- Airtime of a carrier in 10 µs units, rounded up. -/
def dutyAir (ticks : Nat) : Nat := (ticks + 479) / 480

/-- All accounts. -/
def accounts : List (Fin 8) := [0, 1, 2, 3, 4, 5, 6, 7]

/-- Airtime goes to the open bucket. -/
def Buckets.charge (b : Buckets) (air : Nat) : Buckets :=
  { b with used := match b.used with | [] => [air] | u :: l => (u + air) :: l }

/-- Charge or refuse a carrier (R108): `true` and the airtime charged to every covering account, or `false` and DENY
raised in each that lacks room. -/
def State.dutyAdmit (s : State) (b : Band) (ofs : Int) (ticks : Nat) : Bool × State :=
  let air := dutyAir ticks
  let cov := accounts.filter (fun k => s.dutyCovers k b ofs)
  let full := cov.filter (fun k => s.dutyFull k air)
  if full.isEmpty then
    (true, forEach cov s (fun s k => s.modCourse (fun c => { c with duty := c.duty.set k (c.duty[k].charge air) })))
  else (false, forEach full s (fun s k => s.count (A.COURSE_DC_DENY k)))

/-- HF ticks of an account's bucket. -/
def State.bucketTicks (s : State) (k : Fin 8) : Nat := s.effFld (F.COURSE_DC_CTRL_WIN k) * 3000000

/-- DUTY_BUCKET_ROLL (R108): the open bucket's period ends; the oldest of 17 leaves. -/
def execDutyBucketRoll (k : Fin 8) (s : State) : Out :=
  .next (if s.flag (F.COURSE_DC_CTRL_EN k) then
      let d := s.course.duty[k]
      let s := s.passTo d.roll
      s.modCourse (fun c => { c with duty := c.duty.set k ⟨d.roll + s.bucketTicks k, (0 :: d.used).take 17⟩ })
    else s)

/-- A write of DC_k_CTRL (R108): EN from 0 to 1 empties the buckets and applies WIN, LO and HI. -/
def State.dutyCtrlWrite (s : State) (k : Fin 8) (w : Half) : State :=
  let was := s.flag (F.COURSE_DC_CTRL_EN k)
  let s := s.plainWrite (A.COURSE_DC_CTRL k) w
  if !was && s.flag (F.COURSE_DC_CTRL_EN k) then
    let s := s.commit [A.COURSE_DC_CTRL k, A.COURSE_DC_LO k, A.COURSE_DC_HI k]
    s.modCourse (fun c => { c with duty := c.duty.set k ⟨s.hft + s.bucketTicks k, [0]⟩ })
  else s

/-- DUTY_ACCOUNT_ENABLE (R108): a write of DC_k_CTRL with EN = 1. -/
def execDutyAccountEnable (k : Fin 8) (w : Half) (s : State) : Out := .next (s.dutyCtrlWrite k (w ||| 0x8000))

/-! ## Scheduled transmissions (R104 to R107) -/

/-- A transmit entry of the active plan for the course in progress. -/
structure TxEntry where
  lbt : Bool
  band : Band
  mode : Nat
  coded : Bool
  fcs32 : Bool
  /-- PN9 whitening (R104). -/
  dw : Bool
  ofs : Int
  /-- t_TX in HF ticks. -/
  tx : Nat
  addr : Nat
  deriving DecidableEq, Repr

/-- The PSDU of a carrier as it goes to the FEC encoder and the modulator (R104, R120). -/
def Carrier.air (c : Carrier) : List Byte := whiten c.dw c.psdu

/-- A VALID entry of the active plan. -/
def State.txEntry? (s : State) (e : Nat) : Option TxEntry :=
  let w (j : Nat) : Half := s.planWord false (0x90 + 4 * e + j)
  let w0 := w 0
  if w0.getLsbD 15 then
    some { lbt := w0.getLsbD 14, band := bandOf (w0.getLsbD 13), mode := bits w0.toNat 12 8
           coded := w0.getLsbD 6 && isSun (bits w0.toNat 12 8), fcs32 := txFcs32 w0
           dw := if isSun (bits w0.toNat 12 8) then w0.getLsbD 5 else bits w0.toNat 12 8 == 0x18
           ofs := s.planOfs false w0 (w 1) s.asn
           tx := s.course.ct + us (s.txStart (w 2)), addr := (w 3).toNat * 256 }
  else none

/-- The CCA window of an entry: its start and end in HF ticks (R107). -/
def State.ccaWindow (s : State) (e : TxEntry) : Nat × Nat :=
  let a := e.tx - us (s.regN A.COURSE_T_TXOFS - s.regN A.COURSE_T_CCAOFS)
  (a, a + us (s.regN A.COURSE_T_CCA))

/-- The LBT entries that hold a CCA unit, in entry order: an entry whose window overlaps those of two holders of its
band finds none free (R107). -/
def State.ccaHolders (s : State) : List (Nat × TxEntry) :=
  (List.range 8).foldl (fun l e => match s.txEntry? e with
    | some t =>
      let w := s.ccaWindow t
      let n := (l.filter (fun h => h.2.band == t.band && (s.ccaWindow h.2).1 < w.2 && w.1 < (s.ccaWindow h.2).2)).length
      if t.lbt && n < 2 then l ++ [(e, t)] else l
    | none => l) []

/-- Mean power at or above the band's threshold is busy (R107). -/
def State.ccaBusy (s : State) (b : Band) (dbm : Int) : Bool :=
  -((match b with | .sub => s.fld F.COURSE_CCA_THR_SUB | .ism => s.fld F.COURSE_CCA_THR_ISM : Nat) : Int) ≤ dbm

/-- CCA_WINDOW_END (R107): a unit ends its window with a mean power of `dbm`; a band muted at some time of the window
leaves no result. -/
def execCcaWindowEnd (e : Fin 8) (dbm : Int) (s : State) : Out :=
  .next (match s.ccaHolders.find? (fun h => h.1 == e.val) with
    | some (_, t) =>
      if !s.running || s.course.repeated then s
      else
        let w := s.ccaWindow t
        let s := s.passTo w.2
        let mutedIn := s.muted t.band || w.1 < (s.rfe t.band).lastUnmute
        s.modCourse (fun c => { c with cca := c.cca ++ [(e.val, if mutedIn then none else some (s.ccaBusy t.band dbm))] })
    | none => s)

/-- Preamble octets of a SUN FSK transmission (R120). -/
abbrev State.preOct (s : State) : Nat := s.fld F.HOD_TXPHY_PRE_OCT

/-- The first result of R105 that applies to an entry at t_SEQ, or the carrier it becomes. The PSDU octets are read from the buffer here,
all at once: R104 gives no instant at which the transmit chain reads them (DESIGN CHOICE, log entry 107). -/
def State.txTest (s : State) (e : Nat) (t : TxEntry) : (Nat ⊕ Carrier) × State :=
  let n := (s.sramHalf t.addr).toNat
  let len := n + fcsLen t.fcs32
  let stop := t.tx + airTicks t.mode t.coded s.preOct len
  if !s.txReady t.band then (.inl 8, s)
  else if n = 0 ∨ maxPsdu t.mode < len then (.inl 7, s)
  else
    let cca := (s.course.cca.find? (fun c => c.1 = e)).bind (·.2)
    if t.lbt ∧ cca.isNone then (.inl 3, s)
    else if t.lbt ∧ cca = some true then (.inl 2, s)
    else if !s.carrierFits t.band t.tx stop then (.inl 4, s)
    else
      let (ok, s) := s.dutyAdmit t.band t.ofs (airTicks t.mode t.coded s.preOct len)
      if ok then (.inr { entry := some e, asn := s.asn % 65536, start := t.tx, stop := stop, started := false
                         crossed := false, mode := t.mode, ofs := t.ofs
                         coded := t.coded, fec := s.fld (F.LANE_PHYOPT_FEC_SCHEME 0), dw := t.dw
                         psdu := withFcs t.fcs32 (s.sramTake (t.addr + 2) n) }, s)
      else (.inl 5, s)

/-- TX_ENTRY_TEST (R105): at t_SEQ = t_TX − 32 µs. -/
def execTxEntryTest (e : Fin 8) (s : State) : Out :=
  .next (match s.txEntry? e with
    | none => s
    | some t =>
      if !s.running || s.course.first || s.course.repeated || s.course.tested.getLsbD e then s
      else
        let s := s.passTo (t.tx - us 32)
        let s := s.modCourse (fun c => { c with tested := c.tested ||| BitVec.ofNat 8 (2 ^ e.val) })
        match s.txTest e t with
        | (.inl code, s) => s.txResult e code
        | (.inr c, s) => s.addCarrier t.band c)

/-- COURSE_TXEND_READ (R106). -/
def execCourseTxendRead (s : State) : Out :=
  let (v, s) := s.txendRead
  .next (s.see (.value v))

end Sys2Proof.Machine
end

