-- ==== Sys2Proof/Machine/Macf.lean ====
section
/-! DEFINITION. The MAC header of a received frame and MACF's decision on it (R109 to R112). -/
namespace Sys2Proof.Machine

/-! ## The MAC header (IEEE 802.15.4-2020, PRESUMED, log entry 24) -/

/-- The MHR up to the end of the addressing fields, as the frame control declares it. -/
structure Mhr where
  ftype : Nat
  sec : Bool
  ar : Bool
  sns : Bool
  ie : Bool
  ver : Nat
  dstMode : Nat
  srcMode : Nat
  seq : Option Byte
  dstPan : Option Nat
  /-- Destination and source address as numbers, 0 where absent. -/
  dst : Nat
  src : Nat
  /-- Octets up to the end of the addressing fields. -/
  len : Nat
  deriving DecidableEq, Repr

/-- Octets of an address by its mode. -/
def addrLen (mode : Nat) : Nat := match mode with | 2 => 2 | 3 => 8 | _ => 0

/-- Presence of the destination and source PAN ID by the two modes and PAN ID Compression, for frame version 0b10. -/
def panIds (dm sm : Nat) (comp : Bool) : Bool × Bool :=
  match dm != 0, sm != 0 with
  | false, false => (comp, false)
  | true, false => (!comp, false)
  | false, true => (false, !comp)
  | true, true => if dm = 3 ∧ sm = 3 then (!comp, false) else (true, !comp)

/-- Read the MHR of a PSDU. -/
def mhrOf (p : List Byte) : Mhr :=
  let fc := leNat (slice p 0 2)
  let sns := bits fc 8 8 = 1
  let dm := bits fc 11 10
  let sm := bits fc 15 14
  let (dp, sp) := panIds dm sm (bits fc 6 6 = 1)
  let a := if sns then 2 else 3
  let b := a + (if dp then 2 else 0)
  let c := b + addrLen dm
  let d := c + (if sp then 2 else 0)
  { ftype := bits fc 2 0, sec := bits fc 3 3 = 1, ar := bits fc 5 5 = 1, sns := sns, ie := bits fc 9 9 = 1
    ver := bits fc 13 12, dstMode := dm, srcMode := sm
    seq := if sns then none else some (octAt p 2)
    dstPan := if dp then some (leNat (slice p a 2)) else none
    dst := leNat (slice p b (addrLen dm)), src := leNat (slice p d (addrLen sm)), len := d + addrLen sm }

/-! ## MACF -/

/-- DCLASS of a frame, none where its destination does not pass (R110). -/
def State.dclass (s : State) (m : Mhr) : Option Nat :=
  let panOk := match m.dstPan with
    | some p => p == s.regN A.MACF_PANID || p == 0xFFFF
    | none => true
  if !panOk then none
  else match m.dstMode with
    | 3 => if m.dst = s.deviceEui then some 0 else none
    | 2 =>
      if m.dst = 0xFFFF then some 3
      else if m.dst = 0xFFFE then none
      else if m.dst = s.regN A.MACF_SHORT then some 1
      else if m.dst = s.regN A.MACF_GROUP ∧ s.flag F.MACF_CTRL_GROUP_EN then some 2 else none
    | _ => if m.ftype = 0 ∨ s.flag F.MACF_CTRL_NODST then some 4 else none

/-- The tests of R109 in their order: the counter of the first that fails, or the DCLASS. -/
def State.macfTest (s : State) (m : Mhr) (room : Nat) : Nat ⊕ Nat :=
  if m.ver != 2 then .inl A.MACF_CNT_VER
  else if 4 ≤ m.ftype ∨ ¬ (s.reg A.MACF_CTRL).getLsbD m.ftype then .inl A.MACF_CNT_TYPE
  else if m.dstMode = 1 ∨ m.srcMode = 1 ∨ (m.sec ∧ m.srcMode ≠ 3) ∨ room < m.len then .inl A.MACF_CNT_FMT
  else match s.dclass m with
    | some d => .inr d
    | none => .inl A.MACF_CNT_ADDR

/-- HOD_BUFFER_ALLOC (R116): the lowest free buffer of 384; a Hod that is not enabled gives none (DESIGN CHOICE, log entry 25). -/
def State.hodAlloc (s : State) (fid : Nat) : State :=
  if s.flag F.HOD_CTRL_EN then
    match (List.range 384).find? (fun i => !s.radio.hod.bufs.contains i) with
    | some i => (s.modHod (fun h => { h with bufs := h.bufs ++ [i] })).modFrame fid (fun f => { f with buf := some i })
    | none => s
  else s

/-- MACF_DECISION (R109 to R111): the addressing fields of the frame that lane `n` receives are complete, or its frame control where
its length is too short for them; the last bit was decided before this tick, so that a cut in its own tick comes first. -/
def execMacfDecision (n : Fin 64) (s : State) : Out :=
  .next (match s.laneFrame n with
    | none => s
    | some f =>
      if s.laneState n != lanePayload || f.knock || f.macf != .undecided then s
      else
        let m := mhrOf f.octets
        let room := f.len - fcsLen f.fcs32
        let s := if f.coded && f.fec == 1 then s else s.passTo (f.octetAt (if room < m.len then 2 else m.len) + 1)
        match s.macfTest m room with
        | .inl c => (s.count c).modFrame f.fid (fun f => { f with macf := .dropped })
        | .inr d =>
          let s := (s.count A.MACF_CNT_PASS).modFrame f.fid (fun f => { f with macf := .passed d })
          s.hodAlloc f.fid)

end Sys2Proof.Machine
end

