-- ==== Sys2Proof/Machine/Hash.lean ====
section
/-! DEFINITION. SipHash-2-4 (R126), SHA-256 (FIPS 180-4) and CRC-16/CCITT, as the chapters name them (PRESUMED, log entry 23). -/
namespace Sys2Proof.Machine

/-- The four words of a SipHash state. -/
structure Sip where
  v0 : BitVec 64
  v1 : BitVec 64
  v2 : BitVec 64
  v3 : BitVec 64

/-- One SipRound. -/
def Sip.round (s : Sip) : Sip :=
  let v0 := s.v0 + s.v1
  let v1 := s.v1.rotateLeft 13 ^^^ v0
  let v0 := v0.rotateLeft 32
  let v2 := s.v2 + s.v3
  let v3 := s.v3.rotateLeft 16 ^^^ v2
  let v0 := v0 + v3
  let v3 := v3.rotateLeft 21 ^^^ v0
  let v2 := v2 + v1
  let v1 := v1.rotateLeft 17 ^^^ v2
  ⟨v0, v1, v2.rotateLeft 32, v3⟩

/-- Absorb one word with two rounds. -/
def Sip.absorb (s : Sip) (m : BitVec 64) : Sip :=
  let t := (Sip.round (Sip.round { s with v3 := s.v3 ^^^ m }))
  { t with v0 := t.v0 ^^^ m }

/-- SipHash-2-4 of an 8-octet string under a 16-octet key. -/
def sipHash8 (key m : List Byte) : Nat :=
  let k0 := BitVec.ofNat 64 (leNat (slice key 0 8))
  let k1 := BitVec.ofNat 64 (leNat (slice key 8 8))
  let s : Sip := ⟨k0 ^^^ 0x736F6D6570736575, k1 ^^^ 0x646F72616E646F6D, k0 ^^^ 0x6C7967656E657261, k1 ^^^ 0x7465646279746573⟩
  let s := (s.absorb (BitVec.ofNat 64 (leNat (slice m 0 8)))).absorb 0x0800000000000000
  let s := { s with v2 := s.v2 ^^^ 0xFF }
  let s := s.round.round.round.round
  (s.v0 ^^^ s.v1 ^^^ s.v2 ^^^ s.v3).toNat

/-- A 32-bit word. -/
abbrev W32 := BitVec 32

/-- The round constants of SHA-256, eight to a number, the first in the lowest word. -/
def shaRows : List Nat :=
  [0xAB1C5ED5923F82A459F111F13956C25BE9B5DBA5B5C0FBCF71374491428A2F98,
   0xC19BF1749BDC06A780DEB1FE72BE5D74550C7DC3243185BE12835B01D807AA98,
   0x76F988DA5CB0A9DC4A7484AA2DE92C6F240CA1CC0FC19DC6EFBE4786E49B69C1,
   0x1429296706CA6351D5A79147C6E00BF3BF597FC7B00327C8A831C66D983E5152,
   0x92722C8581C2C92E766A0ABB650A735453380D134D2C6DFC2E1B213827B70A85,
   0x106AA070F40E3585D6990624D192E819C76C51A3C24B8B70A81A664BA2BFE8A1,
   0x682E6FF35B9CCA4F4ED8AA4A391C0CB334B0BCB52748774C1E376C0819A4C116,
   0xC67178F2BEF9A3F7A4506CEB90BEFFFA8CC7020884C8781478A5636F748F82EE]

/-- Round constant `i`. -/
def shaK (i : Nat) : W32 := BitVec.ofNat 32 (shaRows.getD (i / 8) 0 / 2 ^ (32 * (i % 8)))

/-- The initial hash words. -/
def shaInit : List W32 :=
  [0x6A09E667, 0xBB67AE85, 0x3C6EF372, 0xA54FF53A, 0x510E527F, 0x9B05688C, 0x1F83D9AB, 0x5BE0CD19]

/-- The message schedule, newest word first: `n` further words. -/
def shaSchedule : Nat → List W32 → List W32
  | 0, w => w
  | n + 1, w =>
    let a := w.getD 1 0
    let b := w.getD 14 0
    let s1 := a.rotateRight 17 ^^^ a.rotateRight 19 ^^^ (a >>> 10)
    let s0 := b.rotateRight 7 ^^^ b.rotateRight 18 ^^^ (b >>> 3)
    shaSchedule n ((s1 + w.getD 6 0 + s0 + w.getD 15 0) :: w)

/-- The words of a 64-octet block. -/
def shaWords (b : List Byte) : List W32 := (List.range 16).map (fun i => BitVec.ofNat 32 (beNat (slice b (4 * i) 4)))

/-- The rounds over the schedule, numbered from `i`. -/
def shaRounds : Nat → List W32 → List W32 → List W32
  | _, [], v => v
  | i, w :: ws, v =>
    match v with
    | [a, b, c, d, e, f, g, h] =>
      let s1 := e.rotateRight 6 ^^^ e.rotateRight 11 ^^^ e.rotateRight 25
      let ch := (e &&& f) ^^^ (~~~ e &&& g)
      let t1 := h + s1 + ch + shaK i + w
      let s0 := a.rotateRight 2 ^^^ a.rotateRight 13 ^^^ a.rotateRight 22
      let maj := (a &&& b) ^^^ (a &&& c) ^^^ (b &&& c)
      shaRounds (i + 1) ws [t1 + (s0 + maj), a, b, c, d + t1, e, f, g]
    | _ => v

/-- One block into the hash words. -/
def shaBlock (h : List W32) (b : List Byte) : List W32 :=
  List.zipWith (· + ·) h (shaRounds 0 (shaSchedule 48 (shaWords b).reverse).reverse h)

/-- Whole 64-octet blocks into the hash words; `n` bounds their number. What is left is returned. -/
def shaBlocks : Nat → List W32 → List Byte → List W32 × List Byte
  | 0, h, l => (h, l)
  | n + 1, h, l => if l.length < 64 then (h, l) else shaBlocks n (shaBlock h (l.take 64)) (l.drop 64)

/-- The end of a hash: `l` octets not yet hashed of a message of `len` octets (FIPS 180-4 padding). -/
def shaFinish (h : List W32) (l : List Byte) (len : Nat) : List Byte :=
  let m := l ++ [0x80] ++ List.replicate ((119 - l.length) % 64) 0 ++ beOctets 8 (8 * len)
  (shaBlocks 3 h m).1.flatMap (fun w => beOctets 4 w.toNat)

/-- SHA-256 of a string. -/
def sha256 (m : List Byte) : List Byte :=
  let (h, l) := shaBlocks (m.length / 64) shaInit m
  shaFinish h l m.length

/-- One octet of a CRC-16 with polynomial 0x1021, most significant bit first. -/
def crc16Octet (c : Nat) (b : Byte) : Nat :=
  Nat.repeat (fun c => if c < 32768 then c * 2 else (c * 2 % 65536) ^^^ 0x1021) 8 (c ^^^ (b.toNat * 256))

/-- CRC-16/CCITT from an initial value. -/
def crc16 (init : Nat) (l : List Byte) : Nat := l.foldl crc16Octet init

end Sys2Proof.Machine
end

