-- ==== Sys2Proof/Machine/Records.lean ====
section
/-! DEFINITION. MRAM words and the records NVMC keeps in the three log regions: copies, instances, resolution,
segments, appending and reclamation (R263 to R275, R432). -/
namespace Sys2Proof.Machine

/-! ## Words -/

/-- Put a number in its place in a rising list, once. -/
def insertNat (x : Nat) : List Nat → List Nat
  | [] => [x]
  | y :: l => if x < y then x :: y :: l else if x = y then y :: l else y :: insertNat x l

/-- A word of MRAM as NVMC takes it: an uncorrectable word counts as erased (R266). -/
def State.nvWord (s : State) (a : Nat) : Half := if s.mramBad.contains a then 0xFFFF else half (leNat (s.mramTake a 2))

/-- `n` words of MRAM. -/
def State.nvWords (s : State) (a : Nat) : Nat → List Half
  | 0 => []
  | n + 1 => s.nvWord a :: State.nvWords s (a + 2) n

/-- The line buffers of the cores that hold a word of a range are cleared (R264). -/
def State.dropLines (s : State) (lo hi : Nat) : State :=
  { s with lines := s.lines.map (fun l => l.filter (fun n => 8 * n + 8 ≤ lo || hi ≤ 8 * n)) }

/-- Write words of MRAM; a word written is whole again. -/
def State.nvWrite (s : State) (a : Nat) (ws : List Half) : State :=
  let s := (s.mramPut a (ws.flatMap (fun w => leOctets 2 w.toNat))).dropLines a (a + 2 * ws.length)
  { s with mramFlip := sparseClear s.mramFlip a (a + 2 * ws.length) }

/-- The word at which a loss of power cuts a write: it reads old, new or uncorrectable (R267). -/
def State.nvTear (s : State) (a : Nat) (w : Half) (how : Nat) : State :=
  match how with
  | 0 => s
  | 1 => s.nvWrite a [w]
  | _ => { s with mramFlip := sparseSet (fun _ => 0) s.mramFlip a 3 }

/-- NVMC writes words of MRAM in ascending order (R271). Where a cut is worked out, only the words before it are written. -/
def State.nvPut (s : State) (a : Nat) (ws : List Half) : State :=
  match s.nvm.left with
  | none => s.nvWrite a ws
  | some (n, how) =>
    if ws.length ≤ n then (s.nvWrite a ws).modNvm (fun v => { v with left := some (n - ws.length, how) })
    else
      let s := (s.nvWrite a (ws.take n)).nvTear (a + 2 * n) (ws.getD n 0) how
      s.modNvm (fun v => { v with left := some (0, 0) })

/-- The 16-word rows of a range that do not read fully erased, in ascending order (R275). -/
def State.nvRows (s : State) (lo hi : Nat) : List Nat :=
  let used := (s.mram.map (·.1)).filter (fun a => lo ≤ a && a < hi) ++ (s.mramFlip.map (·.1)).filter (fun a => lo ≤ a && a < hi)
  ((used.map (· / 32 * 32)).foldl (fun l r => insertNat r l) [])

/-- Write one word over every row of a range that does not read fully erased (R275). -/
def State.nvFill (s : State) (lo hi : Nat) (w : Half) : State :=
  forEach (s.nvRows lo hi) s (fun s r => s.nvPut r (List.replicate 16 w))

/-- Write 0xFFFF over every word of a range: erased words are unlisted. -/
def State.nvErase (s : State) (lo hi : Nat) : State :=
  if s.nvm.left.isSome then s.nvFill lo hi 0xFFFF
  else
    { s.dropLines lo hi with mram := sparseClear s.mram lo hi, mramFlip := sparseClear s.mramFlip lo hi }

/-- The corrected words of a range that has been read are counted (R266). -/
def State.eccCount (s : State) (lo hi : Nat) : State :=
  let n := s.mramCorrected lo hi
  if n = 0 then s else s.count A.NVMC_ECC_CORR n

/-- An uncorrectable word in a range that has been read sets ECC_UNC and latches its address (R266). -/
def State.eccBad (s : State) (lo hi : Nat) : State :=
  match (s.mramBad.filter (fun b => lo ≤ b && b < hi)).getLast? with
  | some a =>
    let s := (s.setReg A.NVMC_UNC_ADDR_LO (half a)).setReg A.NVMC_UNC_ADDR_HI (half (a / 65536 % 256))
    (s.raiseEvt F.NVMC_EVT_ECC_UNC 15).event hostChans 0xB 0x81 [half a, half (a / 65536 % 256)]
  | none => s

/-- A range has been read (R266). -/
def State.eccNote (s : State) (lo hi : Nat) : State := (s.eccCount lo hi).eccBad lo hi

/-- NVMC finds a row of 16 words fully erased, an uncorrectable word counting as erased (R266). -/
def State.rowErased (s : State) (r : Nat) : Bool := (s.nvWords r 16).all (· == 0xFFFF)

/-- NVMC reads the rows of a range and writes 0xFFFF to those that do not read fully erased (R266, R275). -/
def State.nvClear (s : State) (lo hi : Nat) : State :=
  forEach ((s.nvRows lo hi).filter (fun r => !s.rowErased r)) (s.eccNote lo hi) (fun s r => s.nvPut r (List.replicate 16 0xFFFF))

/-! ## Copies (R269 to R272) -/

/-- The low octet, then the high octet of each word: the order in which words enter the CRC (R270). -/
def crcOctets (ws : List Half) : List Byte := ws.flatMap (fun w => leOctets 2 w.toNat)

/-- CRC of words 0 to LEN + 1 of a copy (R270). -/
def copyCrc (ws : List Half) : Nat := crc16 0xFFFF (crcOctets ws)

/-- The words of a copy (R269, R270). -/
def copyWords (typ ver : Nat) (payload : List Half) (seq : Half) : List Half :=
  let head := half (typ * 1024 + ver * 64 + payload.length) :: payload
  let c := copyCrc (head ++ [seq])
  if c = 0xFFFF then head ++ [seq + 1, half (copyCrc (head ++ [seq + 1]))] else head ++ [seq, half c]

/-- A TYPE that R269 lists. -/
def typeListed (t : Nat) : Bool := (1 ≤ t && t ≤ 5) || (0x20 ≤ t && t ≤ 0x2F)

/-- Word 0 of a copy is a valid copy head (R272). -/
def headOk (w : Half) : Bool :=
  let t := bits w.toNat 15 10
  let l := bits w.toNat 5 0
  typeListed t && bits w.toNat 9 6 != 0 && 1 ≤ l && l ≤ 62

/-- A copy found in MRAM: its words 0 to LEN + 2, and whether it is valid (R272). -/
structure Copy where
  words : List Half
  valid : Bool
  deriving DecidableEq, Repr

/-- TYPE of a copy. -/
def Copy.typ (c : Copy) : Nat := bits (wordAt c.words 0) 15 10
/-- Format version of a copy. -/
def Copy.ver (c : Copy) : Nat := bits (wordAt c.words 0) 9 6
/-- Payload of a copy. -/
def Copy.payload (c : Copy) : List Half := (c.words.drop 1).take (bits (wordAt c.words 0) 5 0)
/-- SEQ of a copy. -/
def Copy.seq (c : Copy) : Nat := wordAt c.words (c.words.length - 2)
/-- What two copies must share to be equal: words 0 to LEN + 1 (R432). -/
def Copy.content (c : Copy) : List Half := c.words.take (c.words.length - 1)

/-- The copy whose word 0 stands at an address, if that word is a valid copy head. -/
def State.copyAt (s : State) (a : Nat) : Option Copy :=
  let w := s.nvWord a
  if headOk w then
    let n := bits w.toNat 5 0 + 3
    let ws := s.nvWords a n
    let whole := (List.range n).all (fun i => !s.mramBad.contains (a + 2 * i))
    let crc := wordAt ws (n - 1)
    some ⟨ws, whole && crc != 0xFFFF && crc == copyCrc (ws.take (n - 1))⟩
  else none

/-! ## Resolution (R273) -/

/-- An unusable record is declared: NV_SPLIT, the count and the event LOG NV_SPLIT (R273, R342). -/
def State.nvSplit (s : State) : State :=
  let s := (s.raiseEvt F.NVMC_EVT_NV_SPLIT 15).count A.NVMC_SPLIT_CNT
  s.event hostChans 0xB 0x80 [s.reg A.NVMC_SPLIT_CNT]

/-- The outcome of resolving copies. -/
inductive Resolved where
  | absent
  | unusable
  | value (c : Copy)
  deriving DecidableEq, Repr

/-- The monotonic value of a record: the lease value of a counter lease (R147). -/
def Copy.mono (c : Copy) : Nat := if c.typ = 2 then wordAt c.payload 6 + 65536 * wordAt c.payload 7 else 0

/-- The largest of some numbers, 0 if there is none. -/
def maxOf (l : List Nat) : Nat := l.foldl max 0

/-- Resolve the copies of one instance or entry, in their numbered order, with the monotonic value of its kind of record. -/
def resolveBy (mono : Copy → Nat) (cs : List Copy) : Resolved :=
  let v := cs.filter (·.valid)
  let m := maxOf (v.map mono)
  let v := v.filter (fun c => mono c = m)
  let newest := v.filter (fun c => v.all (fun d => d.seq = c.seq || (c.seq + 65536 - d.seq) % 65536 < 32768))
  match v, newest with
  | [], _ => .absent
  | _, [] => .unusable
  | _, [a] => .value a
  | _, [a, _] => .value a
  | _, a :: b :: c :: _ =>
    if a.content = b.content ∨ a.content = c.content then .value a
    else if b.content = c.content then .value b else .unusable

/-- Resolve the copies of one instance of a log. -/
def resolve (cs : List Copy) : Resolved := resolveBy Copy.mono cs

/-! ## Segments (R275, R432) -/

/-- The three log regions. -/
inductive Region where
  | cfg | lease | evt
  deriving DecidableEq, Repr

/-- Base address and number of segments of a region. -/
def Region.place : Region → Nat × Nat
  | .cfg => (0xA80000, 8)
  | .lease => (0xB00000, 12)
  | .evt => (0xBC0000, 4)

/-- Base addresses of a region's segments. -/
def Region.segments (r : Region) : List Nat := (List.range r.place.2).map (fun i => r.place.1 + 0x10000 * i)

/-- Copies from an address to the end of a segment, with the address where the scan stops and whether it stopped at an
erased word 0 or at the segment's end, so that appending may resume there. -/
def State.scan (s : State) (stop : Nat) : Nat → Nat → List Copy × Nat × Bool
  | 0, a => ([], a, true)
  | n + 1, a =>
    if stop ≤ a then ([], a, true)
    else match s.copyAt a with
      | none => ([], a, s.nvWord a == 0xFFFF && !s.mramBad.contains a)
      | some c =>
        let (l, e, ok) := s.scan stop n (a + 2 * c.words.length)
        (c :: l, e, ok)

/-- The copies of a segment. -/
def State.segCopies (s : State) (base : Nat) : List Copy × Nat × Bool := s.scan (base + 0x10000) 8192 base

/-- Group copies into instances, the newest instance first (R432). -/
def groupCopies (cs : List Copy) : List (List Copy) :=
  cs.foldl (fun acc c => match acc with
    | [] => [[c]]
    | i :: rest =>
      let v := i.filter (·.valid)
      if i.length < 3 ∧ (!c.valid ∨ v.isEmpty ∨ v.all (fun d => d.content = c.content)) then (i ++ [c]) :: rest
      else [c] :: i :: rest) []

/-- The instances of a segment in address order, each as resolved. -/
def State.instances (s : State) (base : Nat) : List Resolved := ((groupCopies (s.segCopies base).1).reverse).map resolve

/-- The segment sequence number of a segment in use: its header copies stand first in it. -/
def State.segSeq (s : State) (base : Nat) : Option Nat :=
  match resolve ([base, base + 10, base + 20].filterMap (fun a => (s.copyAt a).filter (fun c => c.typ = 1))) with
  | .value c => some (wordAt c.payload 0 + 65536 * wordAt c.payload 1)
  | _ => none

/-- Put a segment in its place by sequence. -/
def insertSeg (x : Nat × Nat) : List (Nat × Nat) → List (Nat × Nat)
  | [] => [x]
  | y :: l => if x.1 < y.1 then x :: y :: l else y :: insertSeg x l

/-- The segments in use of a region with their sequence numbers, oldest first. -/
def State.segsInUse (s : State) (r : Region) : List (Nat × Nat) :=
  (r.segments.filterMap (fun b => (s.segSeq b).map (fun q => (q, b)))).foldl (fun l x => insertSeg x l) []

/-- Free segments of a region, lowest address first. -/
def State.segsFree (s : State) (r : Region) : List Nat := r.segments.filter (fun b => (s.segSeq b).isNone)

/-- The instances of a region in log order (R274). -/
def State.regionLog (s : State) (r : Region) : List Resolved := (s.segsInUse r).flatMap (fun x => s.instances x.2)

/-- NVMC has read the segments in use of a region. -/
def State.regionRead (s : State) (r : Region) : State :=
  forEach (s.segsInUse r) s (fun s x => s.eccNote x.2 (x.2 + 0x10000))

/-- Where appending resumes in a region; 0 where no segment is open. -/
def State.nvPos (s : State) : Region → Nat
  | .cfg => s.nvm.posCfg
  | .lease => s.nvm.posLease
  | .evt => s.nvm.posEvt

/-- Put where appending resumes. -/
def State.setNvPos (s : State) (r : Region) (a : Nat) : State :=
  s.modNvm (fun n => match r with
    | .cfg => { n with posCfg := a } | .lease => { n with posLease := a } | .evt => { n with posEvt := a })

/-- NVMC at start-up reads every segment's header copies and scans the segments in use, to the word that stops the scan; it
finds the end of each region's newest segment; where that lies past the segment, appending opens another (R275). -/
def State.nvStart (s : State) : State :=
  forEach [Region.cfg, .lease, .evt] (s.modNvm (fun n => { n with scanned := true })) (fun s r =>
    let s := forEach r.segments s (fun s b => s.eccNote b (max (b + 30) (min ((s.segCopies b).2.1 + 2) (b + 0x10000))))
    match (s.segsInUse r).getLast? with
    | some (_, b) =>
      let (_, e, ok) := s.segCopies b
      s.setNvPos r (if ok ∧ e ≤ b + 0x10000 then e else 0)
    | none => s.setNvPos r 0)

/-! ## Appending -/

/-- Open a free segment: erase it and write its header with the next sequence number. The number of a region's first
segment is not given: a free value (log entry 2). -/
def State.openSeg (s : State) (r : Region) : Option State :=
  match s.segsFree r with
  | [] => none
  | b :: _ =>
    let (q, s) := match (s.segsInUse r).getLast? with
      | some (q, _) => ((q + 1) % 2 ^ 32, s)
      | none => s.draw (2 ^ 32)
    let s := s.nvClear b (b + 0x10000)
    let s := s.modNvm (fun n => { n with erasing := n.erasing.filter (· != b) })
    let h := copyWords 1 1 [half q, half (q / 65536)] 0
    some ((s.nvPut b (h ++ h ++ h)).setNvPos r (b + 30))

/-- The three copies of an instance, one after the other (R271). -/
def threeCopies (ws : List Half) : List Half := ws ++ ws ++ ws

/-- The words of an instance fit behind the position. -/
def State.nvFits (s : State) (r : Region) (ws : List Half) : Bool :=
  let p := s.nvPos r
  p != 0 && p + 2 * ws.length ≤ (p - 1) / 0x10000 * 0x10000 + 0x10000

/-- Write the words of an instance at the position. -/
def State.nvInstance (s : State) (r : Region) (ws : List Half) : State :=
  let p := s.nvPos r
  (s.nvPut p ws).setNvPos r (p + 2 * ws.length)

/-- Append an instance, opening a segment where the active one is full; none where no segment is free. -/
def State.nvAppend (s : State) (r : Region) (ws : List Half) : Option State :=
  if s.nvFits r ws then some (s.nvInstance r ws) else (s.openSeg r).map (·.nvInstance r ws)

/-- Free a segment: its header copies are written to 0xFFFF, copy 0 first, and it is erased in the background (R275). -/
def State.freeSeg (s : State) (base : Nat) : State :=
  (s.nvPut base (List.replicate 15 0xFFFF)).modNvm (fun n => { n with erasing := n.erasing ++ [base] })

/-- A configuration record's CID. -/
def Copy.cid (c : Copy) : Nat := wordAt c.payload 0

/-- The configuration instances of a list, newest first, with the CID of each. -/
def cfgNewest (l : List Resolved) : List (Nat × Copy) :=
  (l.filterMap (fun i => match i with
    | .value c => if c.typ = 3 then some (c.cid, c) else none
    | _ => none)).reverse

/-- Configuration reclamation (R275): with two free segments left, the newest instance of every CID whose newest
instance lies in the oldest segment is appended, and that segment is freed. -/
def State.cfgReclaim (s : State) : State :=
  let s := s.regionRead .cfg
  match s.segsInUse .cfg with
  | [] => s
  | (_, b) :: rest =>
    let later := cfgNewest (rest.flatMap (fun x => s.instances x.2))
    let old := cfgNewest (s.instances b)
    let live := old.filter (fun p => (later.lookup p.1).isNone && (old.lookup p.1 == some p.2))
    match live.eraseDups.foldl (fun o p => o.bind (fun s => s.nvAppend .cfg (threeCopies p.2.words))) (some s) with
    | some s => s.freeSeg b
    | none => s

/-- Append a configuration instance; none where the write ends in FULL. -/
def State.cfgAppend (s : State) (ws : List Half) : Option State :=
  if s.nvFits .cfg ws then some (s.nvInstance .cfg ws)
  else match s.openSeg .cfg with
    | none => none
    | some s => (if (s.segsFree .cfg).length ≤ 2 then s.cfgReclaim else s).nvAppend .cfg ws

/-- Append to the event and access log: with none free the oldest segment is freed and its records are lost. -/
def State.evtAppend (s : State) (ws : List Half) : State :=
  if s.nvFits .evt ws then s.nvInstance .evt ws
  else
    let s := if (s.segsFree .evt).isEmpty then
        match s.segsInUse .evt with | (_, b) :: _ => s.freeSeg b | [] => s
      else s
    match s.openSeg .evt with | some s => s.nvInstance .evt ws | none => s

/-- The copies of a region grouped into instances, in log order. -/
def State.regionGroups (s : State) (r : Region) : List (List Copy) :=
  (s.segsInUse r).flatMap (fun x => (groupCopies (s.segCopies x.2).1).reverse)

/-- The value of a configuration record: the newest instance of its CID that is not absent (R274). -/
def State.cfgFind (s : State) (cid : Nat) : Resolved :=
  let mine (g : List Copy) : Bool := g.any (fun c => c.valid && c.typ == 3 && c.cid == cid)
  match ((s.regionGroups .cfg).filter mine).getLast? with
  | some g => resolve g
  | none => .absent

/-! ## NVMC's service (R277) -/

/-- Append the words of one instance to a region under its policy (R148, R275); none where no segment is free. -/
def State.nvPlace (s : State) (r : Region) (ws : List Half) : Option State :=
  match r with
  | .cfg => s.cfgAppend ws
  | .lease => s.nvAppend .lease ws
  | .evt => some (s.evtAppend ws)

/-- How a record request ended. -/
inductive NvEnd where
  | committed | verify | full
  deriving DecidableEq, Repr

/-- NVMC writes a record: `fails` of its two instances do not read back as written. Those hold free words (log entry 2);
after the first one further instance is written, and where that fails too the request ends in VERIFY and FAIL is set (R277).
FAIL is set also where no segment can be opened. -/
def State.nvRecordWrite (s : State) (r : Region) (copy : List Half) (fails : Nat) : NvEnd × State :=
  let bad (s : State) : Option State :=
    let (l, s) := s.drawOctets (6 * copy.length)
    s.nvPlace r (packWords l)
  let full (s : State) : NvEnd × State := (.full, s.raiseEvt F.NVMC_EVT_FAIL 15)
  let s1 := if fails = 0 then some s else bad s
  match s1 with
  | none => full s
  | some s =>
    if fails ≤ 1 then
      match s.nvPlace r (threeCopies copy) with
      | some s => (.committed, s)
      | none => full s
    else match bad s with
      | some s => (.verify, s.raiseEvt F.NVMC_EVT_FAIL 15)
      | none => full s

/-- NVMC, once it is free, serves the sources that wait in the order KEYS, ASSAY, ACCESS, the lease writer, firmware; none from the
start of a life-cycle transition, which KEYS writes, to the reset that ends it (R180). -/
def State.nvServe (s : State) : State :=
  if s.nvm.cur.isSome || s.keys.lcPhase != .none then s
  else
    let waits (k : NvSource) : Bool := s.nvm.reqs.any (fun r => r.src == k) || (k == .firmware && s.nvm.cmd.isSome)
    s.modNvm (fun n => { n with cur := [NvSource.keys, .assay, .access, .lease, .firmware].find? waits })

/-- A hardware source hands a record to its port. -/
def State.nvHand (s : State) (r : NvReq) : State := (s.modNvm (fun n => { n with reqs := n.reqs ++ [r] })).nvServe

/-- It is a source's turn: NVMC serves it, or runs an image command, between whose chunks of 16 words it serves records. -/
def State.nvTurn (s : State) (k : NvSource) : Bool :=
  let image := match s.nvm.cmd with | some (op, _) => op == 4 || op == 5 | none => false
  let first := [NvSource.keys, .assay, .access, .lease].find? (fun k => s.nvm.reqs.any (fun r => r.src == k))
  s.nvm.cur == some k || (s.nvm.cur == some .firmware && image && s.keys.lcPhase == .none && first == some k)

/-- A source's request leaves its port, and NVMC goes on to the next. -/
def State.unport (s : State) (src : NvSource) : State :=
  (s.modNvm (fun n => { n with
    reqs := n.reqs.filter (fun r => r.src != src), cur := if n.cur = some src then none else n.cur })).nvServe

end Sys2Proof.Machine
end

