-- ==== Sys2Proof/Machine/Ashlar.lean ====
section
/-! DEFINITION. ASHLAR: the table, the tenants, the checks, commits and verdicts, counter leases, restore, rebuild and
the entry operations (R123 to R152). -/
namespace Sys2Proof.Machine

/-! ## The table (R123 to R128) -/

/-- The two candidate buckets of a sender under a hash key (R126). -/
def bucketsOf (hk : List Byte) (eui : BitVec 64) : List Nat :=
  let h := sipHash8 hk (beOctets 8 eui.toNat)
  let h0 := bits h 13 0
  let h1 := bits h 45 32
  [h0, if h1 = h0 then h0 ^^^ 0x2000 else h1]

/-- A way of the table; a free way is the all-zero entry. -/
def wayAt (ways : Sparse AEntry) (i : Nat) : AEntry := sparseGet (fun _ => {}) ways i

/-- Put a way. -/
def putWay (ways : Sparse AEntry) (i : Nat) (e : AEntry) : Sparse AEntry := sparseSet (fun _ => {}) ways i e

/-- The buckets that a lookup probes, in order: those of the old key first while a rebuild runs (R127). -/
def Ashlar.probes (a : Ashlar) (eui : BitVec 64) : List Nat :=
  (match a.oldHk with | some k => bucketsOf k eui | none => []) ++ bucketsOf a.hk eui

/-- The way that holds a sender, the first of the probe sequence (R127). -/
def Ashlar.wayOf (a : Ashlar) (eui : BitVec 64) : Option Nat :=
  ((a.probes eui).flatMap (fun b => [4 * b, 4 * b + 1, 4 * b + 2, 4 * b + 3])).find? (fun i =>
    (wayAt a.ways i).valid && (wayAt a.ways i).eui == eui)

/-- A sender's entry. -/
def Ashlar.find (a : Ashlar) (eui : BitVec 64) : Option AEntry :=
  match a.wayOf eui with
  | some i => some (wayAt a.ways i)
  | none => a.stash.find? (fun e => e.eui == eui)

/-- Change a sender's entry where it stands. -/
def Ashlar.update (a : Ashlar) (eui : BitVec 64) (g : AEntry → AEntry) : Ashlar :=
  match a.wayOf eui with
  | some i => { a with ways := putWay a.ways i (g (wayAt a.ways i)) }
  | none => { a with stash := a.stash.map (fun e => if e.eui = eui then g e else e) }

/-- Remove a sender's entry. -/
def Ashlar.remove (a : Ashlar) (eui : BitVec 64) : Ashlar :=
  match a.wayOf eui with
  | some i => { a with ways := putWay a.ways i {} }
  | none => { a with stash := a.stash.filter (fun e => e.eui != eui) }

/-- The lowest free way of a bucket. -/
def freeWay (ways : Sparse AEntry) (b : Nat) : Option Nat :=
  [4 * b, 4 * b + 1, 4 * b + 2, 4 * b + 3].find? (fun i => !(wayAt ways i).valid)

/-- Place an entry in one of the buckets of a list, else displace: `n` displacements are left, `16 - n` are made. What
comes back without a place goes to the stash (R128). A displaced entry goes to its other bucket; one that stood in a
bucket of the old key tries both buckets of the new (DESIGN CHOICE, log entry 26). `old` is the way that a move will free
after the new place is written: it is not free before that, and what it holds has its new place already. -/
def placeEntry (hk : List Byte) (old : Option Nat) : Nat → AEntry → List Nat → Sparse AEntry → Sparse AEntry × Option AEntry
  | n, e, bs, ways =>
    match bs.findSome? (freeWay ways) with
    | some i => (putWay ways i e, none)
    | none => match n with
      | 0 => (ways, some e)
      | n + 1 =>
        let b := bs.headD 0
        let i := 4 * b + (15 - n) % 4
        let d := wayAt ways i
        let own := bucketsOf hk d.eui
        let other := own.filter (· != b)
        if old = some i then (putWay ways i e, none)
        else placeEntry hk old n d (if own.contains b then other else own) (putWay ways i e)

/-- A rebuild is triggered (R150): it starts, or is queued behind the rebuild or restore that runs. -/
def State.rebuildTrigger (s : State) : State :=
  if s.flag F.ASHLAR_STATUS_REBUILD || s.flag F.ASHLAR_STATUS_RESTORE then s.setFlag F.ASHLAR_STATUS_REBUILD_QUEUED
  else
    let s := (s.setFlag F.ASHLAR_STATUS_REBUILD).setFlag F.ASHLAR_STATUS_HK_WAIT (!s.drbgReady)
    s.modAshlar (fun a => { a with wantHk := true, replaced := false })

/-- Event ASHLAR of a code: ASHLAR_STASH and ASHLAR_ENTRIES_LO (R342). -/
def State.ashlarEntries (s : State) : Nat := (s.ashlar.ways.filter (fun p => p.2.valid)).length + s.ashlar.stash.length

/-- Send an ASHLAR event. -/
def State.ashlarEvent (s : State) (code : Nat) : State :=
  s.event hostChans 5 code [half s.ashlar.stash.length, half s.ashlarEntries]

/-- FULL is set and reported (R128, R133, R152). -/
def State.ashlarFull (s : State) : State := (s.raiseEvt F.ASHLAR_EVT_FULL 5).ashlarEvent 0x80

/-- After a change of the stash: a rise from 48 to 49 sets STASH_HIGH and starts a rebuild (R129). -/
def State.stashRise (s : State) (old : Nat) : State :=
  if old ≤ 48 ∧ 48 < s.ashlar.stash.length then (s.raiseEvt F.ASHLAR_EVT_STASH_HIGH 5).rebuildTrigger else s

/-- The entry of a sender is gone: a record of it that NVMC still has clears no entry (R146). -/
def State.entryGone (s : State) (eui : BitVec 64) : State :=
  if s.ashlar.leaseOut.any (fun r => r.eui == eui) then s.modAshlar (fun a => { a with outGone := true }) else s

/-- The old way of a moved entry is freed once the new place is written, where the displacements have not used it (R128). -/
def freeOld (ways : Sparse AEntry) (old : Option Nat) (eui : BitVec 64) : Sparse AEntry :=
  match old with
  | some i => if (wayAt ways i).eui = eui then putWay ways i {} else ways
  | none => ways

/-- Place an entry under the key in force (R128), freeing the old way of one that is moved: at a full stash the entry without a place
is lost. -/
def State.insertEntry (s : State) (e : AEntry) (old : Option Nat := none) : State :=
  let a := s.ashlar
  let (ways, left) := placeEntry a.hk old 16 e (bucketsOf a.hk e.eui) a.ways
  let ways := freeOld ways old e.eui
  match left with
  | none => s.modAshlar (fun a => { a with ways := ways })
  | some d =>
    if 64 ≤ a.stash.length then ((s.modAshlar (fun a => { a with ways := ways })).entryGone d.eui).ashlarFull
    else (s.modAshlar (fun a => { a with ways := ways, stash := a.stash ++ [d] })).stashRise a.stash.length

/-- The hash key before the first draw is not given: free octets (log entry 2). -/
def State.ensureHk (s : State) : State :=
  if s.ashlar.hk.isEmpty then
    let (k, s) := s.drawOctets 16
    s.modAshlar (fun a => { a with hk := k })
  else s

/-- An entry has become dirty: its EUI-64 enters the dirty queue, or LEASE_SWEEP is set (R146). -/
def State.pushDirty (s : State) (eui : BitVec 64) : State :=
  if s.ashlar.dirtyQ.length < 128 then s.modAshlar (fun a => { a with dirtyQ := a.dirtyQ ++ [eui] })
  else s.setFlag F.ASHLAR_STATUS_LEASE_SWEEP

/-- Every entry of the table and the stash, in place order. -/
def Ashlar.entries (a : Ashlar) : List AEntry := (a.ways.map (·.2)).filter (·.valid) ++ a.stash

/-! ## Tenants (R130 to R132) -/

/-- A tenant of the store. -/
def State.tenant (s : State) (t : Nat) : Tenant := sparseGet (fun _ => {}) s.ashlar.tenants t

/-- Change a tenant. -/
def State.modTenant (s : State) (t : Nat) (g : Tenant → Tenant) : State :=
  s.modAshlar (fun a => { a with tenants := sparseSet (fun _ => {}) a.tenants t (g (s.tenant t)) })

/-- A tenant is usable (R130). -/
def Tenant.usable (t : Tenant) : Bool := t.root.isSome && t.en && t.epoch != 0

/-- Entries of a tenant. -/
def State.tenantEntries (s : State) (t : Nat) : Nat := (s.ashlar.entries.filter (fun e => e.tenant.toNat = t)).length

/-- The tenant that ASHLAR_TSEL selects. -/
abbrev State.tsel (s : State) : Nat := s.fld F.ASHLAR_TSEL_TENANT

/-- ASHLAR_TCFG of a tenant as it reads. -/
def Tenant.cfgWord (t : Tenant) : Half :=
  half (bit t.root.isSome * 32768 + bit t.en * 16384 + bit t.auto * 8192 + bit t.grace * 4096 + t.usage)

/-- A write of ASHLAR_TCFG; a reserved USAGE leaves it (R6). -/
def State.tcfgWrite (s : State) (w : Half) : State :=
  let u := bits w.toNat 4 0
  s.modTenant s.tsel (fun t => { t with
    en := w.getLsbD 14, auto := w.getLsbD 13, grace := w.getLsbD 12, usage := if 16 ≤ u ∧ u ≤ 28 then u else t.usage })

/-- A write of ASHLAR_TEPOCH (R131). -/
def State.tepochWrite (s : State) (w : Half) : State :=
  let v := w.toNat % 256
  let e := (s.tenant s.tsel).epoch
  if e = 0 ∧ v ≠ 0 then s.modTenant s.tsel (fun t => { t with epoch := v })
  else if e ≠ 0 ∧ e ≤ 254 ∧ v = e + 1 then (s.modTenant s.tsel (fun t => { t with epoch := v })).rebuildTrigger
  else s.raiseEvt F.ASHLAR_EVT_TEPOCH_ERR 5

/-- TENANT_EPOCH_WRITE (R131). -/
def execTenantEpochWrite (w : Half) (s : State) : Out := .next (s.tepochWrite w)

/-! ## Checks (R133 to R138) -/

/-- What ASHLAR reads of a secured frame: the auxiliary security header and the places of the private payload and the
MIC (R133, R137). -/
structure Sec where
  level : Nat
  kim : Nat
  fcSupp : Bool
  asnNonce : Bool
  bit7 : Bool
  counter : Nat
  keySource : Nat
  keyIndex : Nat
  /-- End of the authenticated header: MHR, auxiliary security header and Header IEs. -/
  aEnd : Nat
  mic : Nat
  micLen : Nat
  /-- The form fails step 3, or the octets end before the MIC field is complete (R138). -/
  malformed : Bool
  deriving DecidableEq, Repr

/-- MIC length by security level (R137). -/
def micOf (level : Nat) : Nat := match level % 4 with | 1 => 4 | 2 => 8 | 3 => 16 | _ => 0

/-- The end of the Header IEs, none where their lengths run past `stop` (PRESUMED, log entry 24). -/
def headerIes (p : List Byte) (stop : Nat) : Nat → Nat → Option Nat
  | 0, _ => none
  | n + 1, a =>
    if a = stop then some a
    else if stop < a + 2 then none
    else
      let d := leNat (slice p a 2)
      let b := a + 2 + bits d 6 0
      if stop < b then none
      else if bits d 14 7 = 0x7E ∨ bits d 14 7 = 0x7F then some b else headerIes p stop n b

/-- Read the auxiliary security header that follows the MHR in a PSDU of `room` octets without FCS. -/
def secOf (p : List Byte) (m : Mhr) (room : Nat) : Sec :=
  let c := (octAt p m.len).toNat
  let kim := bits c 4 3
  let supp := bits c 5 5 = 1
  let k := m.len + 1 + (if supp then 0 else 4)
  let src := if kim = 2 then 4 else if kim = 3 then 8 else 0
  let e := k + src + (if kim = 0 then 0 else 1)
  let n := micOf (bits c 2 0)
  let mic := room - n
  let ies := if m.ie then headerIes p mic 1024 e else some e
  { level := bits c 2 0, kim := kim, fcSupp := supp, asnNonce := bits c 6 6 = 1, bit7 := bits c 7 7 = 1
    counter := leNat (slice p (m.len + 1) 4), keySource := leNat (slice p k src), keyIndex := (octAt p (k + src)).toNat
    aEnd := ies.getD e, mic := mic, micLen := n, malformed := room < e + n || ies.isNone || p.length < mic + n }

/-- Verdict codes of R134. -/
abbrev vPass : Nat := 0x00
abbrev vNoTenant : Nat := 0x03
abbrev vReplay : Nat := 0x0B
abbrev vFull : Nat := 0x07
abbrev vMic : Nat := 0x0E
abbrev vLeaseWait : Nat := 0x0F
abbrev vAdmit : Nat := 0x10
abbrev vLate : Nat := 0x11
abbrev vNone : Nat := 0x13
abbrev vMalformed : Nat := 0x15

/-- Pending admissions, of one tenant or of all: the new senders, not the frames, that have passed step 9 and are not yet
committed or refused (R133). A sender whose entry a commit has made meanwhile is new no longer. `skip` does not count. -/
def State.admissions (s : State) (t : Option Nat) (skip : Option (BitVec 64)) : Nat :=
  (s.radio.frames.filterMap (fun f => f.check.bind (fun c =>
    if c.admission && t.all (· == c.tenant) && skip != some c.eui && (s.ashlar.find c.eui).isNone then some c.eui
    else none))).eraseDups.length

/-- Step 9 for a sender not found, whose own pending admission `skip` does not count (R133). -/
def State.admitFault (s : State) (t : Nat) (skip : Option (BitVec 64)) : Option Nat :=
  let ten := s.tenant t
  if !ten.auto then some 0x06
  else if ten.quota ≠ 0xFFFF ∧ ten.quota ≤ s.tenantEntries t + s.admissions (some t) skip then some 0x08
  else if 64 ≤ s.ashlar.stash.length + s.admissions none skip then some vFull
  else none

/-- A life-cycle transition is past its step 2: every secured frame receives NOTENANT (R180). -/
def State.lcMute (s : State) : Bool := s.keys.lcPhase != .none

/-- Steps 2 to 14 of R133 (DESIGN CHOICE, log entry 27: a secured frame of security level 0 fails step 4): the verdict of the first
that fails, or whether the sender is new. While a life-cycle transition runs every secured frame gets NOTENANT (R180). -/
def State.ashlarSteps (s : State) (m : Mhr) (x : Sec) : Nat ⊕ Bool :=
  let t := x.keySource % 4096
  let ten := s.tenant t
  if s.lcMute then .inl vNoTenant
  else if !s.flag F.ASHLAR_CTRL_EN then .inl 0x14
  else if x.malformed then .inl vMalformed
  else if x.level = 0 ∨ x.level = 4 ∨ x.kim ≠ 2 ∨ x.fcSupp ∨ x.asnNonce ∨ x.bit7 then .inl 0x01
  else if 4096 ≤ x.keySource then .inl 0x02
  else if !s.flag F.ASHLAR_STATUS_RESTORED then .inl 0x12
  else if !ten.usable then .inl vNoTenant
  else if x.keyIndex = 0 ∨ ten.epoch < x.keyIndex ∨ x.keyIndex + bit ten.grace < ten.epoch then .inl 0x04
  else
    let usage : Nat ⊕ Bool := if 2 ^ ten.usage ≤ x.counter then .inl 0x0C else .inr false
    match s.ashlar.find (BitVec.ofNat 64 m.src) with
    | none => match s.admitFault t none with
      | some v => .inl v
      | none => match usage with | .inl v => .inl v | .inr _ => .inr true
    | some e =>
      if e.quarantine then .inl 0x09
      else if e.tenant.toNat ≠ t then .inl 0x0A
      else if x.keyIndex < e.epoch.toNat then .inl 0x05
      else if x.keyIndex = e.epoch.toNat ∧ x.counter ≤ e.hwm.toNat then .inl vReplay
      else usage

/-- KEY_DERIVATION (R136): label "CZS1", the sender's EUI-64 and the epoch. -/
def frameKey (root : List Byte) (eui : BitVec 64) (epoch : Nat) : List Byte :=
  kdf root [0x43, 0x5A, 0x53, 0x31] (beOctets 8 eui.toNat ++ [byte epoch])

/-- Checks 1 to 15 of a frame (R133, R136). `inTime`: the frame key is derived by the time ASHLAR decides the form of
the payload (R135). A frame whose octets end before its security control octet has no security level: 8, a value no level
takes. -/
def State.ashlarCheck (s : State) (f : Frame) (inTime : Bool) : Check × State :=
  let m := mhrOf f.octets
  let room := f.len - fcsLen f.fcs32
  let x := secOf f.octets m room
  let t := x.keySource % 4096
  let eui := BitVec.ofNat 64 m.src
  let base : Check := { failed := some vNone, tenant := 0, eui := eui, keyIndex := 0, counter := 0, level := 0
                        admission := false, key := [], mic := none, dec := false }
  if !m.sec then (base, s)
  else
    let base := { base with
      tenant := if x.kim = 2 then t else 0, keyIndex := x.keyIndex, counter := x.counter
      level := if room ≤ m.len then 8 else x.level }
    match s.ashlarSteps m x with
    | .inl v => ({ base with failed := some v }, s)
    | .inr new =>
      let ten := s.tenant t
      if ten.rate ≠ 0 ∧ ten.rate ≤ ten.rateCount then ({ base with failed := some 0x0D }, s)
      else
        let s := s.modTenant t (fun t => { t with rateCount := t.rateCount + 1 })
        ({ base with
            failed := none, admission := new, key := frameKey (ten.root.getD []) eui x.keyIndex
            dec := decide (5 ≤ x.level) && inTime }, s)

/-- A frame's place in Hod order (R113): by TS_EOF, then by lane. -/
def hodBefore (f g : Frame) : Bool :=
  match f.handoff, g.handoff with
  | some a, some b => a.tsEof < b.tsEof || (a.tsEof == b.tsEof && f.lane < g.lane)
  | _, _ => false

/-- The counters that a verdict raises (R134): ASHLAR_CNT by index, and the tenant's. -/
def verdictCounter (v : Nat) : Option Nat :=
  if v = vPass then some 0 else if v = vAdmit then some 1 else if v = vReplay then some 2
  else if v = vMic then some 3 else if v = 0x0C then some 4 else if v = vLate then some 5
  else if v = vLeaseWait then some 7 else if v = vFull then some 8
  else if v = 0x08 ∨ v = 0x0D then some 9 else if v = vNone then none else some 11

/-- One more of a count that saturates at 0xFFFF. -/
def satUp (n : Nat) : Nat := min (n + 1) 0xFFFF

/-- The tenant counter that a verdict raises. -/
def Tenant.countVerdict (t : Tenant) (v : Nat) : Tenant :=
  if v = vFull then { t with cntFull := satUp t.cntFull }
  else if v = 0x08 ∨ v = 0x0D then { t with cntQuota := satUp t.cntQuota }
  else if v = vMic then { t with cntMic := satUp t.cntMic }
  else if v = vReplay then { t with cntReplay := satUp t.cntReplay }
  else t

/-- The verdict of a frame is fixed and counted (R134); that of every secured frame is NOTENANT while a life-cycle
transition runs (R180). -/
def State.fixVerdict (s : State) (f : Frame) (v : Nat) : State :=
  let v := if s.lcMute ∧ v ≠ vNone then vNoTenant else v
  let s := s.modFrame f.fid (fun f => { f with verdict := some v })
  let s := match verdictCounter v with | some i => s.count (A.ASHLAR_CNT i) | none => s
  let s := match f.check with | some c => s.modTenant c.tenant (fun t => t.countVerdict v) | none => s
  if v = vFull then s.ashlarFull else s

/-- A frame that has been handed off and has failed a check gets its verdict; one that has LATE keeps it (R133, R142). -/
def State.fixFailed (s : State) (fid : Nat) : State :=
  match s.frame? fid with
  | some f => match f.handoff, f.check.bind (·.failed) with
    | some _, some v =>
      let s := s.modFrame fid (fun f => { f with committed := true, check := f.check.map (fun c => { c with admission := false }) })
      if f.settled then s.dropFrame fid else if f.verdict.isNone then s.fixVerdict f v else s
    | _, _ => s
  | none => s

/-- The frame of a lane that meets a test, the oldest first. -/
def State.frameOf (s : State) (n : Nat) (p : Frame → Bool) : Option Frame :=
  s.radio.frames.find? (fun f => f.lane = n && p f)

/-- MACF has passed a frame of a receive lane. -/
def Frame.passed (f : Frame) : Bool := match f.macf with | .passed _ => true | _ => false

/-- ASHLAR_LOOKUP (R133): the source address and the auxiliary security header of lane `n`'s frame are complete. -/
def execAshlarLookup (n : Fin 64) (inTime : Bool) (s : State) : Out :=
  .next (match s.frameOf n (fun f => f.passed && f.check.isNone) with
    | some f =>
      let (c, s) := s.ashlarCheck f inTime
      let s := s.modFrame f.fid (fun f => { f with check := some c })
      s.fixFailed f.fid
    | none => s)

/-- The tag comparison of R137 and R138 on the octets of a frame. -/
def micGood (f : Frame) (c : Check) : Bool :=
  let m := mhrOf f.octets
  let x := secOf f.octets m (f.len - fcsLen f.fcs32)
  let nonce := beOctets 8 c.eui.toNat ++ beOctets 4 c.counter ++ [byte c.level]
  let (a, payload) := if 5 ≤ c.level
    then (slice f.octets 0 x.aEnd, ccmCrypt c.key nonce (slice f.octets x.aEnd (x.mic - x.aEnd)))
    else (slice f.octets 0 x.mic, [])
  -- the tag is sent encrypted with A_0
  ccmTag c.key nonce a payload x.micLen == slice f.octets x.mic x.micLen

/-- A frame has met every check up to its tag, which is still to be compared. -/
def Frame.awaitsMic (f : Frame) : Bool := match f.check with | some c => c.failed.isNone && c.mic.isNone | none => false

/-- ASHLAR_MIC_CHECK (R138): after the last octet the tag is compared; a frame whose octets end before the MIC field is
complete fails at step 3. -/
def execAshlarMicCheck (n : Fin 64) (s : State) : Out :=
  .next (match s.frameOf n Frame.awaitsMic with
    | some f => match f.check with
      | some c =>
        let x := secOf f.octets (mhrOf f.octets) (f.len - fcsLen f.fcs32)
        let cut := f.octets.length < x.mic + x.micLen
        let ok := !cut && micGood f c
        let c := { c with
          mic := some ok, admission := c.admission && ok
          failed := if cut then some vMalformed else if ok then none else some vMic }
        (s.modFrame f.fid (fun f => { f with check := some c })).fixFailed f.fid
      | none => s
    | none => s)

/-- VERDICT_DEADLINE (R140): t_EOF + 40 µs of a frame whose verdict is not fixed. -/
def execVerdictDeadline (n : Fin 64) (s : State) : Out :=
  .next (match s.frameOf n (fun f => f.passed && f.handoff.isSome && f.verdict.isNone) with
    | some f => match f.handoff with
      | some h => (s.passTo (h.tsEof + us 40)).fixVerdict f vLate
      | none => s
    | none => s)

/-! ## Commit (R142 to R145) -/

/-- block(x) (chapter 05): x with bits 7 to 0 cleared. -/
def leaseBlock (x : Nat) : Nat := x / 256 * 256

/-- Steps 9, 12 and 13 again and the table of R145: the verdict and the entry that follows, none where nothing changes
(DESIGN CHOICE, log entry 28: which verdict a new sender without room receives). -/
def State.commitRow (s : State) (c : Check) (heard : Byte) : Nat × Option AEntry :=
  let hwm := BitVec.ofNat 32 c.counter
  match s.ashlar.find c.eui with
  | none => match s.admitFault c.tenant (some c.eui) with
    | some 0x06 => (0x06, none)
    | some _ => (vFull, none)
    | none => (vAdmit, some { eui := c.eui, hwm := hwm, valid := true, dirty := true
                              tenant := BitVec.ofNat 12 c.tenant, epoch := byte c.keyIndex, heard := heard })
  | some e =>
    let b := leaseBlock e.hwm.toNat
    if c.keyIndex < e.epoch.toNat then (0x05, none)
    else if e.epoch.toNat < c.keyIndex then
      (vLeaseWait, some { e with epoch := byte c.keyIndex, hwm := hwm, dirty := true, heard := heard })
    else if c.counter ≤ e.hwm.toNat then (vReplay, none)
    else if e.dirty then (vLeaseWait, some { e with heard := heard })
    else if c.counter < b + 256 then (vPass, some { e with hwm := hwm, heard := heard })
    else if c.counter < b + 512 then (vPass, some { e with hwm := hwm, dirty := true, heard := heard })
    else (vLeaseWait, some { e with hwm := hwm, dirty := true, heard := heard })

/-- A verdict after which a late frame counts as passed (R140). -/
def latePass (v : Nat) : Bool := v == vPass || v == vAdmit || v == vLeaseWait

/-- Put the entry that follows from a commit: inserted if new; its EUI-64 enters the dirty queue if it became dirty. -/
def State.commitEntry (s : State) (e : AEntry) : State :=
  match s.ashlar.find e.eui with
  | none => (s.insertEntry e).pushDirty e.eui
  | some o =>
    let s := s.modAshlar (fun a => a.update e.eui (fun _ => e))
    if e.dirty && !o.dirty then s.pushDirty e.eui else s

/-- A frame that waits for its commit. -/
def Frame.toCommit (f : Frame) : Bool :=
  f.handoff.isSome && !f.committed && (match f.check with | some c => c.failed.isNone && c.mic == some true | none => false)

/-- ASHLAR_COMMIT (R142 to R145): the frame of lane `n` is committed, in Hod order; a frame handed off with FCS_ERR or
CUT changes no entry (DESIGN CHOICE, log entry 28: its verdict is the one the commit would give). -/
def execAshlarCommit (n : Fin 64) (s : State) : Out :=
  .next (match s.frameOf n Frame.toCommit with
    | some f => match f.handoff, f.check with
      | some h, some c =>
        if s.radio.frames.any (fun g => g.passed && !g.committed && hodBefore g f) then s
        else
          let (v, e) := if s.lcMute then (vNoTenant, none) else s.commitRow c (byte h.asn)
          let bad := h.fcsErr || h.cut
          let pend := match s.ashlar.find c.eui with | some e => e.pending | none => false
          let s := s.modFrame f.fid (fun f => { f with
            committed := true, pending := pend, check := some { c with admission := false } })
          let s := match e with | some e => if bad then s else s.commitEntry e | none => s
          if f.verdict.isNone then s.fixVerdict f v
          else
            let s := if latePass v && !bad then s.count (A.ASHLAR_CNT 6) else s
            if f.settled then s.dropFrame f.fid else s
      | _, _ => s
    | none => s)

/-! ## Counter leases (R144 to R148) -/

/-- The eight payload words of a lease record (R147). -/
def LeaseRec.payload (r : LeaseRec) : List Half :=
  let e := r.eui.toNat
  [half (e / 2 ^ 48), half (e / 2 ^ 32), half (e / 65536), half e,
   half ((if r.lease then 0x1000 else 0x2000) + r.tenant.toNat),
   half (bit r.quarantine * 32768 + r.epoch.toNat), half r.value, half (r.value / 65536)]

/-- The LEASE record of an entry's state (R146). -/
def AEntry.leaseRec (e : AEntry) : LeaseRec := ⟨true, e.eui, e.tenant, e.epoch, e.quarantine, leaseBlock e.hwm.toNat + 256⟩

/-- The DELETE record of an entry (R147, R152). -/
def AEntry.deleteRec (e : AEntry) : LeaseRec := ⟨false, e.eui, e.tenant, e.epoch, e.quarantine, 0⟩

/-- The lease writer may hand a record over: ASHLAR runs, no restore does, its port is free (R146, R149), and KEYS writes no life-cycle
transition (R180). -/
def State.leaseFree (s : State) : Bool :=
  s.flag F.ASHLAR_CTRL_EN && !s.flag F.ASHLAR_STATUS_RESTORE && s.ashlar.leaseOut.isNone && s.keys.lcPhase == .none &&
    !s.nvm.reqs.any (fun r => r.src == .lease)

/-- Hand a record to NVMC. `fresh`: a reclamation writes it. -/
def State.leaseHand (s : State) (r : LeaseRec) (fresh : Bool := false) : State :=
  (s.modAshlar (fun a => { a with leaseOut := some r, outFresh := fresh, outGone := false })).nvHand ⟨.lease, 2, 1, r.payload, 0⟩

/-- LEASE_WRITE (R146): the record of the next sender of the queue; a sender no longer dirty is passed over. DELETE
records go ahead (DESIGN CHOICE, log entry 29). -/
def execLeaseWrite (s : State) : Out :=
  .next (if !s.leaseFree then s
    else match s.ashlar.deletes with
      | r :: l => (s.modAshlar (fun a => { a with deletes := l })).leaseHand r
      | [] =>
        let dirty (u : BitVec 64) : Bool := match s.ashlar.find u with | some e => e.dirty | none => false
        let q := s.ashlar.dirtyQ.dropWhile (fun u => !dirty u)
        let s := s.modAshlar (fun a => { a with dirtyQ := q.drop 1 })
        match q.head?.bind s.ashlar.find with
        | some e => s.leaseHand e.leaseRec
        | none => s)

/-- LEASE_SWEEP (R146): with the queue empty and LEASE_SWEEP = 1 the next dirty entry of table and stash; with none
left the sweep ends. -/
def execLeaseSweep (s : State) : Out :=
  .next (if s.leaseFree && s.ashlar.dirtyQ.isEmpty && s.ashlar.deletes.isEmpty && s.flag F.ASHLAR_STATUS_LEASE_SWEEP then
      match s.ashlar.entries.find? (·.dirty) with
      | some e => s.leaseHand e.leaseRec
      | none => s.setFlag F.ASHLAR_STATUS_LEASE_SWEEP false
    else s)

/-- The lease writer's request leaves the port. -/
def State.leaseUnport (s : State) : State :=
  (s.unport .lease).modAshlar (fun a => { a with leaseOut := none })

/-- The lease writer hears that its record is committed: LEASE_DIRTY is cleared, unless the entry has changed since
(R144, R146, DESIGN CHOICE, log entry 29) or the entry that the record was made of is gone: an entry inserted since for the same sender
has its place in the dirty queue, and none is cleared. -/
def State.leaseDone (s : State) (r : LeaseRec) : State :=
  match s.ashlar.find r.eui with
  | some e =>
    if !r.lease || !e.dirty || s.ashlar.outGone then s
    else if e.leaseRec = r then s.modAshlar (fun a => a.update r.eui (fun e => { e with dirty := false }))
    else s.pushDirty r.eui
  | none => s

/-- The lease writer hears that its record failed: LEASE_ERR is set, and it goes back: into the dirty queue, ahead of the
DELETE records, or to the reclamation that wrote it (R146, R148). -/
def State.leaseBack (s : State) (r : LeaseRec) (fresh : Bool) : State :=
  let s := (s.raiseEvt F.ASHLAR_EVT_LEASE_ERR 5).ashlarEvent 0x83
  if fresh then s.modAshlar (fun a => { a with reclaim := a.reclaim.map (fun p => (p.1, r.eui :: p.2)) })
  else if r.lease then s.pushDirty r.eui
  else s.modAshlar (fun a => { a with deletes := r :: a.deletes })

/-- NVMC writes the lease writer's record, if it is its turn; `fails` of its instances do not read back (R146, R277). With no
free segment the write waits (R148). -/
def State.leaseEnd (s : State) (fails : Nat) : State :=
  match s.ashlar.leaseOut with
  | some r =>
    let ws := copyWords 2 1 r.payload 0
    if !s.nvTurn .lease || (!s.nvFits .lease (threeCopies ws) && (s.segsFree .lease).isEmpty) then s
    else match s.nvRecordWrite .lease ws fails with
      | (.committed, t) => t.leaseUnport.leaseDone r
      | (.verify, t) => t.leaseUnport.leaseBack r s.ashlar.outFresh
      | (.full, _) => s
  | none => s

/-- LEASE_COMMITTED (R146). Whether the first instance read back, or only the further one (R277), is a free value (log entry 2). -/
def execLeaseCommitted (s : State) : Out :=
  let (fails, s) := s.draw 2
  .next (s.leaseEnd fails)

/-- LEASE_WRITE_FAILED (R146, R277): neither instance read back. -/
def execLeaseWriteFailed (s : State) : Out := .next (s.leaseEnd 2)

/-- The sender of a lease record. -/
def Copy.leaseEui (c : Copy) : BitVec 64 :=
  BitVec.ofNat 64 (((wordAt c.payload 0 * 65536 + wordAt c.payload 1) * 65536 + wordAt c.payload 2) * 65536 +
    wordAt c.payload 3)

/-- KIND of a lease record: `true` LEASE. -/
def Copy.isLease (c : Copy) : Bool := bits (wordAt c.payload 4) 15 12 == 1

/-- The lease records of some instances. -/
def leaseRecords (l : List Resolved) : List Copy :=
  l.filterMap (fun i => match i with | .value c => if c.typ = 2 then some c else none | _ => none)

/-- A reclamation starts (R148): with two free segments left, on the oldest segment, with the sender of each of its LEASE
records that is in the table. NVMC reads the segment. -/
def State.reclaimStart (s : State) : State :=
  match s.ashlar.reclaim, s.segsInUse .lease with
  | none, (_, b) :: _ =>
    if 2 < (s.segsFree .lease).length then s
    else
      let live := (leaseRecords (s.instances b)).filterMap (fun c =>
        if c.isLease && (s.ashlar.find c.leaseEui).isSome then some c.leaseEui else none)
      (s.eccNote b (b + 0x10000)).modAshlar (fun a => { a with reclaim := some (b, live) })
  | _, _ => s

/-- The next step of a reclamation (R148): a fresh record of the next sender still in the table is handed to NVMC under R146,
without setting LEASE_DIRTY; with all of them committed NVMC begins to free the segment. -/
def State.reclaimNext (s : State) : State :=
  match s.ashlar.reclaim with
  | none => s
  | some (b, l) =>
    let l := l.dropWhile (fun u => (s.ashlar.find u).isNone)
    match l.head?.bind s.ashlar.find with
    | some e => (s.modAshlar (fun a => { a with reclaim := some (b, l.drop 1) })).leaseHand e.leaseRec true
    | none => (s.modAshlar (fun a => { a with reclaim := none })).modNvm (fun n => { n with freeing := some b })

/-- LEASE_SEGMENT_RECLAIM (R148): one step of the reclamation, as the lease writer's port is free for it. The freeing of the segment
takes two: its header copies are being written to 0xFFFF from the one on, and have been with the next (R276). No reclamation runs
during a restore. In which order the writer takes fresh records and dirty entries is not given: as the commands come (DESIGN
CHOICE, log entry 29). -/
def execLeaseSegmentReclaim (s : State) : Out :=
  .next (match s.nvm.freeing with
    | some b => (s.modNvm (fun n => { n with freeing := none })).freeSeg b
    | none => if s.leaseFree then s.reclaimStart.reclaimNext else s)

/-! ## Enable, restore, rebuild (R149 to R151) -/

/-- A write of ASHLAR_CTRL. -/
def State.ashlarCtrlWrite (s : State) (w : Half) : State :=
  let was := s.flag F.ASHLAR_CTRL_EN
  if w.getLsbD 0 then
    if was then s else (s.setFlag F.ASHLAR_CTRL_EN).setFlag F.ASHLAR_STATUS_RUN
  else
    let s := (s.setFlag F.ASHLAR_CTRL_EN false).setReg A.ASHLAR_STATUS (s.reg A.ASHLAR_STATUS &&& 0x102)
    s.modAshlar (fun a => { a with
      ways := [], stash := [], oldHk := none, dirtyQ := [], deletes := [], wantHk := false, replaced := false
      reclaim := none, outGone := true })

/-- ASHLAR_ENABLE (R149). -/
def execAshlarEnable (s : State) : Out := .next (s.ashlarCtrlWrite 1)

/-- ASHLAR_DISABLE (R149): a write of EN = 0. -/
def execAshlarDisable (s : State) : Out := .next (s.ashlarCtrlWrite 0)

/-- A restore starts (R149); it abandons a rebuild that runs. -/
def State.restoreStart (s : State) : State :=
  if s.flag F.ASHLAR_STATUS_RESTORE || !s.flag F.ASHLAR_CTRL_EN then s
  else
    let s := (s.setFlag F.ASHLAR_STATUS_REBUILD false).setFlag F.ASHLAR_STATUS_RESTORE
    let s := s.setFlag F.ASHLAR_STATUS_HK_WAIT (!s.drbgReady)
    s.modAshlar (fun a => { a with oldHk := none, wantHk := true, replaced := false, reclaim := none })

/-- A write of ASHLAR_CMD: RESTORE first (DESIGN CHOICE, log entry 30: without EN = 1 both are ignored). -/
def State.ashlarCmdWrite (s : State) (w : Half) : State :=
  let s := if w.getLsbD 1 then s.restoreStart else s
  if w.getLsbD 0 && s.flag F.ASHLAR_CTRL_EN then s.rebuildTrigger else s

/-- ASHLAR_CMD_RESTORE (R149). -/
def execAshlarCmdRestore (s : State) : Out := .next (s.ashlarCmdWrite 2)

/-- ASHLAR_CMD_REBUILD (R150). -/
def execAshlarCmdRebuild (s : State) : Out := .next (s.ashlarCmdWrite 1)

/-- HK_DRAW (R126, R149, R150): the DRBG yields the new hash key, after a KEYS command that waits for it (R167). A restore then empties
the table, the stash and the dirty queue. -/
def execHkDraw (s : State) : Out :=
  .next (if s.ashlar.wantHk && (!s.drbgReady || s.keysWantsDrbg) then s.setFlag F.ASHLAR_STATUS_HK_WAIT (!s.drbgReady)
    else if s.ashlar.wantHk then
      let old := s.ashlar.hk
      let (k, s) := s.drbg 16
      let s := s.setFlag F.ASHLAR_STATUS_HK_WAIT false
      if s.flag F.ASHLAR_STATUS_RESTORE then
        (s.modAshlar (fun a => { a with
          hk := k, wantHk := false, ways := [], stash := [], dirtyQ := [], outGone := true })).setFlag
          F.ASHLAR_STATUS_LEASE_SWEEP false
      else s.modAshlar (fun a => { a with hk := k, oldHk := some old, wantHk := false })
    else s)

/-- One record of the log in a restore: a LEASE inserts or replaces the sender's entry, a DELETE removes it (R149). -/
def State.restoreOne (s : State) (c : Copy) : State :=
  let eui := c.leaseEui
  let e : AEntry := {
    eui := eui, valid := true, dirty := true, quarantine := (c.payload.getD 5 0).getLsbD 15
    tenant := BitVec.ofNat 12 (wordAt c.payload 4), epoch := byte (wordAt c.payload 5), heard := byte s.asn
    hwm := BitVec.ofNat 32 (c.mono + 255) }
  match c.isLease, s.ashlar.find eui with
  | true, some _ => s.modAshlar (fun a => a.update eui (fun _ => e))
  | true, none => s.insertEntry e
  | false, _ => s.modAshlar (fun a => a.remove eui)

/-- A queued rebuild runs after the current work (R150). -/
def State.nextRebuild (s : State) : State :=
  if s.flag F.ASHLAR_STATUS_REBUILD_QUEUED then (s.setFlag F.ASHLAR_STATUS_REBUILD_QUEUED false).rebuildTrigger else s

/-- RESTORE_DONE (R149): the lease log has been replayed. -/
def execRestoreDone (s : State) : Out :=
  .next (if s.flag F.ASHLAR_STATUS_RESTORE && !s.ashlar.wantHk then
      let log := s.regionLog .lease
      let s := s.regionRead .lease
      let s := forEach (log.filter (· == .unusable)) s (fun s _ => s.nvSplit)
      let s := forEach (leaseRecords log) s State.restoreOne
      let s := (s.setFlag F.ASHLAR_STATUS_RESTORE false).setFlag F.ASHLAR_STATUS_RESTORED
      let s := (s.setFlag F.ASHLAR_STATUS_LEASE_SWEEP).raiseEvt F.ASHLAR_EVT_RESTORE_DONE 5
      (s.ashlarEvent 0x82).nextRebuild
    else s)

/-- The rebuild visits one way (R150): a valid entry that is in neither of its new-key buckets is inserted; its old way,
where the displacements have not used it, is freed after that (R128). -/
def State.rebuildWay (s : State) (i : Nat) : State :=
  let e := wayAt s.ashlar.ways i
  if e.valid && !(bucketsOf s.ashlar.hk e.eui).contains (i / 4) then
    s.insertEntry e (some i)
  else s

/-- The rebuild visits a stash entry: its old place is freed after the new is written, so at a full stash the entry that
it displaces is lost (R128). The stash count does not rise by it (R129). -/
def State.rebuildStash (s : State) (e : AEntry) : State :=
  let a := s.ashlar
  if a.stash.contains e then
    let (ways, left) := placeEntry a.hk none 16 e (bucketsOf a.hk e.eui) a.ways
    match left with
    | none => s.modAshlar (fun a => { a with ways := ways, stash := a.stash.erase e })
    | some d =>
      if d.eui = e.eui then s.modAshlar (fun a => { a with ways := ways })
      else if 64 ≤ a.stash.length then
        ((s.modAshlar (fun a => { a with ways := ways, stash := a.stash.erase e })).entryGone d.eui).ashlarFull
      else s.modAshlar (fun a => { a with ways := ways, stash := (a.stash ++ [d]).erase e })
  else s

/-- The rebuild visits every bucket, 0 to 16,383 (R150). -/
def State.rebuildTable (s : State) : State := forEach (List.range 65536) s State.rebuildWay

/-- REBUILD_START (R150): under the new key, buckets 0 to 16,383 in order and then the stash are visited. -/
def execRebuildStart (s : State) : Out :=
  .next (if s.flag F.ASHLAR_STATUS_REBUILD && !s.ashlar.wantHk && !s.ashlar.replaced then
      let s := s.rebuildTable
      let s := forEach s.ashlar.stash s State.rebuildStash
      s.modAshlar (fun a => { a with replaced := true })
    else s)

/-- REBUILD_DONE (R151): the old key is discarded. -/
def execRebuildDone (s : State) : Out :=
  .next (if s.flag F.ASHLAR_STATUS_REBUILD && s.ashlar.replaced then
      let s := s.modAshlar (fun a => { a with oldHk := none, replaced := false })
      let s := ((s.setFlag F.ASHLAR_STATUS_REBUILD false).count (A.ASHLAR_CNT 10)).raiseEvt F.ASHLAR_EVT_REBUILD_DONE 5
      (s.ashlarEvent 0x81).nextRebuild
    else s)

/-! ## Entry operations (R152) -/

/-- RESULT codes of ASHLAR_E_RES. -/
abbrev eDone : Nat := 0
abbrev eNotFound : Nat := 1
abbrev eExists : Nat := 2
abbrev eFull : Nat := 3
abbrev eBadOp : Nat := 4
abbrev eBusy : Nat := 5
abbrev eBadArg : Nat := 6
abbrev eNoTenant : Nat := 7

/-- EUI-64 in ASHLAR_E_EUI_0 to 3. -/
def State.opEui (s : State) : BitVec 64 :=
  BitVec.ofNat 64 (((s.regN (A.ASHLAR_E_EUI 0) * 65536 + s.regN (A.ASHLAR_E_EUI 1)) * 65536 +
    s.regN (A.ASHLAR_E_EUI 2)) * 65536 + s.regN (A.ASHLAR_E_EUI 3))

/-- Entry words 4 to 7 (R124). -/
def AEntry.words (e : AEntry) : List Half :=
  [half e.hwm.toNat, half (e.hwm.toNat / 65536),
   half (bit e.valid * 32768 + bit e.pending * 16384 + bit e.quarantine * 8192 + bit e.dirty * 4096 + e.tenant.toNat),
   half (e.heard.toNat * 256 + e.epoch.toNat)]

/-- A change of an entry found. -/
def State.entryChange (s : State) (eui : BitVec 64) (g : AEntry → AEntry) : Nat × State :=
  match s.ashlar.find eui with
  | none => (eNotFound, s)
  | some e =>
    let s := s.modAshlar (fun a => a.update eui g)
    (eDone, if (g e).dirty && !e.dirty then s.pushDirty eui else s)

/-- INSERT: the results in the order in which R152 lists them (DEDUCED, log entry 31). -/
def State.entryInsert (s : State) : Nat × State :=
  let t := s.regN (A.ASHLAR_E_W 2) % 4096
  let ep := s.regN (A.ASHLAR_E_W 3) % 256
  if (s.ashlar.find s.opEui).isSome then (eExists, s)
  else if 64 ≤ s.ashlar.stash.length then (eFull, s.ashlarFull)
  else if !(s.tenant t).usable then (eNoTenant, s)
  else if ep = 0 then (eBadArg, s)
  else
    let e : AEntry := {
      eui := s.opEui, valid := true, dirty := true, tenant := BitVec.ofNat 12 t, epoch := byte ep, heard := byte s.asn
      hwm := BitVec.ofNat 32 (s.regN (A.ASHLAR_E_W 0) + 65536 * s.regN (A.ASHLAR_E_W 1)) }
    (eDone, (s.insertEntry e).pushDirty e.eui)

/-- DELETE one sender and queue its DELETE record. -/
def State.entryDelete (s : State) (eui : BitVec 64) : Nat × State :=
  match s.ashlar.find eui with
  | none => (eNotFound, s)
  | some e => (eDone, (s.entryGone eui).modAshlar (fun a => { (a.remove eui) with deletes := a.deletes ++ [e.deleteRec] }))

/-- The action of an operation code. -/
def State.entryAct (s : State) (op : Nat) : Nat × State :=
  match op with
  | 1 => match s.ashlar.find s.opEui with
    | none => (eNotFound, s)
    | some e => (eDone, forEach (e.words.zipIdx) s (fun s p => s.setReg (A.ASHLAR_E_W p.2) p.1))
  | 2 => s.entryInsert
  | 3 => s.entryDelete s.opEui
  | 4 => s.entryChange s.opEui (fun e => { e with pending := true })
  | 5 => s.entryChange s.opEui (fun e => { e with pending := false })
  | 6 => s.entryChange s.opEui (fun e => { e with quarantine := true, dirty := true })
  | 7 => s.entryChange s.opEui (fun e => { e with quarantine := false, dirty := true })
  | 8 => (eDone, s)
  | _ => (eBadOp, s)

/-- A write of ASHLAR_E_CMD (R152). PURGE goes on in the background. -/
def State.entryOp (s : State) (op : Nat) : State :=
  if s.flag F.ASHLAR_STATUS_CMD_BUSY then s.setFlag F.ASHLAR_STATUS_CMD_ERR
  else
    let s := (s.setFlag F.ASHLAR_STATUS_CMD_BUSY).ensureHk
    let (r, s) := if s.flag F.ASHLAR_STATUS_RESTORE ∧ op ≠ 1 then (eBusy, s) else s.entryAct op
    s.modAshlar (fun a => { a with op := some (if r = eBusy then 0 else op, r) })

/-- ENTRY_OP_READ (R152). -/
def execEntryOpRead (s : State) : Out := .next (s.entryOp 1)

/-- ENTRY_OP_INSERT (R152). -/
def execEntryOpInsert (s : State) : Out := .next (s.entryOp 2)

/-- ENTRY_OP_DELETE (R152). -/
def execEntryOpDelete (s : State) : Out := .next (s.entryOp 3)

/-- ENTRY_OP_SET_PEND (R152). -/
def execEntryOpSetPend (s : State) : Out := .next (s.entryOp 4)

/-- ENTRY_OP_CLR_PEND (R152). -/
def execEntryOpClrPend (s : State) : Out := .next (s.entryOp 5)

/-- ENTRY_OP_SET_QUAR (R152). -/
def execEntryOpSetQuar (s : State) : Out := .next (s.entryOp 6)

/-- ENTRY_OP_CLR_QUAR (R152). -/
def execEntryOpClrQuar (s : State) : Out := .next (s.entryOp 7)

/-- ENTRY_OP_PURGE (R152). -/
def execEntryOpPurge (s : State) : Out := .next (s.entryOp 8)

/-- ENTRY_OP_BADOP (R152): an operation code that the table does not list. -/
def execEntryOpBadop (op : Fin 16) (s : State) : Out :=
  .next (if 1 ≤ op.val ∧ op.val ≤ 8 then s else s.entryOp op)

/-- An operation's result is written (R152). -/
def State.entryFinish (s : State) (r : Nat) : State :=
  let s := s.modAshlar (fun a => { a with op := none })
  let s := (s.setReg A.ASHLAR_E_RES (half r)).setFlag F.ASHLAR_STATUS_CMD_BUSY false
  let s := s.raiseEvt F.ASHLAR_EVT_CMD_DONE 5
  s.complete .entryOp (if r = 0 then stOk else stFail) (if r = 0 then 0 else r)
    (if r = 0 then (List.range 4).map (fun i => s.reg (A.ASHLAR_E_W i)) else [])

/-- ENTRY_OP_DONE (R152). -/
def execEntryOpDone (s : State) : Out :=
  .next (match s.ashlar.op with
    | some (op, r) => if op = 8 then s else s.entryFinish r
    | none => s)

/-- PURGE_DONE (R152): every entry of the tenant in ASHLAR_E_W6 is deleted, with one DELETE record each. The register and the entries are
taken as they stand here, and not as they stood at the write of ASHLAR_E_CMD (DESIGN CHOICE, log entry 107). -/
def execPurgeDone (s : State) : Out :=
  .next (match s.ashlar.op with
    | some (8, r) =>
      let t := s.regN (A.ASHLAR_E_W 2) % 4096
      let s := forEach (s.ashlar.entries.filter (fun e => e.tenant.toNat = t)) s (fun s e => (s.entryDelete e.eui).2)
      s.entryFinish r
    | _ => s)

end Sys2Proof.Machine
end

