-- ==== Sys2Proof/Machine/Store.lean ====
section
/-! DEFINITION. The stores of KEYS: MRAM outside the address map in the fixed layout of chapter 10, the Keystone, and the
entries kept under the store key (R161, R168 to R171, R177, R180, R269 to R273). Where the spec gives no payload layout, entry
number or nonce the model has its own (DESIGN CHOICE, log entry 100). -/
namespace Sys2Proof.Machine

/-! ## The fixed layout (R269 to R273) -/

/-- The entries of the stores, by number: Keystone, life-cycle state, intent, import sequence, transition signature; a slot, its
use lease, its counter lease; a tenant's root. -/
abbrev stKeystone : Nat := 0
abbrev stLife : Nat := 1
abbrev stIntent : Nat := 2
abbrev stSeq : Nat := 3
abbrev stCert : Nat := 4
abbrev stSlot (n : Nat) : Nat := 0x100 + n
abbrev stUses (n : Nat) : Nat := 0x140 + n
abbrev stCtr (n : Nat) : Nat := 0x180 + n
abbrev stRoot (t : Nat) : Nat := 0x1000 + t

/-- Where an entry stands; its three copies are 0x100 octets apart. -/
def storeAt (e : Nat) : Nat := 0x1000000 + 0x400 * e

/-- TYPE of an entry's records (R269 gives KEYS the TYPEs 0x20 to 0x2F). -/
def storeType (e : Nat) : Nat :=
  if e = stKeystone then 0x20 else if e = stLife then 0x24 else if e = stIntent then 0x25 else if e = stSeq then 0x26
  else if e = stCert then 0x27 else if e < 0x140 then 0x21 else if e < 0x180 then 0x22 else if e < 0x1C0 then 0x23 else 0x21

/-- The copies of an entry in their numbered order. -/
def State.storeCopies (s : State) (e : Nat) : List Copy :=
  [0, 1, 2].filterMap (fun k => (s.copyAt (storeAt e + 0x100 * k)).filter (fun c => c.typ = storeType e))

/-- An entry that is not monotonic, resolved. -/
def State.storeGet (s : State) (e : Nat) : Resolved := resolve (s.storeCopies e)

/-- The payload of an entry, none where it is absent or unusable. -/
def State.storeVal (s : State) (e : Nat) : Option (List Half) :=
  match s.storeGet e with | .value c => some c.payload | _ => none

/-- The SEQ of a new write of an entry: one above that of its newest copy. -/
def State.storeSeq (s : State) (e : Nat) : Half :=
  match s.storeGet e with | .value c => half (c.seq + 1) | _ => half (maxOf ((s.storeCopies e).map (·.seq)) + 1)

/-- Rewrite an entry in place with the words of a copy: copies 0, 1 and 2 in that order, the CRC word of each first written as 0xFFFF
(R271). -/
def State.storeOnce (s : State) (e : Nat) (ws : List Half) : State :=
  forEach [0, 1, 2] s (fun s k =>
    let a := storeAt e + 0x100 * k
    (s.nvPut (a + 2 * (ws.length - 1)) [0xFFFF]).nvPut a ws)

/-- A rewrite of an entry whose copies of `n` words do not read back as written: they hold free words (R277, log entry 2). -/
def State.storeBad (s : State) (e n : Nat) : State :=
  forEach [0, 1, 2] s (fun s k =>
    let (l, s) := s.drawOctets (2 * n)
    s.nvPut (storeAt e + 0x100 * k) (packWords l))

/-- NVMC rewrites an entry, `fails` of whose rewrites do not read back: after one it writes the three copies once more, and where that
fails too FAIL is set (R277). -/
def State.storeBy (s : State) (e : Nat) (payload : List Half) (fails : Nat) : State :=
  let ws := copyWords (storeType e) 1 payload (s.storeSeq e)
  if fails = 0 then s.storeOnce e ws
  else if fails = 1 then (s.storeBad e ws.length).storeOnce e ws
  else ((s.storeBad e ws.length).storeBad e ws.length).raiseEvt F.NVMC_EVT_FAIL 15

/-- Rewrite an entry; it reads back. -/
def State.storePut (s : State) (e : Nat) (payload : List Half) : State := s.storeBy e payload 0

/-- Rewrite an entry; whether it reads back at once, at the second try or not is a free value (log entry 2). -/
def State.storeWrite (s : State) (e : Nat) (payload : List Half) : State :=
  let (fails, s) := s.draw 3
  s.storeBy e payload fails

/-- Erase the entries of a range of numbers. -/
def State.storeErase (s : State) (lo hi : Nat) : State := s.nvErase (storeAt lo) (storeAt hi)

/-- Overwrite a range with zeros, then erase it (R180). -/
def State.nvWipe (s : State) (lo hi : Nat) : State := (s.nvFill lo hi 0).nvErase lo hi

/-- The numbers of the entries of a range of which some word is listed. -/
def State.storeListed (s : State) (lo hi : Nat) : List Nat :=
  ((s.mram.map (·.1)).filter (fun a => storeAt lo ≤ a && a < storeAt hi)).foldl
    (fun l a => insertNat ((a - 0x1000000) / 0x400) l) []

/-! ## The ladder (R168 to R170) -/

/-- The Keystone as its copies resolve, none where it is lost (R169). -/
def State.root (s : State) : Option (List Byte) := (s.storeVal stKeystone).map wordOctets

/-- The counter-mode KDF of R170 with `n` blocks of output: i ‖ label ‖ 0x00 ‖ context ‖ L. -/
def kdfN (root label context : List Byte) (n : Nat) : List Byte :=
  (List.range n).flatMap (fun i => cmac root ([byte (i + 1)] ++ label ++ [0x00] ++ context ++ beOctets 2 (128 * n)))

/-- The device EUI-64 as octets, most significant first. -/
def State.euiOctets (s : State) : List Byte := beOctets 8 s.deviceEui

/-- The current life-cycle state (R30). -/
abbrev State.lcState (s : State) : Nat := s.fld F.ID_LIFECYCLE_STATE

/-- The life-cycle state code in the store; BLANK where none has been written (R180). -/
def State.storeLc (s : State) : Nat := match s.storeVal stLife with | some w => wordAt w 0 | none => 0

/-- The target that a valid intent record names (R180). -/
def State.storeIntent (s : State) : Option Nat := (s.storeVal stIntent).map (fun w => wordAt w 0)

/-- The stored import sequence, 0 at the start of each state (R177). -/
def State.importSeq (s : State) : Nat :=
  match s.storeVal stSeq with | some w => wordAt w 0 + 65536 * wordAt w 1 | none => 0

/-- The transition signature r ‖ s (R178). -/
def State.lccert (s : State) : List Byte := ((s.storeVal stCert).map wordOctets).getD []

/-- The store key of the current state, none without a Keystone (R170): label "CZSK". -/
def State.storeKey (s : State) : Option (List Byte) :=
  s.root.map (fun r => kdfN r [0x43, 0x5A, 0x53, 0x4B] (byte s.lcState :: s.euiOctets) 2)

/-! ## Entries of the wrapped-root store (R170) -/

/-- Seal octets under the store key in CCM with M = 16: nonce ‖ c ‖ MIC. How the nonce is made is not given: free octets. -/
def State.seal (s : State) (plain : List Byte) : List Half × State :=
  let (nonce, s) := s.drawOctets 13
  let key := s.storeKey.getD []
  (packWords (nonce ++ ccmCrypt key nonce plain ++ ccmTag key nonce [] plain 16), s)

/-- Open a sealed payload of `n` octets, none where its MIC does not match. -/
def State.unseal (s : State) (n : Nat) (payload : List Half) : Option (List Byte) :=
  match s.storeKey with
  | none => none
  | some key =>
    let o := wordOctets payload
    let nonce := slice o 0 13
    let m := ccmCrypt key nonce (slice o 13 n)
    if ccmTag key nonce [] m 16 = slice o (13 + n) 16 then some m else none

/-- Seal octets into an entry, `fails` of whose rewrites do not read back. -/
def State.storeSealBy (s : State) (e : Nat) (plain : List Byte) (fails : Nat) : State :=
  let (w, s) := s.seal plain
  s.storeBy e w fails

/-- Seal octets into an entry; whether it reads back is a free value (log entry 2). -/
def State.storeSeal (s : State) (e : Nat) (plain : List Byte) : State :=
  let (fails, s) := s.draw 3
  s.storeSealBy e plain fails

/-- The monotonic value of a lease entry: uses granted, or the counter lease (R161). -/
def State.leaseMono (s : State) (c : Copy) : Nat := ((s.unseal 4 c.payload).map beNat).getD 0

/-- A lease entry resolved; 0 where it is absent or unusable. -/
def State.leaseGet (s : State) (e : Nat) : Nat :=
  match resolveBy s.leaseMono (s.storeCopies e) with | .value c => s.leaseMono c | _ => 0

/-- Resolve an entry at start-up: its reads are noted, and an unusable one is declared (R266, R273). -/
def State.storeCheck (s : State) (mono : Copy → Nat) (e : Nat) : State :=
  let s := s.eccNote (storeAt e) (storeAt e + 0x400)
  if resolveBy mono (s.storeCopies e) = .unusable then s.nvSplit else s

/-- The owner of a monotonic entry writes its three copies again where the valid ones differed (R273). -/
def State.leaseMend (s : State) (e : Nat) : State :=
  let s := s.storeCheck s.leaseMono e
  let v := (s.storeCopies e).filter (·.valid)
  match resolveBy s.leaseMono v with
  | .value c => if v.all (fun d => d.words = c.words) then s else s.storeWrite e c.payload
  | _ => s

/-- Octets of a slot's entry: ATTR0, ATTR1, USES, the key padded to 32 octets. -/
def Slot.octets (k : Slot) : List Byte :=
  beOctets 2 k.attr0.toNat ++ beOctets 2 k.attr1.toNat ++ beOctets 4 k.uses ++ (k.key ++ List.replicate (32 - k.key.length) 0)

/-- A slot as its entry holds it, with U = F and C = L after a reset (R161, R174); EMPTY where it has none. -/
def State.storedSlot (s : State) (n : Nat) : Slot :=
  match (s.storeVal (stSlot n)).bind (s.unseal 40) with
  | none => {}
  | some o =>
    let a0 := beNat (slice o 0 2)
    let uses := beNat (slice o 4 4)
    let f := uses - s.leaseGet (stUses n)
    let l := s.leaseGet (stCtr n)
    { attr0 := half a0, attr1 := half (beNat (slice o 2 2)), uses := uses
      key := slice o 8 (if bits a0 15 14 = 1 then 16 else 32), u := f, f := f, c := l, l := l }

/-- Write a COUNT slot's entry; leases of an earlier key in that slot go first. -/
def State.storeSlot (s : State) (n : Nat) (k : Slot) : State :=
  ((s.storeErase (stUses n) (stUses n + 1)).storeErase (stCtr n) (stCtr n + 1)).storeSeal (stSlot n) k.octets

/-- Erase a slot's entry and then its leases. -/
def State.storeDrop (s : State) (n : Nat) : State :=
  ((s.storeErase (stSlot n) (stSlot n + 1)).storeErase (stUses n) (stUses n + 1)).storeErase (stCtr n) (stCtr n + 1)

/-- A tenant's root as its entry holds it. -/
def State.storedRoot (s : State) (t : Nat) : Option (List Byte) := (s.storeVal (stRoot t)).bind (s.unseal 16)

end Sys2Proof.Machine
end

