-- ==== Sys2Proof/Machine/Crypto.lean ====
section
/-! DEFINITION. CRYPTO: the job ring, the checks and the modes (R155 to R162), and the key slots as jobs use them. -/
namespace Sys2Proof.Machine

/-! ## Key slots (R171) -/

/-- A key slot; an EMPTY slot is all zero. -/
def State.slot (s : State) (n : Nat) : Slot := sparseGet (fun _ => {}) s.keys.slots n

/-- Put a slot. -/
def State.setSlot (s : State) (n : Nat) (k : Slot) : State :=
  s.modKeys (fun q => { q with slots := sparseSet (fun _ => {}) q.slots n k })

/-- KIND: 0 EMPTY, 1 AES128, 2 AES256, 3 P256. -/
def Slot.kind (k : Slot) : Nat := bits k.attr0.toNat 15 14
/-- LIFE is COUNT. -/
def Slot.counted (k : Slot) : Bool := k.kind != 0 && !k.attr0.getLsbD 13
/-- NCTR. -/
def Slot.nctr (k : Slot) : Bool := k.attr0.getLsbD 12

/-- The DENIED tests of R159 that do not depend on the use: the master's bit in MASTERS, its world in WORLD, the
current state in LCMASK. -/
def State.slotAdmits (s : State) (k : Slot) (master : Nat) : Bool :=
  let vault := master < 2 || 7 ≤ master
  k.attr1.getLsbD master && k.attr0.getLsbD (if vault then 6 else 7) && k.attr0.getLsbD s.lcState

/-- A use is taken from a slot of the COUNT life: the last one sets U to 0 and the slot goes when its jobs end (R162). -/
def State.takeUse (s : State) (n : Nat) : State :=
  let k := s.slot n
  if k.counted then
    let s := s.setSlot n { k with u := k.u - 1 }
    if k.u ≤ 1 then s.modKeys (fun q => { q with lastUse := q.lastUse ++ [n] }) else s
  else s

/-- A running job holds a slot. -/
def State.slotHeld (s : State) (n : Nat) : Bool := s.crypto.jobs.any (fun j => j.slot = n)

/-- Set a slot to EMPTY and erase its store entry. A lease commit that a waiting job asked for on it is withdrawn, so that
its values never reach a later key of the slot. -/
def State.destroySlot (s : State) (n : Nat) : State :=
  let s := if s.keys.commit.any (·.1 = n) then (s.unport .keys).modKeys (fun q => { q with commit := none }) else s
  ((s.setSlot n {}).storeDrop n).modKeys (fun q => { q with lastUse := q.lastUse.filter (· != n) })

/-- An access session in CHALLENGE to RELEASE holds its root slot (R189). -/
def State.sessionHolds (s : State) (n : Nat) : Bool :=
  2 ≤ s.fld F.ACCESS_STATUS_STATE && s.fld F.ACCESS_STATUS_STATE ≤ 8 && s.access.sess.slot == n

/-- SLOT_LAST_USE_DESTROY (R162): slots whose last use has been taken and whose jobs have ended. -/
def State.lastUseDestroy (s : State) : State :=
  forEach s.keys.lastUse s (fun s n => if s.slotHeld n || s.sessionHolds n then s else s.destroySlot n)

/-- The leases a use or a counter value needs first (R161): the new floor and the new counter lease, none where the
present ones do. -/
def Slot.leaseNeed (k : Slot) (useOne takeCtr : Bool) : Option (Nat × Nat) :=
  let needF := useOne && k.counted && k.u ≤ k.f
  let needL := takeCtr && k.l ≤ k.c
  if needF || needL then
    some (if needF then k.f - 256 else k.f, if needL then min (k.l + 65536) 0xFFFFFFFF else k.l)
  else none

/-- A lease is written to the store, the number of uses granted, USES minus the floor, and the counter lease, each where it rises
(R161); it is in force once committed. `fails` of the rewrites do not read back (R277): of a lease that is not committed LEASE_ERR
tells. -/
def State.leasePut (s : State) (n f l fails : Nat) : Bool × State :=
  let k := s.slot n
  let f := min f k.f
  let l := max l k.l
  let s := if f = k.f then s else s.storeSealBy (stUses n) (beOctets 4 (k.uses - f)) fails
  let s := if l = k.l then s else s.storeSealBy (stCtr n) (beOctets 4 l) fails
  if fails < 2 ∨ (f = k.f ∧ l = k.l) then (true, s.setSlot n { k with f := f, l := l })
  else (false, s.setFlag F.KEYS_STATUS_LEASE_ERR)

/-- A lease that KEYS needs for itself or for ACCESS; how often its rewrites fail is a free value (log entry 2). -/
def State.leaseTake (s : State) (n f l : Nat) : Bool × State :=
  let (fails, s) := s.draw 3
  s.leasePut n f l fails

/-! ## Modes (R158) -/

/-- CBC encryption. -/
def cbcEnc (key : List Byte) : List Byte → List (List Byte) → List Byte
  | _, [] => []
  | iv, b :: l => let c := aesEncrypt key (xorOctets iv b); c ++ cbcEnc key c l

/-- CBC decryption. -/
def cbcDec (key : List Byte) : List Byte → List (List Byte) → List Byte
  | _, [] => []
  | iv, b :: l => xorOctets iv (aesDecrypt key b) ++ cbcDec key b l

/-- CFB-128 encryption. -/
def cfbEnc (key : List Byte) : List Byte → List (List Byte) → List Byte
  | _, [] => []
  | iv, b :: l => let c := xorOctets (aesEncrypt key iv) b; c ++ cfbEnc key c l

/-- CFB-128 decryption. -/
def cfbDec (key : List Byte) : List Byte → List (List Byte) → List Byte
  | _, [] => []
  | iv, b :: l => xorOctets (aesEncrypt key iv) b ++ cfbDec key b l

/-- CTR: the whole 128-bit block counts modulo 2^128. -/
def ctrRun (key : List Byte) : Nat → List (List Byte) → List Byte
  | _, [] => []
  | n, b :: l => xorOctets (aesEncrypt key (beOctets 16 n)) b ++ ctrRun key ((n + 1) % 2 ^ 128) l

/-- The whole blocks of a string, a partial last one included and an empty one not. -/
def segments (l : List Byte) : List (List Byte) := (toBlocks l).filter (fun b => !b.isEmpty)

/-! ## Descriptors (R157) -/

/-- A job descriptor as read from the ring. -/
structure Desc where
  words : List Half
  deriving DecidableEq, Repr

/-- Word `i` of a descriptor. -/
def Desc.w (d : Desc) (i : Nat) : Nat := wordAt d.words i
/-- MODE. -/
def Desc.mode (d : Desc) : Nat := bits (d.w 0) 15 12
/-- NCTR. -/
def Desc.nctr (d : Desc) : Bool := bits (d.w 0) 11 11 = 1
/-- REQ. -/
def Desc.req (d : Desc) : Nat := bits (d.w 0) 9 7
/-- SLOT. -/
def Desc.slot (d : Desc) : Nat := bits (d.w 0) 5 0
/-- SRC. -/
def Desc.src (d : Desc) : Nat := d.w 1 + 65536 * (d.w 2 % 256)
/-- DST. -/
def Desc.dst (d : Desc) : Nat := d.w 3 + 65536 * (d.w 4 % 256)
/-- LEN. -/
def Desc.len (d : Desc) : Nat := d.w 5
/-- The mode is CCM. -/
def Desc.ccm (d : Desc) : Bool := d.mode == 7 || d.mode == 8
/-- ALEN. -/
def Desc.alen (d : Desc) : Nat := d.w 6
/-- CTROFS. -/
def Desc.ctrofs (d : Desc) : Nat := bits (d.w 7) 15 8
/-- M. -/
def Desc.m (d : Desc) : Nat := bits (d.w 7) 4 0
/-- Words 8 to 15 as octets, octet 0 in bits 15 to 8 of word 8. -/
def Desc.iv (d : Desc) : List Byte := wordOctets ((d.words.drop 8).take 8)

/-- STATUS codes of R159. -/
abbrev jOk : Nat := 0
abbrev jBadDesc : Nat := 1
abbrev jNoSlot : Nat := 2
abbrev jDenied : Nat := 3
abbrev jUsesOut : Nat := 4
abbrev jNoCtr : Nat := 5
abbrev jExhausted : Nat := 6
abbrev jMicFail : Nat := 7
abbrev jBusErr : Nat := 8

/-- A descriptor that R159 calls BADDESC, submitted by a Lintel core. -/
def Desc.bad (d : Desc) (submitter : Nat) : Bool :=
  d.mode = 0 || 8 < d.mode || bits (d.w 0) 6 6 != 0 || 256 ≤ d.w 2 || 256 ≤ d.w 4 || bits (d.w 7) 7 5 != 0 ||
    d.req = 7 || (d.req < 2 && d.req != submitter) || ((d.mode = 1 || d.mode = 2) && d.len % 16 != 0) ||
    !([0, 4, 8, 16].contains d.m) || (d.nctr && d.mode != 7) || (d.ctrofs != 0xFF && d.alen < d.ctrofs + 4)

/-- The checks before a job starts, in order (R159): the STATUS of the first that fails. -/
def State.jobCheck (s : State) (d : Desc) (submitter : Nat) : Option Nat :=
  let k := s.slot d.slot
  let useBit := if d.mode ≤ 5 then 8 else 9
  if d.bad submitter then some jBadDesc
  else if k.kind = 0 ∨ k.kind = 3 then some jNoSlot
  else if !(s.slotAdmits k d.req && k.attr0.getLsbD useBit) then some jDenied
  else if d.nctr && !k.nctr then some jNoCtr
  else if k.counted ∧ k.u = 0 then some jUsesOut
  else if d.nctr ∧ k.c = 0xFFFFFFFF then some jExhausted
  else none

/-- Octets that a job reads at SRC and writes at DST. -/
def Desc.sizes (d : Desc) : Nat × Nat :=
  match d.mode with
  | 6 => (d.len, 16)
  | 7 => (d.alen + d.len, d.alen + d.len + d.m)
  | 8 => (d.alen + d.len + d.m, d.alen + d.len)
  | _ => (d.len, d.len)

/-- Put the issued counter in place in an octet string (R158). -/
def putAt (l : List Byte) (i : Nat) (o : List Byte) : List Byte := l.take i ++ o ++ l.drop (i + o.length)

/-- A job's result under a key: the octets of DST, and whether a CCM_DEC tag failed (R158). -/
def Desc.run (d : Desc) (key src : List Byte) (issued : Nat) : List Byte × Bool :=
  let m := src.take d.len
  match d.mode with
  | 1 => (cbcEnc key d.iv (segments m), false)
  | 2 => (cbcDec key d.iv (segments m), false)
  | 3 => (cfbEnc key d.iv (segments m), false)
  | 4 => (cfbDec key d.iv (segments m), false)
  | 5 => (ctrRun key (beNat d.iv) (segments m), false)
  | 6 => (cmac key m, false)
  | 7 =>
    let n0 := slice d.iv 0 13
    let nonce := if d.nctr then putAt n0 8 (beOctets 4 issued) else n0
    let a0 := slice src 0 d.alen
    let a := if d.nctr && d.ctrofs != 0xFF then putAt a0 d.ctrofs (leOctets 4 issued) else a0
    let m := slice src d.alen d.len
    (a ++ ccmCrypt key nonce m ++ ccmTag key nonce a m d.m, false)
  | _ =>
    let nonce := slice d.iv 0 13
    let a := slice src 0 d.alen
    let m := ccmCrypt key nonce (slice src d.alen d.len)
    if ccmTag key nonce a m d.m == slice src (d.alen + d.len) d.m then (a ++ m, false)
    else (a ++ List.replicate d.len 0, true)

/-! ## The ring (R160) -/

/-- Address of a descriptor. -/
def State.descAddr (s : State) (idx : Nat) : Nat := s.latAddr A.CRYPTO_Q_BASE_LO + 48 * (idx % 16)

/-- An AES slice holds a core from the moment its request reaches the head of the queue, whether or not another slice runs, to its
end (R366; R156 says from the request on: DEDUCED, log entry 46, that the head is meant). -/
def State.sliceHolds (s : State) (k : Nat) : Bool :=
  s.assay.running == some ⟨2, k⟩ || (s.assay.queue.take 1).any (fun q => q.1 == ⟨2, k⟩)

/-- The lowest-numbered free core in service: no job, not withdrawn, not held for a slice, not fenced. -/
def State.freeCore (s : State) : Option Nat :=
  [0, 1, 2, 3].find? (fun k => !s.crypto.jobs.any (fun j => j.core = k) && !s.sliceHolds k &&
    !(s.fld F.CRYPTO_STATUS_OUT).testBit k && !(s.fld F.CRYPTO_STATUS_FENCED).testBit k)

/-- A descriptor waits to be started. -/
def State.ringWaits (s : State) : Bool :=
  let n := (s.regN A.CRYPTO_Q_WR + 32 - s.crypto.next) % 32
  s.flag F.CRYPTO_CTRL_EN && !s.crypto.stopPend && n != 0 && n ≤ 16

/-- RD moves past every descriptor whose word 18 is written, in order. -/
def State.advanceRd (s : State) : Nat → State
  | 0 => s
  | n + 1 =>
    let rd := s.regN A.CRYPTO_Q_RD
    if s.crypto.written.contains rd then
      ((s.setReg A.CRYPTO_Q_RD (half ((rd + 1) % 32))).modCrypto (fun c => { c with
        written := c.written.filter (· != rd) })).advanceRd n
    else s

/-- The CIPHER request whose job stands at a ring index is answered (R341): the issued counter and the octets of DST, or
FAIL with STATUS. -/
def Channel.cipherEnd (k : Channel) (idx status : Nat) (head : List Half) (dst : Nat → Nat → List Byte) : Channel :=
  Channel.flush { k with outstanding := k.outstanding.map (fun r => match r.wait, r.resp with
    | .crypto i a n, none =>
      if i = idx then { r with resp := some (if status = jOk then respWords r stOk 0 (head ++ packWords (dst a n))
        else respWords r stFail status []) } else r
    | _, _ => r) }

/-- The job of a fabric frame at a ring index has ended (R345): the frame is secured, or has no key. -/
def Fstage.jobEnd (idx status : Nat) (dst : Nat → Nat → List Byte) : Fstage → Fstage
  | .job i a n => if i = idx then (if status = jOk then .ready (dst a n) else .failed) else .job i a n
  | x => x

/-- Change the stage of every fabric frame on its way out. -/
def Fabric.mapStage (f : Fabric) (g : Fstage → Fstage) : Fabric :=
  { f with queue := f.queue.map (fun m => { m with stage := g m.stage }), hellos := f.hellos.map (fun h => { h with stage := g h.stage }) }

/-- A job ends: words 16 to 23 are written, word 18 last, and RD follows (R157, R160). Words 16 and 17 without an
issued counter are not given: free values (log entry 2). -/
def State.jobWrite (s : State) (idx status : Nat) (issued : Option Nat) (irq : Bool) : State :=
  let (v, s) := match issued with | some c => (c, s) | none => s.draw (2 ^ 32)
  let a := s.descAddr idx
  let s := s.setSramWords (a + 32) [half v, half (v / 65536), half (0x8000 + status), 0, 0, 0, 0, 0]
  let s := (s.modCrypto (fun c => { c with written := c.written ++ [idx] })).advanceRd 16
  let s := forEach allChans s (fun s k => s.modChan k (fun c => c.cipherEnd idx status [half v, half (v / 65536)] s.sramTake))
  let s := s.modFabric (fun f => f.mapStage (Fstage.jobEnd idx status s.sramTake))
  let s := if status = jBusErr then s.raiseEvt F.CRYPTO_EVT_BUSERR 6 else s
  if irq then s.raiseEvt F.CRYPTO_EVT_DONE 6 else s

/-- BUSY holds the cores that run jobs; an ASHLAR operation shows in it on a read. -/
def State.cryptoBusy (s : State) : State :=
  s.setFld F.CRYPTO_STATUS_BUSY (s.crypto.jobs.foldl (fun a j => a ||| 2 ^ j.core) 0)

/-- The octets from an address on that lie in general SRAM, up to `n`. -/
def inside (a n : Nat) : Nat := if a < 0x100000 then 0 else min n (0x300000 - a)

/-- A descriptor that has passed its checks starts: it takes its use and its counter value; its operands are read
(R159; DESIGN CHOICE, log entry 32: read as the job starts). A job that will meet an address outside general SRAM has written a free
number of its octets before that (log entry 2). -/
def State.jobRun (s : State) (d : Desc) (core idx : Nat) : State :=
  let k := s.slot d.slot
  let issued := if d.nctr then some k.c else none
  let s := if d.nctr then s.setSlot d.slot { k with c := k.c + 1 } else s
  let s := (s.takeUse d.slot).count A.CRYPTO_CNT_JOBS
  let (ns, nd) := d.sizes
  let (out, failed) := d.run k.key (s.sramTake d.src ns) (issued.getD 0)
  let wild := !inSram d.src ns || !inSram d.dst nd
  let (cut, s) := s.draw (min (inside d.src ns) (inside d.dst nd) / 16 * 16 + 1)
  let status := if wild then jBusErr else if failed then jMicFail else jOk
  let out := if wild then (if d.mode = 6 then [] else out.take cut) else out
  let j : Job := { core := core, idx := idx, slot := d.slot, irq := bits (d.w 0) 10 10 = 1, status := status
                   dst := d.dst, out := out, issued := issued }
  (s.modCrypto (fun c => { c with jobs := c.jobs ++ [j] })).cryptoBusy

/-- The descriptor to be started next. -/
def State.nextDesc (s : State) : Desc := ⟨s.sramWords (s.descAddr s.crypto.next) 24⟩

/-- The next descriptor is started, or ends with the STATUS of a failed check, or waits for a lease commit (R159 to
R161). -/
def State.jobStart (s : State) : State :=
  match s.freeCore with
  | none => s
  | some core =>
    let idx := s.crypto.next
    let d := s.nextDesc
    let pass (s : State) : State := s.modCrypto (fun c => { c with next := (idx + 1) % 32 })
    match s.jobCheck d (s.crypto.submitter.getD (idx % 16) 0) with
    | some st => (pass s).jobWrite idx st none (bits (d.w 0) 10 10 = 1)
    | none =>
      match (s.slot d.slot).leaseNeed true d.nctr with
      | some (f, l) => s.modKeys (fun q => { q with commit := some (d.slot, f, l) })
      | none => (pass s).jobRun d core idx

/-- Descriptors of a reserved MODE at the head of those to be started end in BADDESC. -/
def State.skipReserved (s : State) : Nat → State
  | 0 => s
  | n + 1 =>
    if s.ringWaits && s.keys.commit.isNone && (s.nextDesc.mode = 0 || 8 < s.nextDesc.mode) && s.freeCore.isSome
    then s.jobStart.skipReserved n else s

/-- A job command: the next descriptor has that MODE. -/
def State.jobCommand (s : State) (mode : Nat) : State :=
  if s.ringWaits && s.keys.commit.isNone && s.nextDesc.mode = mode then s.jobStart.skipReserved 16 else s

/-- JOB_CBC_ENC (R158, R159). -/
def execJobCbcEnc (s : State) : Out := .next (s.jobCommand 1)
/-- JOB_CBC_DEC (R158, R159). -/
def execJobCbcDec (s : State) : Out := .next (s.jobCommand 2)
/-- JOB_CFB_ENC (R158, R159). -/
def execJobCfbEnc (s : State) : Out := .next (s.jobCommand 3)
/-- JOB_CFB_DEC (R158, R159). -/
def execJobCfbDec (s : State) : Out := .next (s.jobCommand 4)
/-- JOB_CTR (R158, R159). -/
def execJobCtr (s : State) : Out := .next (s.jobCommand 5)
/-- JOB_CMAC (R158, R159). -/
def execJobCmac (s : State) : Out := .next (s.jobCommand 6)
/-- JOB_CCM_ENC (R158, R159, R161). -/
def execJobCcmEnc (s : State) : Out := .next (s.jobCommand 7)
/-- JOB_CCM_DEC (R158, R159). -/
def execJobCcmDec (s : State) : Out := .next (s.jobCommand 8)

/-- A write of CRYPTO_CTRL (DESIGN CHOICE, log entry 32: EN reads 1 until a stop takes effect, and a write of 1 withdraws it). -/
def State.cryptoCtrlWrite (s : State) (w : Half) : State :=
  let en := s.flag F.CRYPTO_CTRL_EN
  if w.getLsbD 0 then
    if en then s.modCrypto (fun c => { c with stopPend := false })
    else
      let s := (s.setFlag F.CRYPTO_CTRL_EN).latch [A.CRYPTO_Q_BASE_LO, A.CRYPTO_Q_BASE_HI]
      ((s.setReg A.CRYPTO_Q_WR 0).setReg A.CRYPTO_Q_RD 0).modCrypto (fun c => { c with
        next := 0, written := [], stopPend := false })
  else if !en then s
  else if s.crypto.jobs.isEmpty then s.setFlag F.CRYPTO_CTRL_EN false
  else s.modCrypto (fun c => { c with stopPend := true })

/-- CRYPTO_ENABLE (R160). -/
def execCryptoEnable (s : State) : Out := .next (s.cryptoCtrlWrite 1)

/-- CRYPTO_DISABLE (R160). -/
def execCryptoDisable (s : State) : Out := .next (s.cryptoCtrlWrite 0)

/-- A write of CRYPTO_Q_WR by a Lintel core (R160). -/
def State.queueWrite (s : State) (core : Nat) (w : Half) : State :=
  let old := s.regN A.CRYPTO_Q_WR
  let new := w.toNat % 32
  if 16 < (new + 32 - s.regN A.CRYPTO_Q_RD) % 32 then s.setFlag F.CRYPTO_STATUS_Q_ERR
  else
    let rd := s.regN A.CRYPTO_Q_RD
    let held := (old + 32 - rd) % 32
    let added := (List.range ((new + 32 - rd) % 32 - held)).map (fun i => (rd + held + i) % 16)
    let s := s.setReg A.CRYPTO_Q_WR (half new)
    let s := s.modCrypto (fun c => { c with
      submitter := c.submitter.zipIdx.map (fun p => if added.contains p.2 then core else p.1) })
    s.skipReserved 16

/-- CRYPTO_QUEUE_WRITE (R160). -/
def execCryptoQueueWrite (c : Fin 2) (w : Half) (s : State) : Out := .next (s.queueWrite c w)

/-- CRYPTO_JOB_DONE (R159, R160, R162): the job on AES core `k` ends. -/
def execCryptoJobDone (k : Fin 4) (s : State) : Out :=
  .next (match s.crypto.jobs.find? (fun j => j.core = k.val) with
    | none => s
    | some j =>
      let s := s.modCrypto (fun c => { c with jobs := c.jobs.filter (fun i => i.core != k.val) })
      let s := (s.cryptoBusy.sramPut j.dst j.out).jobWrite j.idx j.status j.issued j.irq
      let s := s.lastUseDestroy
      let s := if s.crypto.stopPend && s.crypto.jobs.isEmpty
        then (s.setFlag F.CRYPTO_CTRL_EN false).modCrypto (fun c => { c with stopPend := false }) else s
      s.skipReserved 16)

/-- The floor or counter lease that a waiting job needs is committed, and the job may start; or `fails` is 2 and the commit fails,
LEASE_ERR and FAIL are set and the job waits for a retry (R161, R277). -/
def State.keysLease (s : State) (fails : Nat) : State :=
  match s.keys.commit with
  | none => s
  | some (n, f, l) =>
    let (done, s) := s.leasePut n f l fails
    (if done then s.modKeys (fun q => { q with commit := none }) else s).unport .keys

/-- NVMC can write for KEYS: it serves KEYS first (R277), so KEYS waits for no more than the record that NVMC is writing for another
source. -/
def State.keysMayWrite (s : State) : Bool := s.nvm.cur.isNone || s.nvTurn .keys

/-- KEYS_LEASE_COMMIT (R161): the commit succeeds, at the first instance or the further one (a free value, log entry 2), or fails. -/
def execKeysLeaseCommit (ok : Bool) (s : State) : Out :=
  .next (if !s.keysMayWrite then s
    else if ok then
      let (again, s) := s.draw 2
      s.keysLease again
    else s.keysLease 2)

end Sys2Proof.Machine
end

