-- ==== Sys2Proof/Machine/Access.lean ====
section
/-! DEFINITION. Enclosure access: the session machine, LF drive and tuning, Plumb, lock-out, lock balls, token tables and
access records (R181 to R201); and the hand-off of a frame by its lane, which brings token frames here (R76, R84). -/
namespace Sys2Proof.Machine

/-! ## The slices of ASSAY (R362) -/

abbrev slLane : Nat := 0x01
abbrev slAes : Nat := 0x02
abbrev slLf : Nat := 0x03
abbrev slAdcRef : Nat := 0x04
abbrev slIqLoop : Nat := 0x05
abbrev slSramMarch : Nat := 0x06
abbrev slLaneModes : Nat := 0x10
abbrev slTxLoop : Nat := 0x11
abbrev slPkeKat : Nat := 0x12
abbrev slMramScan : Nat := 0x13

/-- A slice of a band. -/
def isBandSlice (c : Nat) : Bool := c == slAdcRef || c == slIqLoop || c == slTxLoop

/-- The running slice uses RFE_ISM (R192, R362): a slice of a band with that target. -/
def State.ismSlice (s : State) : Bool := match s.assay.running with
  | some q => isBandSlice q.slice && q.target == 1
  | none => false

/-! ## States and verdicts -/

abbrev acOff : Nat := 0
abbrev acIdle : Nat := 1
abbrev acChallenge : Nat := 2
abbrev acWaitResp : Nat := 3
abbrev acWaitPlumb : Nat := 4
abbrev acPlumb : Nat := 5
abbrev acWaitReport : Nat := 6
abbrev acLog : Nat := 7
abbrev acRelease : Nat := 8

/-- ACCESS_STATUS.STATE. -/
abbrev State.acState (s : State) : Nat := s.fld F.ACCESS_STATUS_STATE
/-- Put ACCESS_STATUS.STATE. -/
abbrev State.setAc (s : State) (st : Nat) : State := s.setFld F.ACCESS_STATUS_STATE st

/-- Verdict codes of R198. -/
abbrev avRelease : Nat := 0x0
abbrev avNotEnrolled : Nat := 0x1
abbrev avRevoked : Nat := 0x2
abbrev avLocked : Nat := 0x3
abbrev avClass : Nat := 0x4
abbrev avNoService : Nat := 0x5
abbrev avNoResp : Nat := 0x6
abbrev avAuth : Nat := 0x7
abbrev avZone : Nat := 0x8
abbrev avTime : Nat := 0x9
abbrev avBit : Nat := 0xA
abbrev avReport : Nat := 0xB
abbrev avNoPlumb : Nat := 0xC
abbrev avAnchorRej : Nat := 0xD
abbrev avAborted : Nat := 0xE
abbrev avLogFail : Nat := 0xF

/-- The verdicts that are failures (R196). -/
def isFailure (v : Nat) : Bool := v == avAuth || v == avZone || v == avReport || v == avBit || v == avTime

/-! ## Schedule and lock balls -/

/-- A schedule event: e returns to 0 and the next burst falls 250 ms on (R186). -/
def State.scheduleReset (s : State) : State := s.modAccess (fun a => { a with since := 0, toBurst := 250 })

/-- Both balls at their locked levels. -/
def State.lockBalls (s : State) : State :=
  (s.modAccess (fun a => { a with lockA := false, lockB := true })).setFlag F.ACCESS_STATUS_RELEASE false

/-- A pulse that is active ends early: REL_CUT is set (R199). -/
def State.cutPulse (s : State) : State :=
  if s.flag F.ACCESS_STATUS_RELEASE then s.lockBalls.setFlag F.ACCESS_STATUS_REL_CUT else s

/-! ## Lock-out (R196, R197) -/

/-- LOCK_SEC. -/
abbrev State.lockSec (s : State) : Nat := s.reg32 A.PLINTH_LOCK_SEC_LO

/-- Words of the RTC tick count, bits 47-32 first. -/
def State.rtcWords (s : State) : List Half := [s.reg A.RTC_2, s.reg A.RTC_1, s.reg A.RTC_0]

/-- An access record is handed over (R201). -/
def State.accessRecord (s : State) (words : List Half) (session : Bool) : State :=
  s.modAccess (fun a => { a with
    records := (if session then a.records.map (fun r => (r.1, false)) else a.records) ++ [(words, session)] })

/-- The payload of an access record (R201): token, KIND, class, version, verdict, RTC, strengths, largest d_k, rounds. -/
def State.recordWords (s : State) (token : BitVec 64) (kind cls ver verdict : Nat) (str : List Byte) (dmax : Half)
    (passed : Nat) : List Half :=
  let t := token.toNat
  [half (t / 2 ^ 48), half (t / 2 ^ 32), half (t / 65536), half t,
   half (kind * 4096 + cls % 4 * 1024 + ver % 16 * 16 + verdict)] ++ s.rtcWords ++ packWords (slice str 0 4) ++
  [dmax, half (s.fld F.PLINTH_LO_STATE_LEVEL * 256 + passed)]

/-- A lock-out starts: LOCKOUT record and event. Its class, version, verdict, strengths and rounds are not given: free
values (log entry 2). -/
def State.lockoutStart (s : State) : State :=
  let (o, s) := s.drawOctets 8
  let w := s.recordWords 0 3 (octAt o 0).toNat (octAt o 1).toNat ((octAt o 2).toNat % 16) (slice o 3 4) 0x8000 (octAt o 7).toNat
  let s := (s.accessRecord w false).raiseEvt F.ACCESS_EVT_LOCKOUT 14
  s.event hostChans 7 0x81 w

/-- Put LOCKED; its mirror ACCESS_STATUS.LOCKED follows it on a read. -/
def State.setLocked (s : State) (b : Bool) : State := s.setFlag F.PLINTH_LO_STATE_LOCKED b

/-- LOCKOUT_FAILURE (R196): a failure is pushed, and may start a lock-out. -/
def State.pushFailure (s : State) : State :=
  let now := s.lockSec
  let s := s.count A.ACCESS_CNT_FAIL
  let ring := (now :: s.plinth.ring).take 8
  let fails := s.fld F.ACCESS_LO_CFG_FAILS
  let oldest := ring.getD (fails - 1) 0
  if fails ≤ ring.length ∧ (now + 2 ^ 32 - oldest) % 2 ^ 32 ≤ s.fld F.ACCESS_LO_CFG_WIN_MIN * 60 then
    let start := s.reg32 A.PLINTH_LO_START_LO
    let level := if (now + 2 ^ 32 - start) % 2 ^ 32 < 86400 then min (s.fld F.PLINTH_LO_STATE_LEVEL + 1) 3 else 0
    let s := s.setReg32 A.PLINTH_LO_START_LO now
    let s := s.setReg32 A.PLINTH_LO_END_LO ((now + s.fld F.ACCESS_LO_CFG_BASE_MIN * 60 * 2 ^ level) % 2 ^ 32)
    let s := ((s.setFld F.PLINTH_LO_STATE_LEVEL level).setFld F.PLINTH_LO_STATE_FAILS 0).setFlag F.PLINTH_LO_STATE_COLD false
    ((s.setLocked true).modPlinth (fun p => { p with ring := [] })).lockoutStart
  else (s.setFld F.PLINTH_LO_STATE_FAILS ring.length).modPlinth (fun p => { p with ring := ring })

/-- LOCK_SEC has reached LO_END: the lock-out ends. -/
def State.lockoutCheck (s : State) : State :=
  if s.flag F.PLINTH_LO_STATE_LOCKED ∧ s.lockSec = s.reg32 A.PLINTH_LO_END_LO
  then (s.setLocked false).setFlag F.PLINTH_LO_STATE_COLD false else s

/-- LOCKOUT_END (R196). -/
def execLockoutEnd (s : State) : Out := .next s.lockoutCheck

/-- LOCK_SEC_TICK (R196). -/
def execLockSecTick (s : State) : Out :=
  .next (if s.plinth.powered then (s.setReg32 A.PLINTH_LOCK_SEC_LO ((s.lockSec + 1) % 2 ^ 32)).lockoutCheck else s)

/-! ## The session's end -/

/-- The slot of a session may be destroyed once the session has ended. -/
def State.sessionOver (s : State) : State := s.lastUseDestroy.scheduleReset

/-- Entry to LOG with a verdict (R182, R196, R201): the failure is pushed, the last-session registers and the record are
written. The largest d_k of a session that measured none is not given: a free value (log entry 2). -/
def State.enterLog (s : State) (v : Nat) : State :=
  let s := (s.modSess (fun x => { x with verdict := some v })).setAc acLog
  let s := if isFailure v then s.pushFailure else s
  let x := s.access.sess
  let s := s.setReg A.ACCESS_LAST_VERDICT (half (v * 4096 + x.cls * 1024 + x.ver))
  let t := x.token.toNat
  let s := forEach (List.range 4) s (fun s i => s.setReg (A.ACCESS_LAST_TOK i) (half (t / 2 ^ (16 * (3 - i)))))
  let s := (s.setReg A.ACCESS_LAST_STR_0 ((packWords x.str).getD 0 0)).setReg A.ACCESS_LAST_STR_1 ((packWords x.str).getD 1 0)
  let (d, s) := match x.dmax with | some d => (half (ofSigned 16 d), s) | none => (0x8000, s)
  let s := s.accessRecord (s.recordWords x.token 1 x.cls x.ver v x.str d x.passed) true
  s.raiseEvt F.ACCESS_EVT_SESSION_END 14

/-- The pins of FEM_I return to the levels of their registers and the gain of the band is restored (R193). -/
def State.plumbRestore (s : State) : State :=
  let s := s.modAccess (fun a => { a with loopBack := false })
  if s.flag (F.RFE_STATUS_READY .ism) then
    (s.modRfe .ism (fun r => { r with femPins := s.femAll .ism 1 })).setGain .ism s.access.savedGain
  else s

/-- A Plumb session that is cut short gives RFE_ISM back: as at its end (DESIGN CHOICE, log entry 35). -/
def State.plumbLeave (s : State) : State :=
  if s.acState = acPlumb then (s.plumbRestore.modRfe .ism (fun r => { r with mutePlumb := false })).syncMute .ism else s

/-- A session in CHALLENGE to RELEASE is aborted (R182): any pulse ends, and RFE_ISM is given back. -/
def State.accessAbort (s : State) : State :=
  let st := s.acState
  if acChallenge ≤ st ∧ st ≤ acRelease then
    s.cutPulse.plumbLeave.enterLog avAborted
  else s

/-- A key slot can serve as access root in the present state (R189). -/
def State.rootUsable (s : State) (n : Nat) : Bool :=
  let k := s.slot n
  k.kind == 1 && k.counted && k.attr0.getLsbD 10 && k.attr0.getLsbD 9 && k.attr1.getLsbD 8 && k.attr0.getLsbD 6 &&
    k.attr0.getLsbD s.lcState

/-- The root slot of the session, which was usable or not before, may have become unusable (R182). -/
def State.accessRootCheck (s : State) (was : Bool) : State :=
  if was && !s.rootUsable s.access.sess.slot then s.accessAbort else s

/-! ## Keys and telegram (R187, R190, R191) -/

/-- A slice has isolated an LF driver (R368). -/
def State.lfSlice (s : State) (n : Nat) : Bool := s.assay.isolated && s.assay.running == some ⟨3, n⟩

/-- A driver is excluded (R184, R368). -/
def State.lfExcluded (s : State) (n : Nat) : Bool :=
  s.lfSlice n || !(s.fld F.LF_CTRL_EN).testBit n || s.flag F.LF_STATUS_VLF_LOW || (s.fld F.LF_STATUS_OPEN).testBit n ||
    (s.fld F.LF_STATUS_SHORT).testBit n

/-- The agreed version, none where there is no common one (R191). -/
def agreedVersion (vmin vmax : Nat) : Option Nat :=
  let v := min vmax 2
  if max vmin 1 ≤ v then some v else none

/-- Checks 1 to 6 (R198): the verdict of the first that fails, or the class and the agreed version. -/
def State.knockChecks (s : State) (root : Nat) (token : BitVec 64) (offered vmin vmax : Nat) : Nat ⊕ (Nat × Nat) :=
  if (s.lcState ≠ 1 ∧ s.lcState ≠ 2) ∨ !s.rootUsable root ∨ !s.flag F.ACCESS_STATUS_TBL_OK ∨
      !(s.rfe .ism).enabled ∨ s.lfExcluded (s.fld F.LF_CTRL_DATA_ANT) then .inl avNoService
  else if s.flag F.PLINTH_LO_STATE_LOCKED then .inl avLocked
  else if s.access.revoked.contains token then .inl avRevoked
  else match s.access.enrol.lookup token with
    | none => .inl avNotEnrolled
    | some c => match agreedVersion vmin vmax with
      | none => .inl avClass
      | some v =>
        if !offered.testBit (c - 1) ∨ (c = 2 ∧ v = 1) then .inl avClass else .inr (c, v)

/-- The token key K (R190). -/
def tokenKey (root : List Byte) (cls : Nat) (token : BitVec 64) : List Byte :=
  kdf root ([0x43, 0x5A, 0x54, if cls = 1 then 0x53 else 0x4D] ++ beOctets 8 token.toNat) []

/-- N_T as the formulas take it: zeros for Class S. -/
def Session.ntOf (x : Session) : List Byte := if x.cls = 1 then List.replicate 16 0 else x.nt

/-- The string common to P_A and P_T (R190). -/
def State.pairString (s : State) (x : Session) : List Byte :=
  beOctets 2 x.session ++ beOctets 8 s.deviceEui ++ beOctets 8 x.token.toNat ++ x.ntOf ++ x.na

/-- P_A, for Class M. -/
def State.pA (s : State) (x : Session) : List Byte := cmac x.k (0x41 :: s.pairString x)

/-- P_T. -/
def State.pT (s : State) (x : Session) : List Byte := cmac x.k (0x54 :: s.pairString x ++ x.str)

/-- K_P. -/
def Session.kP (x : Session) : List Byte := cmac x.k (0x50 :: beOctets 2 x.session ++ x.ntOf ++ x.na)

/-- The response bits R0 and R1. -/
def Session.respBits (x : Session) : Nat × Nat :=
  let b := beNat (cmac x.kP (0x42 :: beOctets 2 x.session))
  (bits b 127 96, bits b 95 64)

/-- MAC_R over the phases of a REPORT. -/
def Session.macR (x : Session) (phases : List Byte) : List Byte := cmac x.kP (0x52 :: beOctets 2 x.session ++ phases)

/-- The preamble and the sync word of an LF telegram (R187). -/
def lfSync : List Byte := [0xAA, 0xAA, 0x96, 0xC3]

/-- The octets of the CHALLENGE (R187), those of the preamble and the sync word first. -/
def State.challenge (s : State) (x : Session) (pch : Nat) : List Byte :=
  let body := [if x.cls = 1 then 38 else 54, 0x81, byte x.ver] ++ beOctets 2 x.session ++ beOctets 8 s.deviceEui ++
    beOctets 8 x.token.toNat ++ [byte x.cls, byte pch] ++ x.na ++ (if x.cls = 1 then [] else s.pA x)
  lfSync ++ body ++ beOctets 2 (crc16 0xFFFF body)

/-! ## Frames of the token (R183, R188) -/

/-- The session's end at a frame or a deadline: LOG with a verdict. -/
abbrev State.fail (s : State) (v : Nat) : State := s.enterLog v

/-- A KNOCK that fails a knock-stage check; a REVOKED one is logged, its class and version free (log entry 2). -/
def State.knockRefused (s : State) (token : BitVec 64) (v : Nat) : State :=
  let s := (s.count A.ACCESS_CNT_REFUSED).raiseEvt F.ACCESS_EVT_KNOCK_REF 14
  if v = avRevoked then
    let (c, s) := s.draw 4
    let (n, s) := s.draw 16
    s.accessRecord (s.recordWords token 2 c n v [] 0x8000 0) false
  else s

/-- A KNOCK that finds ACCESS in IDLE and no tuning (R182, R189): the checks 1 to 6, one use of the root slot, SESSION and
N_A from the DRBG. A use that cannot be taken, and a DRBG that gives no output, count as NOSERVICE (DESIGN CHOICE, log entry 35). -/
def State.knockTake (s : State) (p : List Byte) : State :=
  let token := BitVec.ofNat 64 (beNat (slice p 6 8))
  let root := s.fld F.ACCESS_CTRL_ROOT
  match s.knockChecks root token (octAt p 14).toNat (octAt p 15).toNat (octAt p 16).toNat with
  | .inl v => s.knockRefused token v
  | .inr (c, v) =>
    if (s.slot root).u = 0 ∨ !s.drbgReady then s.knockRefused token avNoService
    else
      let (ok, s) := match (s.slot root).leaseNeed true false with | some (f, l) => s.leaseTake root f l | none => (true, s)
      if !ok then s.knockRefused token avNoService
      else
        let key := (s.slot root).key
        let s := s.takeUse root
        let (r, s) := s.drbg 18
        let x : Session := { slot := root, token := token, cls := c, ver := v, session := beNat (r.take 2), na := r.drop 2
                             nt := slice p 17 16, k := tokenKey key c token, offered := (octAt p 14).toNat
                             vmin := (octAt p 15).toNat, vmax := (octAt p 16).toNat }
        (s.modAccess (fun a => { a with
          sess := x, tK := s.hft, telegram := s.challenge x (s.fld F.ACCESS_PCH_PCH), rounds := [], chal := 0 })).setAc acChallenge

/-- A KNOCK (R182, R183, R185, R186). -/
def State.knock (s : State) (p : List Byte) : State :=
  let s := (s.count A.ACCESS_CNT_KNOCK).scheduleReset
  if s.acState ≠ acIdle then s.count A.ACCESS_CNT_BUSY
  else if s.access.tuning ≠ 0 ∨ (List.range 4).any s.lfSlice then s.modAccess (fun a => { a with waitKnock := a.waitKnock ++ [p] })
  else s.knockTake p

/-- The KNOCKs that have waited for tuning or for an LF slice are taken (R185, R368). -/
def State.takeWaiting (s : State) : State :=
  let wait := s.access.waitKnock
  forEach wait (s.modAccess (fun a => { a with waitKnock := [] })) (fun s p =>
    if s.acState = acIdle then s.knockTake p else s.count A.ACCESS_CNT_BUSY)

/-- A RESPONSE of the session (R182): checks 7 and 8. -/
def State.response (s : State) (p : List Byte) : State :=
  let s := s.modSess (fun x => { x with str := slice p 22 4 })
  let x := s.access.sess
  let zoneOk := (List.range 4).all (fun i => s.fld (F.ACCESS_ZONE_ZMIN i) ≤ (octAt x.str i).toNat &&
    (octAt x.str i).toNat ≤ s.fld (F.ACCESS_ZONE_ZMAX i))
  if slice p 26 16 ≠ s.pT x then s.fail avAuth
  else if !zoneOk then s.fail avZone
  else (s.modAccess (fun a => { a with tReq := s.hft })).setAc acWaitPlumb

/-- The distance figure of a round in quarters of a nanosecond (R194), from the phases the token reports. A half rounds
away from zero (DESIGN CHOICE, log entry 36). -/
def roundDist (r : Round) (pt1 pt2 : Nat) (cal : Int) : Int :=
  let u : Int := ((r.pa1 + 4 * pt1 : Nat) - (r.pa2 + 4 * pt2 : Nat) : Int) % 1024
  let n := divRound (r.coarse * 128 - u * 125) 128000
  divRound (250 * u + 1024 * (250 * n - cal)) 1024

/-- Rounds 0 to 31 of a session; a round that was not measured counts as one with no reply. -/
def Access.round (a : Access) (k : Nat) : Round := a.rounds.getD k ⟨0, 0, 0, false, false⟩

/-- The distance figures of the rounds that had a reply. -/
def State.distances (s : State) (phases : List Byte) : List (Nat × Int) :=
  let cal := toSigned 16 (s.regN A.PLUMB_CAL_INT) + toSigned 16 (s.eff A.PLUMB_CAL_BOARD).toNat
  (List.range 32).filterMap (fun k =>
    let r := s.access.round k
    if r.detected then some (k, roundDist r (octAt phases (2 * k)).toNat (octAt phases (2 * k + 1)).toNat cal) else none)

/-- The response bit of a round is the expected one (R194); a round with no reply has none. -/
def State.roundBitOk (s : State) (k : Nat) : Bool :=
  let r := s.access.round k
  let (r0, r1) := s.access.sess.respBits
  !r.detected || r.bit == (if s.access.chal.getLsbD (31 - k) then r1 else r0).testBit (31 - k)

/-- A distance lies within the limits of the session. -/
def State.distOk (s : State) (d : Int) : Bool :=
  -(s.effFld F.PLUMB_LIMIT_EARLY : Int) ≤ d && d ≤ (s.effFld F.PLUMB_LIMIT_LATE : Int)

/-- A 16-bit distance, or a free value where no round had a reply (log entry 2). -/
def State.distWord (s : State) (d : Option Int) : Half × State :=
  match d with
  | some d => (half (ofSigned 16 (clampInt (-32768) 32767 d)), s)
  | none => let (n, s) := s.draw 65536; (half n, s)

/-- The decision after a Plumb session (R194, R198): checks 10 to 12 and 14, with the report if one came. -/
def State.plumbDecide (s : State) (report : Option (List Byte)) : State :=
  let x := s.access.sess
  let phases := match report with | some p => slice p 14 64 | none => []
  let macOk := match report with | some p => slice p 78 16 == x.macR phases | none => false
  let ds := if report.isSome then s.distances phases else []
  let bitsOk := (List.range 32).all s.roundBitOk
  let timeOk := ds.length == 32 && ds.all (fun p => s.distOk p.2)
  let ok := (ds.filter (fun p => s.distOk p.2 && s.roundBitOk p.1)).length
  let hi := ds.foldl (fun m p => match m with | none => some p.2 | some v => some (max v p.2)) none
  let lo := ds.foldl (fun m p => match m with | none => some p.2 | some v => some (min v p.2)) none
  let (wh, s) := s.distWord hi
  let (wl, s) := s.distWord lo
  let s := (s.setReg A.PLUMB_DMAX wh).setReg A.PLUMB_DMIN wl
  let s := s.setReg A.PLUMB_RES (half (bit (macOk && ok == 32) * 0x8000 + bit (!bitsOk) * 0x4000 + bit (!macOk) * 0x2000 + ok))
  let s := s.modSess (fun x => { x with dmax := some (toSigned 16 wh.toNat), passed := ok })
  if !macOk then s.fail avReport
  else if !bitsOk then s.fail avBit
  else if !timeOk then s.fail avTime
  else match s.knockChecks x.slot x.token x.offered x.vmin x.vmax with
    | .inl v => s.fail v
    | .inr _ => s.fail avRelease

/-- A frame handed to ACCESS (R183, R188): its type, length, session and token decide. -/
def State.accessFrame (s : State) (p : List Byte) : State :=
  let typ := (octAt p 2).toNat
  let x := s.access.sess
  let mine := beNat (slice p 4 2) = x.session ∧ BitVec.ofNat 64 (beNat (slice p 6 8)) = x.token
  if typ = 1 ∧ p.length = 35 then s.knock p
  else if typ = 2 ∧ p.length = 44 ∧ s.acState = acWaitResp ∧ mine then s.response p
  else if typ = 3 ∧ p.length = 96 ∧ s.acState = acWaitReport ∧ mine then s.plumbDecide (some p)
  else if typ = 4 ∧ p.length = 24 ∧ s.acState = acWaitResp ∧ mine then s.fail avAnchorRej
  else s.count A.ACCESS_CNT_STRAY

/-- LANE_HANDOFF (R76, R84): a lane hands its frame off; a knock-watch lane hands a token frame to ACCESS. -/
def execLaneHandoff (n : Fin 64) (rssi : Half) (snr : Int) (err : Fin 5) (s : State) : Out :=
  .next (match s.laneFrame n with
    | some f =>
      if s.laneState n = lanePayload ∧ f.octets.length = f.len then
        let tok := s.knockFrame f
        let s := s.handoffWhole n f rssi snr err
        if tok then s.accessFrame f.octets else s
      else s
    | none => s)

/-! ## Enabling (R182, R186) -/

/-- A write of ACCESS_CTRL (R182). -/
def State.accessCtrlWrite (s : State) (w : Half) : State :=
  let was := s.flag F.ACCESS_CTRL_EN
  let s := s.plainWrite A.ACCESS_CTRL w
  let now := s.flag F.ACCESS_CTRL_EN
  if now && !was then (s.setAc acIdle).scheduleReset
  else if !now && was then
    let s := s.cutPulse.plumbLeave
    let s := s.modAccess (fun a => { a with sess := {}, waitKnock := [], rounds := [], records := a.records.map (fun r => (r.1, false)) })
    (s.setAc acOff).lastUseDestroy
  else s

/-- ACCESS_ENABLE (R182). -/
def execAccessEnable (root : Fin 64) (s : State) : Out := .next (s.accessCtrlWrite (half (root.val * 256 + 1)))

/-- ACCESS_DISABLE (R182). -/
def execAccessDisable (root : Fin 64) (s : State) : Out := .next (s.accessCtrlWrite (half (root.val * 256)))

/-! ## Challenge and response (R182, R187) -/

/-- Ticks of the telegram and its four slots. -/
def Session.telegramTicks (x : Session) : Nat := us (if x.cls = 1 then 92160 else 124928) + us 4000

/-- LF_TELEGRAM_START (R187): the octets are sent on the antenna of LF_CTRL.DATA_ANT; a driver that is excluded is silent
(R184). -/
def execLfTelegramStart (s : State) : Out :=
  .next (if s.acState = acChallenge ∧ s.access.burst = none then
    let s := s.passTo (s.access.tK + us 1000)
    let ant := s.fld F.LF_CTRL_DATA_ANT
    let sent := if s.lfExcluded ant then none else some (ant, s.access.telegram)
    (s.modAccess (fun a => { a with burst := some true, offDrv := 0, lfSent := sent })).setFlag F.LF_STATUS_BUSY
  else s)

/-- CHALLENGE_END (R182): t_L. -/
def execChallengeEnd (s : State) : Out :=
  .next (if s.acState = acChallenge then
    let t := s.access.tK + us 1000 + s.access.sess.telegramTicks
    ((s.passTo t).modAccess (fun a => { a with tL := t })).setAc acWaitResp
  else s)

/-- RESPONSE_TIMEOUT (R182). -/
def execResponseTimeout (s : State) : Out :=
  .next (if s.acState = acWaitResp then (s.passTo (s.access.tL + us 20000)).fail avNoResp else s)

/-! ## Plumb (R192, R193) -/

/-- A Plumb session may start (R192). -/
def State.plumbMayStart (s : State) : Bool :=
  s.acState == acWaitPlumb && s.flag (F.RFE_STATUS_READY .ism) && !s.flag (F.RFE_STATUS_TX_ACTIVE .ism) && !s.muted .ism &&
  (match s.access.lastIsm with | some t => t + us 41 ≤ s.hft | none => true) && (s.rfe .ism).cal.isNone &&
  !(s.rfe .ism).muteAssay && !s.ismSlice && s.windowFor 240

/-- PLUMB_SESSION_START (R192, R193): t_PS; the output ball is disconnected and CAL_INT measured over the internal path. -/
def execPlumbSessionStart (calInt : Half) (s : State) : Out :=
  .next (if s.plumbMayStart then
    let s := s.commit [A.PLUMB_LIMIT, A.PLUMB_CAL_BOARD, A.PLUMB_FEM, A.PLUMB_TXLVL]
    let (c, s) := s.drbg 4
    let s := s.modAccess (fun a => { a with tPs := s.hft, chal := BitVec.ofNat 32 (beNat c), rounds := [], loopBack := true, pulse := none
                                            savedGain := s.fld (F.RFE_GAIN_GAIN_IDX .ism) })
    let s := s.modRfe .ism (fun r => { r with mutePlumb := true, femPins := BitVec.ofNat 6 (s.effFld F.PLUMB_FEM_PRX) })
    let s := ((s.syncMute .ism).setReg A.PLUMB_CAL_INT calInt).count A.PLUMB_CNT_SESS
    s.setAc acPlumb
  else s)

/-- PLUMB_REQUEST_TIMEOUT (R182). -/
def execPlumbRequestTimeout (s : State) : Out :=
  .next (if s.acState = acWaitPlumb then (s.passTo (s.access.tReq + us 500000)).fail avNoPlumb else s)

/-- The pins of FEM_I. -/
def State.ismPins (s : State) (w : Nat) : State := s.modRfe .ism (fun r => { r with femPins := BitVec.ofNat 6 w })

/-- The pulse of round `k` (R193): the pins, the two tones and their total level; the second half inverts where c_k is 1. -/
def State.plumbPulse (s : State) (k : Nat) : Pulse :=
  let f := 2400 + s.fld F.ACCESS_PCH_PCH
  { pins := BitVec.ofNat 6 (s.effFld F.PLUMB_FEM_PTX), f1 := f - 8, f2 := f + 8, level := s.effFld F.PLUMB_TXLVL_TOTAL
    invert := s.access.chal.getLsbD (31 - k) }

/-- PLUMB_ROUND (R193, R194): the output ball is connected; at t_Rk the pins take PTX and the pulse is sent; they take PRX by
t_Rk + 0.75 µs. Then what is measured of the reply: the arrival in 1/16 ns from t_Rk + 1 µs, the phases in 1/1,024 turn, the
response bit, and whether a reply was detected. Bit 31 - k of the challenge drawn is c_k, as of the response bits (DEDUCED from
R190, DESIGN CHOICE, log entry 35). -/
def execPlumbRound (coarse : Int) (pa1 pa2 : Fin 1024) (b detected : Bool) (s : State) : Out :=
  let k := s.access.rounds.length
  .next (if s.acState = acPlumb ∧ k < 32 then
    let t := s.access.tPs + us 40 + us 4 * k
    let p := s.plumbPulse k
    let s := ((s.passTo t).ismPins p.pins.toNat).modAccess (fun a => { a with loopBack := false, pulse := some p })
    let s := (s.passTo (t + 36)).ismPins (s.effFld F.PLUMB_FEM_PRX)
    (s.passTo (t + 120)).modAccess (fun a => { a with rounds := a.rounds ++ [⟨coarse, pa1, pa2, b, detected⟩] })
  else s)

/-- PLUMB_PINS_RESTORE (R193). -/
def execPlumbPinsRestore (s : State) : Out :=
  .next (if s.acState = acPlumb then
    (s.passTo (s.access.tPs + us 168)).plumbRestore
  else s)

/-- PLUMB_END (R193): the band is unmuted. -/
def execPlumbEnd (s : State) : Out :=
  .next (if s.acState = acPlumb then
    (((s.passTo (s.access.tPs + us 240)).modRfe .ism (fun r => { r with mutePlumb := false })).syncMute .ism).setAc acWaitReport
  else s)

/-- REPORT_TIMEOUT (R182). -/
def execReportTimeout (s : State) : Out :=
  .next (if s.acState = acWaitReport then (s.passTo (s.access.tPs + us 168 + us 20000)).plumbDecide none else s)

/-! ## The record and the release (R182, R199, R201) -/

/-- NVMC writes and reports an access record (R182), the oldest one handed over; `fails` of its instances do not read back. -/
def State.accessLogged (s : State) (fails : Nat) : State :=
  let ok : Bool := decide (fails < 2)
  match s.access.records with
  | [] => s
  | (w, session) :: rest =>
    let s := (s.modAccess (fun a => { a with records := rest }))
    let s := ((s.nvRecordWrite .evt (copyWords 5 1 w 0) fails).2).unport .access
    let s := if ok then s else s.setFlag F.ACCESS_STATUS_LOG_ERR
    let s := if bits (wordAt w 4) 15 12 = 1 then s.event hostChans 7 0x80 w else s
    if session ∧ s.acState = acLog then
      if ok ∧ s.access.sess.verdict = some avRelease then
        let t := s.hft + us (1000 * s.fld F.ACCESS_REL_PULSE)
        let s := (s.modAccess (fun a => { a with lockA := true, lockB := false, relEnd := t })).setFlag F.ACCESS_STATUS_RELEASE
        let s := (s.raiseEvt F.ACCESS_EVT_RELEASE 14).count A.ACCESS_CNT_RELEASE
        (s.setAc acRelease).lastUseDestroy
      else
        let s := if !ok ∧ s.access.sess.verdict = some avRelease then
            (s.modSess (fun x => { x with verdict := some avLogFail })).setFld F.ACCESS_LAST_VERDICT_VERDICT avLogFail
          else s
        (s.setAc acIdle).sessionOver
    else s

/-- ACCESS_LOG_COMMITTED (R182): the record waits for no more than the records that NVMC serves first (R277). -/
def execAccessLogCommitted (ok : Bool) (s : State) : Out :=
  .next (if s.nvm.cur.isNone || s.nvTurn .access then s.accessLogged (if ok then 0 else 2) else s)

/-- The pulse is over: IDLE. -/
def State.releaseEnd (s : State) : State := (s.setAc acIdle).sessionOver

/-- RELEASE_PULSE_END (R199): PULSE ms after the start; a change of PULSE applies from the next pulse (DESIGN CHOICE, log
entry 35). -/
def execReleasePulseEnd (s : State) : Out :=
  .next (if s.flag F.ACCESS_STATUS_RELEASE then (s.passTo s.access.relEnd).lockBalls.releaseEnd else s)

/-- The balls' domain turns off: a pulse that is active ends early (R199). -/
def State.radioIoOff (s : State) : State := if s.flag F.ACCESS_STATUS_RELEASE then s.cutPulse.releaseEnd else s

/-- LOCK_READBACK_FAULT (R199): a pulse that is active ends early. -/
def execLockReadbackFault (s : State) : Out :=
  let s := s.setFlag F.ACCESS_STATUS_LOCK_FAULT
  .next (if s.flag F.ACCESS_STATUS_RELEASE then s.cutPulse.releaseEnd else s.lockBalls)

/-! ## LF drive and tuning (R184, R185) -/

/-- A driver takes part in the burst in progress. -/
def State.driverIn (s : State) (n : Nat) : Bool :=
  s.access.burst.isSome && !s.lfExcluded n && !s.access.offDrv.getLsbD n

/-- A fault bit of a driver, and the event LF_FAULT (R342). -/
def State.lfFault (s : State) (f : Fld) (n : Nat) : State :=
  let s := s.setFld f (s.fld f ||| 2 ^ n)
  s.event hostChans 7 0x82 [s.reg A.LF_STATUS]

/-- LF_OVERCURRENT (R184). -/
def execLfOvercurrent (n : Fin 4) (s : State) : Out :=
  .next (if s.driverIn n then
    (s.modAccess (fun a => { a with offDrv := a.offDrv ||| BitVec.ofNat 4 (2 ^ n.val) })).lfFault F.LF_STATUS_SHORT n
  else s)

/-- LF_OPEN_CHECK (R184): the peak measured 100 µs into the burst. -/
def execLfOpenCheck (n : Fin 4) (peak : Byte) (s : State) : Out :=
  .next (if s.driverIn n ∧ 4 * peak.toNat < s.fld (F.LF_ISET_ISET n) then s.lfFault F.LF_STATUS_OPEN n else s)

/-- LF_BURST_END (R184): the peaks of the burst. -/
def execLfBurstEnd (peakA peakB peakC peakD : Byte) (s : State) : Out :=
  .next (if s.access.burst.isSome then
    let s := forEach [(0, peakA), (1, peakB), (2, peakC), (3, peakD)] s (fun s (p : Nat × Byte) =>
      s.setFld (F.LF_IPK_PEAK p.1) p.2.toNat)
    (s.modAccess (fun a => { a with burst := none, offDrv := 0 })).setFlag F.LF_STATUS_BUSY false
  else s)

/-- VLF_LOW_CHANGE (R184). -/
def execVlfLowChange (low : Bool) (s : State) : Out := .next (s.setFlag F.LF_STATUS_VLF_LOW low)

/-- A write of LF_CMD (R185). -/
def State.lfCmdWrite (s : State) (w : Half) : State :=
  s.modAccess (fun a => { a with tuneReq := a.tuneReq ||| BitVec.ofNat 4 w.toNat })

/-- LF_TUNE_REQUEST (R185). -/
def execLfTuneRequest (mask : BitVec 4) (s : State) : Out := .next (s.lfCmdWrite (half mask.toNat))

/-- LF_TUNE_START (R185). -/
def execLfTuneStart (s : State) : Out :=
  .next (if s.access.tuneReq ≠ 0 ∧ s.access.tuning = 0 ∧ s.access.burst = none ∧ s.acState ≠ acChallenge ∧
      !(List.range 4).any s.lfSlice then
    (s.modAccess (fun a => { a with tuning := a.tuneReq, tuneReq := 0 })).setFlag F.LF_STATUS_TUNE_BUSY
  else s)

/-- A tuned driver: the best code, or OPEN where no code reached ISET/4. -/
def State.tuneOne (s : State) (n : Nat) (code peak : Nat) : State :=
  if s.access.tuning.getLsbD n then
    if 4 * peak < s.fld (F.LF_ISET_ISET n) then s.lfFault F.LF_STATUS_OPEN n else s.setFld (F.LF_TUNE_CODE n) code
  else s

/-- LF_TUNE_DONE (R185): per driver, the code with the highest current and that current in 6 mA units. Waiting KNOCKs are
taken. -/
def execLfTuneDone (a b c d : Fin 64 × Byte) (s : State) : Out :=
  .next (if s.access.tuning ≠ 0 then
    let s := forEach [(0, a), (1, b), (2, c), (3, d)] s (fun s (p : Nat × (Fin 64 × Byte)) => s.tuneOne p.1 p.2.1 p.2.2.toNat)
    let s := (s.modAccess (fun a => { a with tuning := 0 })).setFlag F.LF_STATUS_TUNE_BUSY false
    (s.complete .tune stOk 0 (s.reg A.LF_STATUS :: (List.range 4).map (fun n => s.reg (A.LF_TUNE n)))).takeWaiting
  else s)

/-- The period that follows a burst (R186), in ms, by the time since the last schedule event in ms. -/
def pollPeriod (e : Nat) : Nat :=
  if e < 120000 then 250 else if e < 1800000 then 1000 else if e < 86400000 then 4000 else 16000

/-- POLL_BURST (R186): the burst that is due is sent, or dropped outside IDLE or without XO_HF; while tuning runs it is
deferred. In NAP and SHELF the schedule is stopped (R288). -/
def execPollBurst (s : State) : Out :=
  .next (if s.access.tuning ≠ 0 ∨ !s.alive then s
    else
      let e := s.access.since + s.access.toBurst
      let s := s.modAccess (fun a => { a with since := e, toBurst := pollPeriod e })
      if s.acState = acIdle ∧ s.sys.xoRun ∧ s.access.burst = none then
        (s.modAccess (fun a => { a with burst := some false, offDrv := 0 })).setFlag F.LF_STATUS_BUSY
      else s)

/-! ## Token tables (R200) -/

/-- A write of ACCESS_TBL_CMD. -/
def State.tblCmdWrite (s : State) (w : Half) : State :=
  if w.getLsbD 0 then
    ((s.latch [A.ACCESS_TOK_BASE_LO, A.ACCESS_TOK_BASE_HI, A.ACCESS_REV_BASE_LO, A.ACCESS_REV_BASE_HI]).commit
      [A.ACCESS_TOK_N, A.ACCESS_REV_N]).setFlag F.ACCESS_STATUS_TBL_BUSY
  else s

/-- ACCESS_TBL_LOAD (R200). -/
def execAccessTblLoad (s : State) : Out := .next (s.tblCmdWrite 1)

/-- A token ID in general SRAM, word 0 holding bits 63-48. -/
def State.tokenAt (s : State) (a : Nat) : BitVec 64 :=
  BitVec.ofNat 64 ((s.sramWords a 4).foldl (fun n w => n * 65536 + w.toNat) 0)

/-- Strictly rising. -/
def rising : List Nat → Bool
  | a :: b :: l => a < b && rising (b :: l)
  | _ => true

/-- The two tables as they lie in general SRAM, or none where R200 refuses them. -/
def State.tokenTables (s : State) : Option (List (BitVec 64 × Nat) × List (BitVec 64)) :=
  let tb := s.latAddr A.ACCESS_TOK_BASE_LO
  let rb := s.latAddr A.ACCESS_REV_BASE_LO
  let tn := (s.eff A.ACCESS_TOK_N).toNat
  let rn := (s.eff A.ACCESS_REV_N).toNat
  if 256 < tn ∨ 1024 < rn ∨ !inSram tb (12 * tn) ∨ !inSram rb (8 * rn) then none
  else
    let e := (List.range tn).map (fun i => (s.tokenAt (tb + 12 * i), bits (s.sramHalf (tb + 12 * i + 8)).toNat 1 0))
    let r := (List.range rn).map (fun i => s.tokenAt (rb + 8 * i))
    if rising (e.map (·.1.toNat)) && rising (r.map (·.toNat)) && e.all (fun p => p.2 = 1 || p.2 = 2) then some (e, r) else none

/-- ACCESS_TBL_COPY_DONE (R200). -/
def execAccessTblCopyDone (s : State) : Out :=
  .next (if s.flag F.ACCESS_STATUS_TBL_BUSY then
    let s := s.setFlag F.ACCESS_STATUS_TBL_BUSY false
    match s.tokenTables with
    | some (e, r) =>
      ((s.modAccess (fun a => { a with enrol := e, revoked := r })).setFlag F.ACCESS_STATUS_TBL_OK).complete .tblLoad stOk 0 []
    | none => (s.setFlag F.ACCESS_STATUS_TBL_ERR).complete .tblLoad stFail 1 []
  else s)

end Sys2Proof.Machine
end

