-- ==== Sys2Proof/Machine/Fabric.lean ====
section
/-! DEFINITION. The anchor fabric of Lintel firmware (R344 to R361): neighbours, joining, routes, relay and time. -/
namespace Sys2Proof.Machine

/-! ## Configuration (R360) -/

/-- Word `i` of FABRIC CFG. -/
def Fabric.c (f : Fabric) (i : Nat) : Nat := wordAt f.cfg i
/-- ROLE is root. -/
def Fabric.isRoot (f : Fabric) : Bool := f.c 0 == 1
/-- The fabric tenant. -/
def Fabric.tenant (f : Fabric) : Nat := f.c 1
/-- Key slot. -/
def Fabric.slot (f : Fabric) : Nat := f.c 2
/-- HELLO_PERIOD in courses. -/
def Fabric.period (f : Fabric) : Nat := f.c 4
/-- FIRST_LANE. -/
def Fabric.firstLane (f : Fabric) : Nat := f.c 5
/-- LQI_GOOD. -/
def Fabric.lqiGood (f : Fabric) : Nat := f.c 13
/-- The protocol runs. -/
def Fabric.on (f : Fabric) : Bool := f.st != 0

/-- A neighbour by EUI-64. -/
def Fabric.nbr (f : Fabric) (e : BitVec 64) : Option Neighbour := f.nbrs.find? (fun n => n.eui = e)

/-- Change a neighbour. -/
def State.modNbr (s : State) (e : BitVec 64) (g : Neighbour → Neighbour) : State :=
  s.modFabric (fun f => { f with nbrs := f.nbrs.map (fun n => if n.eui = e then g n else n) })

/-- The device EUI-64. -/
abbrev State.eui (s : State) : BitVec 64 := BitVec.ofNat 64 s.deviceEui

/-- Words of an EUI-64, bits 63 to 48 first. -/
def euiWords (e : BitVec 64) : List Half :=
  [half (e.toNat / 2 ^ 48), half (e.toNat / 2 ^ 32), half (e.toNat / 65536), half e.toNat]

/-- A frame is discarded and counted (R346, R351, R358); what R352 discards and R355 drops is counted with them (DESIGN CHOICE, log entry
104). -/
def State.fabDrop (s : State) : State := s.modFabric (fun f => { f with drops := min (f.drops + 1) 0xFFFF })

/-- A FABRIC event (R361). -/
def State.fabEvent (s : State) (code : Nat) (w : List Half) : State := s.event hostChans 8 code w

/-! ## Links (R350, R351) -/

/-- The agreed fabric version of a link. -/
def Neighbour.version (n : Neighbour) : Option Nat :=
  let v := min n.vMax 2
  if max n.vMin 1 ≤ v then some v else none

/-- Both versions have a solution. -/
def Neighbour.usable (n : Neighbour) : Bool := n.version.isSome && n.hrMin == 0

/-- The link cost. -/
def Neighbour.cost (n : Neighbour) : Nat := if n.backbone then 256 else 768

/-- HELLOs expected of a neighbour after the course `last`, up to the course `asn`. -/
def expected (period last asn : Nat) : Nat := (asn - last) / max 1 period

/-- A record of expected HELLOs brought up to an ASN: those that have gone by since count as missed. -/
def histTo (period : Nat) (h : List (Option Nat)) (last asn : Nat) : List (Option Nat) :=
  (List.replicate (min 8 (expected period last asn)) none ++ h).take 8

/-- Both records of a neighbour, brought up to an ASN. -/
def Neighbour.upTo (n : Neighbour) (period asn : Nat) : Neighbour :=
  { n with bb := histTo period n.bb n.bbAsn asn, bbAsn := n.bbAsn + expected period n.bbAsn asn * max 1 period
           fb := histTo period n.fb n.fbAsn asn, fbAsn := n.fbAsn + expected period n.fbAsn asn * max 1 period }

/-- All of the last 8 expected HELLOs were missed. -/
def allMissed (h : List (Option Nat)) : Bool := h.length == 8 && h.all (·.isNone)

/-- Missed HELLOs of a neighbour, both bands. -/
def Neighbour.missed (n : Neighbour) : Nat := ((n.bb ++ n.fb).filter (·.isNone)).length

/-- A neighbour that may become the parent of an anchor of a rank (R352, R356, R357). -/
def Neighbour.mayParent (n : Neighbour) (below : Nat) : Bool := n.joined && n.opened && n.usable && n.rank < below

/-- The best parent among neighbours: the lowest RANK + cost, and of equals the first in the table (DESIGN CHOICE, log entry 104). -/
def bestParent (ns : List Neighbour) (below : Nat) : Option Neighbour :=
  (ns.filter (·.mayParent below)).foldl (fun m n => match m with
    | none => some n
    | some b => if n.rank + n.cost < b.rank + b.cost then some n else some b) none

/-! ## Sending (R344 to R346, R355) -/

/-- The header of R346. -/
def fabHeader (typ ver src dst hops flags seq : Nat) : List Byte :=
  [byte typ, byte ver] ++ beOctets 2 src ++ beOctets 2 dst ++ [byte hops, byte flags] ++ beOctets 2 seq

/-- Order of the outbound queue by TYPE (R355). -/
def fabPrio (typ : Nat) : Nat := if typ = 6 then 0 else if typ = 2 ∨ typ = 3 then 1 else if typ = 5 then 2 else 3

/-- Put a frame on the queue behind those that go before it. -/
def queueIn (m : Fmsg) : List Fmsg → List Fmsg
  | [] => [m]
  | x :: l => if fabPrio m.typ < fabPrio x.typ then m :: x :: l else x :: queueIn m l

/-- Event SENT for a host frame. -/
def State.fabSent (s : State) (host : Option Nat) (result : Nat) : State :=
  match host with | some q => s.fabEvent 0x84 [half q, half result] | none => s

/-- A unicast frame is queued for a next hop over a link of version `ver` (R351, R355). -/
def State.fabQueue (s : State) (typ ver : Nat) (hop : BitVec 64) (payload : List Byte) (host : Option Nat) : State :=
  if (typ = 5 ∨ typ = 6) ∧ ver = 1 then s.fabDrop
  else if 64 ≤ s.fabric.queue.length then s.fabDrop
  else s.modFabric (fun f => { f with queue := queueIn { typ := typ, hop := hop, payload := payload, host := host } f.queue })

/-- The next SEQ of this anchor. -/
def State.fabSeq (s : State) : Nat × State :=
  (s.fabric.seq, s.modFabric (fun f => { f with seq := (f.seq + 1) % 65536 }))

/-- SRC of a frame this anchor originates. -/
def Fabric.src (f : Fabric) : Nat := if f.st = 3 then f.addr else 0xFFFE

/-- A frame to a neighbour in the table, at the link's version. -/
def State.fabToNbr (s : State) (typ : Nat) (hop : BitVec 64) (src dst hops flags seq : Nat) (body : List Byte)
    (host : Option Nat) : State :=
  match (s.fabric.nbr hop).bind (fun n => if n.usable then n.version else none) with
  | some v => s.fabQueue typ v hop (fabHeader typ v src dst hops flags seq ++ body) host
  | none => s.fabDrop.fabSent host 2

/-- The next hop for a destination (R355): the route table, else the parent at a member. -/
def Fabric.hopFor (f : Fabric) (dst : Nat) : Option (BitVec 64) :=
  match f.routes.find? (fun r => r.dest = dst) with
  | some r => some r.hop
  | none => if f.isRoot then none else f.parent

/-- A frame that has reached its destination goes to the host as an event (R358, R361). -/
def State.fabDeliver (s : State) (typ src hops flags seq : Nat) (body : List Byte) : State :=
  if typ = 6 then s.fabEvent 0x86 (half src :: packWords (slice body 0 14))
  else s.fabEvent 0x83 ([half src, half hops, half seq, half flags] ++ packWords body)

/-- Forward a DATA or LAST_GASP frame (R355). -/
def State.fabForward (s : State) (typ src dst hops flags seq : Nat) (body : List Byte) (host : Option Nat) : State :=
  if dst = s.fabric.addr then s.fabDeliver typ src hops flags seq body
  else if hops = 0 then s.fabDrop.fabSent host 2
  else match s.fabric.hopFor dst with
    | some e => s.fabToNbr typ e src dst hops flags seq body host
    | none => s.fabDrop.fabSent host 2

/-- A sensor frame routed to the fabric (R358): DATA with RELAY to the root. -/
def State.fabRelay (s : State) (desc : List Half) (psdu : List Byte) : State :=
  let body := wordOctets desc ++ psdu
  if s.fabric.st ≠ 3 ∨ 1984 < body.length then s.fabDrop
  else let (q, s) := s.fabSeq; s.fabForward 4 s.fabric.addr 0 16 1 q body none

/-- LAST_GASP on a loss of mains (R358). -/
def State.fabGasp (s : State) : State :=
  if s.fabric.st = 3 then
    let (q, s) := s.fabSeq
    s.fabForward 6 s.fabric.addr 0 16 0 q (beOctets 8 s.deviceEui ++ wordOctets s.rtcWords) none
  else s

/-! ## Parent, rank, detaching (R353, R356, R357) -/

/-- The queue is dropped, host frames with SENT result 2. -/
def State.fabFlush (s : State) : State :=
  (forEach s.fabric.queue s (fun s m => s.fabSent m.host 2)).modFabric (fun f => { f with queue := [] })

/-- DETACH (R356). No rule raises reason 3, key, and the model never does (DESIGN CHOICE, log entry 104). -/
def State.fabDetach (s : State) (reason : Nat) : State :=
  let s := (s.modFabric (fun f => { f with rank := 0xFFFF, parent := none, st := 1, asked := none, offsets := [], prevMean := none })).fabFlush
  s.fabEvent 0x82 [half reason]

/-- RANK_RECOMPUTE (R357). -/
def State.fabRank (s : State) : State :=
  match s.fabric.parent.bind s.fabric.nbr with
  | some p =>
    if s.fabric.st ≠ 3 ∨ s.fabric.isRoot then s
    else if 0xFFFF ≤ p.rank + p.cost then s.fabDetach 1 else s.modFabric (fun f => { f with rank := p.rank + p.cost })
  | none => s

/-- ROUTE_ADV to the parent (R354): the anchor's own address and every address it has a route for, 96 to a frame. -/
def State.routeAdv (s : State) : State :=
  match s.fabric.parent.bind s.fabric.nbr with
  | some p =>
    let all := s.fabric.addr :: s.fabric.routes.map (·.dest)
    forEach (List.range ((all.length + 95) / 96)) s (fun s i =>
      let (q, s) := s.fabSeq
      s.fabToNbr 5 p.eui s.fabric.addr p.addr 16 0 q (((all.drop (96 * i)).take 96).flatMap (beOctets 2)) none)
  | none => s

/-- JOIN_REQ to a parent (R352). -/
def State.joinReq (s : State) (p : Neighbour) (asking : Nat) : State :=
  let (q, s) := s.fabSeq
  s.fabToNbr 2 p.eui s.fabric.src 0 16 0 q (beOctets 8 s.deviceEui ++ beOctets 2 asking ++ beOctets 2 p.addr) none

/-- A queued frame is turned to another next hop: VER is that of the new link, and it is secured anew (R344, R346, R356). -/
def Fmsg.turn (m : Fmsg) (hop : BitVec 64) (ver : Nat) : Fmsg :=
  { m with hop := hop, payload := putAt m.payload 1 [byte ver], stage := .waiting, onBb := none }

/-- The frames queued for a parent go to the new one; those that may not cross a link of version 1 are dropped and counted (R351,
R356). -/
def State.fabTurn (s : State) (old : Option (BitVec 64)) (p : Neighbour) : State :=
  let v := p.version.getD 0
  let (out, stay) := s.fabric.queue.partition (fun m => some m.hop == old && v == 1 && (m.typ == 5 || m.typ == 6))
  forEach out (s.modFabric (fun f => { f with queue := stay.map (fun m => if some m.hop = old then m.turn p.eui v else m) }))
    (fun s _ => s.fabDrop)

/-- PARENT_CHANGE (R356, R357). Unicasts to the new parent count from here. -/
def State.fabReparent (s : State) (p : Neighbour) : State :=
  let old := s.fabric.parent
  let oldAddr := match old.bind s.fabric.nbr with | some o => o.addr | none => 0xFFFF
  let s := s.modFabric (fun f => { f with parent := some p.eui, rootEui := p.root, offsets := [], prevMean := none })
  let s := ((s.modNbr p.eui (fun n => { n with fails := 0 })).fabTurn old p).fabRank
  if s.fabric.st = 3 then
    let s := if p.version = some 1 then s.joinReq p s.fabric.addr else s.routeAdv
    s.fabEvent 0x81 [half oldAddr, half p.addr, half s.fabric.rank]
  else s

/-- The parent is lost (R356): a new one is chosen below the anchor's own former rank, among the neighbours but those to be removed, or it
detaches. -/
def State.parentLost (s : State) (out : Neighbour → Bool) : State :=
  match bestParent (s.fabric.nbrs.filter (fun n => some n.eui ≠ s.fabric.parent ∧ !out n)) s.fabric.rank with
  | some p => s.fabReparent p
  | none => s.fabDetach 1

/-- COURSE restarts on a HELLO (R353), a running one stopping at the end of its course (R93): START_AT at the start of the course that the HELLO implies, `n` courses on. -/
def State.fabRestart (s : State) (h : Neighbour) : State :=
  let s := if s.running then (s.modCourse (fun c => { c with restart := false })).courseStop else s
  let base := h.tsSfd - (us (s.regN A.COURSE_T_TXOFS) + shrTicks h.mode s.preOct)
  let len := s.courseLen
  let n := (s.hft + us 1000 - base + len - 1) / len
  let s := s.setAsn ((h.asn + n) % 2 ^ 40)
  let s := (s.setReg32 A.COURSE_START_LO (base + n * len)).commit [A.COURSE_START_LO, A.COURSE_START_HI]
  s.courseCtrlWrite 3

/-- JOIN_COMPLETE (R353). -/
def State.joinComplete (s : State) (p : Neighbour) (addr : Nat) : State :=
  let s := (s.setReg A.MACF_SHORT (half addr)).cfgPush [half cidAddr, half addr]
  let s := s.modFabric (fun f => { f with addr := addr, savedAddr := addr, st := 3, asked := none, rank := p.rank + p.cost, rootEui := p.root })
  let s := s.fabRestart p
  let s := s.fabEvent 0x80 ([half addr, half s.fabric.rank, half p.addr] ++ euiWords p.eui)
  s.fabRank

/-! ## Receiving -/

/-- The MAC payload of a stored frame: what follows the authenticated header, without MIC and FCS, decrypted. -/
def Frame.payload (f : Frame) (c : Check) : List Byte :=
  let x := secOf f.octets (mhrOf f.octets) (f.len - fcsLen f.fcs32)
  ccmCrypt c.key (beOctets 8 c.eui.toNat ++ beOctets 4 c.counter ++ [byte c.level]) (slice f.octets x.aEnd (x.mic - x.aEnd))

/-- A frame of the fabric tenant that has passed (R344, R346): it is kept for the protocol, or discarded and counted. A
sender that is no neighbour yet (a joiner) may use either version. -/
def State.fabTake (s : State) (x : Frecv) : State :=
  let typ := (octAt x.payload 0).toNat
  let ver := (octAt x.payload 1).toNat
  let flags := (octAt x.payload 7).toNat
  let verOk := if typ = 1 then ver == 0 else match s.fabric.nbr x.eui with
    | some n => n.usable && n.version == some ver
    | none => ver == 1 || ver == 2
  if 1 ≤ typ ∧ typ ≤ 6 ∧ verOk ∧ 10 ≤ x.payload.length ∧ x.payload.length ≤ 1994 ∧ (flags = 0 ∨ (typ = 4 ∧ flags = 1)) then
    s.modFabric (fun f => { f with inbox := f.inbox ++ [x] })
  else s.fabDrop

/-- The oldest kept frame of some TYPEs, taken. -/
def State.fabNext (s : State) (typs : List Nat) : Option (Frecv × State) :=
  match s.fabric.inbox.find? (fun x => typs.contains (octAt x.payload 0).toNat) with
  | some x => some (x, s.modFabric (fun f => { f with inbox := f.inbox.erase x }))
  | none => none

/-- Header fields of a kept frame. -/
def Frecv.h (x : Frecv) (i n : Nat) : Nat := beNat (slice x.payload i n)
/-- Its body. -/
def Frecv.body (x : Frecv) : List Byte := x.payload.drop 10

/-! ## The protocol's events -/

/-- The body of this anchor's HELLO in the course `asn` (R348). Its children are the neighbours that routes lead to (DEDUCED, log entry
104). -/
def State.helloBody (s : State) (asn : Nat) : List Byte :=
  let f := s.fabric
  let root := if f.isRoot then s.eui else f.rootEui
  let flags := (if f.st = 3 then 5 else 0) + (if f.isRoot then 2 else 0)
  [1, 2, 0, 0] ++ beOctets 2 f.rank ++ beOctets 8 root.toNat ++ beOctets 5 asn ++
    [byte flags, byte (f.routes.map (·.hop)).eraseDups.length]

/-- The anchor sends HELLOs in a course: it is one of its HELLO period (R348). A detached anchor that has an address
sends with JOINED clear (DEDUCED from R356, log entry 104). -/
def State.helloDue (s : State) (asn : Nat) : Bool :=
  s.fabric.on && s.fabric.addr != 0xFFFF && (asn + s.deviceEui % 256) % max 1 s.fabric.period == 0

/-- FABRIC_HELLO_SEND (R348): for the course whose plan is made next, one HELLO for each hello channel, once. OPEN is set while joined
(DESIGN CHOICE, log entry 41). Secured, they go into the plan as transmit entries. -/
def execFabricHelloSend (s : State) : Out :=
  let a := s.nextPlanAsn
  .next (if s.helloDue a && !s.fabric.hellos.any (·.asn == a) then
      forEach [true, false] s (fun s bb =>
        let (q, s) := s.fabSeq
        let p := fabHeader 1 0 s.fabric.src 0xFFFF 16 0 q ++ s.helloBody a
        s.modFabric (fun f => { f with hellos := f.hellos ++ [{ bb := bb, asn := a, payload := p }] }))
    else s)

/-- A band's record up to the course of a HELLO that was heard on this band, or on the other: there the HELLO of the course may still
come, or has come. The record and its ASN. -/
def heardIn (period : Nat) (h : List (Option Nat)) (last asn : Nat) (lqi : Option Nat) : List (Option Nat) × Nat :=
  match lqi with
  | some q => ((some q :: histTo period h last (asn - max 1 period)).take 8, asn)
  | none => (histTo period h last (asn - max 1 period), max last (asn - max 1 period))

/-- The neighbour that a HELLO makes of an entry (R349, R350). -/
def State.helloNbr (s : State) (x : Frecv) (old : Option Neighbour) : Neighbour :=
  let f := s.fabric
  let b := x.body
  let asn := beNat (slice b 14 5)
  let onBb := x.lane == f.firstLane
  let flags := (octAt b 19).toNat
  let (bb, bbAsn) := match old with
    | some n => heardIn f.period n.bb n.bbAsn asn (if onBb then some x.lqi else none)
    | none => if onBb then ([some x.lqi], asn) else ([], asn - f.period)
  let (fb, fbAsn) := match old with
    | some n => heardIn f.period n.fb n.fbAsn asn (if onBb then none else some x.lqi)
    | none => if onBb then ([], asn - f.period) else ([some x.lqi], asn)
  { eui := x.eui, addr := x.h 2 2, rank := beNat (slice b 4 2), joined := flags % 2 == 1, opened := bits flags 2 2 == 1
    vMin := (octAt b 0).toNat, vMax := (octAt b 1).toNat, hrMin := (octAt b 2).toNat, hrMax := (octAt b 3).toNat
    root := BitVec.ofNat 64 (beNat (slice b 6 8)), isRoot := bits flags 1 1 == 1, children := (octAt b 20).toNat
    asn := asn, tsSfd := x.tsSfd, mode := x.mode, bb := bb, fb := fb, bbAsn := bbAsn, fbAsn := fbAsn
    backbone := decide (6 ≤ (bb.filter (fun l => match l with | some q => decide (f.lqiGood ≤ q) | none => false)).length)
    fails := match old with | some n => n.fails | none => 0
    verEvt := match old with | some n => n.verEvt | none => none }

/-- FABRIC_VERSION_EVENT (R351): at most once per hour for each neighbour. -/
def State.fabVersion (s : State) (n : Neighbour) : State :=
  if n.usable then s
  else if n.verEvt.all (fun t => t + us 3600000000 ≤ s.hft) then
    (s.modNbr n.eui (fun n => { n with verEvt := some s.hft })).fabEvent 0x85
      (euiWords n.eui ++ [half n.vMin, half n.vMax, half n.hrMin, half n.hrMax])
  else s

/-- A HELLO of the parent counts for time (R359): from the fallback band only where no backbone HELLO has come for 8
periods. -/
def State.fabOffset (s : State) (x : Frecv) (n : Neighbour) : State :=
  let f := s.fabric
  if x.lane = f.firstLane ∨ (n.bb.length = 8 ∧ allMissed n.bb) then
    let e : Int := (x.tsSfd : Int) - (x.sfdCt + us (s.regN A.COURSE_T_TXOFS) + shrTicks x.mode s.preOct : Nat)
    s.modFabric (fun f => { f with offsets := f.offsets ++ [(e, n.asn)] })
  else s

/-- A HELLO has updated its neighbour: what follows for the parent and the rank (R356, R357). -/
def State.helloFollow (s : State) (x : Frecv) (n : Neighbour) : State :=
  let f := s.fabric
  if f.st ≠ 3 ∨ f.isRoot then s
  else if f.parent = some n.eui then
    if !n.joined then s.parentLost (fun _ => false)
    else ((s.modFabric (fun f => { f with rootEui := n.root })).fabOffset x n).fabRank
  else if n.mayParent f.rank ∧ n.rank + n.cost + 512 ≤ f.rank then s.fabReparent n
  else s

/-- The last course gone by, by the fabric's ASN (R349): the anchor's own while it is joined; before, the one that the neighbour's latest HELLO
and the courses since give (DEDUCED, log entry 104). -/
def State.nbrAsn (s : State) (n : Neighbour) : Nat :=
  (if s.fabric.st = 3 then s.asn
    else n.asn + (s.hft - (n.tsSfd - (us (s.regN A.COURSE_T_TXOFS) + shrTicks n.mode s.preOct))) / max 1 s.courseLen) - 1

/-- The neighbours, their records up to the courses gone by. -/
def State.nbrsNow (s : State) : List Neighbour := s.fabric.nbrs.map (fun n => n.upTo s.fabric.period (s.nbrAsn n))

/-- The neighbour with the most missed HELLOs, the parent aside (R349); of equals the first in the table (DESIGN CHOICE, log entry 104). -/
def State.worstNbr (s : State) : Option Neighbour :=
  (s.nbrsNow.filter (fun m => some m.eui ≠ s.fabric.parent)).foldl (fun w m => match w with
    | none => some m
    | some v => if v.missed < m.missed then some m else some v) none

/-- FABRIC_HELLO_RECEIVE (R349): the oldest kept HELLO. -/
def execFabricHelloReceive (s : State) : Out :=
  .next (match s.fabNext [1] with
    | none => s
    | some (x, s) =>
      if x.body.length ≠ 21 ∨ 8 ≤ (octAt x.body 19).toNat then s.fabDrop
      else
        let old := s.fabric.nbr x.eui
        let n := s.helloNbr x old
        match old with
        | some _ => ((s.modNbr x.eui (fun _ => n)).fabVersion n).helloFollow x n
        | none =>
          if s.fabric.nbrs.length < 32 then
            ((s.modFabric (fun f => { f with nbrs := f.nbrs ++ [n] })).fabVersion n).helloFollow x n
          else
            match s.worstNbr with
            | some w => if w.missed = 0 then s
              else ((s.modFabric (fun f => { f with nbrs := f.nbrs.filter (fun m => m.eui ≠ w.eui) ++ [n] })).fabVersion n).helloFollow x n
            | none => s)

/-- All the HELLOs of a neighbour that count were missed, up to a course. -/
def Neighbour.gone (n : Neighbour) (period asn : Nat) : Bool :=
  let n := n.upTo period asn
  allMissed n.bb && allMissed n.fb

/-- NEIGHBOUR_REMOVE (R349): as of the courses gone by. A parent among them is lost (R356). -/
def execNeighbourRemove (s : State) : Out :=
  let f := s.fabric
  let gone (n : Neighbour) : Bool := n.gone f.period (s.nbrAsn n)
  let lost := f.nbrs.any (fun n => gone n && some n.eui == f.parent)
  .next ((if lost && f.st == 3 then s.parentLost gone else s).modFabric (fun g =>
    { g with nbrs := g.nbrs.filter (fun n => !(f.nbrs.any (fun o => o.eui == n.eui && gone o))) }))

/-- JOIN_REQ_SEND (R352). -/
def execJoinReqSend (s : State) : Out :=
  let f := s.fabric
  .next (if f.st = 1 ∧ !f.isRoot ∧ f.asked.isNone ∧ f.retryAt ≤ s.asn then
    match bestParent f.nbrs 0x10000 with
    | some p => ((s.modFabric (fun f => { f with parent := some p.eui, st := 2, asked := some s.hft })).modNbr p.eui
        (fun n => { n with fails := 0 })).joinReq p f.savedAddr
    | none => s
  else s)

/-- The root's answer to a request (R352): status and address. -/
def Fabric.assign (f : Fabric) (e : BitVec 64) (want : Nat) : Nat × Nat × Fabric :=
  let holder := f.assigned.find? (fun p => p.2 = want)
  let free (a : Nat) : Bool := a != 0 && !f.assigned.any (fun p => p.2 == a)
  let give (a : Nat) : Nat × Nat × Fabric :=
    (0, a, { f with assigned := if f.assigned.any (fun p => p.1 = e) then f.assigned.map (fun p => if p.1 = e then (e, a) else p)
                                else f.assigned ++ [(e, a)] })
  if want < 0xFFFE ∧ (free want ∨ holder.map (·.1) = some e) then give want
  else match ((List.range 0x400).map (· + 1)).find? free with
    | some a => give a
    | none => (1, 0xFFFF, f)

/-- A route is kept, in place of one to the same address (R354); beyond 1,024 a new one is not (DESIGN CHOICE, log entry 104). -/
def State.routePut (s : State) (r : Route) : State :=
  let rest := s.fabric.routes.filter (fun x => x.dest ≠ r.dest)
  if 1024 ≤ rest.length then s else s.modFabric (fun f => { f with routes := rest ++ [r] })

/-- A JOIN_RSP goes down to the neighbour that the request came from; a route to its address is installed (R352, R354).
The joiner has no address yet, and DST is 0xFFFE (DESIGN CHOICE, log entry 104). -/
def State.joinRsp (s : State) (joiner : BitVec 64) (status addr src hops seq : Nat) : State :=
  match s.fabric.joins.find? (fun j => j.1 = joiner ∧ s.hft ≤ j.2.2.2 + us 10000000) with
  | some (_, hop, ver, _) =>
    let s := s.modFabric (fun f => { f with joins := f.joins.filter (fun j => j.1 ≠ joiner) })
    let s := if status = 0 then s.routePut ⟨addr, hop, s.asn, ver == 1⟩ else s
    s.fabQueue 3 ver hop (fabHeader 3 ver src 0xFFFE hops 0 seq ++ beOctets 8 joiner.toNat ++ [byte status] ++ beOctets 2 addr) none
  | none => s.fabDrop

/-- JOIN_REQ_RELAY (R352): the oldest kept JOIN_REQ is recorded and relayed, or answered at the root, which keeps what it assigns anew in a
configuration record (format: DESIGN CHOICE, log entry 40). -/
def execJoinReqRelay (s : State) : Out :=
  .next (match s.fabNext [2] with
    | none => s
    | some (x, s) =>
      let joiner := BitVec.ofNat 64 (beNat (slice x.body 0 8))
      let want := beNat (slice x.body 8 2)
      if s.fabric.st ≠ 3 ∨ x.body.length ≠ 12 then s.fabDrop
      else
        let s := s.modFabric (fun f => { f with
          joins := f.joins.filter (fun j => j.1 ≠ joiner) ++ [(joiner, x.eui, x.h 1 1, s.hft)] })
        if s.fabric.isRoot then
          let (st, a, f) := s.fabric.assign joiner want
          let known := s.fabric.assigned.any (fun p => p.1 = joiner ∧ p.2 = a)
          let at_ := f.assigned.findIdx (fun p => p.1 = joiner)
          let s := s.modFabric (fun _ => f)
          let s := if st = 0 ∧ !known then s.cfgPush ([half (cidAssign + at_)] ++ euiWords joiner ++ [half a]) else s
          let (q, s) := s.fabSeq
          s.joinRsp joiner st a 0 16 q
        else
          let third := if x.eui = joiner then beOctets 2 s.fabric.addr else slice x.body 10 2
          if x.h 6 1 ≤ 1 then s.fabDrop
          else match s.fabric.parent with
            | some p => s.fabToNbr 2 p (x.h 2 2) 0 (x.h 6 1 - 1) 0 (x.h 8 2) (slice x.body 0 10 ++ third) none
            | none => s.fabDrop)

/-- A joiner tries again after 64 HELLO periods (R352). -/
def State.joinRetry (s : State) : State :=
  s.modFabric (fun f => { f with st := 1, asked := none, parent := none, retryAt := s.asn + 64 * f.period })

/-- JOIN_RSP_RECEIVE (R352, R353): the oldest kept JOIN_RSP is taken by the joiner, forwarded, or discarded. To an anchor that has not just
asked (a joined one that sent JOIN_REQ across a link of version 1, R356) its own is no change (DESIGN CHOICE, log entry 104). -/
def execJoinRspReceive (s : State) : Out :=
  .next (match s.fabNext [3] with
    | none => s
    | some (x, s) =>
      let joiner := BitVec.ofNat 64 (beNat (slice x.body 0 8))
      let status := (octAt x.body 8).toNat
      let addr := beNat (slice x.body 9 2)
      if joiner = s.eui ∧ s.fabric.st ≠ 2 then s
      else if joiner = s.eui then
        match status, s.fabric.parent.bind s.fabric.nbr with
        | 0, some p => s.joinComplete p addr
        | _, _ => s.joinRetry
      else if x.h 6 1 ≤ 1 then s.fabDrop
      else s.joinRsp joiner status addr (x.h 2 2) (x.h 6 1 - 1) (x.h 8 2))

/-- JOIN_TIMEOUT (R352): 10 s after the request. -/
def execJoinTimeout (s : State) : Out :=
  .next (match s.fabric.asked with
    | some t => (s.passTo (t + us 10000000)).joinRetry
    | none => s)

/-- ROUTE_ADV_SEND (R354). -/
def execRouteAdvSend (s : State) : Out :=
  .next (match s.fabric.parent.bind s.fabric.nbr with
    | some p => if s.fabric.st = 3 ∧ p.version = some 2 then s.routeAdv else s
    | none => s)

/-- Addresses of a ROUTE_ADV body. -/
def advList (b : List Byte) : List Nat := (List.range (b.length / 2)).map (fun i => beNat (slice b (2 * i) 2))

/-- ROUTE_ADV_RECEIVE (R354): the oldest kept ROUTE_ADV. -/
def execRouteAdvReceive (s : State) : Out :=
  .next (match s.fabNext [5] with
    | none => s
    | some (x, s) => forEach (advList x.body) s (fun s a => if a = s.fabric.addr then s else s.routePut ⟨a, x.eui, s.asn, false⟩))

/-- ROUTE_EXPIRY (R354). -/
def execRouteExpiry (s : State) : Out :=
  .next (s.modFabric (fun f => { f with routes := f.routes.filter (fun r => r.fixed || s.asn < r.seen + 64 * f.period) }))

/-- DATA_FORWARD (R355, R358): the oldest kept DATA or LAST_GASP frame. A relay lowers HOPS; the destination takes it as it came
(R346). -/
def execDataForward (s : State) : Out :=
  .next (match s.fabNext [4, 6] with
    | none => s
    | some (x, s) =>
      let src := x.h 2 2
      let seq := x.h 8 2
      let old := sparseGet (fun _ => []) s.fabric.seen src
      if s.fabric.st ≠ 3 then s.fabDrop
      else if old.contains seq then s
      else
        let s := s.modFabric (fun f => { f with seen := sparseSet (fun _ => []) f.seen src ((seq :: old).take 64) })
        let hops := if x.h 4 2 = s.fabric.addr then x.h 6 1 else x.h 6 1 - 1
        s.fabForward (x.h 0 1) src (x.h 4 2) hops (x.h 7 1) seq x.body none)

/-- PARENT_LOST (R356): 4 consecutive unicasts to the parent ended unacknowledged. -/
def execParentLost (s : State) : Out :=
  .next (match s.fabric.parent.bind s.fabric.nbr with
    | some p => if s.fabric.st = 3 ∧ 4 ≤ p.fails then s.parentLost (fun _ => false) else s
    | none => s)

/-- TIME_OFFSET_UPDATE (R359): after every 4 HELLOs of the parent. The rise of the mean counts from the mean of the group before less
the correction that COURSE_ADJ made of it, as in the example of R359; after a restart of COURSE no mean goes before, and P runs from the last HELLO of the one group to that of the next
(DESIGN CHOICE, log entry 104). -/
def execTimeOffsetUpdate (s : State) : Out :=
  .next (
    let f := s.fabric
    if f.st = 3 ∧ !f.isRoot ∧ 4 ≤ f.offsets.length then
      let m := divRound ((f.offsets.take 4).foldl (fun a e => a + e.1) 0) 4
      let asn := (f.offsets.getD 3 (0, 0)).2
      let adj := clampInt (-4800) 4800 m
      let s := s.modFabric (fun f => { f with offsets := f.offsets.drop 4, mean := m, prevMean := if 4800 < m.natAbs then none else some (m - adj, asn) })
      if 4800 < m.natAbs then
        match f.parent.bind f.nbr with | some p => s.fabRestart p | none => s
      else
        let s := s.adjWrite (half (ofSigned 16 adj))
        match f.prevMean with
        | some (o, was) =>
          let step := divRound (-(m - o) * 1000000000) (max 1 ((asn + 2 ^ 40 - was) % 2 ^ 40 * s.courseLen))
          let t := toSigned 16 (s.regN (A.RFE_XO_TRIM .sub)) + step
          s.trimWrite (half (ofSigned 16 (clampInt (-2000) 2000 t)))
        | none => s
    else s)

/-! ## The end of a fabric unicast -/

/-- A frame stands in a transmit entry of a course, of whose ASN the low 16 bits are given. -/
def Fmsg.inEntry (m : Fmsg) (asn entry : Nat) : Bool :=
  match m.stage with | .placed _ a e => a % 65536 == asn && e == entry | _ => false

/-- A frame sent once more without an acknowledgement is ready to be sent again. -/
def Fmsg.again (m : Fmsg) : Fmsg :=
  { m with sends := m.sends + 1, stage := match m.stage with | .placed p _ _ => .ready p | x => x }

/-- The carrier of a transmit entry has ended (R355, R356): of a queued frame, whether an acknowledgement came back is a free value
(DESIGN CHOICE, log entry 42). -/
def State.fabCarrier (s : State) (asn entry : Nat) : State :=
  match s.fabric.queue.find? (·.inEntry asn entry) with
  | some q =>
    let gone (s : State) : State := s.modFabric (fun f => { f with queue := f.queue.filter (fun m => !m.inEntry asn entry) })
    let (ack, s) := s.draw 2
    if ack = 1 then ((gone s).modNbr q.hop (fun n => { n with fails := 0 })).fabSent q.host 0
    else if 4 ≤ q.sends + 1 then ((gone s).modNbr q.hop (fun n => { n with fails := n.fails + 1 })).fabSent q.host 1
    else s.modFabric (fun f => { f with queue := f.queue.map (fun m => if m.inEntry asn entry then m.again else m) })
  | none => s

/-- CARRIER_END (R51, R105, R106): the carrier due next ends. -/
def execCarrierEnd (b : Band) (s : State) : Out :=
  .next (match firstStop (s.rfe b).carriers with
    | some c => match c.entry with | some e => (s.carrierEnd b).fabCarrier c.asn e | none => s.carrierEnd b
    | none => s)

/-! ## The class FABRIC (R360) -/

/-- FABRIC START, where the fabric does not run; while it runs it has no effect (DESIGN CHOICE, log entry 104). The words of the reserved
lanes are kept for STOP. The root joins with no exchange; what its JOINED names as parent is not given: free values (log entry 2). -/
def State.fabStart (s : State) : State :=
  if s.fabric.on then s
  else
  let s := s.modFabric (fun f => { f with laneSave := (List.range 8).map (fun i => s.planWord true (2 * f.firstLane + i)) })
  if s.fabric.isRoot then
    let s := (s.setReg A.MACF_SHORT 0).modFabric (fun f => { f with st := 3, addr := 0, rank := 256 })
    let (o, s) := s.drawOctets 10
    s.fabEvent 0x80 ([0, 256] ++ packWords o)
  else s.modFabric (fun f => { f with st := 1, asked := none, parent := none, retryAt := 0 })

/-- FABRIC STOP: the reserved lanes take up in the plan what they held before START. -/
def State.fabStop (s : State) : State :=
  if s.fabric.on then
    let s := forEach s.fabric.laneSave.zipIdx s (fun s p => s.shadowWrite (2 * s.fabric.firstLane + p.2) p.1)
    let s := s.planCommit.fabFlush.modFabric (fun f => { cfg := f.cfg, assigned := f.assigned, savedAddr := f.savedAddr, drops := f.drops, seq := f.seq })
    s.fabEvent 0x82 [2]
  else s

/-- FABRIC STATUS: the words, and the drop counter cleared. An anchor with no parent gives free values for it (log
entry 2). -/
def State.fabStatus (s : State) : List Half × State :=
  let f := s.fabric
  let (pw, s) := match f.parent.bind f.nbr with
    | some p => ([half p.addr] ++ euiWords p.eui ++ [half ((p.version.getD 0) * 256 + bit p.backbone)], s)
    | none => let (o, s) := s.drawOctets 12; (packWords o, s)
  ([half f.st, half f.addr, half f.rank] ++ pw ++
    [half f.nbrs.length, half f.routes.length, half (ofSigned 16 (clampInt (-32768) 32767 f.mean)), half f.drops],
   s.modFabric (fun f => { f with drops := 0 }))

/-- The words of a neighbour in FABRIC NEIGHBOURS; the version reads 0xFF where the link cannot be used. The mean LQI over both
bands is rounded down (DESIGN CHOICE, log entry 94); that of a neighbour of which no HELLO was heard is not given: the free value
`x` (log entry 2). -/
def Neighbour.words (n : Neighbour) (x : Byte) : List Half :=
  let heard := (n.bb ++ n.fb).filterMap id
  let mean := if heard = [] then x.toNat else heard.foldl (· + ·) 0 / heard.length
  let count (l : List (Option Nat)) : Nat := (l.filterMap id).length
  euiWords n.eui ++ [half n.addr, half n.rank, half ((if n.usable then n.version.getD 0xFF else 0xFF) * 256 + mean),
    half (count n.bb * 256 + count n.fb)]

end Sys2Proof.Machine
end

