-- ==== Sys2Proof/Machine/Assay.lean ====
section
/-! DEFINITION. ASSAY: requests, slices, repairs and schedules (R362 to R374), with the remap and withdrawal of lanes
(R63, R64) and the fencing of AES cores (R156). -/
namespace Sys2Proof.Machine

/-! ## Catalogue (R362, R363) -/

/-- The budget of a slice in µs; none for a code outside the catalogue. -/
def sliceBudget (c : Nat) : Option Nat :=
  if c = 0x01 then some 400 else if c = 0x02 then some 80 else if c = 0x03 then some 1000
  else if c = 0x04 then some 200 else if c = 0x05 then some 1000 else if c = 0x06 then some 400
  else if c = 0x10 then some 1400 else if c = 0x11 then some 1200 else if c = 0x12 then some 300
  else if c = 0x13 then some 500 else none

/-- A slice of a lane. -/
def isLaneSlice (c : Nat) : Bool := c == slLane || c == slLaneModes

/-- The state admits the slice. -/
def sliceAdmitted (lc c : Nat) : Bool :=
  (sliceBudget c).isSome && ((lc == 1 || lc == 3) || (lc == 2 && c < 0x10))

/-- The OUTCOME codes. -/
abbrev soPass : Nat := 0
abbrev soFail : Nat := 1
abbrev soSupply : Nat := 2
abbrev soOverrun : Nat := 3
abbrev soNoTarget : Nat := 4
abbrev soLcState : Nat := 5
abbrev soPLevel : Nat := 6
abbrev soExpired : Nat := 7
abbrev soBadRegion : Nat := 8
abbrev soAborted : Nat := 9

/-! ## Lanes and cores -/

/-- A physical lane is marked failed. -/
def State.physFailed (s : State) (p : Nat) : Bool := (s.reg (A.ASSAY_LANE_FAIL (p / 16))).getLsbD (p % 16)

/-- A physical lane carries a logical lane. -/
def State.physCarries (s : State) (p : Nat) : Bool :=
  (List.range 64).any (fun n => !s.flag (F.LANE_PHYS_WITHDRAWN n) && s.fld (F.LANE_PHYS_PHYS n) == p)

/-- Mark a physical lane failed. -/
def State.markFailed (s : State) (p : Nat) : State :=
  s.setReg (A.ASSAY_LANE_FAIL (p / 16)) (s.reg (A.ASSAY_LANE_FAIL (p / 16)) ||| half (2 ^ (p % 16)))

/-- The lowest-numbered healthy spare that carries no lane (R63). -/
def State.freeSpare (s : State) : Option Nat := [64, 65].find? (fun p => !s.physCarries p && !s.physFailed p)

/-- LANE_REMAP (R63): logical lane `n` moves onto spare `p`, and its status and timestamp groups are reset. -/
def State.laneRemap (s : State) (n p : Nat) : State :=
  let s := s.setReg (A.LANE_PHYS n) (half (0x4000 + p))
  let s := s.setFld F.ID_CAPS1_SPARES_FREE (s.fld F.ID_CAPS1_SPARES_FREE - 1)
  forEach [A.LANE_ST0 n, A.LANE_ST1 n, A.LANE_ST2 n, A.LANE_ST3 n, A.LANE_ST4 n, A.LANE_ST5 n, A.LANE_TS_SFD_LO n,
    A.LANE_TS_SFD_HI n, A.LANE_TS_EOF_LO n, A.LANE_TS_EOF_HI n] s (fun s a => s.setReg a (regReset a))

/-- LANE_WITHDRAW (R64): WITHDRAWN is set, and PHYS reads 0. -/
def State.laneWithdraw (s : State) (n : Nat) : State := (s.setReg (A.LANE_PHYS n) 0x8000).setLaneState n laneOut

/-! ## Requests (R364, R369) -/

/-- A write of ASSAY_CMD; while EN = 0 ASSAY takes no request (DESIGN CHOICE, log entry 46). -/
def State.assayCmdWrite (s : State) (w : Half) : State :=
  if !s.flag F.ASSAY_CTRL_EN then s
  else if 8 ≤ s.assay.queue.length then s.setFlag F.ASSAY_STATUS_CMD_ERR
  else
    let s := s.modAssay (fun a => { a with queue := a.queue ++ [(⟨bits w.toNat 15 8, bits w.toNat 6 0⟩, 0)] })
    s.setFld F.ASSAY_STATUS_QUEUED s.assay.queue.length

/-- The command word of a request. -/
def assayWord (c t : Nat) : Half := half (c * 256 + t)

/-- SLICE_LANE (R362, R364). -/
def execSliceLane (t : Fin 128) (s : State) : Out := .next (s.assayCmdWrite (assayWord slLane t))
/-- SLICE_AES (R362, R364). -/
def execSliceAes (t : Fin 128) (s : State) : Out := .next (s.assayCmdWrite (assayWord slAes t))
/-- SLICE_LF (R362, R364). -/
def execSliceLf (t : Fin 128) (s : State) : Out := .next (s.assayCmdWrite (assayWord slLf t))
/-- SLICE_ADC_REF (R362, R364). -/
def execSliceAdcRef (t : Fin 128) (s : State) : Out := .next (s.assayCmdWrite (assayWord slAdcRef t))
/-- SLICE_IQ_LOOP (R362, R364). -/
def execSliceIqLoop (t : Fin 128) (s : State) : Out := .next (s.assayCmdWrite (assayWord slIqLoop t))
/-- SLICE_SRAM_MARCH (R362, R364). -/
def execSliceSramMarch (t : Fin 128) (s : State) : Out := .next (s.assayCmdWrite (assayWord slSramMarch t))
/-- SLICE_LANE_MODES (R362, R364). -/
def execSliceLaneModes (t : Fin 128) (s : State) : Out := .next (s.assayCmdWrite (assayWord slLaneModes t))
/-- SLICE_TX_LOOP (R362, R364). -/
def execSliceTxLoop (t : Fin 128) (s : State) : Out := .next (s.assayCmdWrite (assayWord slTxLoop t))
/-- SLICE_PKE_KAT (R362, R364). -/
def execSlicePkeKat (t : Fin 128) (s : State) : Out := .next (s.assayCmdWrite (assayWord slPkeKat t))
/-- SLICE_MRAM_SCAN (R362, R364). -/
def execSliceMramScan (t : Fin 128) (s : State) : Out := .next (s.assayCmdWrite (assayWord slMramScan t))

/-- Two address ranges overlap. -/
def overlap (a n b m : Nat) : Bool := decide (a < b + m) && decide (b < a + n)

/-- The test region breaks R369. The areas of a block that is not enabled lie nowhere (DESIGN CHOICE, log entry 46). -/
def State.badRegion (s : State) : Bool :=
  let a := s.effAddr A.ASSAY_REGION_LO
  let n := 0x8000
  a % n != 0 || !inSram a n || overlap a n 0x2F0000 0x10000 ||
    (s.flag F.HOD_CTRL_EN && (overlap a n (s.latAddr A.HOD_RING_BASE_LO) 8192 ||
      overlap a n (s.latAddr A.HOD_POOL_BASE_LO) (384 * (128 * 2 ^ s.effFld F.HOD_CTRL_BUF_SIZE)))) ||
    (s.flag F.CRYPTO_CTRL_EN && overlap a n (s.latAddr A.CRYPTO_Q_BASE_LO) 768) ||
    (s.flag F.HOSTIF_CTRL_EN && (overlap a n (s.latAddr A.HOSTIF_IN_BASE_LO) 2176 ||
      overlap a n (s.latAddr A.HOSTIF_OQ_BASE_LO) 64)) ||
    (s.effFld F.REC_SRC_EXT == 1 && overlap a n (s.latAddr A.REC_EXT_BASE_LO) (16 * (s.eff A.REC_EXT_LEN).toNat))

/-- Check 3 of R364 fails. -/
def State.badTarget (s : State) (q : Slice) : Bool :=
  let t := q.target
  if isLaneSlice q.slice then
    if t < 64 then s.flag (F.LANE_PHYS_WITHDRAWN t) || s.laneState t == laneOut
    else decide (65 < t) || s.physCarries t || s.physFailed t
  else if q.slice = slAes then
    decide (3 < t) || (s.fld F.CRYPTO_STATUS_FENCED).testBit t || s.fld F.ID_CAPS1_AES_ACTIVE == 1
  else if q.slice = slLf then decide (3 < t)
  else if isBandSlice q.slice then decide (1 < t)
  else if q.slice = slSramMarch then decide (7 < t)
  else if q.slice = slPkeKat then t != 0
  else decide (63 < t)

/-- The checks of R364 in order: the outcome of the first that fails. -/
def State.sliceChecks (s : State) (q : Slice) : Option Nat :=
  if !sliceAdmitted s.lcState q.slice then some soLcState
  else if s.fld F.PMU_PL_CUR < 2 ∨ !s.flag F.SYSCTL_CLK_SRC then some soPLevel
  else if s.badTarget q then some soNoTarget
  else if q.slice = slSramMarch ∧ s.badRegion then some soBadRegion
  else none

/-- Lintel firmware notes a result for its schedules (R374) and the statistics of RESULTS, and sends the event
RESULT. -/
def State.assayReport (s : State) (q : Slice) (outcome action : Nat) : State :=
  if !s.sys.fwRun then s
  else
    let (runs, fails, _, _) := sparseGet (fun _ => (0, 0, 0, 0)) s.adsin.sliceStats q.slice
    let st := (runs + 1, fails + bit (outcome = soFail), outcome, q.target)
    let again := outcome = soExpired ∨ outcome = soSupply ∨ outcome = soOverrun ∨ outcome = soAborted
    let c := sparseGet (fun _ => ({} : Sched)) s.adsin.schedules q.slice
    let c := if c.mask.isEmpty then c
      else if outcome = soNoTarget then
        { c with mask := c.mask.zipIdx.map (fun p => if p.2 = q.target / 16 then p.1 &&& ~~~ half (2 ^ (q.target % 16)) else p.1) }
      else if again ∧ (c.mask.getD (q.target / 16) 0).getLsbD (q.target % 16) then { c with redo := c.redo ++ [q.target] }
      else c
    let s := s.modAdsin (fun a => { a with
      sliceStats := sparseSet (fun _ => (0, 0, 0, 0)) a.sliceStats q.slice st
      schedules := sparseSet (fun _ => {}) a.schedules q.slice c })
    s.event hostChans 9 0x80 [half q.slice, half q.target, half outcome, half action]

/-- A request ends: the result group, DONE and the report. -/
def State.sliceResult (s : State) (q : Slice) (outcome action detail : Nat) : State :=
  let s := s.setReg A.ASSAY_RES_SLICE (assayWord q.slice q.target)
  let s := s.setReg A.ASSAY_RES_OUTCOME (half (action * 256 + outcome))
  let s := s.setReg32 A.ASSAY_RES_DETAIL_LO detail
  (s.raiseEvt F.ASSAY_EVT_DONE 18).assayReport q outcome action

/-- The head leaves the queue. -/
def State.assayPop (s : State) : State :=
  let s := s.modAssay (fun a => { a with queue := a.queue.drop 1, checked := false })
  s.setFld F.ASSAY_STATUS_QUEUED s.assay.queue.length

/-- ASSAY_REQUEST_CHECK (R364). -/
def execAssayRequestCheck (s : State) : Out :=
  .next (match s.assay.queue with
    | (q, _) :: _ =>
      if s.assay.running.isSome ∨ s.assay.checked then s
      else match s.sliceChecks q with
        | some o => s.assayPop.sliceResult q o 0 0
        | none => s.modAssay (fun a => { a with checked := true })
    | [] => s)

/-- REQUEST_EXPIRED (R365). -/
def execRequestExpired (s : State) : Out :=
  .next (match s.assay.queue with
    | (q, n) :: _ =>
      if s.assay.running.isNone ∧ s.assay.checked ∧ (256 ≤ n ∨ (0x10 ≤ q.slice ∧ s.running)) then
        s.assayPop.sliceResult q soExpired 0 0
      else s
    | [] => s)

/-! ## Start (R365 to R367) -/

/-- The conditions of R283 under which a pending level change starts, before the priority of a Plumb session. -/
def State.plWindow (s : State) : Bool :=
  s.sys.plPend.isSome && s.sys.plChange.isNone && (!s.running || (s.flag F.COURSE_STATUS_IW_OPEN && 40 ≤ s.iwRemain)) &&
    s.acState != acPlumb && s.assay.running.isNone && s.sys.sleep == .awake

/-- The target is free. -/
def State.targetFree (s : State) (q : Slice) : Bool :=
  let t := q.target
  if isLaneSlice q.slice then decide (64 ≤ t) || s.laneState t == laneIdle || s.laneState t == laneSearch
  else if q.slice = slAes then !s.crypto.jobs.any (fun j => j.core == t)
  else if q.slice = slLf then decide (s.acState ≤ acIdle) && s.access.burst.isNone && s.access.tuning == 0
  else if isBandSlice q.slice then
    let b := bandOf (t == 1)
    s.flag (F.RFE_STATUS_READY b) && !s.flag (F.RFE_STATUS_TX_ACTIVE b) && (s.rfe b).carriers.isEmpty &&
      s.fld (calPend b .rc) == 0 && s.fld (calPend b .dc) == 0 && s.fld (calPend b .iq) == 0 && (s.rfe b).cal.isNone &&
      !(t == 1 && (s.acState == acPlumb || s.plumbMayStart))
  else if q.slice = slPkeKat then !s.flag F.PKE_STATUS_BUSY
  else true

/-- A checked request may start: a Plumb session and a level change go first (R283, R365). -/
def State.sliceMayStart (s : State) (q : Slice) : Bool :=
  (if q.slice < 0x10 then s.windowFor ((sliceBudget q.slice).getD 0) else !s.running) && s.sys.plChange.isNone &&
    s.sys.sleep == .awake && s.targetFree q && !s.plWindow

/-- SLICE_START (R365): t_AS. -/
def execSliceStart (s : State) : Out :=
  .next (match s.assay.queue with
    | (q, _) :: _ =>
      if s.assay.running.isNone ∧ s.assay.checked ∧ s.sliceMayStart q then
        let s := s.assayPop.modAssay (fun a => { a with running := some q, tAs := s.hft, isolated := false })
        (s.setFlag F.ASSAY_STATUS_RUNNING).count A.ASSAY_CNT_RUN
      else s
    | [] => s)

/-- Bank of an SRAM address (R253). -/
def bankOf (a : Nat) : Nat := bits a 3 1 ^^^ bits a 11 9

/-- The octets of a bank inside the test region. -/
def State.inTest (s : State) (k a : Nat) : Bool :=
  let b := s.effAddr A.ASSAY_REGION_LO
  decide (b ≤ a) && decide (a < b + 0x8000) && bankOf a == k

/-- The halfwords that a march of bank `k` tests. -/
def State.tested (s : State) (k : Nat) : List Nat :=
  ((List.range 0x4000).map (fun i => s.effAddr A.ASSAY_REGION_LO + 2 * i)).filter (s.inTest k)

/-- While a march runs another master reads of each tested halfword what it held or a march value (R369): which is a free value, settled
once, at the start (DESIGN CHOICE, log entry 107). -/
def State.marchRuns (s : State) (k : Nat) : State :=
  forEach (s.tested k) s (fun s a =>
    let (v, s) := s.draw 3
    if v = 0 then s else s.setSramHalf a (if v = 1 then 0 else 0xFFFF))

/-- The tested halfwords of a march hold 0x0000, or each a free one of 0x0000 and 0xFFFF (log entry 2). -/
def State.marchLeaves (s : State) (k : Nat) (known : Bool) : State :=
  let clear : State := { s with sram := s.sram.filter (fun p => !s.inTest k p.1) }
  if known then clear
  else forEach (s.tested k) clear (fun s a => let (v, s) := s.draw 2; s.setSramHalf a (if v = 1 then 0xFFFF else 0))

/-- The target is isolated (R368); ADC_REF measures at gain index 0 (R362). A march begins (R369). -/
def State.isolate (s : State) (q : Slice) : State :=
  let s := s.modAssay (fun a => { a with isolated := true })
  let t := q.target
  if isLaneSlice q.slice then (if t < 64 then s.laneLeave t laneAssay else s)
  else if q.slice = slAes then s.setFld F.CRYPTO_STATUS_OUT (s.fld F.CRYPTO_STATUS_OUT ||| 2 ^ t)
  else if isBandSlice q.slice then
    let b := bandOf (t == 1)
    (s.modRfe b (fun r => { r with muteAssay := true, dcApplied := if q.slice = slAdcRef then 0 else r.dcApplied })).syncMute b
  else if q.slice = slSramMarch then s.marchRuns t
  else s

/-- The running slice is over: its outcome is written. KNOCKs that an LF slice kept waiting are taken, with the driver included or
excluded by then (R368, R371). -/
def State.sliceEnd (s : State) (q : Slice) (outcome action detail : Nat) : State :=
  let s := s.modAssay (fun a => { a with running := none, isolated := false })
  let s := (s.setFlag F.ASSAY_STATUS_RUNNING false).sliceResult q outcome action detail
  if q.slice = slLf then s.takeWaiting else s

/-- SUPPLY_CHECK_END (R367): t_AS + 20 µs; `mv` is what ASSAY measured. -/
def execSupplyCheckEnd (mv : Fin 4096) (s : State) : Out :=
  .next (match s.assay.running with
    | some q =>
      if s.assay.isolated then s
      else
        let s := (s.passTo (s.assay.tAs + us 20)).setReg A.ASSAY_VMAIN (half mv)
        if mv.val < 3100 ∨ 3500 < mv.val then s.sliceEnd q soSupply 0 0 else s.isolate q
    | none => s)

/-! ## Return (R368) -/

/-- The target is re-initialised and returned; a lane's digital gain returns to 0 dB, as at reset (DESIGN CHOICE, log entry 68: no rule
gives it a value there). -/
def State.giveBack (s : State) (q : Slice) (known : Bool) : State :=
  let t := q.target
  let s := s.modAssay (fun a => { a with isolated := false })
  if isLaneSlice q.slice then
    if t < 64 then
      (s.modLane t (fun l => { l with
        dgain := 0, nco := 0, notch := none, frozen := false, thaw := 0, taps := dfeReset, mu := 0 })).setLaneState t laneIdle
    else s
  else if q.slice = slAes then s.setFld F.CRYPTO_STATUS_OUT (s.fld F.CRYPTO_STATUS_OUT &&& (15 - 2 ^ t))
  else if isBandSlice q.slice then
    let b := bandOf (t == 1)
    (s.modRfe b (fun r => { r with muteAssay := false, dcApplied := s.fld (F.RFE_GAIN_GAIN_IDX b) })).syncMute b
  else if q.slice = slSramMarch then s.marchLeaves t known
  else s

/-- The repair record's payload (R373). -/
def State.repairPayload (s : State) : List Half :=
  let phys (n : Nat) : Nat := if s.flag (F.LANE_PHYS_WITHDRAWN n) then 0x7F else s.fld (F.LANE_PHYS_PHYS n)
  [2] ++ (List.range 32).map (fun j => half (phys (2 * j + 1) * 256 + phys (2 * j))) ++
    (List.range 5).map (fun i => s.reg (A.ASSAY_LANE_FAIL i)) ++ [half (s.fld F.CRYPTO_STATUS_FENCED)]

/-- REPAIR_RECORD_WRITE (R372, R373). -/
def State.repairRecord (s : State) : State :=
  let q := (s.assay.repairSeq + 1) % 65536
  s.modAssay (fun a => { a with repairSeq := q, repairOut := a.repairOut ++ [(s.repairPayload, half q)] })

/-- SLICE_REPAIR (R371): a failed slice repairs; the ACTION. `short` says which fault an LF slice found. -/
def State.sliceRepair (s : State) (q : Slice) (short : Bool) : Nat × State :=
  let t := q.target
  if isLaneSlice q.slice then
    if t < 64 then
      let s := s.markFailed (s.fld (F.LANE_PHYS_PHYS t))
      match s.freeSpare with
      | some p => (1, (s.laneRemap t p).repairRecord)
      | none => (2, (s.laneWithdraw t).repairRecord)
    else (3, (s.markFailed t).repairRecord)
  else if q.slice = slAes then
    if s.fld F.ID_CAPS1_AES_ACTIVE ≤ 1 then (0, s)
    else
      let s := s.setFld F.CRYPTO_STATUS_FENCED (s.fld F.CRYPTO_STATUS_FENCED ||| 2 ^ t)
      (4, (s.setFld F.ID_CAPS1_AES_ACTIVE (s.fld F.ID_CAPS1_AES_ACTIVE - 1)).repairRecord)
  else if q.slice = slLf then (5, s.lfFault (if short then F.LF_STATUS_SHORT else F.LF_STATUS_OPEN) t)
  else if q.slice = slAdcRef then (6, s.calRequest (bandOf (t == 1)) .dc)
  else if isBandSlice q.slice then (6, s.calRequest (bandOf (t == 1)) .iq)
  else (0, s)

/-- DETAIL of a slice that ran (chapter 15 "ASSAY registers"): the failing address of a march, the counts of a scan. -/
def State.sliceDetail (s : State) (q : Slice) (pass : Bool) (d : Nat) : Nat :=
  if q.slice = slSramMarch then (if pass then 0 else d % 2 ^ 24)
  else if q.slice = slMramScan then
    let lo := 0x800000 + 0x10000 * q.target
    min 65535 (s.mramCorrected lo (lo + 0x10000)) + 65536 * min 65535 (s.mramBad.filter (fun a => lo ≤ a && a < lo + 0x10000)).length
  else 0

/-- What the reads of a scan leave in NVMC (R266). -/
def State.scanNotes (s : State) (q : Slice) : State :=
  if q.slice = slMramScan then s.eccNote (0x800000 + 0x10000 * q.target) (0x800000 + 0x10000 * q.target + 0x10000) else s

/-- Deviations are within a bound. -/
def allWithin (bound : Nat) (l : List Int) : Bool := l.all (fun x => x.natAbs ≤ bound)

/-- A slice passes (R362): its patterns and known answers match, `ok`, and what it measured lies within the limits: for LF the current
against the reference in 0.1 %, for ADC_REF the reference against the bandgap in 0.01 %, for IQ_LOOP the image rejection in 0.01 dB, for
TX_LOOP the levels of the 16 carriers in 0.01 dBm against the carrier level of R49. -/
def State.slicePass (s : State) (q : Slice) (ok : Bool) (m : List Int) : Bool :=
  ok && (if q.slice = slLf then allWithin 100 m
    else if q.slice = slAdcRef then allWithin 50 m
    else if q.slice = slIqLoop then m.all (5800 ≤ ·)
    else if q.slice = slTxLoop then
      m.length == 16 && allWithin 100 (m.map (· - 25 * toSigned 9 (s.fld (F.RFE_TX_CARRIER_LEVEL (bandOf (q.target == 1))))))
    else true)

/-- A slice comes to its return at `t`: the band of a slice is unmuted 30 µs before (R368). -/
def State.returnAt (s : State) (q : Slice) (t : Nat) : State :=
  let b := bandOf (q.target == 1)
  let s := if isBandSlice q.slice then
      let s := s.passTo (t - us 30)
      let s := (s.modRfe b (fun r => { r with muteAssay := false, dcApplied := s.fld (F.RFE_GAIN_GAIN_IDX b) })).syncMute b
      if s.muted b then s else s.modRfe b (fun r => { r with lastUnmute := t - us 30, clipFrom := t - us 30 })
    else s
  s.passTo t

/-- SLICE_RETURN (R368, R371): the test has ended, within the slice's budget. `m`: what it found (R362); `d`: the failing
address of a march; `short`: an LF slice found a short. A band is unmuted with the command and returned 30 µs on, or at the end of the
budget where that comes first (DESIGN CHOICE, log entry 107). -/
def execSliceReturn (m : Measured) (d : BitVec 24) (short : Bool) (s : State) : Out :=
  .next (match s.assay.running with
    | some q =>
      let last := s.assay.tAs + us ((sliceBudget q.slice).getD 0)
      if !s.assay.isolated ∨ last < s.hft then s
      else
        let pass := s.slicePass q m.ok m.levels
        let detail := s.sliceDetail q pass d.toNat
        let s := ((s.returnAt q (if isBandSlice q.slice then min (s.hft + us 30) last else s.hft)).giveBack q true).scanNotes q
        if pass then s.sliceEnd q soPass 0 detail
        else
          let (a, s) := s.sliceRepair q short
          (s.count A.ASSAY_CNT_FAIL).sliceEnd q soFail a detail
    | none => s)

/-- SLICE_OVERRUN (R368): at t_AS + B − 10 µs. -/
def execSliceOverrun (s : State) : Out :=
  .next (match s.assay.running with
    | some q =>
      if !s.assay.isolated then s
      else ((s.returnAt q (s.assay.tAs + us ((sliceBudget q.slice).getD 0 - 10))).giveBack q false).sliceEnd q soOverrun 0 0
    | none => s)

/-- SLICE_ABORT (R370). -/
def State.sliceAbort (s : State) : State :=
  match s.assay.running with
  | some q => (if s.assay.isolated then s.giveBack q true else s).sliceEnd q soAborted 0 0
  | none => s

/-- A write of ASSAY_CTRL: EN = 0 aborts the slice and empties the queue (R370). -/
def State.assayCtrlWrite (s : State) (w : Half) : State :=
  let s := s.plainWrite A.ASSAY_CTRL w
  if w.getLsbD 0 then s
  else
    let s := s.modAssay (fun a => { a with queue := [], checked := false })
    (s.setFld F.ASSAY_STATUS_QUEUED 0).sliceAbort

/-- ASSAY_DISABLE (R370). -/
def execAssayDisable (s : State) : Out := .next (s.assayCtrlWrite 0)

/-! ## Schedules (R374) -/

/-- The targets of a mask, lowest first. -/
def maskTargets (m : List Half) : List Nat := (List.range 80).filter (fun t => (m.getD (t / 16) 0).getLsbD (t % 16))

/-- The next target of a schedule, and the schedule after its request. -/
def Sched.next (c : Sched) : Option (Nat × Sched) :=
  match c.redo with
  | t :: l => some (t, { c with redo := l })
  | [] =>
    let ts := maskTargets c.mask
    let above := match c.last with | some l => ts.filter (l < ·) | none => ts
    match above, ts with
    | t :: _, _ => some (t, { c with last := some t })
    | [], t :: _ => some (t, { c with last := some t })
    | [], [] => none

/-- ASSAY_SCHEDULE_TICK (R374): PERIOD courses of the schedule of a slice have gone by since its last request. -/
def execAssayScheduleTick (slice : Byte) (s : State) : Out :=
  let c := sparseGet (fun _ => ({} : Sched)) s.adsin.schedules slice.toNat
  .next (if !s.sys.fwRun ∨ c.period = 0 ∨ c.gone < c.period then s
    else match Sched.next { c with gone := 0 } with
      | some (t, c) =>
        (s.modAdsin (fun a => { a with schedules := sparseSet (fun _ => {}) a.schedules slice.toNat c })).assayCmdWrite
          (assayWord slice.toNat t)
      | none => s)

end Sys2Proof.Machine
end

