-- ==== Sys2Proof/Machine/Curve.lean ====
section
/-! DEFINITION. NIST P-256: points, ECDSA and ECDH, as chapter 06 names them (PRESUMED, log entry 23). -/
namespace Sys2Proof.Machine

/-- The field prime. -/
def p256 : Nat := 0xFFFFFFFF00000001000000000000000000000000FFFFFFFFFFFFFFFFFFFFFFFF
/-- The group order. -/
def n256 : Nat := 0xFFFFFFFF00000000FFFFFFFFFFFFFFFFBCE6FAADA7179E84F3B9CAC2FC632551
/-- The coefficient b; a is −3. -/
def b256 : Nat := 0x5AC635D8AA3A93E7B3EBBD55769886BC651D06B0CC53B0F63BCE3C3E27D2604B
/-- The base point. -/
def g256 : Nat × Nat :=
  (0x6B17D1F2E12C4247F8BCE6E563A440F277037D812DEB33A0F4A13945D898C296,
   0x4FE342E2FE1A7F9B8EE7EB4A7C0F9E162BCE33576B315ECECBB6406837BF51F5)

/-- `b ^ e mod m`, the low `n` bits of the exponent. -/
def powMod (m : Nat) : Nat → Nat → Nat → Nat
  | 0, _, _ => 1 % m
  | n + 1, b, e =>
    let r := powMod m n (b * b % m) (e / 2)
    if e % 2 = 1 then r * b % m else r

/-- The inverse modulo a prime of 256 bits. -/
def invMod (m a : Nat) : Nat := powMod m 256 (a % m) (m - 2)

/-- Difference modulo `m`. -/
def subMod (m a b : Nat) : Nat := (a + (m - b % m)) % m

/-- A point of the curve; `none` is the point at infinity. -/
abbrev Point := Option (Nat × Nat)

/-- Addition of points. -/
def addPoint (a b : Point) : Point :=
  match a, b with
  | none, q => q
  | q, none => q
  | some (x1, y1), some (x2, y2) =>
    if x1 = x2 ∧ (y1 + y2) % p256 = 0 then none
    else
      let l := if x1 = x2 then (3 * x1 * x1 + (p256 - 3)) * invMod p256 (2 * y1) % p256
        else subMod p256 y2 y1 * invMod p256 (subMod p256 x2 x1) % p256
      let x := subMod p256 (l * l) (x1 + x2)
      some (x, subMod p256 (l * subMod p256 x1 x) y1)

/-- A multiple of a point, by the low `n` bits of the scalar. -/
def mulPoint : Nat → Nat → Point → Point
  | 0, _, _ => none
  | n + 1, k, q =>
    let r := mulPoint n (k / 2) (addPoint q q)
    if k % 2 = 1 then addPoint r q else r

/-- The multiple of the base point. -/
def mulBase (k : Nat) : Point := mulPoint 256 k (some g256)

/-- A pair of coordinates is a point of the curve, the point at infinity excluded. -/
def onCurve (x y : Nat) : Bool :=
  x < p256 && y < p256 && y * y % p256 == (x * x % p256 * x + (p256 - 3) * x + b256) % p256

/-- ECDSA verification of a digest under a public point. -/
def ecdsaVerify (q : Nat × Nat) (digest r s : Nat) : Bool :=
  if 0 < r ∧ r < n256 ∧ 0 < s ∧ s < n256 ∧ onCurve q.1 q.2 then
    let w := invMod n256 s
    match addPoint (mulBase (digest * w % n256)) (mulPoint 256 (r * w % n256) (some q)) with
    | some (x, _) => x % n256 == r
    | none => false
  else false

/-- ECDSA signature of a digest with private key `d` and per-signature secret `k`. -/
def ecdsaSign (d digest k : Nat) : Nat × Nat :=
  match mulBase k with
  | some (x, _) => (x % n256, invMod n256 k * (digest + x % n256 * d) % n256)
  | none => (0, 0)

end Sys2Proof.Machine
end

