-- ==== Sys2Proof/Machine/Keys.lean ====
section
/-! DEFINITION. KEYS, PKE and the TRNG: the ladder, key slots, wrapped import, life-cycle changes, public-key
operations, random numbers (R163 to R178). The end of a life-cycle transition follows in another file. -/
namespace Sys2Proof.Machine

/-! ## Choices the spec leaves open -/

/-- One of several codes that apply at once, where the spec gives no order: a free choice (log entry 2). -/
def State.pickCode (s : State) (l : List Nat) : Option Nat × State :=
  match l with
  | [] => (none, s)
  | [a] => (some a, s)
  | _ => let (i, s) := s.draw l.length; (l[i]?, s)

/-- The codes whose condition holds. -/
def failing (l : List (Bool × Nat)) : List Nat := (l.filter (·.1)).map (·.2)

/-! ## The identity keys (R170) -/

/-- The identity private key of a state code, none without a Keystone (R170). -/
def State.identityKey (s : State) (code : Nat) : Option Nat :=
  s.root.map (fun r => beNat (kdfN r [0x43, 0x5A, 0x49, 0x44] (byte code :: s.euiOctets) 3) % (n256 - 1) + 1)

/-- The public identity key x ‖ y of a state code; zeros without a Keystone. -/
def State.identityPub (s : State) (code : Nat) : List Byte :=
  match (s.identityKey code).bind mulBase with
  | some (x, y) => beOctets 32 x ++ beOctets 32 y
  | none => List.replicate 64 0

/-! ## Attributes and loads (R171, R172) -/

/-- Attributes of a load: ATTR0, ATTR1, USES. -/
structure Attrs where
  a0 : Half
  a1 : Half
  uses : Nat
  deriving DecidableEq, Repr

/-- Four attribute words of an SRAM block (DESIGN CHOICE, log entry 33: USES low word first). -/
def attrsOf (ws : List Half) : Attrs := ⟨ws.getD 0 0, ws.getD 1 0, wordAt ws 2 + 65536 * wordAt ws 3⟩

/-- Octets of a key by KIND. -/
def keyLen (kind : Nat) : Nat := if kind = 1 then 16 else 32

/-- KIND of attributes. -/
def Attrs.kind (x : Attrs) : Nat := bits x.a0.toNat 15 14

/-- The attributes break a rule of R172 in a life-cycle state. -/
def Attrs.bad (x : Attrs) (state : Nat) : Bool :=
  let k := x.kind
  let expire := x.a0.getLsbD 13
  let nctr := x.a0.getLsbD 12
  let cipher := x.a0.getLsbD 8
  let mac := x.a0.getLsbD 9
  let derive := x.a0.getLsbD 10
  let pk := x.a0.getLsbD 11
  let masters := bits x.a1.toNat 8 0
  let vaultNamed := x.a1 &&& 0x183 != 0
  let openNamed := x.a1 &&& 0x07C != 0
  let ashlar := x.a1.getLsbD 7
  k = 0 || x.a0.getLsbD 5 || bits x.a1.toNat 15 9 != 0 ||
    (!expire && x.uses = 0) || (expire && x.uses != 0) ||
    (nctr && (expire || !mac || k = 3)) || ((cipher || mac || derive) && k = 3) || (pk && k != 3) ||
    masters = 0 || (vaultNamed && !x.a0.getLsbD 6) || (openNamed && !x.a0.getLsbD 7) ||
    (ashlar && (k != 1 || cipher || mac || derive || pk)) ||
    !x.a0.getLsbD state || x.a0 &&& 0x19 != 0

/-- A slot loaded with a key: U = F = USES, C = L = 0 (R161). -/
def Attrs.slot (x : Attrs) (key : List Byte) : Slot :=
  { attr0 := x.a0, attr1 := x.a1, uses := x.uses, key := key, u := x.uses, f := x.uses, c := 0, l := 0 }

/-- Load a slot; a COUNT slot has its store entry written first (R174, R177). -/
def State.loadSlot (s : State) (n : Nat) (k : Slot) : State :=
  (if k.counted then s.storeSlot n k else s).setSlot n k

/-! ## KEYS commands (R173 to R178) -/

/-- RESULT codes of KEYS. -/
abbrev kDone : Nat := 0
abbrev kBadOp : Nat := 1
abbrev kBadSlot : Nat := 2
abbrev kBadAttr : Nat := 3
abbrev kAuth : Nat := 4
abbrev kStale : Nat := 5
abbrev kWrongDev : Nat := 6
abbrev kBadPoint : Nat := 7
abbrev kDenied : Nat := 8
abbrev kBusErr : Nat := 9
abbrev kBadForm : Nat := 10

/-- KEYS takes PKE when a command needs it, an IMPORT or an LC_CHANGE that is still to be judged, and no operation is in
progress (R165). -/
def State.keysHold (s : State) : State :=
  match s.keys.cmd with
  | some c =>
    if (c.op = 1 ∨ (c.op = 8 ∧ !c.refused)) ∧ s.pke.cmd.isNone then (s.modPke (fun p => { p with held := true })).setFlag F.PKE_STATUS_BUSY
    else s
  | none => s

/-- IMPORT: the checks of R177 in order. No blob is as long as KIND EMPTY asks; a destination slot above 63 is taken as a
bad form (DESIGN CHOICE, log entry 33). -/
def State.keysImport (s : State) (args : List Half) : Nat × State :=
  let a := wordAt args 1 + 65536 * (wordAt args 2 % 256)
  if !inSram a 120 then (kBusErr, s)
  else
    let b := s.sramTake a 136
    let x : Attrs := ⟨half (beNat (slice b 2 2)), half (beNat (slice b 4 2)), beNat (slice b 6 4)⟩
    let n := (octAt b 1).toNat
    let klen := keyLen x.kind
    let seq := beNat (slice b 18 4)
    let qx := beNat (slice b 24 32)
    let qy := beNat (slice b 56 32)
    if octAt b 0 ≠ 1 ∨ beNat (slice b 22 2) ≠ 0 ∨ 64 ≤ n ∨ x.kind = 0 then (kBadForm, s)
    else if klen = 32 ∧ !inSram a 136 then (kBusErr, s)
    else if slice b 10 8 ≠ s.euiOctets then (kWrongDev, s)
    else if seq ≤ s.importSeq then (kStale, s)
    else if x.bad s.lcState then (kBadAttr, s)
    else if (s.slot n).kind ≠ 0 then (kBadSlot, s)
    else if !onCurve qx qy then (kBadPoint, s)
    else match s.identityKey s.lcState with
      | none => (kDenied, s)
      | some d =>
        let z := match mulPoint 256 d (some (qx, qy)) with | some (zx, _) => beOctets 32 zx | none => []
        let fix (i : Byte) : List Byte := [i] ++ [0x43, 0x5A, 0x49, 0x4D] ++ [0x00] ++ slice b 0 24 ++ [0x01, 0x00]
        let kek := cmac z (fix 1) ++ cmac z (fix 2)
        let nonce := slice b 10 8 ++ slice b 18 4 ++ [0x00]
        let m := ccmCrypt kek nonce (slice b 88 klen)
        if ccmTag kek nonce (slice b 0 88) m 16 ≠ slice b (88 + klen) 16 then (kAuth, s)
        else (kDone, (s.loadSlot n (x.slot m)).storeWrite stSeq [half seq, half (seq / 65536)])

/-- The refusals that apply to a DERIVE (R173). The code, BADSLOT or DENIED, for a COUNT source with no use left to consume is a free
one of the two (log entry 2). -/
def State.deriveFaults (s : State) (core : Nat) (args : List Half) : List Nat :=
  let a := wordAt args 1 + 65536 * (wordAt args 2 % 256)
  let k := s.slot (bits (wordAt args 0) 5 0)
  let dst := bits (wordAt args 0) 13 8
  let len := (octAt (s.sramTake a 42) 8).toNat
  let x := attrsOf (s.sramWords a 4)
  let within := (x.a1 &&& ~~~ k.attr1) == 0 && (x.a0 &&& 0x0FDF &&& ~~~ k.attr0) == 0
  failing [
    (!inSram a 9 || !inSram a (9 + len), kBusErr),
    (len = 0 || 32 < len, kBadForm),
    (k.kind = 0 || (s.slot dst).kind != 0 || (k.counted && k.u = 0), kBadSlot),
    (k.kind = 3 || !k.attr0.getLsbD 10 || !s.slotAdmits k core || (k.counted && k.u = 0), kDenied),
    (x.bad s.lcState || !within || (!x.a0.getLsbD 13 && !k.counted), kBadAttr)]

/-- DERIVE (R173), the lease that its use needs being committed. Where several refusals apply the choice among them is free (log
entry 2). -/
def State.keysDerive (s : State) (core : Nat) (args : List Half) : Nat × State :=
  let a := wordAt args 1 + 65536 * (wordAt args 2 % 256)
  let src := bits (wordAt args 0) 5 0
  let dst := bits (wordAt args 0) 13 8
  let k := s.slot src
  let b := s.sramTake a 42
  let len := (octAt b 8).toNat
  let x := attrsOf (s.sramWords a 4)
  let (code, s) := s.pickCode (s.deriveFaults core args)
  match code with
  | some c => (c, s)
  | none =>
    let bits' := 8 * keyLen x.kind
    let label := slice b 9 len
    let key := (List.range (keyLen x.kind / 16)).flatMap (fun i =>
      cmac k.key ([byte (i + 1)] ++ label ++ [0x00] ++ s.euiOctets ++ beOctets 2 bits'))
    (kDone, ((s.takeUse src).loadSlot dst (x.slot key)).lastUseDestroy)

/-- GENERATE (R173): an AES key from the DRBG. -/
def State.keysGenerate (s : State) (args : List Half) : Nat × State :=
  let a := wordAt args 1 + 65536 * (wordAt args 2 % 256)
  let dst := bits (wordAt args 0) 13 8
  let x := attrsOf (s.sramWords a 4)
  let (code, s) := s.pickCode (failing [
    (!inSram a 8, kBusErr), ((s.slot dst).kind != 0, kBadSlot), (x.bad s.lcState || x.kind = 3, kBadAttr)])
  match code with
  | some c => (c, s)
  | none =>
    let (key, s) := s.drbg (keyLen x.kind)
    (kDone, s.loadSlot dst (x.slot key))

/-- TRANSFER (R173): the code for a slot without ASHLAR in MASTERS is not given; it is a free one of BADSLOT, BADATTR
and DENIED (log entry 2). -/
def State.keysTransfer (s : State) (args : List Half) : Nat × State :=
  let n := bits (wordAt args 0) 5 0
  let t := bits (wordAt args 3) 11 0
  let k := s.slot n
  if k.kind = 0 then (kBadSlot, s)
  else if !k.attr1.getLsbD 7 then
    let (c, s) := s.pickCode [kBadSlot, kBadAttr, kDenied]
    (c.getD kDenied, s)
  else
    let s := s.modTenant t (fun t => { t with root := some k.key, epoch := 0 })
    (kDone, (s.storeSeal (stRoot t) k.key).destroySlot n)

/-- DROP (R173). -/
def State.keysDrop (s : State) (args : List Half) : Nat × State :=
  let t := bits (wordAt args 3) 11 0
  let s := s.modTenant t (fun t => { t with root := none })
  (kDone, s.storeErase (stRoot t) (stRoot t + 1))

/-- KEYS refuses a command with DENIED: without its Keystone, and outside PROVISION and DEPLOYED, all but LC_NONCE and
LC_CHANGE (R169, chapter 06 "Life cycle"). -/
def State.keysRefuses (s : State) (op : Nat) : Bool :=
  1 ≤ op && op ≤ 6 && (s.flag F.KEYS_STATUS_KS_LOST || (s.lcState != 1 && s.lcState != 2))

/-- The work of a command: its RESULT and effect. An LC_CHANGE that comes here has been refused. -/
def State.keysAct (s : State) (c : KeysCmd) : Nat × State :=
  if s.keysRefuses c.op then (kDenied, s)
  else match c.op with
    | 1 => s.keysImport c.args
    | 2 => s.keysDerive c.core c.args
    | 3 => s.keysGenerate c.args
    | 4 =>
      let n := bits (wordAt c.args 0) 5 0
      if (s.slot n).kind = 0 then (kBadSlot, s) else (kDone, s.destroySlot n)
    | 5 => s.keysTransfer c.args
    | 6 => s.keysDrop c.args
    | 7 =>
      let (o, s) := s.drbg 16
      (kDone, s.modKeys (fun k => { k with nonce := some o }))
    | 8 => (kDenied, s)
    | _ => (kBadOp, s)

/-- The lease that a command needs first: the use of a DERIVE that nothing refuses (R161, R173). -/
def State.keysNeeds (s : State) (c : KeysCmd) : Option (Nat × Nat × Nat) :=
  let n := bits (wordAt c.args 0) 5 0
  if c.op = 2 ∧ !s.keysRefuses 2 ∧ (s.deriveFaults c.core c.args).isEmpty then
    ((s.slot n).leaseNeed true false).map (fun l => (n, l.1, l.2))
  else none

/-- A command runs: its lease is committed, and it ends with its RESULT; or the commit fails, and the command waits for a retry as a
job does (R161; DESIGN CHOICE, log entry 107). -/
def State.keysRun (s : State) (c : KeysCmd) : Option Nat × State :=
  let (ok, s) := match s.keysNeeds c with | some (n, f, l) => s.leaseTake n f l | none => (true, s)
  if ok then
    let (r, s) := s.keysAct c
    (some r, s)
  else (none, s)

/-- A command that may write the stores, through NVMC (R277). -/
def KeysCmd.stores (c : KeysCmd) : Bool := 1 ≤ c.op && c.op ≤ 6

/-- A command waits: for the DRBG, for PKE, or for the jobs that hold its slot (R165, R167, R174). An LC_CHANGE waits until it
has been judged. -/
def State.keysWaits (s : State) (c : KeysCmd) : Bool :=
  ((c.op = 3 || c.op = 7) && !s.drbgReady) || (c.op = 1 && !s.pke.held) || (c.op = 8 && !c.refused) ||
    ((c.op = 4 || c.op = 5) && s.slotHeld (bits (wordAt c.args 0) 5 0))

/-- The nonce's words as they read. -/
def State.nonceWords (s : State) : List Half :=
  match s.keys.nonce with | some o => packWords o | none => List.replicate 8 0

/-- KEYS has no more to hand to NVMC for a command; a lease of a job keeps the port. -/
def State.keysUnport (s : State) : State := if s.keys.commit.isSome then s else s.unport .keys

/-- KEYS_CMD_DONE (R174): a command that may write the stores ends in its turn at NVMC (R277). -/
def execKeysCmdDone (s : State) : Out :=
  .next (match s.keys.cmd with
    | none => s
    | some c =>
      let was := s.rootUsable s.access.sess.slot
      if s.keysWaits c || (c.stores && !s.keysMayWrite) then s
      else match s.keysRun c with
      | (none, s) => s.keysUnport
      | (some r, s) =>
        let s := s.modKeys (fun k => { k with cmd := none })
        let s := if c.stores then s.keysUnport else s
        let s := if c.op = 1 then (s.modPke (fun p => { p with held := false })).setFlag F.PKE_STATUS_BUSY false else s
        let s := (s.setFld F.KEYS_STATUS_RESULT r).setFlag F.KEYS_STATUS_BUSY false
        let s := (s.raise 8).accessRootCheck was
        if r = kDone then s.complete .keys stOk 0 (if c.op = 7 then s.nonceWords else [])
        else s.complete .keys stFail r [])

/-- The message an owner signs to allow a change (R178): "CZLC" ‖ EUI-64 ‖ from ‖ to ‖ nonce. -/
def State.changeMessage (s : State) (target : Nat) (nonce : List Byte) : List Byte :=
  [0x43, 0x5A, 0x4C, 0x43] ++ s.euiOctets ++ [byte s.lcState, byte target] ++ nonce

/-- An owner's signature in SRAM allows DEPLOYED → RETURN (R178). -/
def State.ownerSigned (s : State) (args : List Half) (target : Nat) : Bool :=
  let a := wordAt args 1 + 65536 * (wordAt args 2 % 256)
  match s.update.owner, s.keys.nonce with
  | some q, some n =>
    let g := s.sramTake a 64
    inSram a 64 && ecdsaVerify (beNat (slice q 0 32), beNat (slice q 32 32)) (beNat (sha256 (s.changeMessage target n)))
      (beNat (slice g 0 32)) (beNat (slice g 32 32))
  | _, _ => false

/-- The transition signature of PROVISION → DEPLOYED (R178): SHA-256("CZT1" ‖ EUI-64 ‖ 0x01 ‖ 0x02 ‖ new public
identity key) under the PROVISION identity key. The per-signature secret is drawn from the DRBG. -/
def State.transitionCert (s : State) : List Byte × State :=
  let (o, s) := s.drbg 48
  match s.identityKey 1 with
  | some d =>
    let h := sha256 ([0x43, 0x5A, 0x54, 0x31] ++ s.euiOctets ++ [0x01, 0x02] ++ s.identityPub 2)
    let (r, g) := ecdsaSign d (beNat h) (beNat o % (n256 - 1) + 1)
    (beOctets 32 r ++ beOctets 32 g, s)
  | none => ([], s)

/-- A transition of R178 that KEYS makes. -/
def State.lcAllowed (s : State) (args : List Half) (target : Nat) : Bool :=
  match s.lcState, target with
  | 1, 2 | 1, 4 | 3, 4 => true
  | 2, 3 => s.ownerSigned args 3
  | _, _ => false

/-- A transition begins (R180): the transition signature is made, and every secured frame receives NOTENANT. A session and a
slice are aborted (R182, R370), and a request of LC_CHANGE is answered (R341). The records and the destructions are written by the time LC_TRANSITION_DONE comes; a reset
before that cuts their order. -/
def State.lcBegin (s : State) (target : Nat) : State :=
  let s := s.accessAbort.sliceAbort
  let (cert, s) := if target = 2 then s.transitionCert else ([], s)
  (s.modKeys (fun k => { k with lcPhase := .running target cert, cmd := none })).complete .keys stOk 0 []

/-- KEYS judges an LC_CHANGE once it holds PKE, and for a change to DEPLOYED once the DRBG can give the signature's secret
(R165, R167): the change consumes the nonce, and begins or is refused (R178). -/
def State.keysJudge (s : State) : State :=
  match s.keys.cmd with
  | some c =>
    let target := bits (wordAt c.args 0) 2 0
    let ok := s.lcAllowed c.args target
    if c.op ≠ 8 ∨ c.refused ∨ !s.pke.held ∨ (ok ∧ target = 2 ∧ !s.drbgReady) then s
    else
      let s := s.modKeys (fun k => { k with nonce := none })
      if ok then s.lcBegin target
      else
        let s := (s.modPke (fun p => { p with held := false })).setFlag F.PKE_STATUS_BUSY false
        s.modKeys (fun k => { k with cmd := some { c with refused := true } })
  | none => s

/-- A write of KEYS_CMD by a Lintel core (R173, R174). -/
def State.keysCmdWrite (s : State) (core op : Nat) : State :=
  if s.flag F.KEYS_STATUS_BUSY then s.setFlag F.KEYS_STATUS_CMD_ERR
  else
    let args := (List.range 4).map (fun i => s.reg (A.KEYS_ARG i))
    let s := s.setFlag F.KEYS_STATUS_BUSY
    (s.modKeys (fun k => { k with cmd := some { op := op, core := core, args := args } })).keysHold.keysJudge

/-- KEYS_IMPORT (R173, R177). -/
def execKeysImport (c : Fin 2) (s : State) : Out := .next (s.keysCmdWrite c 1)
/-- KEYS_DERIVE (R173). -/
def execKeysDerive (c : Fin 2) (s : State) : Out := .next (s.keysCmdWrite c 2)
/-- KEYS_GENERATE (R173). -/
def execKeysGenerate (c : Fin 2) (s : State) : Out := .next (s.keysCmdWrite c 3)
/-- KEYS_DESTROY (R173). -/
def execKeysDestroy (c : Fin 2) (s : State) : Out := .next (s.keysCmdWrite c 4)
/-- KEYS_TRANSFER (R173). -/
def execKeysTransfer (c : Fin 2) (s : State) : Out := .next (s.keysCmdWrite c 5)
/-- KEYS_DROP (R173). -/
def execKeysDrop (c : Fin 2) (s : State) : Out := .next (s.keysCmdWrite c 6)
/-- KEYS_LC_NONCE (R173). -/
def execKeysLcNonce (c : Fin 2) (s : State) : Out := .next (s.keysCmdWrite c 7)
/-- KEYS_LC_CHANGE (R178, R180). -/
def execKeysLcChange (c : Fin 2) (s : State) : Out := .next (s.keysCmdWrite c 8)
/-- KEYS_BADOP (R173): a command code that the table does not list. -/
def execKeysBadop (c : Fin 2) (op : Fin 16) (s : State) : Out :=
  .next (if 1 ≤ op.val ∧ op.val ≤ 8 then s else s.keysCmdWrite c op)

/-! ## PKE (R163 to R165) -/

/-- RESULT codes of PKE. -/
abbrev pDone : Nat := 0
abbrev pValid : Nat := 1
abbrev pInvalid : Nat := 2
abbrev pBadPoint : Nat := 3
abbrev pBadSlot : Nat := 4
abbrev pDenied : Nat := 5
abbrev pBadOp : Nat := 6
abbrev pOrder : Nat := 7
abbrev pBusErr : Nat := 8
abbrev pBadAttr : Nat := 9

/-- A 256-bit operand of the window, word 0 the most significant. -/
def State.pkeOp (s : State) (w : Nat → Nat) : Nat := (List.range 16).foldl (fun a i => a * 65536 + s.regN (w i)) 0

/-- Put a 256-bit operand. -/
def State.setPkeOp (s : State) (w : Nat → Nat) (v : Nat) : State :=
  forEach (List.range 16) s (fun s i => s.setReg (w i) (half (v / 2 ^ (16 * (15 - i)))))

/-- A private key slot refuses a requester (R164): KIND, then PK and the DENIED tests. -/
def State.pkeSlotFaults (s : State) (c : PkeCmd) : List (Bool × Nat) :=
  let k := s.slot c.slot
  [(k.kind != 3, pBadSlot), (k.kind = 3 && (!k.attr0.getLsbD 11 || !s.slotAdmits k c.core), pDenied)]

/-- SHA_UPDATE. -/
def State.pkeUpdate (s : State) (c : PkeCmd) : Nat × State :=
  let (code, s) := s.pickCode (failing [(s.pke.sha.isNone, pOrder), (!inSram c.arg c.len, pBusErr)])
  match code, s.pke.sha with
  | none, some h =>
    let m := h.buf ++ s.sramTake c.arg c.len
    let (w, rest) := shaBlocks (m.length / 64) h.h m
    (pDone, s.modPke (fun p => { p with sha := some ⟨w, rest, h.len + c.len⟩ }))
  | some e, _ => (e, s)
  | none, none => (pOrder, s)

/-- SHA_FINAL. -/
def State.pkeFinal (s : State) : Nat × State :=
  match s.pke.sha with
  | none => (pOrder, s)
  | some h =>
    let s := s.setPkeOp A.PKE_HASH (beNat (shaFinish h.h h.buf h.len))
    (pDone, s.modPke (fun p => { p with sha := none }))

/-- SIGN: the per-signature secret comes from the DRBG (R163). -/
def State.pkeSign (s : State) (c : PkeCmd) : Nat × State :=
  let (code, s) := s.pickCode (failing (if c.ident then [((s.identityKey s.lcState).isNone, pDenied)] else s.pkeSlotFaults c))
  match code with
  | some e => (e, s)
  | none =>
    let d := if c.ident then (s.identityKey s.lcState).getD 0 else beNat (s.slot c.slot).key
    let (o, s) := s.drbg 48
    let (r, g) := ecdsaSign d (s.pkeOp A.PKE_HASH) (beNat o % (n256 - 1) + 1)
    (pDone, (s.setPkeOp A.PKE_R r).setPkeOp A.PKE_S g)

/-- ECDH: Z goes to slot DSLOT (R164). Without its Keystone KEYS loads no slot, and refuses with DENIED (R169). -/
def State.pkeEcdh (s : State) (c : PkeCmd) : Nat × State :=
  if c.ident ∨ s.flag F.KEYS_STATUS_KS_LOST then (pDenied, s)
  else
    let qx := s.pkeOp A.PKE_QX
    let qy := s.pkeOp A.PKE_QY
    if !onCurve qx qy then (pBadPoint, s)
    else
      let (code, s) := s.pickCode (failing (((s.slot c.dslot).kind != 0, pBadSlot) :: s.pkeSlotFaults c))
      match code with
      | some e => (e, s)
      | none =>
        let k := s.slot c.slot
        let z := match mulPoint 256 (beNat k.key) (some (qx, qy)) with | some (x, _) => beOctets 32 x | none => []
        let a0 := half (0x8000 + 0x2000 + 0x0400) ||| (k.attr0 &&& 0x00DF)
        (pDone, s.loadSlot c.dslot { attr0 := a0, attr1 := k.attr1, key := z })

/-- KEYGEN; without its Keystone KEYS loads no slot, and refuses with DENIED (R169). -/
def State.pkeKeygen (s : State) (c : PkeCmd) : Nat × State :=
  let x := attrsOf (s.sramWords c.arg 4)
  let (code, s) := s.pickCode (failing [
    (s.flag F.KEYS_STATUS_KS_LOST, pDenied), (!inSram c.arg 8, pBusErr), ((s.slot c.slot).kind != 0, pBadSlot), (x.bad s.lcState || x.kind != 3, pBadAttr)])
  match code with
  | some e => (e, s)
  | none =>
    let (o, s) := s.drbg 48
    let d := beNat o % (n256 - 1) + 1
    let (qx, qy) := (mulBase d).getD (0, 0)
    let s := s.loadSlot c.slot (x.slot (beOctets 32 d))
    (pDone, (s.setPkeOp A.PKE_QX qx).setPkeOp A.PKE_QY qy)

/-- The work of a PKE operation. -/
def State.pkeAct (s : State) (c : PkeCmd) : Nat × State :=
  let qx := s.pkeOp A.PKE_QX
  let qy := s.pkeOp A.PKE_QY
  match c.op with
  | 1 => (pDone, s.modPke (fun p => { p with sha := some ⟨shaInit, [], 0⟩ }))
  | 2 => s.pkeUpdate c
  | 3 => s.pkeFinal
  | 4 =>
    if !onCurve qx qy then (pBadPoint, s)
    else (if ecdsaVerify (qx, qy) (s.pkeOp A.PKE_HASH) (s.pkeOp A.PKE_R) (s.pkeOp A.PKE_S) then pValid else pInvalid, s)
  | 5 => s.pkeSign c
  | 6 => s.pkeEcdh c
  | 7 => s.pkeKeygen c
  | 8 => (if onCurve qx qy then pValid else pBadPoint, s)
  | _ => (pBadOp, s)

/-- A write of PKE_CMD by a Lintel core (R165). -/
def State.pkeCmdWrite (s : State) (core : Nat) (w : Half) : State :=
  if s.flag F.PKE_STATUS_BUSY then s.setFlag F.PKE_STATUS_CMD_ERR
  else
    let c : PkeCmd := {
      op := bits w.toNat 3 0, slot := bits w.toNat 13 8, ident := w.getLsbD 15, core := core
      arg := s.effAddr A.PKE_ARG_LO
      dslot := s.fld F.PKE_ARG_HI_DSLOT, len := s.regN A.PKE_LEN }
    (s.setFlag F.PKE_STATUS_BUSY).modPke (fun p => { p with cmd := some c })

/-- The command word of an operation. -/
def pkeWord (op : Nat) (slot : Fin 64) (ident : Bool) : Half := half (bit ident * 32768 + slot.val * 256 + op)

/-- PKE_SHA_INIT (R163). -/
def execPkeShaInit (c : Fin 2) (s : State) : Out := .next (s.pkeCmdWrite c 1)
/-- PKE_SHA_UPDATE (R163). -/
def execPkeShaUpdate (c : Fin 2) (s : State) : Out := .next (s.pkeCmdWrite c 2)
/-- PKE_SHA_FINAL (R163). -/
def execPkeShaFinal (c : Fin 2) (s : State) : Out := .next (s.pkeCmdWrite c 3)
/-- PKE_VERIFY (R163). -/
def execPkeVerify (c : Fin 2) (s : State) : Out := .next (s.pkeCmdWrite c 4)
/-- PKE_SIGN (R163, R164). -/
def execPkeSign (c : Fin 2) (slot : Fin 64) (ident : Bool) (s : State) : Out := .next (s.pkeCmdWrite c (pkeWord 5 slot ident))
/-- PKE_ECDH (R163, R164). -/
def execPkeEcdh (c : Fin 2) (slot : Fin 64) (ident : Bool) (s : State) : Out := .next (s.pkeCmdWrite c (pkeWord 6 slot ident))
/-- PKE_KEYGEN (R163). -/
def execPkeKeygen (c : Fin 2) (slot : Fin 64) (s : State) : Out := .next (s.pkeCmdWrite c (pkeWord 7 slot false))
/-- PKE_CHECK (R163). -/
def execPkeCheck (c : Fin 2) (s : State) : Out := .next (s.pkeCmdWrite c 8)
/-- PKE_BADOP (R163): an operation code that the table does not list. -/
def execPkeBadop (c : Fin 2) (op : Fin 16) (s : State) : Out :=
  .next (if 1 ≤ op.val ∧ op.val ≤ 8 then s else s.pkeCmdWrite c (half op))

/-- An operation waits: SIGN and KEYGEN for the DRBG, which serves KEYS and ASHLAR before PKE (R167), and KEYGEN for NVMC, through which
KEYS stores the key (R277). -/
def State.pkeWaits (s : State) (c : PkeCmd) : Bool :=
  ((c.op = 5 || c.op = 7) && (!s.drbgReady || s.keysWantsDrbg || s.ashlar.wantHk)) || (c.op = 7 && !s.keysMayWrite)

/-- PKE_OP_DONE (R163, R165); KEYS then takes PKE if it waits for it. -/
def execPkeOpDone (s : State) : Out :=
  .next (match s.pke.cmd with
    | none => s
    | some c =>
      if s.pkeWaits c then s
      else
        let (r, s) := s.pkeAct c
        let s := s.modPke (fun p => { p with cmd := none })
        let s := if c.op = 7 then s.keysUnport else s
        ((s.setFld F.PKE_STATUS_RESULT r).setFlag F.PKE_STATUS_BUSY false).keysHold.keysJudge.raise 7)

/-! ## TRNG (R166, R167) -/

/-- A write of TRNG_CTRL. -/
def State.trngCtrlWrite (s : State) (w : Half) : State :=
  let s := if w.getLsbD 1 then s.modTrng (fun t => { t with reseed := true }) else s
  if w.getLsbD 0 then
    ((s.setFlag F.TRNG_STATUS_STARTUP).setFlag F.TRNG_STATUS_READY false).setFlag F.TRNG_STATUS_OUT_VALID false
  else s

/-- TRNG_RESEED (R166). -/
def execTrngReseed (s : State) : Out := .next (s.trngCtrlWrite 2)

/-- TRNG_RESTART (R166): no output is released until the start-up tests have passed. -/
def execTrngRestart (s : State) : Out := .next (s.trngCtrlWrite 1)

/-- A health test fails (R167): the DRBG is zeroised, output stops, HEALTH_FAIL is set and the event raised. -/
def State.healthFail (s : State) (rct apt : Nat) : State :=
  let s := (s.count A.TRNG_CNT_RCT rct).count A.TRNG_CNT_APT apt
  let s := s.setReg A.TRNG_STATUS (s.reg A.TRNG_STATUS &&& 0x10 ||| 0x08)
  (s.modTrng (fun t => { t with requests := 0, reseed := false })).raise 9

/-- Failures of the repetition count test over samples: a sample that makes a run of 41 equal ones, or of a further multiple
of 41 (R166, SP 800-90B; PRESUMED, log entry 101). `last` and `n`: the last sample and its run so far. -/
def rctFails (last n : Nat) : List Nat → Nat
  | [] => 0
  | x :: l =>
    let n := if x = last ∧ n ≠ 0 then n + 1 else 1
    if n = 41 then 1 + rctFails x 0 l else rctFails x n l

/-- Failures of the adaptive proportion test: whole windows of 1,024 samples in which the first occurs 624 times or more
(R166, SP 800-90B; PRESUMED, log entry 101). -/
def aptFails : Nat → List Nat → Nat
  | 0, _ => 0
  | n + 1, l =>
    let w := l.take 1024
    if w.length < 1024 then 0
    else (if 624 ≤ (w.filter (· = w.headD 0)).length then 1 else 0) + aptFails n (l.drop 1024)

/-- TRNG_STARTUP_DONE (R166, R167): the start-up tests end over the 1,024 samples that the source gave, `first` and `rest`; where
neither test fails the DRBG is seeded and output released. -/
def execTrngStartupDone (first : Nat) (rest : List Nat) (s : State) : Out :=
  let samples := first :: rest
  .next (if samples.length = 1024 ∧
      (s.flag F.TRNG_STATUS_STARTUP || (!s.flag F.TRNG_STATUS_READY && !s.flag F.TRNG_STATUS_HEALTH_FAIL)) then
      let rct := rctFails 0 0 samples
      let apt := aptFails 1 samples
      if rct = 0 ∧ apt = 0 then
        ((s.setReg A.TRNG_STATUS (s.reg A.TRNG_STATUS &&& 0x10 ||| 0x02)).modTrng (fun t => { t with
          requests := 0, reseed := false })).keysJudge.trngFill
      else s.healthFail rct apt
    else s)

/-- DRBG_AUTO_RESEED (R166): after 65,536 requests. -/
def execDrbgAutoReseed (s : State) : Out :=
  .next (if s.drbgReady && 65536 ≤ s.trng.requests then s.modTrng (fun t => { t with requests := 0, reseed := false }) else s)

/-- HEALTH_TEST_FAIL (R166, R167): the last samples of the source fail the repetition count test, 41 equal ones, or the adaptive
proportion test, a window of 1,024. Samples that fail neither are no failure. -/
def execHealthTestFail (samples : List Nat) (s : State) : Out :=
  let rct := if samples.length = 41 then rctFails 0 0 samples else 0
  let apt := aptFails 1 (if samples.length = 1024 then samples else [])
  .next (if rct = 0 ∧ apt = 0 then s else s.healthFail rct apt)

/-- A read of TRNG_OUT (R166): each bit is returned once. Fresh bits take the place of those read at once, or, where KEYS, ASHLAR or PKE
waits for the DRBG, on a step of the empty queue after they have been served (R167; DESIGN CHOICE, log entry 34). -/
def State.trngRead (s : State) : Half × State :=
  if s.flag F.TRNG_STATUS_OUT_VALID then (s.trng.out, (s.setFlag F.TRNG_STATUS_OUT_VALID false).trngFill)
  else (0, s.setFlag F.TRNG_STATUS_UNDERRUN)

/-- TRNG_OUT_READ (R166). -/
def execTrngOutRead (s : State) : Out :=
  let (v, s) := s.trngRead
  .next (s.see (.value v))

end Sys2Proof.Machine
end

