-- ==== Sys2Proof/Machine/Nvmc.lean ====
section
/-! DEFINITION. NVMC: firmware commands, the request ports, and the admission of bandwidth (R261, R275 to R278). -/
namespace Sys2Proof.Machine

/-! ## Firmware commands (R278) -/

/-- RESULT codes. -/
abbrev nvDone : Nat := 0
abbrev nvNotFound : Nat := 1
abbrev nvSplitRes : Nat := 2
abbrev nvBadArg : Nat := 3
abbrev nvLocked : Nat := 4
abbrev nvVerify : Nat := 5
abbrev nvFull : Nat := 6
abbrev nvBusErr : Nat := 7
abbrev nvBadOp : Nat := 8

/-- A write of NVMC_CMD. -/
def State.nvmcCmdWrite (s : State) (op : Nat) : State :=
  if s.flag F.NVMC_STATUS_BUSY then s.setFlag F.NVMC_STATUS_CMD_ERR
  else
    let args := (List.range 5).map (fun i => s.reg (A.NVMC_ARG i))
    ((s.setFlag F.NVMC_STATUS_BUSY).modNvm (fun n => { n with cmd := some (op, args) })).nvServe

/-- NVMC_CFG_WRITE (R278). -/
def execNvmcCfgWrite (s : State) : Out := .next (s.nvmcCmdWrite 1)
/-- NVMC_CFG_READ (R278). -/
def execNvmcCfgRead (s : State) : Out := .next (s.nvmcCmdWrite 2)
/-- NVMC_EVT_WRITE (R278). -/
def execNvmcEvtWrite (s : State) : Out := .next (s.nvmcCmdWrite 3)
/-- NVMC_IMG_WRITE (R278). -/
def execNvmcImgWrite (s : State) : Out := .next (s.nvmcCmdWrite 4)
/-- NVMC_IMG_ERASE (R278). -/
def execNvmcImgErase (s : State) : Out := .next (s.nvmcCmdWrite 5)
/-- NVMC_BADOP (R278): a command code that the table does not list. -/
def execNvmcBadop (op : Fin 16) (s : State) : Out :=
  .next (if 1 ≤ op.val ∧ op.val ≤ 5 then s else s.nvmcCmdWrite op)

/-- Base and size of an image slot (R18): 0 A, 1 B. -/
def slotPlace (i : Nat) : Nat × Nat := (0x800000 + i * 0x140000, 0x140000)

/-- An image slot is locked. -/
def State.slotLocked (s : State) (i : Nat) : Bool := (s.reg A.NVMC_IMG_LOCK).getLsbD i

/-- Arguments of a command: the SRAM address of ARG2 and ARG3. -/
def argAddr (args : List Half) : Nat := wordAt args 2 + 65536 * (wordAt args 3 % 256)

/-- CFG_WRITE and EVT_WRITE: a record of the payload in SRAM, `fails` of whose instances do not read back (R277). A VER of 0 and a
LEN of 0 or 63 end in BADARG (DESIGN CHOICE, log entry 43). -/
def State.nvRecord (s : State) (typ : Nat) (args : List Half) (fails : Nat) : Nat × State :=
  let ver := bits (wordAt args 0) 15 12
  let len := bits (wordAt args 0) 5 0
  let src := argAddr args
  if ver = 0 ∨ len = 0 ∨ 62 < len then (nvBadArg, s)
  else if !inSram src (2 * len) then (nvBusErr, s)
  else
    let ws := copyWords typ ver (s.sramWords src len) (if typ = 3 then half (wordAt args 1) else 0)
    let r : Region := if typ = 3 then .cfg else .evt
    let (e, s) := s.nvRecordWrite r ws fails
    (match e with | .committed => nvDone | .verify => nvVerify | .full => nvFull, s)

/-- CFG_READ. -/
def State.nvCfgRead (s : State) (args : List Half) : Nat × State :=
  let s := s.regionRead .cfg
  match s.cfgFind (wordAt args 0) with
  | .absent => (nvNotFound, s)
  | .unusable => (nvSplitRes, s.nvSplit)
  | .value c =>
    let len := c.payload.length
    if bits (wordAt args 1) 5 0 < len then (nvBadArg, s)
    else if !inSram (argAddr args) (2 * len) then (nvBusErr, s)
    else
      let s := s.setSramWords (argAddr args) c.payload
      (nvDone, (s.setReg A.NVMC_RES_LEN (half (c.ver * 4096 + len))).setReg A.NVMC_RES_SEQ (half c.seq))

/-- IMG_WRITE: raw words into an image slot. Words that did not read back are free values (log entry 2). -/
def State.nvImgWrite (s : State) (args : List Half) (ok : Bool) : Nat × State :=
  let d := wordAt args 0 + 65536 * (wordAt args 1 % 256)
  let n := wordAt args 4
  let src := argAddr args
  match [0, 1].find? (fun i => (slotPlace i).1 ≤ d && d + 2 * n ≤ (slotPlace i).1 + (slotPlace i).2) with
  | some i =>
    if n = 0 ∨ d % 2 = 1 then (nvBadArg, s)
    else if s.slotLocked i then (nvLocked, s)
    else if !inSram src (2 * n) then (nvBusErr, s)
    else if ok then (nvDone, s.nvPut d (s.sramWords src n))
    else
      let (o, s) := s.drawOctets (2 * n)
      (nvVerify, (s.nvPut d (packWords o)).raiseEvt F.NVMC_EVT_FAIL 15)
  | none => (nvBadArg, s)

/-- IMG_ERASE. -/
def State.nvImgErase (s : State) (args : List Half) : Nat × State :=
  let i := wordAt args 0 % 2
  if s.slotLocked i then (nvLocked, s)
  else (nvDone, s.nvErase (slotPlace i).1 ((slotPlace i).1 + (slotPlace i).2))

/-- The firmware command in progress ends. `fails`: the instances of its record that did not read back as written, 2 also for an
image whose words did not. -/
def State.nvmcDone (s : State) (fails : Nat) : State :=
  match s.nvm.cmd with
  | none => s
  | some (op, args) =>
    let (r, s) := match op with
      | 1 => s.nvRecord 3 args fails
      | 2 => s.nvCfgRead args
      | 3 => s.nvRecord 4 args fails
      | 4 => s.nvImgWrite args (decide (fails < 2))
      | 5 => s.nvImgErase args
      | _ => (nvBadOp, s)
    let s := ((s.modNvm (fun n => { n with cmd := none })).unport .firmware).setFld F.NVMC_STATUS_RESULT r
    (s.setFlag F.NVMC_STATUS_BUSY false).raiseEvt F.NVMC_EVT_DONE 15

/-- A place for `n` octets in general SRAM that firmware uses for the while: which one the spec does not say (log
entry 2). -/
def State.scratch (s : State) (n : Nat) : Nat × State :=
  let (x, s) := s.draw ((0x200000 - n) / 16)
  (0x100000 + 16 * x, s)

/-- Firmware, or the boot ROM, gives NVMC a CFG_WRITE: the payload in general SRAM, the arguments, the command (R278). -/
def State.cfgAsk (s : State) (ver : Nat) (payload : List Half) (seq : Nat) : State :=
  let (a, s) := s.scratch 2080
  let args := [half (ver * 4096 + payload.length), half seq, half a, half (a / 65536)]
  (forEach args.zipIdx (s.setSramWords a payload) (fun s p => s.setReg (A.NVMC_ARG p.2) p.1)).nvmcCmdWrite 1

/-! ## Request ports (R277) -/

/-- The hardware sources by their order of service. -/
def sourceOf (i : Fin 4) : NvSource :=
  match i with | 0 => .keys | 1 => .assay | 2 => .access | 3 => .lease

/-- KEYS has something to write: the lease of a job, the stores of a command that waits for nothing else, the key of a KEYGEN. -/
def State.keysHands (s : State) : Bool :=
  s.keys.commit.isSome || (match s.keys.cmd with | some c => c.stores && !s.keysWaits c | none => false) ||
    (match s.pke.cmd with | some c => c.op == 7 | none => false)

/-- The record that a source has waiting for its port. The lease writer hands its own on LEASE_WRITE; the records of KEYS
are not readable, and stand here without payload (R269). -/
def State.sourceRecord (s : State) : NvSource → Option NvReq
  | .keys => if s.keysHands then some ⟨.keys, 0x20, 1, [], 0⟩ else none
  | .assay => s.assay.repairOut.head?.map (fun w => ⟨.assay, 3, 1, w.1, w.2⟩)
  | .access => s.access.records.head?.map (fun r => ⟨.access, 5, 1, r.1, 0⟩)
  | _ => none

/-- NVMC_PORT_RECORD (R277): the source's record is handed over, if its port is free. -/
def execNvmcPortRecord (src : Fin 4) (s : State) : Out :=
  let k := sourceOf src
  .next (if s.nvm.reqs.any (fun r => r.src == k) then s
    else match s.sourceRecord k with
      | some r => s.nvHand r
      | none => s)

/-- ASSAY hears of its repair record (R277, R373): written at its CID, or failed. -/
def State.repairDone (s : State) (fails : Nat) : State :=
  match s.assay.repairOut with
  | (w, q) :: l =>
    let (e, s) := (s.modAssay (fun a => { a with repairOut := l })).nvRecordWrite .cfg (copyWords 3 1 w q) fails
    let s := s.unport .assay
    if e = .committed then s else s.setFlag F.ASSAY_STATUS_REPAIR_ERR
  | [] => s

/-- NVMC_RECORD_DONE (R277): NVMC has served the record at a port in its turn: it is committed, in its first instance or in the
further one, or has failed with FAIL. A lease of KEYS is written in the fixed layout (R271); what a command of KEYS stores is written as
the command ends. -/
def execNvmcRecordDone (src : Fin 4) (fails : Fin 3) (s : State) : Out :=
  let k := sourceOf src
  .next (if s.nvTurn k then
    match k with
    | .keys => s.keysLease fails
    | .assay => s.repairDone fails
    | .access => s.accessLogged fails
    | _ => s.leaseEnd fails
  else s)

/-- SEGMENT_ERASE_DONE (R275): the oldest background erase completes. It writes the rows that do not read fully erased, as opening does
(DEDUCED, log entry 107). -/
def execSegmentEraseDone (s : State) : Out :=
  .next (match s.nvm.erasing with
    | b :: l => (s.nvClear b (b + 0x10000)).modNvm (fun n => { n with erasing := l })
    | [] => s)

/-- IMG_LOCK_SET (R278). -/
def execImgLockSet (w : Half) (s : State) : Out := .next (s.plainWrite A.NVMC_IMG_LOCK w)

/-- NVMC_FREE as it reads: the free segments of the three regions, once NVMC has scanned them; its reset value before (R7). -/
def State.nvmcFree (s : State) : Half :=
  if !s.nvm.scanned then 0 else half ((s.segsFree .evt).length * 256 + (s.segsFree .lease).length * 16 + (s.segsFree .cfg).length)

/-! ## Admission (R261) -/

/-- Admissible figures of R259 by performance level. -/
def admissible (pl : Nat) : Nat := [192, 512, 1024, 1536].getD pl 0

/-- A write of SYSCTL_ADMIT. -/
def State.admitWrite (s : State) (w : Half) : State :=
  let s := if w.getLsbD 15 then s.setFlag F.SYSCTL_ADMIT_ERR false else s
  let n := bits w.toNat 11 0
  if s.fld F.SYSCTL_ADMIT_CAP_BYTES < n then s.setFlag F.SYSCTL_ADMIT_ERR else s.setFld F.SYSCTL_ADMIT_BYTES n

/-- ADMIT_WRITE (R261). -/
def execAdmitWrite (w : Half) (s : State) : Out := .next (s.admitWrite w)

end Sys2Proof.Machine
end

