-- ==== Sys2Proof/Machine/Threads.lean ====
section
/-! DEFINITION. Threads, exceptions, MPU windows, mailboxes and watchdogs (R222 to R252). -/
namespace Sys2Proof.Machine

/-! ## Switching (R232, R234) -/

/-- A switch point: the next READY thread after the current one runs, if there is one. -/
def Core.switch (k : Core) : Core :=
  match [k.cur + 1, k.cur + 2, k.cur + 3].find? (fun u => k.thr[u].st == .ready && !k.thr[u].halted) with
  | some u =>
    let c := k.thr[k.cur]
    let k := if c.st = .run then { k with thr := k.thr.set k.cur { c with st := .ready } } else k
    { k with thr := k.thr.set u { k.thr[u] with st := .run }, cur := u }
  | none => k.wakeup

/-- A thread dies: its pending results are discarded (R232, R233). -/
def Core.kill (k : Core) (t : Fin 4) : Core :=
  let th := k.thr[t]
  ({ k with thr := k.thr.set t { th with
      st := .dead, pend := [], slot := none, waitAt := none, holdStall := false, holdWdog := false, stepping := false } } : Core).wakeup

/-! ## Exceptions (R241 to R246) -/

abbrev exIllegal : Nat := 0x01
abbrev exPriv : Nat := 0x02
abbrev exFetchBus : Nat := 0x03
abbrev exFetchMpu : Nat := 0x04
abbrev exAlign : Nat := 0x05
abbrev exDataMpu : Nat := 0x06
abbrev exDataBus : Nat := 0x07
abbrev exSyscall : Nat := 0x08
abbrev exBreak : Nat := 0x09
abbrev exStall : Nat := 0x0A
abbrev exWdog : Nat := 0x0B
abbrev exEcc : Nat := 0x0C

/-- The vector of a thread. -/
def State.vector (s : State) (c : Fin 6) (t : Fin 4) : Ptr :=
  BitVec.ofNat 24 ((s.eff (A.THR_VEC_LO c t)).toNat + 65536 * (s.eff (A.THR_VEC_HI c t)).toNat)

/-- EXCEPTION_ENTRY (R242): results land, EPC and CAUSE are written, PRIV moves to PPRIV, PRIV and EXL become 1, the PC
becomes the vector, and the entry of a running thread is a switch point. -/
def State.enter (s : State) (c : Fin 6) (t : Fin 4) (code : Nat) (epc : Ptr) (ds : Bool) : State :=
  let v := s.vector c t
  s.modCore c (fun k =>
    let sh := k.thr[t].pend.any (fun p => match p.tgt with | .cr _ | .flags => true | _ => false)
    let k := k.landAll t
    let th := k.thr[t]
    let was := th.st
    let th := { th with
      epc := epc, cause := half (bit ds * 0x8000 + bit sh * 0x4000 + code), psw := pswMode th.psw true th.priv true
      pc := v, slot := none, waitAt := none, st := if th.st = .wait then .ready else th.st }
    let k : Core := { k with thr := k.thr.set t th }
    if was = .run then k.switch else k.wakeup)

/-- DOUBLE_FAULT (R245). -/
def State.doubleFault (s : State) (c : Fin 6) (t : Fin 4) : State :=
  let s := s.modCore c (fun k => k.kill t)
  (s.setReg (A.THR_FAULT c) (s.reg (A.THR_FAULT c) ||| half (2 ^ t.val))).threadHalted c

/-- A synchronous exception on the instruction at the PC (R242, R243, R245). `fault` is the address of a data fault. -/
def State.trap (s : State) (c : Fin 6) (t : Fin 4) (code : Nat) (fault : Option Nat) : State :=
  let th := s.thr c t
  if th.exl then s.doubleFault c t
  else
    let s := match fault with
      | some a => (s.setReg (A.THR_FADDR_LO c t) (half a)).setReg (A.THR_FADDR_HI c t) (half (a / 65536 % 256))
      | none => s
    match th.slot with
    | some (br, _) => s.enter c t code br true
    | none => s.enter c t code (if code = exSyscall ∨ code = exBreak then th.pc + 4 else th.pc) false

/-- The cores' clocks run: from the start of a sleep entry on they stop (R287). -/
def State.coresRun (s : State) : Bool := s.alive && s.sys.sleep == .awake

/-- The thread on which the next instruction of a core executes: one that TROWEL steps, else the running one. -/
def State.cpuThread (s : State) (c : Fin 6) : Option (Fin 4) :=
  if !s.coresRun then none
  else match [(0 : Fin 4), 1, 2, 3].find? (fun t => (s.thr c t).stepping) with
    | some t => some t
    | none => [(0 : Fin 4), 1, 2, 3].find? (fun t => (s.thr c t).st == .run && !(s.thr c t).halted)

/-- An instruction raises an exception; a step ends at the first instruction of the handler (R406). -/
def State.raiseInstr (s : State) (c : Fin 6) (t : Fin 4) (code : Nat) (addr : Option Nat) : State :=
  (s.trap c t code addr).modThr c t (fun th => { th with stepping := false, passed := none })

/-- An asynchronous exception is taken now, or held while EXL = 1 or between a branch and its slot (R239, R243). -/
def State.async (s : State) (c : Fin 6) (t : Fin 4) (code : Nat) : State :=
  let th := s.thr c t
  if th.exl ∨ (th.slot.isSome ∧ th.st ≠ .wait) then
    s.modThr c t (fun th => if code = exStall then { th with holdStall := true } else { th with holdWdog := true })
  else
    let s := s.modThr c t (fun th => if code = exStall then { th with holdStall := false } else { th with holdWdog := false })
    match th.st, th.waitAt with
    | .wait, some (w, some br) => let _ := w; s.enter c t code br true
    | .wait, some (w, none) => s.enter c t code w false
    | _, _ => s.enter c t code th.pc false

/-- A held asynchronous exception is taken at an instruction boundary, of a thread that TROWEL does not hold (R243, R406). -/
def State.takeHeld (s : State) (c : Fin 6) (t : Fin 4) : State :=
  let th := s.thr c t
  if th.st = .dead ∨ th.exl ∨ th.halted ∨ (th.slot.isSome ∧ th.st ≠ .wait) then s
  else if th.holdStall then s.async c t exStall
  else if th.holdWdog then s.async c t exWdog
  else s

/-- The lowest-numbered live thread of a core. -/
def Core.lowestLive (k : Core) : Option (Fin 4) := [0, 1, 2, 3].find? (fun t : Fin 4 => k.thr[t].st != .dead)

/-- A thread of the core is halted by TROWEL (R406). -/
def Core.anyHalted (k : Core) : Bool := k.thr.toList.any (·.halted)

/-! ## Starting and killing (R233) -/

/-- A thread starts, if it is DEAD; a core all of whose threads are DEAD has stopped until it is reset. -/
def State.startThread (s : State) (c : Fin 6) (t : Fin 4) : State :=
  let pc := BitVec.ofNat 24 ((s.eff (A.THR_PC_LO c t)).toNat + 65536 * (s.eff (A.THR_PC_HI c t)).toNat)
  if (s.thr c t).st = .dead ∧ s.cores[c].lowestLive.isSome then
    (s.modThr c t (fun th => { th with st := .ready, pc := pc, psw := pswMode th.psw true false false })).modCore c Core.wakeup
  else s

/-- The threads named in a mask. -/
def maskThreads (w : Half) : List (Fin 4) := [0, 1, 2, 3].filter (fun t : Fin 4 => w.getLsbD t)

/-- A write of THR_START. -/
def State.thrStartWrite (s : State) (c : Fin 6) (w : Half) : State := forEach (maskThreads w) s (fun s t => s.startThread c t)

/-- A write of THR_KILL. -/
def State.thrKillWrite (s : State) (c : Fin 6) (w : Half) : State :=
  forEach (maskThreads w) s (fun s t => s.modCore c (fun k => k.kill t))

/-- THREAD_START (R233). -/
def execThreadStart (c : Fin 6) (mask : BitVec 4) (s : State) : Out := .next (s.thrStartWrite c (half mask.toNat))

/-- THREAD_KILL (R233). -/
def execThreadKill (c : Fin 6) (mask : BitVec 4) (s : State) : Out := .next (s.thrKillWrite c (half mask.toNat))

/-! ## Events (R235 to R239) -/

/-- The cores that a hardware line reaches (R235). -/
def State.lineCores (s : State) (c : Fin 6) (l : Nat) : List (Fin 6) :=
  if l = 0 then allCores
  else if h : 20 ≤ l ∧ l < 28 then s.timerCores ⟨l - 20, by omega⟩
  else if l = 28 ∨ l = 29 then
    (if s.reg (A.GPIO_WORLD (l - 28)) = 0xFFFF then [] else lintel) ++ (if s.reg (A.GPIO_WORLD (l - 28)) = 0 then [] else apps)
  else if l = 31 then [c]
  else lintel

/-- EVENT_LINE_POST (R235, R236): the source of a hardware line rises; line 31 on core `c`. -/
def execEventLinePost (c : Fin 6) (l : Fin 32) (s : State) : Out :=
  .next ((s.postAll (s.lineCores c l) l).faultEvent l)

/-- A write of EVU_PEND: bits written 1 clear, and come back where the source is still raised (R5, R236). -/
def State.pendWrite (s : State) (c : Fin 6) (w : Fin 4) (v : Half) : State :=
  let s := s.setReg (A.EVU_PEND c w) (s.reg (A.EVU_PEND c w) &&& ~~~ v)
  forEach (List.range 16) s (fun s b =>
    if v.getLsbD b && s.lineHeld c (16 * w + b) then s.post c (16 * w + b) else s)

/-- EVENT_PEND_CLEAR (R236). -/
def execEventPendClear (c : Fin 6) (w : Fin 4) (v : Half) (s : State) : Out := .next (s.pendWrite c w v)

/-- The STALL condition of a core (R239). -/
def State.stalled (s : State) (c : Fin 6) : Bool :=
  let live := [0, 1, 2, 3].filter (fun t : Fin 4 => (s.thr c t).st != .dead)
  !live.isEmpty && live.all (fun t => (s.thr c t).st == .wait &&
    [0, 1, 3].all (fun w => s.reg (A.EVU_MASK c (4 * t.val + w)) == 0)) && !s.cores[c].anyHalted

/-- STALL (R239): raised once for a set of waits, on the lowest-numbered live thread. -/
def execStall (c : Fin 6) (s : State) : Out :=
  .next (match s.cores[c].lowestLive with
    | some t => if s.stalled c ∧ !(s.thr c t).holdStall then (s.count (A.EVU_STALL_CNT c)).async c t exStall else s
    | none => s)

/-! ## MPU (R247, R248) -/

/-- A window admits an address for a kind of access: bit 2 execution, 1 store, 0 load. -/
def Window.admits (w : Window) (a kind : Nat) : Bool :=
  w.attr.getLsbD 15 && w.attr.getLsbD kind && decide (w.base.toNat / 16 * 16 ≤ a) && decide (a ≤ w.limit.toNat / 16 * 16 + 15)

/-- The outer and the inner test of R248 for an address in SRAM or MRAM. -/
def State.mpuAdmits (s : State) (c : Fin 6) (priv : Bool) (a kind : Nat) : Bool :=
  let w (i : Fin 8) : Bool := (s.cores[c].win[i]).admits a kind
  (decide (c.val < 2) || w 0 || w 1 || w 2 || w 3) && (priv || w 4 || w 5 || w 6 || w 7)

/-! ## Mailboxes and doorbells (R250, R251) -/

/-- A core writes a mailbox. -/
def mbWriter (k : Fin 8) (c : Fin 6) : Bool := if k.val < 4 then c.val == k.val + 2 else c.val < 2

/-- A core reads a mailbox. -/
def mbReader (k : Fin 8) (c : Fin 6) : Bool := if k.val < 4 then c.val < 2 else c.val + 2 == k.val

/-- A write of MBk_DATA. -/
def State.mbWrite (s : State) (k : Fin 8) (c : Fin 6) (w : Half) : State :=
  if !mbWriter k c then s
  else if 32 ≤ (s.mbox[k]).length then s.setFlag (F.MB_STATUS_OVF k)
  else
    let s := { s with mbox := s.mbox.set k (s.mbox[k] ++ [w]) }
    s.postAll (allCores.filter (mbReader k)) (48 + k)

/-- A read of MBk_DATA. -/
def State.mbRead (s : State) (k : Fin 8) (c : Fin 6) : Half × State :=
  if !mbReader k c then (0, s)
  else match s.mbox[k] with
    | [] => (0, s.setFlag (F.MB_STATUS_UNDER k))
    | w :: l => (w, { s with mbox := s.mbox.set k l })

/-- MAILBOX_WRITE (R250). -/
def execMailboxWrite (k : Fin 8) (c : Fin 6) (w : Half) (s : State) : Out := .next (s.mbWrite k c w)

/-- MAILBOX_READ (R250). -/
def execMailboxRead (k : Fin 8) (c : Fin 6) (s : State) : Out :=
  let (v, s) := s.mbRead k c
  .next (s.see (.value v))

/-- A write of MBOX_BELL by a core. -/
def State.bell (s : State) (c : Fin 6) (w : Half) : State :=
  s.postAll (allCores.filter (fun g => w.getLsbD g)) (56 + c)

/-- DOORBELL (R251). -/
def execDoorbell (c : Fin 6) (mask : BitVec 6) (s : State) : Out := .next (s.bell c (half mask.toNat))

/-! ## Watchdogs (R252) -/

/-- Stage 1 starts, with T1 and T2 as they stand, and stage 2 stops. -/
def State.wdStart (s : State) (c : Fin 6) : State :=
  let s := s.commit [A.WDT_T1 c, A.WDT_T2 c]
  let s := s.setFld F.WDT_STATUS_STAGE2 (s.fld F.WDT_STATUS_STAGE2 &&& (63 - 2 ^ c.val))
  s.modCore c (fun k => { k with wdStage := 1 })

/-- A write of WDT_c_CTRL: EN can only be set. -/
def State.wdtCtrlWrite (s : State) (c : Fin 6) (w : Half) : State :=
  if w.getLsbD 0 && !s.flag (F.WDT_CTRL_EN c) then (s.setFlag (F.WDT_CTRL_EN c)).wdStart c else s

/-- WDT_ENABLE (R252). -/
def execWdtEnable (c : Fin 6) (s : State) : Out := .next (s.wdtCtrlWrite c 1)

/-- A write of CORE_WDT_KICK. -/
def State.kick (s : State) (c : Fin 6) (w : Half) : State :=
  if w = 0xA5C3 ∧ s.flag (F.WDT_CTRL_EN c) then s.wdStart c else s

/-- WDT_KICK (R252). -/
def execWdtKick (c : Fin 6) (w : Half) (s : State) : Out := .next (s.kick c w)

/-- WDT_STAGE1_EXPIRY (R252): while a thread of the core is halted the count is held, and in NAP and SHELF (R288). -/
def execWdtStage1Expiry (c : Fin 6) (s : State) : Out :=
  .next (if s.alive ∧ s.cores[c].wdStage = 1 ∧ !s.cores[c].anyHalted then
    let s := s.modCore c (fun k => { k with wdStage := 2 })
    let s := s.setFld F.WDT_STATUS_STAGE2 (s.fld F.WDT_STATUS_STAGE2 ||| 2 ^ c.val)
    match s.cores[c].lowestLive with
    | some t => s.async c t exWdog
    | none => s
  else s)

end Sys2Proof.Machine
end

