-- ==== Sys2Proof/Machine/Reset.lean ====
section
/-! DEFINITION. Resets (R7, R281, R293 to R296), what KEYS and NVMC do at reset release (R169, R174, R275), the end of a
life-cycle transition (R179, R180), and stage 2 of the watchdogs (R252). -/
namespace Sys2Proof.Machine

/-! ## The device reset (R295) -/

/-- Bit numbers of SYSCTL_RST_CAUSE. -/
abbrev rcPor : Nat := 0
abbrev rcPin : Nat := 1
abbrev rcWdt : Nat := 2
abbrev rcSoft : Nat := 3
abbrev rcLc : Nat := 4
abbrev rcShelf : Nat := 5
abbrev rcPlinth : Nat := 6
abbrev rcTrowel : Nat := 7

/-- The part of a register file in the Plinth domain. -/
def plinthPart (m : Regs) : Regs := m.filter (fun p => 0xF00000 ≤ p.1 % 0x80000000 && p.1 % 0x80000000 < 0xF01000)

/-- Every thread of a core is DEAD, its registers at their reset values (R233, R299). -/
def Core.held (c : Fin 6) : Core :=
  let t : Thread := { psw := if c.val < 2 then 0 else 0x1000 }
  { thr := #v[t, t, t, t] }

/-- What a device reset keeps: the Plinth domain, MRAM with the stores of KEYS, the part of general SRAM given, the states of
the image slots (R381), the levels driven from outside, and the model's own fields. -/
def State.kept (s : State) (ram : Memory) : State :=
  { State.reset with
    regs := plinthPart s.regs, inForce := plinthPart s.inForce, snap := plinthPart s.snap
    sram := ram, mram := s.mram, mramFlip := s.mramFlip, plinth := s.plinth
    trng := { drawn := s.trng.drawn }
    update := { slots := s.update.slots }
    cores := #v[Core.held 0, Core.held 1, Core.held 2, Core.held 3, Core.held 4, Core.held 5]
    dbg := { balls := s.dbg.balls }, free := s.free, seen := s.seen, pending := s.pending }

/-- The writes of a life-cycle transition in the order of R180, with the destructions of R179: the intent record, the transition
signature, zeros and then the erased value over what goes, and the new state. -/
def State.lcWrites (s : State) (target : Nat) (cert : List Byte) : State :=
  let deploy := s.storeLc = 1 ∧ target = 2
  let s := if s.storeIntent = some target then s else s.storePut stIntent [half target]
  let s := if cert.isEmpty then s else s.storePut stCert (packWords cert)
  let s := (s.nvWipe (storeAt (stSlot 0)) (storeAt 0x2000)).nvWipe (storeAt stSeq) (storeAt (stSeq + 1))
  let s := if deploy then s
    else ((s.nvWipe (storeAt stKeystone) (storeAt (stKeystone + 1))).nvWipe 0xA80000 0xB00000).nvWipe 0xB00000 0xBC0000
  s.storePut stLife [half target]

/-- The record of a source at NVMC, or the firmware command, carried to its end, `fails` of whose instances do not read back. -/
def State.nvWorkOf (s : State) (fails : Nat) : NvSource → State
  | .keys => s.keysLease fails
  | .assay => s.repairDone fails
  | .access => s.accessLogged fails
  | .lease => s.leaseEnd fails
  | .firmware => s.nvmcDone fails

/-- What NVMC serves, carried to its end. -/
def State.nvCurWork (s : State) (fails : Nat) : State :=
  match s.nvm.cur with | some k => s.nvWorkOf fails k | none => s

/-- The writes of KEYS under way, carried to their end: a life-cycle transition, or a command, or a KEYGEN, that waits for nothing. -/
def State.keysWork (s : State) : State :=
  match s.keys.lcPhase with
  | .running t cert => s.lcWrites t cert
  | .written => s
  | .none =>
    let s := match s.keys.cmd with | some c => if s.keysWaits c then s else (s.keysRun c).2 | none => s
    match s.pke.cmd with | some c => if c.op ≠ 7 ∨ s.pkeWaits c then s else (s.pkeAct c).2 | none => s

/-- NVMC or KEYS is writing MRAM. -/
def State.nvWriting (s : State) : Bool :=
  s.nvm.cur.isSome || s.keys.cmd.isSome || s.pke.cmd.isSome || s.keys.lcPhase != .none || s.nvm.freeing.isSome || !s.nvm.erasing.isEmpty

/-- Bound what is still to be written: `n` words, and then how the next reads. -/
def State.nvBound (s : State) (n how : Nat) : State := s.modNvm (fun v => { v with left := some (n, how) })

/-- The source whose record NVMC writes between two chunks of an image command (R277). -/
def State.nvBetween (s : State) : Option NvSource :=
  if s.nvm.cur = some .firmware then [NvSource.keys, .assay, .access, .lease].find? s.nvTurn else none

/-- A reset or a loss of power cuts what NVMC and KEYS are writing (R174, R180, R267, R275 to R277, R295): of the words that the work
would write, in its order, a free number has been written (log entry 2); the next reads as before for `how` 0, and, where power is
lost, as it would have been for 1 and uncorrectable for 2. Free are too how many instances had failed to read back, whether a record is
being written between two chunks of an image, how far a segment is freed or erased, and in which of these the next word lies. What the
work would do beside that does not happen. -/
def State.nvCut (s : State) (how : Nat) : State :=
  if !s.nvWriting then s
  else
    let (n, s) := s.draw (2 ^ 22)
    let (fails, s) := s.draw 3
    let (chunks, s) := s.draw 4096
    let (head, s) := s.draw 16
    let (back, s) := s.draw 0x8000
    let (which, s) := s.draw 3
    let at_ (i : Nat) : Nat := if which = i then how else 0
    let w := match s.nvm.erasing with | b :: _ => (s.nvBound back (at_ 0)).nvClear b (b + 0x10000) | [] => s
    let w := match s.nvm.freeing with | some b => (w.nvBound head (at_ 1)).freeSeg b | none => w
    let w := match s.nvBetween with
      | some k => if chunks = 0 then w.nvBound n (at_ 2)
        else
          let w := (((w.nvBound (16 * (chunks - 1)) 0).nvmcDone 0).nvBound n (at_ 2)).nvWorkOf fails k
          if k = NvSource.keys then w.keysWork else w
      | none => w.nvBound n (at_ 2)
    let w := if s.nvBetween.isSome ∧ chunks ≠ 0 then w else (w.nvCurWork fails).keysWork
    { s with mram := w.mram, mramFlip := w.mramFlip, free := w.free }

/-- Power was lost while a slot was being staged: the slot, partly written, counts as FAILED (R382; DEDUCED, log entry 74); states 1 STAGING
and 7 FAILED (R381). -/
def State.stageLost (s : State) : State :=
  s.modUpdate (fun u => { u with slots := u.slots.map (fun x => if x = 1 then 7 else x) })

/-- A device reset of a cause, the rest of the device as it stood; WDT_CORE holds `core` after a watchdog reset. A device that a
sag has halted restarts by RESET_N or a power-on reset alone (R294). -/
def State.deviceReset (s : State) (cause : Nat) (core : Nat := 0) : State :=
  if s.sys.halted ∧ cause ≠ rcPor ∧ cause ≠ rcPin then s else
  let (how, s) := if cause = rcPor then s.draw 3 else (0, s)
  let s := s.nvCut how
  let s := if cause = rcPor ∨ s.sys.halted then s.stageLost else s
  let old := s.regN A.SYSCTL_RST_CAUSE
  let ram := if cause = rcShelf then s.sram.filter (fun p => 0x2F0000 ≤ p.1) else []
  let risen := if cause = rcShelf ∨ cause = rcPlinth then s.sys.risen else 0
  let bits' := if cause = rcPor then 1 else bits old 7 0 ||| 2 ^ cause
  let wdt := if cause = rcWdt then core else if cause = rcPor then 0 else bits old 10 8
  let last := if cause = rcShelf then 2 else if cause = rcPlinth then 3 else s.fld F.PMU_STATUS_LAST
  let (vio, wake) := (s.sys.vio, s.sys.wakeEn)
  let s := s.kept ram
  let s := s.modSys (fun y => { y with inReset := true, cause := cause, risen := risen, vio := vio, wakeEn := wake })
  let s := s.setReg A.SYSCTL_RST_CAUSE (half (wdt * 256 + bits'))
  (s.setFld F.PMU_STATUS_LAST last).setFld F.ID_LIFECYCLE_STATE s.storeLc

/-- SOFTWARE_RESET (R295): a write of SYSCTL_RST. -/
def State.rstWrite (s : State) (w : Half) : State := if w = 0x5A3C then s.deviceReset rcSoft else s

/-- SOFTWARE_RESET (R295). -/
def execSoftwareReset (key : Half) (s : State) : Out := .next (s.rstWrite key)

/-- A reset source that wakes the device from PLINTH (R290): the cold boot, at once or once the entry has completed. -/
def State.resetOrWake (s : State) (cause : Nat) : State :=
  match s.sys.sleep with
  | .asleep 3 => s.deviceReset rcPlinth
  | .entering 3 _ => s.modSys (fun y => { y with sleep := .entering 3 true })
  | _ => s.deviceReset cause

/-- POWER_ON_RESET (R294): VMAIN is back; out of PLINTH it is the wake of R290. -/
def execPowerOnReset (s : State) : Out := .next ((s.setFlag F.PLINTH_STATUS_PWR_VBAK false).resetOrWake rcPor)

/-- PIN_RESET (R295, R400); out of PLINTH it is the wake of R290. -/
def execPinReset (s : State) : Out := .next (s.resetOrWake rcPin)

/-- The device stops for want of supply, and what NVMC and KEYS are writing is cut (R267, R293); an entry to a sleep state goes no
further, and RESET_N or a power-on reset starts the device (R294). In PLINTH nothing of it runs (R280). -/
def State.sag (s : State) (how : Nat) : State :=
  if s.sys.sleep = .asleep 3 then s else
  let s := (s.radioIoOff.nvCut how).modNvm (fun n => { n with cur := none, reqs := [], cmd := none, freeing := none, erasing := [] })
  let s := (s.modKeys (fun k => { k with cmd := none, lcPhase := .none })).modPke (fun p => { p with cmd := none })
  s.modSys (fun y => { y with halted := true, xoRun := false, sleep := .awake })

/-- SUPPLY_SAG_HALT (R293, R294); `how` the word then being written reads after it: old, new or uncorrectable (R267). -/
def execSupplySagHalt (how : Fin 3) (s : State) : Out := .next (s.sag how)

/-- VBAK_SWITCHOVER (R293): the Plinth domain is carried on undisturbed. -/
def execVbakSwitchover (s : State) : Out := .next (s.setFlag F.PLINTH_STATUS_PWR_VBAK)

/-! ## Reset release (R169, R174, R275, R296) -/

/-- KEYSTONE_RESOLVE and KEYS_LOAD_AT_RESET: in PROVISION and DEPLOYED without a Keystone, KS_LOST; else COUNT slots and
tenant roots are loaded. U resumes at F and C at L (R161). Entries are resolved under R273: an unusable one is declared, and the
leases whose copies differed are written again. READY is set. -/
def State.keysStart (s : State) : State :=
  let s := forEach [stKeystone, stLife, stIntent, stSeq, stCert] s (fun s e => s.storeCheck Copy.mono e)
  let live := s.storeLc = 1 ∨ s.storeLc = 2
  let s := s.setFld F.ID_LIFECYCLE_STATE s.storeLc
  let s := if live ∧ s.root.isNone then s.setFlag F.KEYS_STATUS_KS_LOST
    else
      let s := forEach (s.storeListed (stSlot 0) (stSlot 64)) s (fun s e =>
        let n := e - stSlot 0
        let s := ((s.storeCheck Copy.mono e).leaseMend (stUses n)).leaseMend (stCtr n)
        s.setSlot n (s.storedSlot n))
      forEach (s.storeListed (stRoot 0) (stRoot 4096)) s (fun s e =>
        let s := s.storeCheck Copy.mono e
        s.modTenant (e - stRoot 0) (fun t => { t with root := s.storedRoot (e - stRoot 0) }))
  s.setFlag F.KEYS_STATUS_READY

/-- RESET_RELEASE (R296): Lintel core 0 thread 0 starts in the boot ROM; sources that woke the device are latched
(R288). The start-up tests of the TRNG run (R166). -/
def execResetRelease (s : State) : Out :=
  .next (if s.sys.inReset then
    let s := s.modSys (fun y => { y with inReset := false })
    let s := s.setFld F.PMU_WAKE_SRC_SRC s.sys.risen.toNat
    let s := s.modThr 0 0 (fun t => { t with st := .run, pc := 0, psw := 0x8000 })
    (s.setFlag F.TRNG_STATUS_STARTUP).keysStart.nvStart.repost 0
  else s)

/-! ## The end of a life-cycle transition (R179, R180) -/

/-- A transition is carried out (R180): the record that NVMC serves ends first, after how many instances that do not read back being
free (log entry 2), and no other is served before KEYS is done (R277); then the writes of the transition. With the stores go the slots
and the tenants' roots as loaded, and ID_LIFECYCLE changes (R30). -/
def State.lcCarry (s : State) (target : Nat) (cert : List Byte) : State :=
  let (fails, s) := s.draw 3
  let w := s.nvCurWork fails
  let s := { s with mram := w.mram, mramFlip := w.mramFlip, free := w.free }
  let s := s.modNvm (fun n => { n with cur := none, reqs := [], cmd := none, freeing := none, erasing := [] })
  let s := s.modKeys (fun k => { k with
    cmd := none, lcPhase := .written, slots := [], lastUse := [], commit := none, nonce := none })
  let s := s.modAshlar (fun a => { a with tenants := sparseMap (fun _ => {}) (fun t => { t with root := none }) a.tenants })
  (s.lcWrites target cert).setFld F.ID_LIFECYCLE_STATE target

/-- The response of KEY LC_CHANGE has still to leave a channel. -/
def State.lcAnswering (s : State) : Bool :=
  allChans.any (fun k => s.adsin.chans[k].outq.any (·.after == some .lc) || s.adsin.chans[k].outstanding.any (·.after == some .lc))

/-- A transition that is made resets the device, once the response that Adsin owes for it has left (R180, R341). -/
def State.lcDue (s : State) : State :=
  if s.keys.lcPhase = .written ∧ !s.lcAnswering then s.deviceReset rcLc else s

/-- The last steps of a transition (R180): its writes, and the reset. -/
def State.lcFinish (s : State) (target : Nat) (cert : List Byte) : State := (s.lcCarry target cert).lcDue

/-- LC_TRANSITION_DONE (R180). -/
def execLcTransitionDone (s : State) : Out :=
  .next (match s.keys.lcPhase with
    | .running t cert => s.lcFinish t cert
    | .written => s.lcDue
    | .none => s)

/-! ## Cores (R252, R299) -/

/-- A core is reset: its threads DEAD, its core-local registers at their reset values, its watchdog's count held. RUN
stays as it is (R252). -/
def State.coreReset (s : State) (c : Fin 6) : State :=
  let s := s.modCore c (fun _ => Core.held c)
  let s := s.setFld F.WDT_STATUS_STAGE2 (s.fld F.WDT_STATUS_STAGE2 &&& (63 - 2 ^ c.val))
  s.resetRegs ((c.val + 1) * 0x1000000) ((c.val + 2) * 0x1000000)

/-- CORE_RESET (R299): a write of 0 to a core's RUN bit. -/
def State.coreStop (s : State) (n : Nat) : State :=
  if h : 1 ≤ n ∧ n < 6 then
    (s.setReg A.SYSCTL_CORE_CTRL (half (putBits (s.regN A.SYSCTL_CORE_CTRL) n n 0))).coreReset ⟨n, h.2⟩
  else s

/-- The outer windows of an application core as its fence sets them (R249). -/
def State.loadFence (s : State) (c : Fin 6) : State :=
  forEach [(0 : Fin 8), 1, 2, 3] s (fun s w =>
    let i := 4 * (c.val - 2) + w.val
    let win : Window := {
      base := BitVec.ofNat 24 (s.effAddr (A.SYSCTL_FENCE_BASE_LO i))
      limit := BitVec.ofNat 24 (s.effAddr (A.SYSCTL_FENCE_LIMIT_LO i))
      attr := s.reg (A.SYSCTL_FENCE_ATTR i) }
    s.modCore c (fun k => { k with win := k.win.set w win }))

/-- CORE_RELEASE (R299): a write of 1 to a held core's RUN bit. A watchdog that was enabled restarts at stage 1. -/
def State.coreStart (s : State) (n : Nat) : State :=
  if h : 1 ≤ n ∧ n < 6 then
    let c : Fin 6 := ⟨n, h.2⟩
    if (s.reg A.SYSCTL_CORE_CTRL).getLsbD n then s
    else
      let s := s.setReg A.SYSCTL_CORE_CTRL (half (putBits (s.regN A.SYSCTL_CORE_CTRL) n n 1))
      let s := forEach [0, 1, 2, 3] s (fun s w => s.setReg (A.EVU_PEND c w) 0)
      let s := if 2 ≤ n then s.loadFence c else s
      let pc := BitVec.ofNat 24 (s.effAddr (A.SYSCTL_CORE_START_LO (n - 1)))
      let s := s.modThr c 0 (fun t => { t with st := .run, pc := pc, psw := pswMode t.psw true false false })
      let s := s.repost c
      if s.flag (F.WDT_CTRL_EN n) then s.wdStart c else s
  else s

/-- A write of SYSCTL_CORE_CTRL. -/
def State.coreCtrlWrite (s : State) (w : Half) : State :=
  forEach [1, 2, 3, 4, 5] s (fun s n =>
    if w.getLsbD n then s.coreStart n else if (s.reg A.SYSCTL_CORE_CTRL).getLsbD n then s.coreStop n else s)

/-- CORE_RELEASE (R299). -/
def execCoreRelease (n : Fin 6) (s : State) : Out := .next (s.coreStart n)

/-- CORE_RESET (R299). -/
def execCoreReset (n : Fin 6) (s : State) : Out :=
  .next (if (s.reg A.SYSCTL_CORE_CTRL).getLsbD n then s.coreStop n else s)

/-- WDT_STAGE2_EXPIRY (R252): a device reset for a Lintel core; an application core is reset, its APP_RST bit set and
line 30 raised. -/
def execWdtStage2Expiry (c : Fin 6) (s : State) : Out :=
  .next (if s.alive ∧ s.cores[c].wdStage = 2 ∧ !s.cores[c].anyHalted then
    if c.val < 2 then s.deviceReset rcWdt c
    else
      let s := s.setFld F.WDT_STATUS_APP_RST (s.fld F.WDT_STATUS_APP_RST ||| 2 ^ (c.val - 2))
      (s.coreReset c).raise 30
  else s)

end Sys2Proof.Machine
end

