-- ==== Sys2Proof/Machine/Power.lean ====
section
/-! DEFINITION. PMU and SYSCTL: performance levels, sleep, clocks, DMA, die temperature, loss of XO_HF (R27, R282 to
R291, R300, R301). -/
namespace Sys2Proof.Machine

/-! ## Performance levels (R282 to R285) -/

/-- RESULT codes of PMU_PL_STAT. -/
abbrev plDone : Nat := 0
abbrev plRefAdmit : Nat := 1
abbrev plRefLanes : Nat := 2
abbrev plSame : Nat := 3
abbrev plBusy : Nat := 4

/-- A write of PMU_PL_REQ. A request for the current level withdraws one that is pending (DESIGN CHOICE, log entry 47). -/
def State.plReqWrite (s : State) (t : Nat) : State :=
  if s.sys.plChange.isSome then s.setFld F.PMU_PL_STAT_RESULT plBusy
  else if t = s.fld F.PMU_PL_CUR then
    ((s.modSys (fun y => { y with plPend := none })).setFlag F.PMU_PL_STAT_WAITING false).setFld F.PMU_PL_STAT_RESULT plSame
  else (s.modSys (fun y => { y with plPend := some t })).setFlag F.PMU_PL_STAT_WAITING

/-- PL_REQUEST (R283). -/
def execPlRequest (target : Fin 4) (s : State) : Out := .next (s.plReqWrite target)

/-- A logical lane at or above `n` holds a role other than idle in the active plan, or in a shadow plan that waits. -/
def State.lanesAbove (s : State) (n : Nat) : Bool :=
  let role (shadow : Bool) (i : Nat) : Bool := bits (s.planWord shadow (2 * i)).toNat 15 14 != 0
  ((List.range 64).drop n).any (fun i => role false i || (s.flag F.COURSE_STATUS_COMMIT_PEND && role true i))

/-- The checks of R284 in order. -/
def State.plRefused (s : State) (t : Nat) : Option Nat :=
  if admissible t < s.fld F.SYSCTL_ADMIT_BYTES then some plRefAdmit
  else if s.lanesAbove (plLanes t) then some plRefLanes else none

/-- A change that has passed its checks starts (R285): t_PC. -/
def State.plBegin (s : State) (t : Nat) : State :=
  let cur := s.fld F.PMU_PL_CUR
  let s := (s.modSys (fun y => { y with plChange := some (t, false) })).setFlag F.PMU_PL_STAT_BUSY
  let s := s.setFld F.SYSCTL_ADMIT_CAP_BYTES (min (admissible cur) (admissible t))
  if t < cur then forEach ((List.range 64).drop (plLanes t)) s (fun s n => s.laneLeave n laneOut) else s

/-- PL_CHANGE_START (R283, R284): a Plumb session that could start goes first. -/
def execPlChangeStart (s : State) : Out :=
  .next (match s.sys.plPend with
    | some t =>
      if s.plWindow ∧ !s.plumbMayStart then
        let s := (s.modSys (fun y => { y with plPend := none })).setFlag F.PMU_PL_STAT_WAITING false
        match s.plRefused t with
        | some r =>
          ((s.setFld F.PMU_PL_STAT_RESULT r).raiseEvt F.PMU_EVT_PL_REFUSED 19).complete .plSet stFail r []
        | none => s.plBegin t
      else s
    | none => s)

/-- PL_DIVIDER_SWITCH (R285). -/
def execPlDividerSwitch (s : State) : Out :=
  .next (match s.sys.plChange with
    | some (t, false) =>
      let old := plLanes (s.fld F.PMU_PL_CUR)
      let s := (s.modSys (fun y => { y with plChange := some (t, true) })).setFld F.PMU_PL_CUR t
      forEach ((List.range (plLanes t)).drop old) s (fun s n =>
        if s.laneState n = laneOut ∧ !s.flag (F.LANE_PHYS_WITHDRAWN n) then s.setLaneState n laneIdle else s)
    | _ => s)

/-- PL_CHANGE_DONE (R285). -/
def execPlChangeDone (s : State) : Out :=
  .next (match s.sys.plChange with
    | some (t, true) =>
      let s := (s.modSys (fun y => { y with plChange := none })).setFlag F.PMU_PL_STAT_BUSY false
      let s := (s.setFld F.PMU_PL_STAT_RESULT plDone).setFld F.SYSCTL_ADMIT_CAP_BYTES (admissible t)
      (s.raiseEvt F.PMU_EVT_PL_DONE 19).complete .plSet stOk plDone [s.reg A.PMU_PL]
    | _ => s)

/-! ## Sleep (R286 to R290) -/

/-- The first precondition of R286 that fails. -/
def State.sleepWhy (s : State) : Option Nat :=
  let st := s.fld F.REC_STATUS_STATE
  if s.running then some 1
  else if (s.rfe .sub).enabled || (s.rfe .ism).enabled || s.access.tuning != 0 || s.access.burst.isSome then some 2
  else if acIdle < s.acState then some 3
  else if s.flag F.NVMC_STATUS_BUSY || s.flag F.KEYS_STATUS_BUSY || s.flag F.PKE_STATUS_BUSY ||
      !s.crypto.jobs.isEmpty || !s.nvm.reqs.isEmpty || !s.access.records.isEmpty || !s.assay.repairOut.isEmpty ||
      s.ashlar.leaseOut.isSome || s.keys.commit.isSome then some 4
  else if [0, 1, 2, 3].any (fun k => s.flag (F.DMA_CTRL_EN k)) then some 5
  else if s.assay.running.isSome || st = recArming || st = recArmed || st = recTriggered then some 6
  else if s.sys.plPend.isSome || s.sys.plChange.isSome then some 7
  else none

/-- A store to PMU_SLEEP. -/
def State.sleepWrite (s : State) (w : Half) : State :=
  let st := bits w.toNat 1 0
  if bits w.toNat 15 8 ≠ 0xC7 ∨ st = 0 ∨ s.sys.sleep ≠ .awake then s
  else match s.sleepWhy with
    | some y => (s.setFlag F.PMU_STATUS_SLP_ERR).setFld F.PMU_STATUS_SLP_WHY y
    | none => s.modSys (fun y => { y with sleep := .entering st false, risen := 0
                                          wakeEn := if st = 3 then 7 else BitVec.ofNat 9 (s.fld F.PMU_WAKE_EN_EN) })

/-- SLEEP_NAP (R286, R287). -/
def execSleepNap (s : State) : Out := .next (s.sleepWrite 0xC701)
/-- SLEEP_SHELF (R286, R287). -/
def execSleepShelf (s : State) : Out := .next (s.sleepWrite 0xC702)
/-- SLEEP_PLINTH (R286, R290). -/
def execSleepPlinth (s : State) : Out := .next (s.sleepWrite 0xC703)


/-- A wake source rises (R287 to R290): one that the sleep knows is noted during an entry and in a sleep state, and in the reset
that a wake from SHELF or PLINTH is, up to the first instruction. PLINTH knows the RTC alarm and the tamper inputs. Without VIO the
wake receivers of the host balls have no power (R399): sources 4 to 7. -/
def State.wakeRise (s : State) (src : Nat) : State :=
  let note (s : State) : State := s.modSys (fun y => { y with risen := y.risen ||| BitVec.ofNat 9 (2 ^ src) })
  if !s.sys.wakeEn.getLsbD src ∨ (4 ≤ src ∧ src ≤ 7 ∧ !s.sys.vio) then s
  else match s.sys.sleep with
  | .awake => if s.sys.inReset ∧ (s.sys.cause = rcShelf ∨ s.sys.cause = rcPlinth) then note s else s
  | .entering st _ => (note s).modSys (fun y => { y with sleep := .entering st true })
  | .asleep st =>
    if st = 2 then (note s).deviceReset rcShelf
    else if st = 3 then (note s).deviceReset rcPlinth
    else note s

/-- WAKE_SOURCE_RISE (R288): the source of that bit of PMU_WAKE_EN. -/
def execWakeSourceRise (src : Fin 9) (s : State) : Out := .next (s.wakeRise src)

/-- SLEEP_TIMER_EXPIRY (R288): the timer counts from the end of entry. -/
def execSleepTimerExpiry (s : State) : Out :=
  .next (match s.sys.sleep with
    | .asleep _ => s.wakeRise 8
    | _ => s)

/-- SLEEP_ENTRY_DONE (R287, R290): PLL and XO_HF are off. A source that rose too late for an abort point wakes the
device now. -/
def execSleepEntryDone (s : State) : Out :=
  .next (match s.sys.sleep with
    | .entering st woken =>
      let s := s.radioIoOff.modSys (fun y => { y with sleep := .asleep st, xoRun := false, pllOn := false })
      let s := (s.setFlag F.SYSCTL_CLK_SRC false).setReg A.SYSCTL_CLK_STATUS (s.reg A.SYSCTL_CLK_STATUS &&& 0xC)
      if !woken ∨ st = 1 then s else s.deviceReset (if st = 2 then rcShelf else rcPlinth)
    | _ => s)

/-- SLEEP_ABANDON (R287): the steps done are undone. An entry to PLINTH cannot be abandoned (R290). Firmware that made
the entry reports PWR WOKE with 0 (R342). -/
def execSleepAbandon (s : State) : Out :=
  .next (match s.sys.sleep with
    | .entering st true =>
      if st = 3 then s
      else ((s.modSys (fun y => { y with sleep := .awake, risen := 0 })).count A.PMU_ABANDONED).event hostChans 1 0x82 [0]
    | _ => s)

/-- NAP_RESUME (R289): the level and the clock source are those of the wake, XO_HF starts again where XO_EN = 1, and
every lane is powered down (R65). -/
def execNapResume (s : State) : Out :=
  .next (match s.sys.sleep with
    | .asleep 1 =>
      if s.sys.risen = 0 then s
      else
        let s := s.setReg A.PMU_WAKE_SRC (half s.sys.risen.toNat)
        let s := s.modSys (fun y => { y with sleep := .awake, risen := 0, xoRun := s.flag F.SYSCTL_CLK_XO_EN })
        let s := (s.setFld F.PMU_STATUS_LAST 1).setFld F.PMU_PL_CUR 0
        let s := (s.setFlag F.SYSCTL_TEMP_VALID false).setFld F.SYSCTL_ADMIT_CAP_BYTES (admissible 0)
        let s := forEach (List.range 64) s (fun s n => s.laneLeave n laneOut)
        (s.raiseEvt F.PMU_EVT_WOKE 19).event hostChans 1 0x82 [s.reg A.PMU_WAKE_SRC]
    | _ => s)

/-! ## Clocks (R27, R291) -/

/-- A write of SYSCTL_CLK. XO_EN = 0 stops XO_HF, and PLL_EN = 0 the PLL (DESIGN CHOICE, log entry 48). -/
def State.clkWrite (s : State) (w : Half) : State :=
  let s := s.setFlag F.SYSCTL_CLK_XO_EN (w.getLsbD 2)
  let s := if w.getLsbD 2 then s.modSys (fun y => { y with xoRun := true })
    else (s.modSys (fun y => { y with xoRun := false })).setFlag F.SYSCTL_CLK_STATUS_XO_OK false
  let s := s.setFlag F.SYSCTL_CLK_PLL_EN (w.getLsbD 1)
  let s := if !w.getLsbD 1 then (s.modSys (fun y => { y with pllOn := false })).setFlag F.SYSCTL_CLK_STATUS_PLL_LOCK false
    else if s.flag F.SYSCTL_CLK_STATUS_XO_OK then s.modSys (fun y => { y with pllOn := true }) else s
  if !w.getLsbD 0 then s.setFlag F.SYSCTL_CLK_SRC false
  else if s.flag F.SYSCTL_CLK_STATUS_PLL_LOCK then s.setFlag F.SYSCTL_CLK_SRC
  else s.setFlag F.SYSCTL_CLK_STATUS_CLK_ERR

/-- XO_ENABLE (R291): a write of SYSCTL_CLK with XO_EN = 1. -/
def execXoEnable (w : Half) (s : State) : Out := .next (s.clkWrite (w ||| 4))

/-- PLL_ENABLE (R291): a write of SYSCTL_CLK with PLL_EN = 1. -/
def execPllEnable (w : Half) (s : State) : Out := .next (s.clkWrite (w ||| 2))

/-- CLOCK_SOURCE_SWITCH (R291): a write of SYSCTL_CLK that keeps XO_EN and PLL_EN and gives SRC. -/
def execClockSourceSwitch (src : Bool) (s : State) : Out :=
  .next (s.clkWrite ((s.reg A.SYSCTL_CLK &&& 6) ||| half (bit src)))

/-- XO_STABLE (R291). -/
def execXoStable (s : State) : Out := .next (if s.sys.xoRun then s.setFlag F.SYSCTL_CLK_STATUS_XO_OK else s)

/-- PLL_LOCK (R291). -/
def execPllLock (s : State) : Out := .next (if s.sys.pllOn then s.setFlag F.SYSCTL_CLK_STATUS_PLL_LOCK else s)

/-- XO_HF_LOSS (R27): XO_HF has stopped for more than 4 µs. -/
def execXoHfLoss (s : State) : Out :=
  .next (if s.sys.sleep = .awake ∧ !s.sys.inReset then
    let s := s.modSys (fun y => { y with xoRun := false, pllOn := false })
    let s := (s.setFlag F.SYSCTL_CLK_SRC false).setReg A.SYSCTL_CLK_STATUS (s.reg A.SYSCTL_CLK_STATUS &&& 0xC)
    let s := ((s.feXoLoss .sub).feXoLoss .ism).courseXoLoss
    let s := s.accessAbort.sliceAbort
    (s.setFlag F.SYSCTL_CLK_STATUS_XO_LOSS).raise 13
  else s)

/-! ## DMA (R300) -/

/-- A halfword of general SRAM, recorder SRAM or MRAM. -/
def State.memHalf (s : State) (a : Nat) : Half :=
  if a < 0x300000 then s.sramHalf a
  else if a < 0x680000 then half (leNat (memTake 0 s.recRam a 2))
  else half (leNat (s.mramTake a 2))

/-- DMA may read a halfword there. -/
def State.dmaSrc (s : State) (a : Nat) : Bool :=
  inSram a 2 || (0x600000 ≤ a && a + 2 ≤ 0x680000) || (0x800000 ≤ a && a + 2 ≤ 0xC00000 && !s.mramBad.contains a)

/-- A channel as started. -/
def State.dmaChan (s : State) (k : Nat) : Nat × Nat × Nat := s.sys.dma.getD k (0, 0, 0)

/-- Copy the first `n` halfwords of a channel, in ascending order. -/
def State.dmaCopy (s : State) (k n : Nat) : State :=
  let (src, dst, _) := s.dmaChan k
  let s := if 0x800000 ≤ src ∧ src < 0xC00000 then s.eccCount src (src + 2 * n) else s
  forEach (List.range n) s (fun s i => s.setSramHalf (dst + 2 * i) (s.memHalf (src + 2 * i)))

/-- The first halfword of a channel whose access is bad. -/
def State.dmaBad (s : State) (k : Nat) : Option Nat :=
  let (src, dst, n) := s.dmaChan k
  (List.range n).find? (fun i => !(s.dmaSrc (src + 2 * i) && inSram (dst + 2 * i) 2))

/-- A write of DMA_k_CTRL. EN = 0 stops a running channel: a free number of its halfwords has been copied (DESIGN CHOICE, log entry 49). -/
def State.dmaCtrlWrite (s : State) (k : Nat) (w : Half) : State :=
  let en := s.flag (F.DMA_CTRL_EN k)
  let s := s.plainWrite (A.DMA_CTRL k) w
  if w.getLsbD 15 ∧ !en then
    let c := (s.effAddr (A.DMA_SRC_LO k), s.effAddr (A.DMA_DST_LO k), s.regN (A.DMA_LEN k))
    s.modSys (fun y => { y with dma := y.dma.set k c })
  else if !w.getLsbD 15 ∧ en then
    let n := match s.dmaBad k with | some i => i | none => (s.dmaChan k).2.2
    let (m, s) := s.draw (n + 1)
    s.dmaCopy k m
  else s

/-- DMA_START (R300). -/
def execDmaStart (k : Fin 4) (s : State) : Out := .next (s.dmaCtrlWrite k 0x8000)

/-- DMA_DONE (R300). -/
def execDmaDone (k : Fin 4) (s : State) : Out :=
  .next (if s.flag (F.DMA_CTRL_EN k) ∧ s.dmaBad k = none then
    ((s.dmaCopy k (s.dmaChan k).2.2).setFlag (F.DMA_CTRL_EN k) false).setFlag (F.DMA_CTRL_DONE k)
  else s)

/-- DMA_STOP_ERROR (R266, R300): the copy stops at the bad access. -/
def execDmaStopError (k : Fin 4) (s : State) : Out :=
  .next (match s.flag (F.DMA_CTRL_EN k), s.dmaBad k with
    | true, some i =>
      let s := s.dmaCopy k i
      let a := (s.dmaChan k).1 + 2 * i
      ((s.eccNote a (a + 1)).setFlag (F.DMA_CTRL_EN k) false).setFlag (F.DMA_CTRL_ERR k)
    | _, _ => s)

/-! ## Die temperature (R301) -/

/-- TEMP_CONVERSION (R301): `deg` is what the sensor measured, reported within -40 °C to 150 °C (R420), while the core domain is on and
not in NAP; Lintel firmware may request calibrations again (R45). -/
def execTempConversion (deg : BitVec 11) (s : State) : Out :=
  .next (if !s.alive then s
    else
      let q := clampInt (-160) 600 (toSigned 11 deg.toNat)
      let s := s.setReg A.SYSCTL_TEMP (half (0x8000 + ofSigned 11 q))
      if s.sys.fwRun then (s.recalibrate .sub).recalibrate .ism else s)

end Sys2Proof.Machine
end

