-- ==== Sys2Proof/Machine/Update.lean ====
section
/-! DEFINITION. Firmware images, their checks, the boot record, the boot ROM sequence, handover and record migration
(R297, R298, R375 to R393). -/
namespace Sys2Proof.Machine

/-! ## Manifest (R375 to R377) -/

/-- Octets of an image slot. -/
def State.imgOctets (s : State) (i off n : Nat) : List Byte := s.mramTake ((slotPlace i).1 + off) n

/-- A part entry of a manifest. -/
structure Part where
  typ : Nat
  flags : Nat
  res : Nat
  offset : Nat
  length : Nat
  entry : Nat
  hash : List Byte
  deriving DecidableEq, Repr

/-- The manifest of a slot: its octets 0 to 87 + 48N, N, and its parts. -/
structure Manifest where
  m : List Byte
  n : Nat
  parts : List Part
  sigO : List Byte
  sigW : List Byte
  deriving DecidableEq, Repr

/-- The manifest that stands in a slot. -/
def State.manifest (s : State) (i : Nat) : Manifest :=
  let n := min 16 (octAt (s.imgOctets i 5 1) 0).toNat
  let part (k : Nat) : Part :=
    let o := s.imgOctets i (88 + 48 * k) 48
    { typ := (octAt o 0).toNat, flags := (octAt o 1).toNat, res := beNat (slice o 2 2), offset := beNat (slice o 4 4)
      length := beNat (slice o 8 4), entry := beNat (slice o 12 4), hash := slice o 16 32 }
  { m := s.imgOctets i 0 (88 + 48 * n), n := n, parts := (List.range n).map part
    sigO := s.imgOctets i (88 + 48 * n) 64, sigW := s.imgOctets i (152 + 48 * n) 64 }

/-- A number at an octet of the manifest. -/
def Manifest.num (x : Manifest) (off n : Nat) : Nat := beNat (slice x.m off n)
/-- SET_VERSION. -/
def Manifest.version (x : Manifest) : Nat := x.num 8 4
/-- IMAGE_WORDS. -/
def Manifest.words (x : Manifest) : Nat := x.num 16 4
/-- OWNER_KEY. -/
def Manifest.owner (x : Manifest) : List Byte := slice x.m 24 64
/-- The part of a type. -/
def Manifest.part (x : Manifest) (t : Nat) : Option Part := x.parts.find? (fun p => p.typ = t)

/-- A part type that holds code. -/
def codePart (t : Nat) : Bool := 1 ≤ t && t ≤ 5

/-! ## Checks (R378, R379) -/

abbrev upOk : Nat := 0x0
abbrev upFormat : Nat := 0x1
abbrev upDevice : Nat := 0x2
abbrev upSlot : Nat := 0x3
abbrev upLayout : Nat := 0x4
abbrev upSigOselle : Nat := 0x5
abbrev upOwner : Nat := 0x6
abbrev upSigOwner : Nat := 0x7
abbrev upHash : Nat := 0x8
abbrev upVersion : Nat := 0x9
abbrev upRecord : Nat := 0xA
abbrev upRefused : Nat := 0xB
abbrev upOverrun : Nat := 0xC
abbrev upNotVerified : Nat := 0xD

/-- Check 1. -/
def State.badFormat (s : State) (i : Nat) (x : Manifest) : Bool :=
  let n := (octAt (s.imgOctets i 5 1) 0).toNat
  slice x.m 0 4 != [0x43, 0x5A, 0x4D, 0x46] || octAt x.m 4 != 1 || n == 0 || decide (16 < n) || octAt x.m 7 != 0 ||
    octAt x.m 15 != 0 || x.num 20 4 != 0 || x.parts.any (fun p => p.res != 0 || (if p.typ = 1 then 1 < p.flags else p.flags != 0)) ||
    decide (655360 < x.words) || decide (2 * x.words < 216 + 48 * n) ||
    (x.parts.filter (fun p => p.typ = 1)).length != 1 ||
    x.parts.any (fun p => p.typ == 0 || decide (10 < p.typ) || decide (1 < (x.parts.filter (fun q => q.typ = p.typ)).length))

/-- Check 4 fails for a part (DESIGN CHOICE, log entry 50: the rules of R377 on OFFSET, LENGTH and ENTRY stand in this check). -/
def Part.badLayout (p : Part) (base : Nat) (x : Manifest) : Bool :=
  decide (p.offset < 216 + 48 * x.n) || decide (2 * x.words < p.offset + p.length) || p.offset % 4 != 0 || p.length == 0 ||
    x.parts.any (fun q => q != p && overlap p.offset p.length q.offset q.length) ||
    (if codePart p.typ then decide (2 ^ 24 ≤ p.entry) || p.entry % 4 != 0 || decide (p.entry < base + p.offset) ||
        decide (base + p.offset + p.length ≤ p.entry)
      else p.entry != 0)

/-- A signature r ‖ s over SHA-256(label ‖ M) under a public point. -/
def Manifest.signed (x : Manifest) (label : List Byte) (q : Nat × Nat) (sig : List Byte) : Bool :=
  ecdsaVerify q (beNat (sha256 (label ++ x.m))) (beNat (slice sig 0 32)) (beNat (slice sig 32 32))

/-- The boot record (R380): slots 0 none, 1 A, 2 B. -/
structure BootRec where
  conf : Nat := 0
  pend : Nat := 0
  prev : Nat := 0
  handover : Bool := false
  floor : Nat := 0
  own : Option (List Byte) := none
  seq : Nat := 0
  deriving DecidableEq, Repr

/-- The boot record as it resolves. An owner hash of zeros stands for none (DESIGN CHOICE, log entry 50). -/
def State.bootRec (s : State) : BootRec :=
  match s.cfgFind 1 with
  | .value c =>
    let w (j : Nat) : Nat := wordAt c.payload j
    let h := wordOctets ((c.payload.drop 4).take 16)
    if c.ver = 1 ∧ c.payload.length = 22 then
      { conf := bits (w 1) 1 0, pend := bits (w 1) 3 2, prev := bits (w 1) 5 4, handover := bits (w 1) 6 6 = 1
        floor := w 2 * 65536 + w 3, own := if h.all (· = 0) then none else some h, seq := c.seq }
    else { seq := c.seq }
  | _ => {}

/-- The payload of a boot record. -/
def BootRec.payload (r : BootRec) : List Half :=
  [1, half (bit r.handover * 64 + r.prev * 16 + r.pend * 4 + r.conf), half (r.floor / 65536), half r.floor] ++
    packWords (r.own.getD (List.replicate 32 0)) ++ [0, 0]

/-- The boot ROM reads the configuration region; an unusable boot record is declared (R266, R273, R380). Firmware keeps the record as
it stands from then on (DESIGN CHOICE, log entry 107). -/
def State.bootRecNote (s : State) : State :=
  let s := s.regionRead .cfg
  if s.cfgFind 1 = .unusable then s.nvSplit else s

/-- Firmware writes the boot record by CFG_WRITE, once NVMC is free for it; `next` follows (R380). -/
def State.bootPush (s : State) (r : BootRec) (next : FwNext) : State := s.cfgPush r.payload next

/-- The first configuration record that firmware has to write goes to NVMC, at one above the SEQ of the record's newest instance
(R278, R380). -/
def State.cfgPump (s : State) : State :=
  match s.update.inCfg, s.update.jobs with
  | none, j :: l =>
    if s.flag F.NVMC_STATUS_BUSY then s
    else
      let seq := match s.cfgFind (wordAt j.payload 0) with | .value c => c.seq + 1 | _ => 1
      (s.cfgAsk j.ver j.payload seq).modUpdate (fun u => { u with jobs := l, inCfg := some j.next })
  | _, _ => s

/-- Firmware's own work at NVMC lets no further command of it begin. -/
def State.nvmcTaken (s : State) : Bool := s.flag F.NVMC_STATUS_BUSY || !s.update.jobs.isEmpty || s.update.inCfg.isSome

/-- The boot ROM writes the boot record by CFG_WRITE; `now`: it is committed within this command, else the ROM waits for the command's
end, and `next` follows (R383). Whether the ROM may go on. -/
def State.romWrite (s : State) (r : BootRec) (now : Bool) (next : FwNext) : Bool × State :=
  let s := s.cfgAsk 1 r.payload (r.seq + 1)
  if now then (true, s.nvmcDone 0) else (false, s.modUpdate (fun u => { u with inCfg := some next }))

/-- The checks of R379 on the set in a slot, the ninth if `nine`. -/
def State.setCheck (s : State) (i : Nat) (nine : Bool) : Nat :=
  let x := s.manifest i
  let r := s.bootRec
  let q := (beNat (slice x.owner 0 32), beNat (slice x.owner 32 32))
  let base := (slotPlace i).1
  if s.badFormat i x then upFormat
  else if x.num 12 2 ≠ 0x0C64 ∨ octAt x.m 14 ≠ byte (s.fld F.ID_STEP_LETTER) then upDevice
  else if octAt x.m 6 ≠ byte i then upSlot
  else if x.parts.any (fun p => p.badLayout base x) then upLayout
  else if !x.signed [0x43, 0x5A, 0x4F, 0x31] Config.imageKey x.sigO then upSigOselle
  else if !onCurve q.1 q.2 ∨ (s.lcState ≠ 1 ∧ r.own.isSome ∧ r.own ≠ some (sha256 x.owner)) then upOwner
  else if !x.signed [0x43, 0x5A, 0x57, 0x31] q x.sigW then upSigOwner
  else if x.parts.any (fun p => sha256 (s.imgOctets i p.offset p.length) != p.hash ||
      s.mramBad.any (fun a => base + p.offset ≤ a && a < base + p.offset + p.length)) then upHash
  else if nine ∧ x.version ≤ r.floor then upVersion
  else upOk

/-- The reads of the checks of a set, in MRAM: its manifest, and its parts where the checks come to their hashes (R266, R379). -/
def State.setRead (s : State) (i : Nat) (nine : Bool) : State :=
  let x := s.manifest i
  let c := s.setCheck i nine
  let base := (slotPlace i).1
  let t := s.eccNote base (base + 216 + 48 * x.n)
  if c = upOk ∨ c = upHash ∨ c = upVersion then
    forEach x.parts t (fun s p => s.eccNote (base + p.offset) (base + p.offset + p.length))
  else t

/-! ## Slot states (R381) -/

abbrev ssEmpty : Nat := 0
abbrev ssStaging : Nat := 1
abbrev ssVerified : Nat := 2
abbrev ssPending : Nat := 3
abbrev ssRunning : Nat := 4
abbrev ssConfirmed : Nat := 5
abbrev ssPrevious : Nat := 6
abbrev ssFailed : Nat := 7

/-- Put the state of a slot, by its code 1 A or 2 B; 0 is none. -/
def State.setSlotState (s : State) (k st : Nat) : State :=
  if k = 0 then s else s.modUpdate (fun u => { u with slots := vset u.slots (k - 1) st })

/-- The state of a slot by index 0 A, 1 B. -/
abbrev State.slotState (s : State) (i : Nat) : Nat := s.update.slots.toList.getD i 0

/-! ## The boot ROM sequence (R297, R298) -/

/-- Step 4: the repair record is loaded. The calibration records are `loadCal`'s. The record does not tell a spare that carried a lane and
then failed from one that failed unused: SPARES_FREE counts every spare that carries no lane (R31, R64; DESIGN CHOICE, log entry 107). -/
def State.loadRepair (s : State) : State :=
  let (c, s) := match s.cfgFind 2 with
    | .value c => (if c.ver = 1 ∧ c.payload.length = 39 then some c else none, s)
    | .unusable => (none, s.nvSplit)
    | .absent => (none, s)
  match c with
  | none => s
  | some c =>
    let w (j : Nat) : Nat := wordAt c.payload j
    let s := forEach (List.range 64) s (fun s n =>
      let p := if n % 2 = 0 then w (1 + n / 2) % 256 else w (1 + n / 2) / 256
      if p = 0x7F then s.laneWithdraw n
      else s.setReg (A.LANE_PHYS n) (half (bit (64 ≤ p) * 0x4000 + p)))
    let s := forEach (List.range 5) s (fun s i => s.setReg (A.ASSAY_LANE_FAIL i) (half (w (33 + i))))
    let fenced := bits (w 38) 3 0
    let s := s.setFld F.CRYPTO_STATUS_FENCED fenced
    let alive := ([0, 1, 2, 3].filter (fun k => !fenced.testBit k)).length
    let s := s.setFld F.ID_CAPS1_AES_ACTIVE alive
    let spares := ([64, 65].filter (fun p => !s.physCarries p)).length
    (s.setFld F.ID_CAPS1_SPARES_FREE spares).modAssay (fun a => { a with repairSeq := c.seq })

/-- The configuration log holds a usable record of a CID beside those of R380 and R373: the calibration records are such records,
in their owner's format (R269, R297). -/
def State.ownerRecord (s : State) : Bool := (cfgNewest (s.regionLog .cfg)).any (fun p => p.1 ≠ 1 && p.1 ≠ 2)

/-- The calibration records are loaded (R297 step 4), what they hold being `c`; without them the reset values stand (DESIGN CHOICE,
log entry 51: their CIDs and formats). -/
def State.loadCal (s : State) (c : Option CalRecord) : State :=
  match c with
  | some c =>
    if s.ownerRecord then
      let band (s : State) (b : Band) (m : CalResult) : State :=
        forEach [CalKind.rc, .dc, .iq] s (fun s k => if calGood k m then s.calStore b k m else s)
      let s := band (band s .sub c.sub) .ism c.ism
      let s := (s.setReg (A.RFE_XO_TRIM .sub) c.trim).commit [A.RFE_XO_TRIM .sub]
      (forEach (List.range 4) s (fun s n => s.setFld (F.LF_TUNE_CODE n) (c.tune.toNat / 64 ^ n % 64))).modUpdate
        (fun u => { u with calGot := true })
    else s
  | none => s

/-- A calibration of the boot ROM (R45, R46). -/
def State.bootCal (s : State) (b : Band) (m : CalResult) : State :=
  forEach [CalKind.rc, .dc, .iq] s (fun s k =>
    let s := s.setFlag (calPend b k) false
    if calGood k m then s.calStore b k m else s.setFlag (calFail b k))

/-- Step 5: the clocks, PL3, and the calibrations of both bands. -/
def State.bootClocks (s : State) (sub ism : CalResult) : State :=
  let s := s.setReg A.SYSCTL_CLK 7
  let s := s.setReg A.SYSCTL_CLK_STATUS (s.reg A.SYSCTL_CLK_STATUS ||| 3)
  let s := s.modSys (fun y => { y with xoRun := true, pllOn := true })
  let s := (s.setFld F.PMU_PL_CUR 3).setFld F.SYSCTL_ADMIT_CAP_BYTES (admissible 3)
  (s.bootCal .sub sub).bootCal .ism ism

/-- The octets of a part of the set of a slot code. -/
def State.partOf (s : State) (k typ : Nat) : Option (List Byte) :=
  ((s.manifest (k - 1)).part typ).map (fun p => s.imgOctets (k - 1) p.offset p.length)

/-- The calibration defaults of the set that boots stand where no calibration record was loaded and the run at step 5 gave no value
(R297, R377). -/
def State.calDefaults (s : State) (k : Nat) : State :=
  match s.partOf k 6 with
  | some o =>
    if s.update.calGot then s
    else
      let c := Config.calibPart o
      let ran := s.flag F.SYSCTL_CLK_STATUS_PLL_LOCK
      let band (s : State) (b : Band) (m : CalResult) : State :=
        forEach [CalKind.rc, .dc, .iq] s (fun s k => if calGood k m && (!ran || s.flag (calFail b k)) then s.calStore b k m else s)
      let s := band (band s .sub c.sub) .ism c.ism
      let s := (s.setReg (A.RFE_XO_TRIM .sub) c.trim).commit [A.RFE_XO_TRIM .sub]
      forEach (List.range 4) s (fun s n => s.setFld (F.LF_TUNE_CODE n) (c.tune.toNat / 64 ^ n % 64))
  | none => s

/-- Lintel firmware of a slot code starts, as a CONFIRMED set: it writes its own VERs (R392), and has its first work to do. -/
def State.fwStarts (s : State) (k : Nat) : State :=
  let x := s.manifest (k - 1)
  s.modUpdate (fun u => { u with owner := some x.owner, runs := k, active := 0, writes := x.version, fresh := true })

/-- The jump to Lintel firmware, with the resume record invalid and watchdog 0 running (R297 step 7). -/
def State.bootJump (s : State) (k pc : Nat) : State :=
  let s := (s.wdtCtrlWrite 0 1).setSramWords 0x2FFFF8 [0, 0, 0, 0]
  let s := s.modThr 0 0 (fun t => { t with st := .run, pc := BitVec.ofNat 24 pc, pos := 0, pend := [] })
  let s := (s.fwStarts k).modUpdate (fun u => { u with hand := .none })
  let s := s.modSys (fun y => { y with fwRun := true, recovery := false, romSys := false })
  s.event hostChans 0 0x80 [s.reg A.SYSCTL_RST_CAUSE, s.reg A.ID_LIFECYCLE]

/-- The fences of a FENCE part. -/
def State.loadFences (s : State) (part : List Byte) : State :=
  forEach (List.range 16) s (fun s i =>
    let w (j : Nat) : Half := half (Config.fencePart part (5 * i + j))
    let s := (s.setReg (A.SYSCTL_FENCE_BASE_LO i) (w 0)).setReg (A.SYSCTL_FENCE_BASE_HI i) (w 1 &&& 0xFF)
    let s := (s.setReg (A.SYSCTL_FENCE_LIMIT_LO i) (w 2)).setReg (A.SYSCTL_FENCE_LIMIT_HI i) (w 3 &&& 0xFF)
    let s := s.commit [A.SYSCTL_FENCE_BASE_LO i, A.SYSCTL_FENCE_BASE_HI i, A.SYSCTL_FENCE_LIMIT_LO i, A.SYSCTL_FENCE_LIMIT_HI i]
    s.setReg (A.SYSCTL_FENCE_ATTR i) (w 4 &&& 0x8007))

/-- R391: every application core with an APP part in the set of a slot is released in one write, with the set's fences
and entries. -/
def State.appsRelease (s : State) (k : Nat) : State :=
  let x := s.manifest (k - 1)
  let apps := [2, 3, 4, 5].filterMap (fun n => (x.part n).map (fun p => (n, p.entry)))
  let s := match s.partOf k 0x0A with | some o => s.loadFences o | none => s
  let s := forEach apps s (fun s (p : Nat × Nat) =>
    let s := (s.setReg (A.SYSCTL_CORE_START_LO (p.1 - 1)) (half p.2)).setReg (A.SYSCTL_CORE_START_HI (p.1 - 1)) (half (p.2 / 65536))
    s.commit [A.SYSCTL_CORE_START_LO (p.1 - 1), A.SYSCTL_CORE_START_HI (p.1 - 1)])
  s.coreCtrlWrite (half (apps.foldl (fun a p => a ||| 2 ^ p.1) (s.regN A.SYSCTL_CORE_CTRL)))

/-- The boot ROM serves Adsin over HOSTIF in 1-1-1 and UART0 at DIV 6,667; where it keeps its buffers the spec does not
say (log entry 2). -/
def State.romServe (s : State) (recov : Bool) : State :=
  let (a, s) := s.draw 0x40000
  let (b, s) := s.draw 0x40000
  let put (s : State) (lo a : Nat) : State := ((s.setReg lo (half a)).setReg (lo + 2) (half (a / 65536))).commit [lo, lo + 2]
  let s := put (put s A.HOSTIF_IN_BASE_LO (0x100000 + 4 * a)) A.HOSTIF_OQ_BASE_LO (0x100000 + 4 * b)
  let s := s.latch [A.HOSTIF_IN_BASE_LO, A.HOSTIF_IN_BASE_HI, A.HOSTIF_OQ_BASE_LO, A.HOSTIF_OQ_BASE_HI]
  let s := (s.setReg A.HOSTIF_CTRL (half (1 + 2 * bit recov))).commit [A.HOSTIF_CTRL]
  (s.setReg A.UART0_BAUD 6667).setFlag F.UART0_CTRL_EN

/-- RECOVERY (R393). -/
def State.enterRecovery (s : State) : State := (s.romServe true).modSys (fun y => { y with recovery := true })

/-- The boot ROM serves the SYS class and goes no further (R297 steps 2 and 3). -/
def State.serveSys (s : State) : State := (s.romServe false).modSys (fun y => { y with romSys := true })

/-- KEYSTONE_GENERATE (R168): in BLANK, once the TRNG is ready; a failure leaves the device in BLANK. -/
def State.bootBlank (s : State) : State :=
  if s.flag F.TRNG_STATUS_HEALTH_FAIL then s.serveSys
  else if !s.drbgReady then s
  else
    let (o, s) := s.drbg 32
    ((s.storePut stKeystone (packWords o)).storePut stLife [1]).deviceReset rcLc

/-- The resume record's address (R298), where the record and the confirmed set allow it: the confirmed slot's code. -/
def State.resumePoint (s : State) : Option (Nat × Nat) :=
  let w := s.sramWords 0x2FFFF8 4
  let a := wordAt w 1 + 65536 * (wordAt w 2 % 256)
  let conf := s.bootRec.conf
  let inside := match (s.manifest (conf - 1)).part 1 with
    | some p => decide ((slotPlace (conf - 1)).1 + p.offset ≤ a) && decide (a < (slotPlace (conf - 1)).1 + p.offset + p.length)
    | none => false
  if wordAt w 0 == 0xC5E1 && wordAt w 3 == crc16 0xFFFF (crcOctets (w.take 3)) && conf != 0 && inside &&
      (s.lcState == 1 || s.lcState == 2) then some (conf, a) else none

/-! ### Boot selection (R383) -/

/-- Check the set of a slot code at boot. -/
def State.cand (s : State) (k : Nat) (nine : Bool) : Bool := k != 0 && s.setCheck (k - 1) nine == upOk

/-- The set of a slot code has been read to be checked. -/
def State.candRead (s : State) (k : Nat) (nine : Bool) : State := if k = 0 then s else s.setRead (k - 1) nine

/-- boot(s) (R384): the slot's lock, the jump to the Lintel part, and the application cores (R391). -/
def State.bootSet (s : State) (k : Nat) : State :=
  let s := (s.setSlotState k ssConfirmed).setReg A.NVMC_IMG_LOCK (s.reg A.NVMC_IMG_LOCK ||| half k)
  let pc := match (s.manifest (k - 1)).part 1 with | some p => p.entry | none => 0
  ((s.calDefaults k).bootJump k pc).appsRelease k

/-- The boot record is written, and the set of a slot code boots, whether it was committed or not. -/
def State.bootWith (s : State) (r : BootRec) (k : Nat) (now : Bool) : State :=
  let (go, s) := s.romWrite r now (.boot k)
  if go then s.bootSet k else s

/-- The version and the owner hash of the set of a slot code. -/
def State.setVer (s : State) (k : Nat) : Nat := (s.manifest (k - 1)).version
def State.setOwn (s : State) (k : Nat) : Option (List Byte) := some (sha256 (s.manifest (k - 1)).owner)

/-- The selection with no pending set: the confirmed one, the previous one, or, without a record, any (R383); else recovery. -/
def State.bootConf (s : State) (r : BootRec) (now : Bool) : State :=
  let s := s.candRead r.conf false
  if s.cand r.conf false then s.bootSet r.conf
  else
    let s := (s.setSlotState r.conf ssFailed).candRead r.prev false
    if s.cand r.prev false then s.bootWith { r with conf := r.prev, prev := 0 } r.prev now
    else if r.conf = 0 then
      let order := if s.setVer 1 < s.setVer 2 then [2, 1] else [1, 2]
      let s := forEach order s (fun s k => s.candRead k false)
      match order.find? (fun k => s.cand k false) with
      | some k => s.bootWith { r with conf := k, floor := s.setVer k, own := s.setOwn k } k now
      | none => s.enterRecovery
    else s.enterRecovery

/-- A set that was PENDING or RUNNING with no boot record to say so, the write of it never having been committed, is VERIFIED as it was
before (R381, R389; DEDUCED, log entry 74). -/
def State.unpend (s : State) : State :=
  s.modUpdate (fun u => { u with slots := u.slots.map (fun x => if x = ssPending ∨ x = ssRunning then ssVerified else x) })

/-- BOOT_SELECTION (R383): the pending set first. `now`: a record write is committed at once. -/
def State.bootSelect (s : State) (now : Bool) : State :=
  let s := s.bootRecNote
  let r := s.bootRec
  let s := s.candRead r.pend true
  if r.pend = 0 then s.unpend.bootConf r now
  else if s.cand r.pend true then
    let r' := { r with prev := r.conf, conf := r.pend, floor := s.setVer r.pend, own := s.setOwn r.pend, pend := 0, handover := false }
    (s.setSlotState r.conf ssPrevious).bootWith r' r.pend now
  else
    let (go, s) := (s.setSlotState r.pend ssFailed).romWrite { r with pend := 0, handover := false } now .select
    if go then s.bootConf { r with pend := 0, handover := false, seq := r.seq + 1 } now else s

/-- Steps 5 to 7 of R297. -/
def State.bootRest (s : State) (clkOk nvOk : Bool) (sub ism : CalResult) : State :=
  (if clkOk then s.bootClocks sub ism else s).bootSelect nvOk

/-- BOOT_ROM_SEQUENCE (R297, R298): once KEYS is READY and NVMC is free. `clkOk`: XO_HF and the PLL start; `nvOk`: a write of the boot
record is committed within this command, else NVMC is still at it and the ROM goes on as NVMC_CMD_DONE ends it; what the
calibrations of RFE_SUB and RFE_ISM measure; what usable calibration records hold. -/
def execBootRomSequence (clkOk nvOk : Bool) (run : CalResult × CalResult) (cal : Option CalRecord) (s : State) : Out :=
  .next (if !s.alive ∨ s.sys.fwRun ∨ s.sys.recovery ∨ s.flag F.NVMC_STATUS_BUSY then s
    else
      let s := if s.flag F.KEYS_STATUS_READY then s else s.keysStart.nvStart
      match s.storeIntent.filter (· ≠ s.storeLc) with
      | some t =>
        if t ≠ 2 then s.lcFinish t []
        else if !s.drbgReady then s
        else let (cert, s) := s.transitionCert; s.lcFinish t cert
      | none =>
        if s.storeLc = 4 then s.serveSys
        else if s.storeLc = 0 then s.bootBlank
        else
          let s := ((s.regionRead .cfg).loadRepair).loadCal cal
          if s.sys.cause = rcShelf then
            let s := s.setReg A.NVMC_IMG_LOCK (s.reg A.NVMC_IMG_LOCK ||| half s.bootRec.conf)
            match s.resumePoint with
            | some (k, a) =>
              let s := s.modThr 0 0 (fun t => { t with st := .run, pc := BitVec.ofNat 24 a, pos := 0, pend := [] })
              let s := (s.eccNote (slotPlace (k - 1)).1 ((slotPlace (k - 1)).1 + 216)).fwStarts k
              let s := s.modSys (fun y => { y with fwRun := true })
              s.event hostChans 0 0x80 [s.reg A.SYSCTL_RST_CAUSE, s.reg A.ID_LIFECYCLE]
            | none => s.bootRest clkOk nvOk run.1 run.2
          else s.bootRest clkOk nvOk run.1 run.2)

/-! ## Handover (R386 to R391) -/

/-- The event ACTIVATED. -/
def State.activated (s : State) (code : Nat) : State := s.event hostChans 0xA 0x81 [half code]

/-- The standby Lintel core. -/
def State.standby (s : State) : Fin 6 := if s.update.active = 0 then 1 else 0
/-- The active Lintel core. -/
def State.oldCore (s : State) : Fin 6 := if s.update.active = 0 then 0 else 1

/-- A core rings another's doorbell. -/
def State.ring (s : State) (c g : Fin 6) : State := s.bell c (half (2 ^ g.val))

/-- A Lintel core enters its standby loop, which only kicks its watchdog (R388, R389): its thread 0 waits at an address of the loop, a
free value (log entry 2), and its other threads are DEAD (DESIGN CHOICE, log entry 107). -/
def State.standbyLoop (s : State) (c : Fin 2) : State :=
  let (a, s) := s.draw (2 ^ 22)
  let g : Fin 6 := ⟨c.val, by omega⟩
  let s := s.modThr g 0 (fun t => { t with st := .wait, waitAt := none, pc := BitVec.ofNat 24 (4 * a), pos := 0, pend := [] })
  let s := forEach [(1 : Fin 4), 2, 3] s (fun s t => s.modThr g t (fun th => { th with st := .dead }))
  s.modUpdate (fun u => { u with loops := c :: u.loops.filter (· != c) })

/-- A Lintel core leaves its standby loop. -/
def State.loopEnds (s : State) (c : Fin 2) : State := s.modUpdate (fun u => { u with loops := u.loops.filter (· != c) })

/-- The cores in their standby loop kick their watchdogs. -/
def State.loopKicks (s : State) : State :=
  if s.alive then forEach s.update.loops s (fun s c => s.kick ⟨c.val, by omega⟩ 0xA5C3) else s

/-- The standby core starts at an address: core 1 by its release, core 0 by a jump of its waiting thread (R386). -/
def State.standbyStart (s : State) (pc : Nat) : State :=
  if s.standby = 1 then
    let s := (s.setReg (A.SYSCTL_CORE_START_LO 0) (half pc)).setReg (A.SYSCTL_CORE_START_HI 0) (half (pc / 65536))
    let s := s.commit [A.SYSCTL_CORE_START_LO 0, A.SYSCTL_CORE_START_HI 0]
    ((s.loopEnds 1).coreStop 1).coreStart 1
  else
    ((s.loopEnds 0).modThr 0 0 (fun t => { t with st := .ready, waitAt := none, pc := BitVec.ofNat 24 pc })).modCore 0 Core.wakeup

/-- The standby core is held or parked again (R386). -/
def State.standbyPark (s : State) : State := if s.standby = 1 then (s.loopEnds 1).coreStop 1 else s.standbyLoop 0

/-- ACTIVATE on a slot (R381, R382, R386): 0 at the next boot, 1 by handover. -/
def State.activate (s : State) (hand : Bool) : State :=
  match [0, 1].find? (fun i : Fin 2 => s.slotState i = ssVerified) with
  | none => s.activated upNotVerified
  | some i =>
    if hand then
      match (s.manifest i).part 1 with
      | some p =>
        if p.flags % 2 = 1 then (s.standbyStart p.entry).modUpdate (fun u => { u with hand := .starting (i + 1) (s.hft + us 500000) })
        else s.activated upRefused
      | none => s.activated upRefused
    else s.bootPush { s.bootRec with pend := i.val + 1, handover := false } (.pending i)

/-- An activation is in progress (R382). -/
def State.activating (s : State) : Bool :=
  let mine (n : FwNext) : Bool := match n with | .pending _ | .tookOver _ _ => true | _ => false
  s.update.hand != .none || s.update.inCfg.any mine || s.update.jobs.any (fun j => mine j.next)

/-- Put where a handover stands. -/
def State.setHand (s : State) (h : Hand) : State := s.modUpdate (fun u => { u with hand := h })

/-- HANDOVER_STANDBY_READY (R386): the new firmware rings within its 500 ms. -/
def execHandoverStandbyReady (s : State) : Out :=
  .next (match s.update.hand with
    | .starting k due => if s.hft ≤ due then (s.ring s.standby s.oldCore).setHand (.ready k) else s
    | _ => s)

/-- HANDOVER_READY_TIMEOUT (R386): the 500 ms are over. -/
def execHandoverReadyTimeout (s : State) : Out :=
  .next (match s.update.hand with
    | .starting _ due => ((s.passTo due).standbyPark.setHand .none).activated upRefused
    | _ => s)

/-- The handover block (R387): its version, its length and the state it carries are free values (log entry 2). -/
def State.writeBlock (s : State) : State :=
  let (v, s) := s.draw 65536
  let (n, s) := s.draw 1913
  let (o, s) := s.drawOctets (2 * n)
  s.setSramWords 0x2FF000 ([0x4A7D, half v, half (n + 8), 0, 0, 0, 0, 0] ++ packWords o)

/-- HANDOVER_CUTOVER_START (R388): at t_H, in the window that was long enough at t_IW, the plan of the next course committed and the old
firmware's NVMC, KEYS and PKE commands ended. -/
def execHandoverCutoverStart (s : State) : Out :=
  .next (match s.update.hand with
    | .quiet k =>
      if !s.nvmcTaken ∧ !s.flag F.KEYS_STATUS_BUSY ∧ !s.flag F.PKE_STATUS_BUSY then
        (s.writeBlock.ring s.oldCore s.standby).setHand (.block k (s.course.nextCt - us (s.regN A.COURSE_T_GUARD) - us 50))
      else s
    | _ => s)

/-- DECISION = ABANDON: the new firmware enters its standby loop (R388). -/
def State.handAbandon (s : State) : State :=
  (s.setSramHalf 0x2FF008 2).standbyLoop (if s.update.active = 0 then 1 else 0)

/-- HANDOVER_ACCEPT (R387, R388): the new firmware accepts the block's version, or refuses it, before t_D. -/
def execHandoverAccept (accepts : Bool) (s : State) : Out :=
  .next (match s.update.hand with
    | .block k tD =>
      if tD < s.hft then s
      else if accepts then ((s.setSramHalf 0x2FF006 1).ring s.standby s.oldCore).setHand (.accepted k)
      else (s.handAbandon.setHand .none).activated upRefused
    | _ => s)

/-- The single read of ACCEPT: GO, and the old core enters its standby loop; or ABANDON. -/
def State.handDecide (s : State) (k : Nat) : State :=
  if s.sramHalf 0x2FF006 = 1 then
    (((s.setSramHalf 0x2FF008 1).ring s.oldCore s.standby).standbyLoop s.update.active).setHand (.go k)
  else (s.handAbandon.setHand .none).activated upOverrun

/-- HANDOVER_DECISION (R388): at the old core's doorbell, or at t_D where it has not been rung. -/
def execHandoverDecision (s : State) : Out :=
  .next (match s.update.hand with
    | .block k tD => (s.passTo tD).handDecide k
    | .accepted k => s.handDecide k
    | _ => s)

/-- A channel is reset (R333): its inbound mailbox is drained, its outstanding requests and queued events are dropped,
and it is not negotiated. -/
def State.chanReset (s : State) (k : Fin 6) : State :=
  let s := if 2 ≤ k.val then { s with mbox := vset s.mbox (k.val - 2) [] } else s
  let s := if 2 ≤ k.val then s.setFlag (F.MB_STATUS_OVF (k.val - 2)) false else s
  let s := s.modChan k (fun c => { c with version := none, outstanding := [], outq := c.dropEvents, part := [] })
  s.event [k] 0 0x82 []

/-- The hashes of the application parts of a set: APP0 to APP3, APPDATA and FENCE. -/
def Manifest.appHashes (x : Manifest) : List (Option (List Byte)) :=
  [2, 3, 4, 5, 9, 10].map (fun t => (x.part t).map (·.hash))

/-- APP_PARTS_SWITCH (R391): differing application parts make the new firmware hold the application cores, drain the
mailboxes, reset the channels and release the cores of the new set. -/
def State.appsSwitch (s : State) (old new : Nat) : State :=
  if (s.manifest (old - 1)).appHashes = (s.manifest (new - 1)).appHashes then s
  else
    let s := s.coreCtrlWrite (s.reg A.SYSCTL_CORE_CTRL &&& 0x3)
    let s := { s with mbox := Vector.replicate 8 [] }
    let s := forEach [(2 : Fin 6), 3, 4, 5] s (fun s k => s.chanReset k)
    s.appsRelease new

/-- HANDOVER_TAKEOVER (R389): steps 1 to 5; steps 6 and 7 follow the end of the write (`tookOver`). The operand says nothing more: the
write ends with NVMC_CMD_DONE. -/
def execHandoverTakeover (_ok : Bool) (s : State) : Out :=
  .next (match s.update.hand with
    | .go k =>
      let new := s.standby
      let old := s.update.runs
      let s := (s.wdtCtrlWrite new 1).modUpdate (fun u => { u with active := if u.active = 0 then 1 else 0, runs := k, hand := .none })
      let s := s.planCommit.setSlotState k ssRunning
      (s.bootPush { s.bootRec with pend := k, handover := true } (.tookOver k old)).cfgPump
    | _ => s)

/-- Steps 6 and 7 of R389, and the application cores (R391): the slot's lock, ACTIVATED. -/
def State.tookOver (s : State) (k old : Nat) (done : Bool) : State :=
  let s := s.setReg A.NVMC_IMG_LOCK (s.reg A.NVMC_IMG_LOCK ||| half k)
  (s.activated (if done then upOk else upRecord)).appsSwitch old k

/-! ## Record migration (R392) -/

/-- The newest instance of every CID that the running set reads: one of a newer VER than its own counts as absent (R392). -/
def State.cfgAll (s : State) : List (Nat × Copy) :=
  let own := s.setVer s.update.runs
  let known := (cfgNewest (s.regionLog .cfg)).foldl (fun l p => if (l.lookup p.1).isNone then l ++ [p] else l) []
  known.filter (fun p => p.2.ver ≤ recVer own p.1)

/-- The new payload of a record that migrates: in the model's own formats (log entry 40) what it held, else free words (log entry 2). -/
def State.migrated (s : State) (p : Nat × Copy) : List Half × State :=
  if cfgOwnCid p.1 then (p.2.payload, s)
  else
    let (n, s) := s.draw 62
    let (o, s) := s.drawOctets (2 * n)
    (half p.1 :: packWords o, s)

/-- RECORD_MIGRATION (R392): a set that runs as CONFIRMED rewrites every CID whose newest instance is older than its own VER, at that
VER. CIDs 1 and 2 have formats fixed by R380 and R373. -/
def execRecordMigration (s : State) : Out :=
  .next (if s.sys.fwRun ∧ s.slotState (s.update.runs - 1) = ssConfirmed ∧ !s.nvmcTaken then
    let old := s.cfgAll.filter (fun p => p.1 ≠ 1 ∧ p.1 ≠ 2 ∧ p.2.ver < recVer s.update.writes p.1)
    (forEach old s (fun s p =>
      let (w, s) := s.migrated p
      s.cfgPush w)).cfgPump
  else s)

end Sys2Proof.Machine
end

