-- ==== Sys2Proof/Machine/Plinth.lean ====
section
/-! DEFINITION. The Plinth domain: supply, real-time clock, alarm, trim, loss of mains, tamper inputs, trickle charger
(R302 to R317). -/
namespace Sys2Proof.Machine

/-! ## Supply (R302) -/

/-- PLINTH_POWER_UP (R197, R302): every Plinth register takes its reset value (locked and cold), and a power-on reset
runs (R295). -/
def execPlinthPowerUp (s : State) : Out :=
  let s := s.resetRegs 0xF00000 0xF01000
  let s := { s with snap := sparseClear s.snap 0xF00000 0xF01000 }
  let s := (s.modPlinth (fun _ => {})).setFld F.PMU_STATUS_LAST 0
  .next (s.deviceReset rcPor)

/-- PLINTH_SUPPLY_LOSS (R302): the domain loses what it holds; the device has no supply either. -/
def execPlinthSupplyLoss (s : State) : Out :=
  let (how, s) := s.draw 3
  let s := (s.sag how).resetRegs 0xF00000 0xF01000
  .next (s.modPlinth (fun _ => { powered := false }))

/-- PLINTH_FEED_VMAIN (R302). -/
def execPlinthFeedVmain (s : State) : Out := .next (s.setFlag F.PLINTH_STATUS_PWR_VBAK false)

/-! ## Events (R317) -/

/-- Set a bit of PLINTH_EVT: the PMU event. -/
def State.plinthEvt (s : State) (f : Fld) : State := s.raiseEvt f 19

/-- The RTC count. -/
def State.rtc (s : State) : Nat := s.regN A.RTC_0 + 65536 * s.regN A.RTC_1 + 2 ^ 32 * s.regN A.RTC_2

/-- Put the RTC, all words at once (R304). -/
def State.setRtc (s : State) (v : Nat) : State :=
  ((s.setReg A.RTC_0 (half v)).setReg A.RTC_1 (half (v / 65536))).setReg A.RTC_2 (half (v / 2 ^ 32))

/-- The RTC as three words, low first (R341). -/
def State.rtcLow (s : State) : List Half := [s.reg A.RTC_0, s.reg A.RTC_1, s.reg A.RTC_2]

/-- A 48-bit value in force in three registers. -/
def State.eff48 (s : State) (a : Nat) : Nat := (s.eff a).toNat + 65536 * (s.eff (a + 2)).toNat + 2 ^ 32 * (s.eff (a + 4)).toNat

/-- XO_LF runs and the RTC counts. -/
def State.lfRuns (s : State) : Bool := s.plinth.powered && s.flag F.PLINTH_STATUS_XO_LF_RUN

/-! ## Real-time clock (R304 to R309) -/

/-- RTC_ALARM_FIRE (R309, R317). -/
def State.alarmFire (s : State) : State :=
  ((s.plinthEvt F.PLINTH_EVT_ALARM).event hostChans 2 0x80 s.rtcLow).wakeRise 0

/-- One hour of ticks. -/
abbrev hourTicks : Nat := 117964800

/-- A tick boundary (R304); TIMER may capture bit 14 becoming 1 (R322). -/
def State.rtcTick (s : State) : State :=
  let trim := toSigned 16 (s.regN A.RTC_TRIM)
  let acc := s.plinth.acc + trim
  let (step, acc) : Nat × Int := if 2 ^ 24 ≤ acc then (2, acc - 2 ^ 24) else if acc ≤ -(2 ^ 24) then (0, acc + 2 ^ 24) else (1, acc)
  let prev := s.rtc
  let setPend := s.flag F.PLINTH_STATUS_SET_PEND
  let shiftPend := s.flag F.PLINTH_STATUS_SHIFT_PEND
  let v := if setPend then s.eff48 A.RTC_SET_0 else prev + step
  let refused := shiftPend && !s.plinth.shiftFwd && decide (v < hourTicks)
  let v := if !shiftPend then v else if s.plinth.shiftFwd then v + hourTicks else if refused then v else v - hourTicks
  let late := s.plinth.almLate
  let s := s.modPlinth (fun p => { p with acc := acc, almLate := false, raw := p.raw + 1 })
  let s := s.setRtc (v % 2 ^ 48)
  let s := (s.setFlag F.PLINTH_STATUS_SET_PEND false).setFlag F.PLINTH_STATUS_SHIFT_PEND false
  let s := if refused then s.plinthEvt F.PLINTH_EVT_CMD_ERR else s
  let s := if !(half prev).getLsbD 14 && (s.reg A.RTC_0).getLsbD 14 then s.capEdge 0x04 true else s
  let s := if shiftPend then s.complete .timeShift (if refused then stFail else stOk) 0 [] else s
  let alm := s.eff48 A.RTC_ALM_0
  if s.flag F.PLINTH_CTRL_ALM_EN && ((prev < alm && alm ≤ s.rtc) || late) then s.alarmFire else s

/-- RTC_TICK (R304, R308). -/
def execRtcTick (s : State) : Out := .next (if s.lfRuns then s.rtcTick else s)

/-- A write of an RTC_SET word: the value commits on RTC_SET_2 (R306). -/
def State.rtcSetWrite (s : State) (a : Nat) (w : Half) : State :=
  let s := s.plainWrite a w
  if a = A.RTC_SET_2 then (s.commit [A.RTC_SET_0, A.RTC_SET_1, A.RTC_SET_2]).setFlag F.PLINTH_STATUS_SET_PEND else s

/-- RTC_SET_COMMIT (R306). -/
def execRtcSetCommit (w : Half) (s : State) : Out := .next (s.rtcSetWrite A.RTC_SET_2 w)

/-- A write of RTC_CMD (R307). -/
def State.rtcCmdWrite (s : State) (w : Half) : State :=
  let sh := bits w.toNat 1 0
  if bits w.toNat 15 8 ≠ 0xB4 ∨ sh = 0 ∨ sh = 3 then s
  else if s.flag F.PLINTH_STATUS_SHIFT_PEND then s.plinthEvt F.PLINTH_EVT_CMD_ERR
  else (s.setFlag F.PLINTH_STATUS_SHIFT_PEND).modPlinth (fun p => { p with shiftFwd := sh = 1 })

/-- HOUR_SHIFT_FORWARD (R307). -/
def execHourShiftForward (s : State) : Out := .next (s.rtcCmdWrite 0xB401)
/-- HOUR_SHIFT_BACK (R307). -/
def execHourShiftBack (s : State) : Out := .next (s.rtcCmdWrite 0xB402)

/-- The alarm that commits or is enabled at or past its value is late (R309). -/
def State.almTest (s : State) : State :=
  s.modPlinth (fun p => { p with almLate := s.flag F.PLINTH_CTRL_ALM_EN && decide (s.eff48 A.RTC_ALM_0 ≤ s.rtc) })

/-- A write of an RTC_ALM word: the value commits on RTC_ALM_2. -/
def State.rtcAlmWrite (s : State) (a : Nat) (w : Half) : State :=
  let s := s.plainWrite a w
  if a = A.RTC_ALM_2 then (s.commit [A.RTC_ALM_0, A.RTC_ALM_1, A.RTC_ALM_2]).almTest else s

/-- RTC_ALARM_COMMIT (R309). -/
def execRtcAlarmCommit (w : Half) (s : State) : Out := .next (s.rtcAlmWrite A.RTC_ALM_2 w)

/-! ## Trim (R310 to R312) -/

/-- A window that is open is void (R311). -/
def State.trimVoid (s : State) : State :=
  if s.plinth.winOpen.isSome then
    (s.modPlinth (fun p => { p with winOpen := none, closeAt := none, refs := 0, cycles := 0 })).plinthEvt F.PLINTH_EVT_TRIM_VOID
  else s

/-- TRIM_WINDOW_VOID (R311). -/
def execTrimWindowVoid (s : State) : Out := .next s.trimVoid

/-- XO_LF_STOP (R308). -/
def execXoLfStop (s : State) : Out :=
  .next (if s.plinth.powered then
    ((s.setFlag F.PLINTH_STATUS_XO_LF_RUN false).plinthEvt F.PLINTH_EVT_OSC_STOP).trimVoid
  else s)

/-- XO_LF_RESTART (R308). -/
def execXoLfRestart (s : State) : Out := .next (if s.plinth.powered then s.setFlag F.PLINTH_STATUS_XO_LF_RUN else s)

/-- Reference seconds of a window. -/
def State.trimN (s : State) : Nat := 2 ^ s.fld F.PLINTH_CTRL_WIN

/-- A window that has had its N reference seconds closes at the edge that ended them, and the next opens there (R310, R312). -/
def State.trimClose (s : State) : State :=
  match s.plinth.winOpen, s.plinth.closeAt with
  | some w, some r =>
    let n := s.trimN
    let s := s.setReg32 A.TRIM_MEAS_LO (r - w)
    let s := s.modPlinth (fun p => { p with winOpen := some r, closeAt := none })
    let e : Int := ((r - w : Nat) : Int) - (32768 * n : Nat)
    let s := if s.flag F.PLINTH_CTRL_AUTO
      then s.setReg A.RTC_TRIM (half (ofSigned 16 (clampInt (-32768) 32767 (divRound (-e * 512) n)))) else s
    (s.plinthEvt F.PLINTH_EVT_TRIM_DONE).event hostChans 2 0x81 [s.reg A.TRIM_MEAS_LO, s.reg A.TRIM_MEAS_HI]
  | _, _ => s

/-- A reference edge in limits, `second` if it ends a reference second: it opens a window where none is open, and the edge that
ends the last reference second is the one the window closes at (R310, R311). -/
def State.refEdge (s : State) (second : Bool) : State :=
  let s := s.trimClose
  let now := s.plinth.raw
  if s.plinth.winOpen.isNone then s.modPlinth (fun p => { p with winOpen := some now, closeAt := none, refs := 0, cycles := 0 })
  else if !second then s
  else if s.plinth.refs + 1 < s.trimN then s.modPlinth (fun p => { p with refs := p.refs + 1, cycles := 0 })
  else s.modPlinth (fun p => { p with refs := 0, cycles := 0, closeAt := some now })

/-- PPS_IN_EDGE (R310, R311): an interval outside 32,768 ± 328 raw ticks voids the window; the edge is a reference edge with TSRC
at PPS_IN. TIMER may capture it (R322). -/
def execPpsInEdge (s : State) : Out :=
  let s := s.capEdge 0x02 true
  .next (if !s.plinth.powered then s
    else
      let ok := match s.plinth.lastPps with
        | some r => 32440 ≤ s.plinth.raw - r && s.plinth.raw - r ≤ 33096
        | none => true
      let s := s.modPlinth (fun p => { p with lastPps := some p.raw })
      if !ok then s.trimVoid else if s.fld F.PLINTH_CTRL_TSRC = 1 then s.refEdge true else s)

/-- TRIM_WINDOW_CLOSE (R310, R312). -/
def execTrimWindowClose (s : State) : Out := .next s.trimClose

/-- A write of PLINTH_CTRL: a change of TSRC or WIN voids the window; ALM_EN from 0 to 1 tests the alarm. -/
def State.plinthCtrlWrite (s : State) (w : Half) : State :=
  let old := s.reg A.PLINTH_CTRL
  let s := s.plainWrite A.PLINTH_CTRL w
  let new := s.reg A.PLINTH_CTRL
  let s := if (old ^^^ new) &&& 0x3F00 != 0 then s.trimVoid else s
  if new.getLsbD 15 && !old.getLsbD 15 then s.almTest else s

/-! ## Mains (R313) -/

/-- Nominal mains cycles in a second. -/
def State.mainsHz (s : State) : Nat := if s.flag F.PLINTH_MAINS_HZ60 then 60 else 50

/-- MAINS_BACK (R313). -/
def State.mainsBack (s : State) : State :=
  let s := (s.setFlag F.PLINTH_STATUS_LOM false).modPlinth (fun p => { p with good := 0 })
  (s.plinthEvt F.PLINTH_EVT_MAINS_BACK).event allChans 1 0x81 s.rtcLow

/-- MAINS_EDGE (R310, R311, R313): a rising edge of MAINS_ZC, not counted within a quarter of the nominal period after the
last counted edge. A counted interval out of limits voids the trim window. TIMER may capture the edge (R322). -/
def execMainsEdge (s : State) : Out :=
  let s := s.capEdge 0x01 true
  let hz := s.mainsHz
  let d := s.plinth.lastMains.map (fun m => s.plinth.raw - m)
  let near : Bool := match d with | some d => decide (4 * hz * d < 32768) | none => false
  .next (if !s.plinth.powered || near then s
    else
      let inTol : Bool := match d with | some d => decide (9 * 32768 ≤ 10 * hz * d) && decide (10 * hz * d ≤ 11 * 32768) | none => false
      let s := s.modPlinth (fun p => { p with
        lastMains := some p.raw, detect := true, good := if inTol then p.good + 1 else 0 })
      let s := if s.flag F.PLINTH_STATUS_LOM ∧ 8 ≤ s.plinth.good then s.mainsBack else s
      if d.isSome && !inTol then s.trimVoid
      else if s.fld F.PLINTH_CTRL_TSRC = 2 then
        let s := s.modPlinth (fun p => { p with cycles := p.cycles + 1 })
        s.refEdge (hz ≤ s.plinth.cycles)
      else s)

/-- A write of PLINTH_MAINS: LOM returns to 0 and detection restarts at the next counted edge; the filter of edges goes on. -/
def State.mainsWrite (s : State) (w : Half) : State :=
  ((s.plainWrite A.PLINTH_MAINS w).setFlag F.PLINTH_STATUS_LOM false).modPlinth (fun p => { p with detect := false, good := 0 })

/-- PLINTH_MAINS_WRITE (R313). -/
def execPlinthMainsWrite (w : Half) (s : State) : Out := .next (s.mainsWrite w)

/-! ## Tamper inputs and charger (R314 to R316) -/

/-- TAMPER_EDGE (R314): a filtered edge of TAMP_n. -/
def execTamperEdge (n : Fin 2) (rising : Bool) (s : State) : Out :=
  let en := s.flag (if n = 0 then F.PLINTH_TAMP_EN0 else F.PLINTH_TAMP_EN1)
  let kind := s.fld (if n = 0 then F.PLINTH_TAMP_EDGE0 else F.PLINTH_TAMP_EDGE1)
  let evt := if n = 0 then F.PLINTH_EVT_TAMP0 else F.PLINTH_EVT_TAMP1
  let ts (i : Nat) : Nat := if n = 0 then A.TAMP_0_TS i else A.TAMP_1_TS i
  .next (if s.plinth.powered ∧ en ∧ kind.testBit (if rising then 0 else 1) then
    let s := if s.flag evt then s
      else ((s.setReg (ts 0) (s.reg A.RTC_0)).setReg (ts 1) (s.reg A.RTC_1)).setReg (ts 2) (s.reg A.RTC_2)
    let s := (s.plinthEvt evt).countFld (if n = 0 then F.TAMP_CNT_CNT0 else F.TAMP_CNT_CNT1)
    let s := s.scheduleReset
    let s := s.event hostChans 2 0x82 [half n, s.reg (ts 0), s.reg (ts 1), s.reg (ts 2), s.reg A.TAMP_CNT]
    s.wakeRise (1 + n)
  else s)

/-- A write of PLINTH_TRICKLE (R316). -/
def State.trickleWrite (s : State) (w : Half) : State :=
  if bits w.toNat 15 8 = 0x96 then s.plainWrite A.PLINTH_TRICKLE w else s

/-- TRICKLE_WRITE (R316). -/
def execTrickleWrite (w : Half) (s : State) : Out := .next (s.trickleWrite w)

end Sys2Proof.Machine
end

