-- ==== Sys2Proof/Machine/OutQueue.lean ====
section
/-! DEFINITION. The outbound queue of HOSTIF (R343). -/
namespace Sys2Proof.Machine

/-- The host I/O domain is on and HOSTIF answers (R280, R329). -/
def State.hostifLive (s : State) : Bool := s.sys.vio && s.alive && s.flag F.HOSTIF_CTRL_EN

/-- Messages on the outbound queue. -/
def State.oqCount (s : State) : Nat := (s.fld F.HOSTIF_OQ_WR_INDEX + 32 - s.fld F.HOSTIF_OQ_RD_INDEX) % 32

/-- Address of the head message: queue entry OQ_RD mod 16. -/
def State.oqHead (s : State) : Nat :=
  let a := s.latAddr A.HOSTIF_OQ_BASE_LO + 4 * (s.fld F.HOSTIF_OQ_RD_INDEX % 16)
  wordAt (s.sramWords a 2) 0 / 2 * 2 + 65536 * (wordAt (s.sramWords a 2) 1 % 256)

/-- The head message's length, 0 where the queue is empty. -/
def State.outLen (s : State) : Nat := if s.oqCount = 0 then 0 else (s.sramHalf s.oqHead).toNat % 2048

/-- Entries at the head whose message is not one are removed (R343). -/
def State.oqClean : Nat → State → State
  | 0, s => s
  | n + 1, s =>
    let len := s.outLen
    if s.oqCount = 0 ∨ (4 ≤ len ∧ len ≤ 1088 ∧ inSram s.oqHead (2 * len)) then s
    else State.oqClean n ((s.setFld F.HOSTIF_OQ_RD_INDEX (s.fld F.HOSTIF_OQ_RD_INDEX + 1)).raiseEvt F.HOSTIF_STATUS_Q_ERR 16)

/-- A write of HOSTIF_OQ_WR (R343): the queue holds at most 16 entries, and OQ_WR may not move
behind OQ_RD; a write that leaves it between the two takes entries back. -/
def State.oqWrite (s : State) (w : Half) : State :=
  let i := w.toNat % 32
  let d := (i + 32 - s.fld F.HOSTIF_OQ_RD_INDEX) % 32
  if 16 < d then s.raiseEvt F.HOSTIF_STATUS_Q_ERR 16
  else
    let was := s.oqCount
    let s := s.setFld F.HOSTIF_OQ_WR_INDEX i
    let s := if was = 0 then s.modSys (fun y => { y with shown := false }) else s
    if s.flag F.HOSTIF_CTRL_EN then State.oqClean 32 s else s

end Sys2Proof.Machine
end

