-- ==== Sys2Proof/Machine/Adsin.lean ====
section
/-! DEFINITION. Adsin: the checks a request passes and the order of responses (R334 to R340). -/
namespace Sys2Proof.Machine

/-! ## Commands (R341, R360) -/

/-- The version that added a command; none where CMD is unknown. -/
def adsinSince (cls cmd : Nat) : Option Nat :=
  let upTo := [6, 4, 5, 8, 6, 5, 11, 6, 7, 3, 6, 2].getD cls 0
  if cmd = 0 ∨ upTo < cmd then none
  else match (cls, cmd) with
    | (0, 6) | (2, 3) | (2, 4) | (3, 7) | (3, 8) | (8, 7) => some 0x0201
    | (5, 5) => some 0x0202
    | (6, 10) | (7, 6) => some 0x0203
    | (10, 6) | (11, 2) => some 0x0204
    | _ => some 0x0200

/-- The commands of the application channels (R340). -/
def appMay (cls cmd : Nat) : Bool :=
  (cls = 0 && 1 ≤ cmd && cmd ≤ 4) || (cls, cmd) ∈ [(2, 1), (3, 5), (6, 11), (11, 2)]

/-- The life-cycle state and the device state let a command through (R340). -/
def State.adsinState (s : State) (cls cmd : Nat) : Bool :=
  if s.sys.romSys then cls = 0 && cmd ≤ 3
  else if s.sys.recovery then (cls = 0 && cmd ≠ 4 && cmd ≠ 6) || (cls = 10 && cmd ≠ 4 && cmd ≠ 6)
  else if s.storeLc = 3 ∨ s.flag F.KEYS_STATUS_KS_LOST then !(cls = 6 && cmd ∈ [1, 2, 3, 5, 11])
  else true

/-- A slot is PENDING or RUNNING, or locked where BEGIN would stage (R382, R385). -/
def State.stageClosed (s : State) : Bool :=
  [0, 1].any (fun i => s.slotState i == ssPending || s.slotState i == ssRunning) || s.slotLocked (if s.bootRec.conf = 1 then 1 else 0)

/-- The slot being staged is STAGING or VERIFIED (R381). -/
def State.stageOpen (s : State) : Bool :=
  s.slotState s.update.staging == ssStaging || s.slotState s.update.staging == ssVerified

/-- The state that a command's own rule asks for (R95, R360, R381, R382; FABRIC START without a CFG: DESIGN CHOICE, log entry
104). -/
def State.cmdState (s : State) (cls cmd : Nat) : Bool :=
  match (cls, cmd) with
  | (4, 1) => !s.running
  | (8, 1) => !s.fabric.on
  | (8, 2) => !s.fabric.cfg.isEmpty
  | (9, 1) => s.flag F.ASSAY_CTRL_EN
  | (8, 6) => s.fabric.st = 3
  | (10, 1) => !s.stageClosed
  | (10, 2) => !s.stageClosed && s.stageOpen
  | (10, 3) => [0, 1].any (fun i => s.slotState i == ssStaging)
  | (10, 4) => !s.activating
  | _ => true

/-- The descriptor of a KEY CIPHER request: its words in their places, the addresses still 0 (R157, R341). -/
def cipherDesc (p : List Half) : Desc :=
  ⟨[p.getD 0 0, 0, 0, 0, 0, p.getD 1 0, p.getD 2 0, p.getD 3 0] ++ (p.drop 4).take 8⟩

/-- The lengths of a request's payload in words. -/
def adsinLen (cls cmd : Nat) (p : List Half) : Bool :=
  let n := p.length
  match (cls, cmd) with
  | (0, 1) => n = 2 | (0, 2) => n ≤ 16 | (0, 3) => n = 0 | (0, 4) => n = 12 | (0, 5) => n = 1 | (0, 6) => n = 0
  | (1, 1) => n = 1 | (1, 2) => n = 0 | (1, 3) => n = 4 | (1, 4) => n = 1
  | (2, 1) => n = 0 | (2, 2) => n = 3 | (2, 3) => n = 1 | (2, 4) => n = 2 | (2, 5) => n = 4
  | (3, 1) => n = 7 | (3, 2) => n = 2 | (3, 3) => n = 2 | (3, 4) => n = 3 | (3, 5) => 7 ≤ n && n = 7 + (wordAt p 6 + 1) / 2
  | (3, 6) => n = 1 | (3, 7) => n = 4 | (3, 8) => n = 3
  | (4, 1) => n = 8 | (4, 2) => n = 6 | (4, 3) => n = 0 | (4, 4) => 1 ≤ n && n = 1 + 3 * wordAt p 0
  | (4, 5) => 5 ≤ n && n = 5 + (wordAt p 1 % 256 + 1) / 2 | (4, 6) => n = 5
  | (5, 1) => n = 4 | (5, 2) => n = 2 | (5, 3) => n = 9 | (5, 4) => n = 0 | (5, 5) => n = 1
  | (6, 1) => n = 60 || n = 68 | (6, 2) => 6 ≤ n && n = 1 + (10 + wordAt p 5 / 256) / 2 | (6, 3) => n = 5 | (6, 4) => n = 1 | (6, 5) => n = 2 | (6, 6) => n = 1
  | (6, 7) => n = 1 | (6, 8) => n = 0 | (6, 9) => n = 0 | (6, 10) => n = 33
  | (6, 11) => 12 ≤ n && n = 12 + ((cipherDesc p).sizes.1 + 1) / 2
  | (7, 1) => n = 14 | (7, 2) => 3 ≤ n && n = 3 + (if wordAt p 0 = 0 then 6 else 4) * wordAt p 2 | (7, 3) => n = 2
  | (7, 4) => n = 0 | (7, 5) => n = 1 | (7, 6) => n = 1
  | (8, 1) => n = 14 | (8, 2) => n = 0 | (8, 3) => n = 0 | (8, 4) => n = 0 | (8, 5) => n = 2 | (8, 6) => 2 ≤ n && n ≤ 993
  | (8, 7) => n = 2
  | (9, 1) => n = 2 | (9, 2) => n = 7 | (9, 3) => n = 1
  | (10, 1) => n = 2 | (10, 2) => 3 ≤ n && n ≤ 1026 | (10, 3) => n = 0 | (10, 4) => n = 1 | (10, 5) => n = 0 | (10, 6) => n = 0
  | (11, 1) => n = 4 | (11, 2) => 1 ≤ n && n ≤ 61
  | _ => false

/-! ## Responses (R335, R336) -/

abbrev stBadHdr : Nat := 0x02
abbrev stBusy : Nat := 0x03
abbrev stNoHello : Nat := 0x04
abbrev stBadClass : Nat := 0x05
abbrev stBadCmd : Nat := 0x06
abbrev stDenied : Nat := 0x07
abbrev stState : Nat := 0x08
abbrev stBadLen : Nat := 0x09
abbrev stVersion : Nat := 0x0E

/-- What a command makes of a request: a response now; a response once something completes, with the words it begins with; nothing yet, its block being
busy with another request; OK, with something to do once the response has left. -/
inductive Answer where
  | done (status detail : Nat) (payload : List Half)
  | wait (w : Await) (first : List Half)
  | held
  | leave (a : After)
  deriving DecidableEq, Repr

/-- A response once something completes. -/
abbrev Answer.until (w : Await) (first : List Half := []) : Answer := .wait w first

/-- OK with a payload. -/
abbrev Answer.ok (payload : List Half := []) : Answer := .done stOk 0 payload

/-- A status without a payload. -/
abbrev Answer.no (status : Nat) (detail : Nat := 0) : Answer := .done status detail []

/-- A request with its answer. -/
def Request.settle (r : Request) (body : List Half) : Answer → Request
  | .done st d p => { r with resp := some (respWords r st d p), held := none }
  | .wait w l => { r with wait := w, first := l, held := none }
  | .held => { r with held := some body }
  | .leave a => { r with resp := some (respWords r stOk 0 []), after := some a, held := none }

/-- The first of the checks 0x02 to 0x09 that a request fails, in the order of R335. -/
def State.adsinCheck (s : State) (k : Fin 6) (h : AdsinHdr) (cls cmd : Nat) (p : List Half) : Option Nat :=
  let c := s.adsin.chans[k]
  if h.kind ≠ 0 ∨ h.res0 ≠ 0 ∨ h.res1 ≠ 0 ∨ h.w3.toNat % 256 ≠ 0 then some stBadHdr
  else if 8 ≤ c.outstanding.length then some stBusy
  else if c.version.isNone ∧ ¬(cls = 0 ∧ cmd = 1) then some stNoHello
  else if 0xB < cls then some stBadClass
  else match adsinSince cls cmd with
    | none => some stBadCmd
    | some v =>
      if c.version.getD v < v then some stBadCmd
      else if !isHost k ∧ !appMay cls cmd then some stDenied
      else if !(s.adsinState cls cmd && s.cmdState cls cmd) then some stState
      else if !adsinLen cls cmd p then some stBadLen
      else none

/-- Something answers Adsin on a channel: Lintel firmware, or the boot ROM on the host channels; nothing once a sleep entry has stopped
the threads (R287). -/
def State.adsinUp (s : State) (k : Fin 6) : Bool :=
  s.coresRun && (s.sys.fwRun || (isHost k && (s.sys.recovery || s.sys.romSys)))

/-- The event VERIFIED, of firmware or, in recovery, of the boot ROM (R342, R393). -/
def State.verified (s : State) (code : Nat) : State :=
  if s.sys.recovery then forEach hostChans s (fun s k => s.modChan k (fun c => c.event 10 0x80 [half code]))
  else s.event hostChans 10 0x80 [half code]

/-- The check of a staged set (R379, R381); in recovery a set that passes becomes the pending one (R393). -/
def State.verifySet (s : State) : State :=
  match [0, 1].find? (fun i : Fin 2 => s.slotState i = ssStaging) with
  | none => s
  | some i =>
    let c := s.setCheck i true
    let s := s.setRead i true
    if c ≠ upOk then (s.setSlotState (i.val + 1) ssFailed).verified c
    else
      let s := s.setSlotState (i.val + 1) ssVerified
      if s.sys.recovery then s.bootPush { s.bootRec with pend := i.val + 1, handover := false } (.staged i)
      else s.verified upOk

/-- What a command does once its response is on its way, where what it does can itself send an event: FABRIC START, STOP and
SEND, UPDATE VERIFY and ACTIVATE. -/
def State.adsinNext (s : State) (cls cmd : Nat) (p : List Half) : State :=
  match (cls, cmd) with
  | (8, 2) => s.fabStart
  | (8, 3) => s.fabStop
  | (8, 6) =>
    let q := (s.fabric.seq + 65535) % 65536
    s.fabForward 4 s.fabric.addr (wordAt p 0) 16 0 q (wordOctets (p.drop 1)) (some q)
  | (10, 3) => s.verifySet
  | (10, 4) => s.activate (wordAt p 0 = 1)
  | _ => s

/-- An answer that says the command was taken. -/
def Answer.taken : Answer → Bool
  | .done st _ _ => st == stOk || st == stAccepted
  | _ => false

/-- A SYS RESET response that has been queued resets the device 100 ms later at the latest (R341). -/
def State.noteReset (s : State) : State :=
  if s.adsin.resetAt.isNone && allChans.any (fun k => s.adsin.chans[k].outq.any (fun m => m.after == some .reset))
  then s.modAdsin (fun a => { a with resetAt := some (s.hft + us 100000) }) else s

/-- The cutover of a handover is under way: from t_IW on the old firmware takes no new work, and the new firmware none before GO (R388). -/
def State.cutover (s : State) : Bool :=
  match s.update.hand with | .quiet _ | .block _ _ | .accepted _ | .go _ => true | _ => false

/-- A request arrives on a channel (R335, R336). `act` is the command; a request behind one of its channel that waits for a
busy block waits too (DESIGN CHOICE, log entry 62), and so does one that arrives within a cutover (R388). -/
def State.adsinReq (s : State) (k : Fin 6) (h : AdsinHdr) (cls cmd : Nat) (p : List Half) (act : State → Answer × State) : State :=
  if !s.adsinUp k then s
  else
    let bad := s.adsinCheck k h cls cmd p
    let behind := s.cutover || s.adsin.chans[k].outstanding.any (·.held.isSome)
    let s := s.modChan k (fun c => { c with requests := c.requests + 1, busy := c.busy + bit (bad = some stBusy) })
    let (a, s) := match bad with
      | some st => (Answer.no st, s)
      | none => if behind then (.held, s) else act s
    let r : Request := { cls := cls, cmd := cmd, seq := h.seq, after := if cls = 6 ∧ cmd = 10 then some .lc else none }
    let s := (s.modChan k (fun c => { c with outstanding := c.outstanding ++ [r.settle p a] }.flush)).noteReset
    if a.taken then s.adsinNext cls cmd p else s

/-- A message reaches firmware whole. One whose command R341 and R360 do not have is refused; the others are the commands
of their rows. -/
def State.adsinDeliver (s : State) (k : Fin 6) (m : List Half) : State :=
  let w0 := wordAt m 0
  let w1 := wordAt m 1
  let h : AdsinHdr := { res0 := BitVec.ofNat 5 (w0 / 2048), kind := BitVec.ofNat 2 (w1 / 1024), res1 := BitVec.ofNat 2 (w1 / 256),
                        seq := m.getD 2 0, w3 := m.getD 3 0 }
  if (adsinSince (w1 / 4096) (w1 % 256)).isSome then s
  else s.adsinReq k h (w1 / 4096) (w1 % 256) (m.drop 4) (fun s => (.no stBadCmd, s))

/-- The inbound mailbox of an application channel (R324). -/
def inBox (k : Fin 6) : Fin 8 := ⟨k.val - 2, by omega⟩

/-- Firmware finds a mailbox channel overflowed, or a word 0 at the head of the mailbox with LEN outside 4 to 1,088 (R333). -/
def State.chanBad (s : State) (k : Fin 6) : Bool :=
  s.flag (F.MB_STATUS_OVF (inBox k)) ||
    match s.adsin.chans[k].part, s.mbox[inBox k] with
    | [], w :: _ => decide (w.toNat % 2048 < 4) || decide (1088 < w.toNat % 2048)
    | _, _ => false

/-- Firmware takes up to `n` words from the mailbox of an application channel (R333): words in order make messages, the length in
word 0; a channel that has lost its framing is reset. -/
def State.pullApp (k : Fin 6) : Nat → State → State
  | 0, s => s
  | n + 1, s =>
    if s.chanBad k then s.chanReset k
    else if (s.mbox[inBox k]).isEmpty then s
    else
      let (w, s) := s.mbRead (inBox k) s.oldCore
      let m := s.adsin.chans[k].part ++ [w]
      if m.length = wordAt m 0 % 2048 then State.pullApp k n ((s.modChan k (fun c => { c with part := [] })).adsinDeliver k m)
      else State.pullApp k n (s.modChan k (fun c => { c with part := m }))

/-- A message has left a channel: what follows its response is done (R341). -/
def State.adsinLeft (s : State) (m : Msg) : State :=
  match m.after with
  | some .reset => (s.modAdsin (fun a => { a with resetAt := none })).deviceReset rcSoft
  | some .lc => s.lcDue
  | some (.sleep wake timer st) =>
    let s := (s.plainWrite A.PMU_WAKE_EN wake).setReg32 A.PMU_SLP_TIMER_LO timer
    (s.commit [A.PMU_SLP_TIMER_LO, A.PMU_SLP_TIMER_HI]).sleepWrite (half (0xC700 + st))
  | none => s

/-- A queued event that firmware has put in the HOSTIF queue is taken back (R339, R343): OQ_WR moves back to OQ_RD. -/
def State.spiTakeBack (s : State) : State :=
  let ws := s.sramWords s.oqHead s.outLen
  if s.oqCount = 1 ∧ s.adsin.spiHead = some ws ∧ bits (wordAt ws 1) 11 10 = 2 then
    (s.oqWrite (s.reg A.HOSTIF_OQ_RD)).modAdsin (fun a => { a with spiHead := none })
  else s

/-- The head message of a channel leaves. -/
def State.adsinPop (s : State) (k : Fin 6) : State :=
  match s.adsin.chans[k].outq with
  | m :: l => (s.modChan k (fun c => { c with outq := l, sendPos := 0 })).adsinLeft m
  | [] => s

/-- The host has read a message of HOSTSPI's whole: it leaves, be another ahead of it by now (R337: it had begun to leave). -/
def State.adsinRead (s : State) (ws : List Half) : State :=
  let l := s.adsin.chans[(0 : Fin 6)].outq
  match l.find? (·.words = ws) with
  | some m => (s.modChan 0 (fun c => { c with outq := l.eraseP (·.words = ws) })).adsinLeft m
  | none => s

end Sys2Proof.Machine
end

