-- ==== Sys2Proof/Machine/Hostif.lean ====
section
/-! DEFINITION. The host interface: quad-SPI transactions, HRDY, UART0, the reset of a mailbox channel, and the supply of
the host I/O domain (R280, R325 to R333, R343). -/
namespace Sys2Proof.Machine

/-! ## HOSTIF (R325 to R331, R343) -/

/-- HRDY (R330). -/
def State.hrdy (s : State) : Bool := s.hostifLive && s.sys.sleep == .awake && !s.flag F.HOSTIF_STATUS_IN_FULL && !s.sys.notch

/-- HOSTIF_STATUS as it reads: HRDY is the level driven; a transaction is one command, so none is active between commands. -/
def State.hostifStatus (s : State) : Half :=
  F.HOSTIF_STATUS_HRDY.put (F.HOSTIF_STATUS_ACTIVE.put (s.reg A.HOSTIF_STATUS) 0) (bit s.hrdy)

/-- The status word (R326). -/
def State.spiWord (s : State) : Half :=
  half (bit (s.oqCount != 0) * 32768 + bit (!s.flag F.HOSTIF_STATUS_IN_FULL) * 16384 + s.fld F.HOSTIF_CTRL_RECOV * 8192 +
    bit s.sys.spiErr * 4096 + s.outLen)

/-- The status word is shown: ERR clears, and the head's length has been shown. -/
def State.spiShow (s : State) : State :=
  s.modSys (fun y => { y with spiErr := false, shown := y.shown || s.oqCount != 0 })

/-! ### What the device drives on HIO0 to HIO3 (R325) -/

/-- The transactions' form in force: 1-4-4. -/
def State.quad (s : State) : Bool := s.effFld F.HOSTIF_CTRL_FMT = 1

/-- Clocks in which the device drives no ball. -/
def quiet (n : Nat) : List (Option Nat) := List.replicate n none

/-- A word that the device sends: 16 bits on HIO1, or four nibbles on HIO3 to HIO0, the most significant first. -/
def driven (quad : Bool) (w : Half) : List (Option Nat) :=
  if quad then [3, 2, 1, 0].map (fun i => some (bits w.toNat (4 * i + 3) (4 * i)))
  else (List.range 16).map (fun i => some (bit (w.getLsbD (15 - i))))

/-- The opcode, the turnaround of 1-4-4, and the words that the device sends, the status word first. -/
def sent (quad : Bool) (ws : List Half) : List (Option Nat) := quiet (if quad then 10 else 8) ++ ws.flatMap (driven quad)

/-- The whole words of a WRITE's data phase: 0 on HIO1, or no ball behind the turnaround of 1-4-4. -/
def taken (quad : Bool) (n : Nat) : List (Option Nat) := if quad then quiet (2 + 4 * n) else List.replicate (16 * n) (some 0)

/-- The device's side of a transaction. -/
def State.drive (s : State) (l : List (Option Nat)) : State := s.modSys (fun y => { y with hio := l })

/-- A transaction that sets BADOP, BADFRM or WRBUSY. -/
def State.spiBad (s : State) (f : Fld) : State :=
  ((s.raiseEvt f 16).count A.HOSTIF_CNT_ERR).modSys (fun y => { y with spiErr := true })

/-- A transaction: HCS_N falls, which is a wake source; one that finds HOSTIF not answering is lost, and the device drives no ball
(R329). -/
def State.spi (s : State) (f : State → State) : State :=
  let s := (if s.sys.vio then s.wakeRise 4 else s).drive []
  if s.hostifLive then f s else s

/-- SPI_STATUS (R325, R326): the status word, and once more for each further word that the host clocks. How many the host clocks is
its own: a free value (log entry 2). -/
def execSpiStatus (s : State) : Out :=
  .next (s.spi (fun s =>
    let (n, s) := s.draw 65536
    let ws := List.replicate (n + 1) s.spiWord
    (s.spiShow.drive (sent s.quad ws)).see (.octets (wordOctets ws))))

/-- SPI_WRITE (R327): the whole words clocked, and whether a part of a word followed. -/
def execSpiWrite (data : List Half) (frac : Bool) (s : State) : Out :=
  .next (s.spi (fun s =>
    let ready := !s.flag F.HOSTIF_STATUS_IN_FULL
    let s := (s.spiShow.drive (sent s.quad [s.spiWord] ++ taken s.quad data.length)).see (.value s.spiWord)
    let len := wordAt data 0 % 2048
    if !ready then s.spiBad F.HOSTIF_STATUS_WRBUSY
    else if len < 4 ∨ 1088 < len ∨ data.length ≠ len ∨ frac then
      (s.spiBad F.HOSTIF_STATUS_BADFRM).modChan 0 (fun c => { c with discarded := c.discarded + 1 })
    else
      let s := (s.setSramWords (s.latAddr A.HOSTIF_IN_BASE_LO) data).setFld F.HOSTIF_IN_LEN_LEN len
      ((s.raiseEvt F.HOSTIF_STATUS_IN_FULL 16).count A.HOSTIF_CNT_WRITE).adsinDeliver 0 data))

/-- The head message has been read out (R328): the firmware's message it was is gone from the channel. -/
def State.oqDone (s : State) (ws : List Half) : State :=
  let s := s.setFld F.HOSTIF_OQ_RD_INDEX (s.fld F.HOSTIF_OQ_RD_INDEX + 1)
  let s := ((s.raiseEvt F.HOSTIF_STATUS_OQ_DONE 16).count A.HOSTIF_CNT_READ).modSys (fun y => { y with shown := false })
  let s := State.oqClean 32 s
  if s.adsin.spiHead = some ws then (s.modAdsin (fun a => { a with spiHead := none })).adsinRead ws else s

/-- SPI_READ (R328): `n` words are clocked. -/
def execSpiRead (n : Nat) (s : State) : Out :=
  .next (s.spi (fun s =>
    let len := s.outLen
    let ws := s.sramWords s.oqHead len
    let out := s.spiWord :: (ws.take n ++ List.replicate (n - len) 0)
    let s := (s.spiShow.drive (sent s.quad out)).see (.octets (wordOctets out))
    if len ≠ 0 ∧ len ≤ n then s.oqDone ws else s))

/-- SPI_BADOP (R325). -/
def execSpiBadop (s : State) : Out := .next (s.spi (fun s => (s.spiBad F.HOSTIF_STATUS_BADOP).drive (quiet 8)))

/-- A write of HOSTIF_STATUS: a write of 1 to IN_FULL frees the inbound buffer (R330). -/
def State.hostifStatusWrite (s : State) (w : Half) : State := s.plainWrite A.HOSTIF_STATUS w

/-- HOSTIF_IN_RELEASE (R330). -/
def execHostifInRelease (s : State) : Out := .next (s.hostifStatusWrite 1)

/-- HRDY_NOTCH (R331): a message at the head whose length no status word has shown. -/
def execHrdyNotch (s : State) : Out :=
  .next (if s.hrdy ∧ s.oqCount ≠ 0 ∧ !s.sys.shown then s.modSys (fun y => { y with notch := true, shown := true }) else s)

/-- HRDY_NOTCH_END (R331). -/
def execHrdyNotchEnd (s : State) : Out := .next (s.modSys (fun y => { y with notch := false }))

/-- HOSTIF_QUEUE_WRITE (R343). -/
def execHostifQueueWrite (w : Half) (s : State) : Out := .next (s.oqWrite w)

/-- R343 accepts the bases. -/
def State.hostifCfgOk (s : State) : Bool :=
  inSram (s.effAddr A.HOSTIF_IN_BASE_LO) 2176 && inSram (s.effAddr A.HOSTIF_OQ_BASE_LO) 64

/-- A write of HOSTIF_CTRL (R329, R343). A notch that has started runs to its end (R331). -/
def State.hostifCtrlWrite (s : State) (w : Half) : State :=
  let was := s.flag F.HOSTIF_CTRL_EN
  let s := s.plainWrite A.HOSTIF_CTRL w
  if s.flag F.HOSTIF_CTRL_EN && !was then
    if s.hostifCfgOk then
      let s := s.latch [A.HOSTIF_IN_BASE_LO, A.HOSTIF_IN_BASE_HI, A.HOSTIF_OQ_BASE_LO, A.HOSTIF_OQ_BASE_HI]
      let s := ((s.commit [A.HOSTIF_CTRL]).setReg A.HOSTIF_OQ_WR 0).setReg A.HOSTIF_OQ_RD 0
      (s.setFlag F.HOSTIF_STATUS_IN_FULL false).modSys (fun y => { y with shown := false })
    else (s.setFlag F.HOSTIF_CTRL_EN false).raiseEvt F.HOSTIF_STATUS_CFG_ERR 16
  else s

/-- HOSTIF_ENABLE (R343). -/
def execHostifEnable (w : Half) (s : State) : Out := .next (s.hostifCtrlWrite (w ||| 1))

/-- HOSTIF_DISABLE (R329). -/
def execHostifDisable (w : Half) (s : State) : Out := .next (s.hostifCtrlWrite (w &&& 0xFFFE))

/-! ## UART0 (R332, UART0 registers) -/

/-- UART0 runs. -/
def State.uartLive (s : State) : Bool := s.sys.vio && s.alive && s.flag F.UART0_CTRL_EN

/-- UART0_STATUS as it reads. -/
def State.uartStatus (s : State) : Half :=
  let v := F.UART0_STATUS_TXE.put (s.reg A.UART0_STATUS) (bit s.uart.tx.isEmpty)
  F.UART0_STATUS_RXNE.put (F.UART0_STATUS_TXNF.put v (bit (s.uart.tx.length < 64))) (bit (!s.uart.rx.isEmpty))

/-- The baud rate written takes effect when both FIFOs are empty. -/
def State.uartBaud (s : State) : State :=
  if s.uart.rx.isEmpty && s.uart.tx.isEmpty then s.commit [A.UART0_BAUD] else s

/-- A write of UART0_CTRL. -/
def State.uartCtrlWrite (s : State) (w : Half) : State :=
  let s := s.plainWrite A.UART0_CTRL w
  let s := if w.getLsbD 0 then s else s.modUart (fun u => { u with rx := [], tx := [] })
  (if s.uartRaised then s.raise 17 else s).uartBaud

/-- A write of UART0_BAUD. -/
def State.uartBaudWrite (s : State) (w : Half) : State := (s.plainWrite A.UART0_BAUD w).uartBaud

/-- The receiver drops the frame it is in, be 0xA5 alone of it come, and searches again (R332). -/
def State.uartDiscard (s : State) : State :=
  if s.uart.inFrame || s.uart.a5 then
    (s.modUart (fun u => { u with a5 := false, inFrame := false, frame := [] })).modChan 1 (fun c => { c with discarded := c.discarded + 1 })
  else s

/-- LEN of a frame, in the low 11 bits of its word 0 (R334). -/
def frameLen (l : List Byte) : Nat := beNat (slice l 0 2) % 2048

/-- A whole frame, the octets that followed 0xA5 0x5A: its message is delivered, or it is discarded (R332). -/
def State.uartWhole (s : State) (l : List Byte) : State :=
  let len := frameLen l
  let body := l.take (2 * len)
  let s := s.modUart (fun u => { u with a5 := false, inFrame := false, frame := [] })
  if 4 ≤ len ∧ len ≤ 1088 ∧ l.length = 2 * len + 2 ∧ beNat (l.drop (2 * len)) = crc16 0xFFFF body
  then s.adsinDeliver 1 (packWords body)
  else s.modChan 1 (fun c => { c with discarded := c.discarded + 1 })

/-- An octet reaches the frame receiver (R332): outside a frame it searches for 0xA5 0x5A; inside one it takes the frame's length
from word 0. -/
def State.uartTake (s : State) (b : Byte) : State :=
  let l := s.uart.frame ++ [b]
  if !s.uart.inFrame then s.modUart (fun u => { u with inFrame := u.a5 && b == 0x5A, a5 := b == 0xA5, frame := [] })
  else if l.length = 2 ∧ (frameLen l < 4 ∨ 1088 < frameLen l) then s.uartDiscard
  else if 2 < l.length ∧ l.length = 2 * frameLen l + 2 then s.uartWhole l
  else s.modUart (fun u => { u with frame := l, a5 := false })

/-- UART_FRAME (R332): the octets that followed 0xA5 0x5A. -/
def execUartFrame (l : List Byte) (s : State) : Out := .next (if s.uartLive then s.uartWhole l else s)

/-- UART_GAP_TIMEOUT (R332). -/
def execUartGapTimeout (s : State) : Out := .next s.uartDiscard

/-- A write of UART0_DATA. -/
def State.uartDataWrite (s : State) (w : Half) : State :=
  if s.uart.tx.length < 64 then s.modUart (fun u => { u with tx := u.tx ++ [byte w.toNat] }) else s

/-- UART_DATA_WRITE. -/
def execUartDataWrite (w : Half) (s : State) : Out := .next (s.uartDataWrite w)

/-- A read of UART0_DATA. -/
def State.uartDataRead (s : State) : Half × State :=
  match s.uart.rx with
  | b :: l => (half b.toNat, (s.modUart (fun u => { u with rx := l })).uartBaud)
  | [] => (0, s)

/-- UART_DATA_READ. -/
def execUartDataRead (s : State) : Out :=
  let (v, s) := s.uartDataRead
  .next (s.see (.value v))

/-- UART_OCTET_RECEIVED: its start bit is a wake source (R288); one without a stop bit sets FERR and is not kept (log entry
52); one that finds the FIFO full is lost, and its frame with it (R332). -/
def execUartOctetReceived (b : Byte) (ferr : Bool) (s : State) : Out :=
  .next (if !s.uartLive then s.wakeRise 5
    else
      let s := s.wakeRise 5
      if ferr then s.raiseEvt F.UART0_STATUS_FERR 17
      else if 64 ≤ s.uart.rx.length then (s.raiseEvt F.UART0_STATUS_OVR 17).uartDiscard
      else
        let was := s.uart.rx.isEmpty
        let s := s.modUart (fun u => { u with rx := u.rx ++ [b] })
        (if was && s.flag F.UART0_CTRL_RXIE then s.raise 17 else s).uartTake b)

/-- UART_OCTET_SENT. -/
def execUartOctetSent (s : State) : Out :=
  .next (if s.uartLive then (s.modUart (fun u => { u with tx := u.tx.drop 1 })).uartBaud else s)

/-! ## Channels and supply (R333, R280) -/

/-- CHANNEL_RESET (R333): firmware finds OVF, or a word 0 with LEN outside 4 to 1,088. -/
def execChannelReset (k : Fin 4) (s : State) : Out :=
  let k : Fin 6 := ⟨2 + k.val, by omega⟩
  .next (if s.sys.fwRun ∧ s.coresRun ∧ s.chanBad k then s.chanReset k else s)

/-- VIO_LOSS (R280): the host I/O domain is off. -/
def execVioLoss (s : State) : Out :=
  .next ((s.modSys (fun y => { y with vio := false })).modUart (fun u => { u with a5 := false, inFrame := false, frame := [] }))

/-- VIO_RETURN (R280). -/
def execVioReturn (s : State) : Out := .next (s.modSys (fun y => { y with vio := true }))

end Sys2Proof.Machine
end

