-- ==== Sys2Proof/Machine/Gpio.lean ====
section
/-! DEFINITION. GPIO and the boundary scan of the balls (R401, R402, R408 to R410). -/
namespace Sys2Proof.Machine

/-! ## Levels at the balls (R395, R402) -/

/-- The host I/O domain drives its balls (R280, R395). -/
def State.hostIo (s : State) : Bool :=
  s.sys.vio && !s.sys.inReset && !s.sys.halted &&
    (match s.sys.sleep with | .asleep 2 | .asleep 3 => false | _ => true)

/-- The radio I/O domain drives its balls: off in NAP, SHELF and PLINTH. -/
def State.radioIo (s : State) : Bool := s.alive

/-- The instruction that a code of the instruction register selects (R409): EXTEST, SAMPLE/PRELOAD, and BYPASS for every other. -/
abbrev irOf (code : BitVec 4) : BitVec 4 := if code = 0 ∨ code = 2 then code else 15

/-- What the instruction register captures (R409). -/
abbrev irCapture : BitVec 4 := 1

/-- EXTEST is in force (R409, R410). -/
def State.extest (s : State) : Bool := s.dbg.scan && s.dbg.ir == 0

/-- What a GPIO pin drives by its registers: nothing as an input, or released by OD (R402). -/
def State.gpioDrive (s : State) (n : Nat) : Option Bool :=
  let g := n / 16
  let i := n % 16
  if !s.hostIo ∨ !(s.reg (A.GPIO_DIR g)).getLsbD i then none
  else
    let o := (s.reg (A.GPIO_OUT g)).getLsbD i
    if o ∧ (s.reg (A.GPIO_OD g)).getLsbD i then none else some o

/-- The digital balls of R395 and the LF outputs; those of the boundary register have cells (R410). -/
inductive Ball where
  | femS (i : Nat) | femI (i : Nat) | lockA | lockB | hclk | hcsN | hio (i : Nat) | hrdy | uartTx | uartRx | gpio (i : Nat)
  | tamp (i : Nat) | mainsZc | ppsIn | lf (n : Nat) | trowelIo
  deriving DecidableEq, Repr

/-- The balls of the boundary register in the order of R395, from cell 0. -/
def balls : List Ball :=
  (List.range 6).map .femS ++ (List.range 6).map .femI ++ [.lockA, .lockB, .hclk, .hcsN] ++ (List.range 4).map .hio ++
    [.hrdy, .uartTx, .uartRx] ++ (List.range 30).map .gpio ++ [.tamp 0, .tamp 1, .mainsZc, .ppsIn]

/-- An input-only ball has one cell, any other three; the LF balls and TROWEL_IO have none. -/
def Ball.cells (b : Ball) : Nat :=
  match b with
  | .hclk | .hcsN | .uartRx | .tamp _ | .mainsZc | .ppsIn => 1
  | .lf _ | .trowelIo => 0
  | _ => 3

/-- The first cell of a ball: its input cell; the output and control cells follow. -/
def cellOf (b : Ball) : Nat := ((balls.takeWhile (· != b)).map Ball.cells).foldl (· + ·) 0

/-- What the device drives on a ball by its own logic: a level, or nothing. UART0_TX rests high; the HIO balls and TROWEL_IO are driven
within a transaction alone, and rest undriven between commands. The LF outputs rest low, outside a burst, while VLF is there: a VLF that
is reported low counts as absent (R395; DESIGN CHOICE, log entry 107). -/
def State.ballDrive (s : State) (b : Ball) : Option Bool :=
  match b with
  | .femS i => if s.radioIo then some ((s.rfe .sub).femPins.getLsbD i) else none
  | .femI i => if s.radioIo then some ((s.rfe .ism).femPins.getLsbD i) else none
  | .lockA => if s.radioIo then some s.access.lockA else none
  | .lockB => if s.radioIo then some s.access.lockB else none
  | .hrdy => if s.hostIo then some s.hrdy else none
  | .uartTx => if s.hostIo then some true else none
  | .lf _ => if s.radioIo && !s.flag F.LF_STATUS_VLF_LOW then some false else none
  | .gpio i => s.gpioDrive i
  | _ => none

/-- The domain of a ball is on. -/
def State.ballOn (s : State) (b : Ball) : Bool :=
  match b with
  | .femS _ | .femI _ | .lockA | .lockB => s.radioIo
  | .lf _ => s.radioIo && !s.flag F.LF_STATUS_VLF_LOW
  | .tamp _ | .mainsZc | .ppsIn => s.plinth.powered
  | _ => s.hostIo

/-- What a ball is driven to: under EXTEST by its cells, else by the device's logic. -/
def State.ballLevel (s : State) (b : Ball) : Option Bool :=
  if s.extest ∧ b.cells = 3 then
    if s.ballOn b ∧ s.dbg.cells.getLsbD (cellOf b + 2) then some (s.dbg.cells.getLsbD (cellOf b + 1)) else none
  else s.ballDrive b

/-- The levels at the GPIO balls. GPIO30 and GPIO31 are the test port's under boundary scan (R408) and have no cells; TDO is undriven, for
no command ends in Shift-IR or Shift-DR. -/
def State.gpioLevels (s : State) : BitVec 32 :=
  (List.range 32).foldl (fun v n =>
    let d := if n < 30 then s.ballLevel (.gpio n) else if s.dbg.scan then none else s.gpioDrive n
    if d.getD (s.dbg.balls.getLsbD n) then v ||| BitVec.ofNat 32 (2 ^ n) else v) 0

/-! ## GPIO (R401, R402) -/

/-- Edges between the levels before and now: captures (R322), EVT, the lines of the pins' worlds, wake sources 6 and 7. -/
def State.gpioSettle (s : State) (old : BitVec 32) : State :=
  if !s.sys.vio ∨ s.sys.inReset ∨ s.sys.halted then s
  else
    let new := s.gpioLevels
    let s := forEach (List.range 32) s (fun s n =>
      if old.getLsbD n == new.getLsbD n then s else s.capEdge (0x20 + n) (new.getLsbD n))
    forEach [0, 1] s (fun s g =>
      let o := half (old.toNat / 65536 ^ g)
      let n := half (new.toNat / 65536 ^ g)
      let e := (n &&& ~~~o &&& s.reg (A.GPIO_EDGE_R g)) ||| (o &&& ~~~n &&& s.reg (A.GPIO_EDGE_F g))
      if e = 0 then s
      else
        let s := s.setReg (A.GPIO_EVT g) (s.reg (A.GPIO_EVT g) ||| e)
        let w := s.reg (A.GPIO_WORLD g)
        let s := if e &&& w != 0 then s.postAll apps (28 + g) else s
        let s := if e &&& ~~~w != 0 then s.postAll lintel (28 + g) else s
        if e &&& s.reg (A.GPIO_WAKE g) != 0 then s.wakeRise (6 + g) else s)

/-- GPIO_EDGE (R402): the level driven at a ball from outside changes. -/
def execGpioEdge (n : Fin 32) (rising : Bool) (s : State) : Out :=
  let old := s.gpioLevels
  let m := BitVec.ofNat 32 (2 ^ n.val)
  .next ((s.modDebug (fun d => { d with balls := if rising then d.balls ||| m else d.balls &&& ~~~m })).gpioSettle old)

/-- Pins of a group that an access of a world may touch (R401). -/
def State.gpioMask (s : State) (g : Nat) (vault : Bool) : Half := if vault then 0xFFFF else s.reg (A.GPIO_WORLD g)

/-- The worlds of the pins, by group. -/
def State.gpioWorlds (s : State) : List Half := [s.reg (A.GPIO_WORLD 0), s.reg (A.GPIO_WORLD 1)]

/-- A read of a GPIO register of a group. -/
def State.gpioRead (s : State) (a : Nat) (vault : Bool) : Half :=
  let g := a % 0x40 / 0x20
  let v := if a = A.GPIO_IN g then half (s.gpioLevels.toNat / 65536 ^ g)
    else if a = A.GPIO_SET g ∨ a = A.GPIO_CLR g then s.reg (A.GPIO_OUT g) else s.reg a
  v &&& s.gpioMask g vault

/-- A write of a GPIO register of a group. -/
def State.gpioWrite (s : State) (a : Nat) (w : Half) (vault : Bool) : State :=
  let old := s.gpioLevels
  let g := a % 0x40 / 0x20
  let m := s.gpioMask g vault
  let out := s.reg (A.GPIO_OUT g)
  let s := if a = A.GPIO_IN g then s
    else if a = A.GPIO_SET g then s.setReg (A.GPIO_OUT g) (out ||| (w &&& m))
    else if a = A.GPIO_CLR g then s.setReg (A.GPIO_OUT g) (out &&& ~~~(w &&& m))
    else if a = A.GPIO_EVT g then s.setReg a (s.reg a &&& ~~~(w &&& m))
    else s.setReg a ((s.reg a &&& ~~~m) ||| (w &&& m))
  s.gpioSettle old

/-- A write of GPIO_WORLD: the pins with EVT = 1 that move to the other world raise their line on its cores (R236, R401). -/
def State.gpioWorldWrite (s : State) (a : Nat) (w : Half) : State :=
  let old := s.gpioWorlds
  forEach [0, 1] (s.plainWrite a w) (fun s g =>
    let now := s.reg (A.GPIO_WORLD g)
    let moved := (now ^^^ old.getD g 0) &&& s.reg (A.GPIO_EVT g)
    let s := if moved &&& now != 0 then s.postAll apps (28 + g) else s
    if moved &&& ~~~now != 0 then s.postAll lintel (28 + g) else s)

/-! ## Boundary scan (R408 to R410) -/

/-- What the boundary register captures: the level at each ball, `ext` where nothing drives it, and for a ball with a
driver what the device's logic drives and whether it drives. -/
def State.capture (s : State) (ext : BitVec 57) : BitVec 157 :=
  let put (v : BitVec 157) (n : Nat) (b : Bool) : BitVec 157 := if b then v ||| BitVec.ofNat 157 (2 ^ n) else v
  (balls.zipIdx).foldl (fun v p =>
    let b := p.1
    let outside := match b with | .gpio i => s.dbg.balls.getLsbD i | _ => ext.getLsbD p.2
    let v := put v (cellOf b) ((s.ballLevel b).getD outside)
    if b.cells = 1 then v
    else put (put v (cellOf b + 1) ((s.ballDrive b).getD false)) (cellOf b + 2) (s.ballDrive b).isSome) 0

/-- The state that a TCK rising edge with a level at TMS leads to (IEEE 1149.1; PRESUMED, log entry 92). -/
def Tap.next (t : Tap) (tms : Bool) : Tap :=
  match t, tms with
  | .testLogicReset, true => .testLogicReset
  | .testLogicReset, false | .runTestIdle, false | .updateDr, false | .updateIr, false => .runTestIdle
  | .runTestIdle, true | .updateDr, true | .updateIr, true => .selectDr
  | .selectDr, true => .selectIr
  | .selectDr, false => .captureDr
  | .captureDr, false | .shiftDr, false | .exit2Dr, false => .shiftDr
  | .captureDr, true | .shiftDr, true => .exit1Dr
  | .exit1Dr, false | .pauseDr, false => .pauseDr
  | .pauseDr, true => .exit2Dr
  | .exit1Dr, true | .exit2Dr, true => .updateDr
  | .selectIr, true => .testLogicReset
  | .selectIr, false => .captureIr
  | .captureIr, false | .shiftIr, false | .exit2Ir, false => .shiftIr
  | .captureIr, true | .shiftIr, true => .exit1Ir
  | .exit1Ir, false | .pauseIr, false => .pauseIr
  | .pauseIr, true => .exit2Ir
  | .exit1Ir, true | .exit2Ir, true => .updateIr

/-- TCK rising edges outside a scan: Test-Logic-Reset selects BYPASS (R408, R409). -/
def State.tapClocks (s : State) (tms : List Bool) : State :=
  let old := s.gpioLevels
  let t := tms.foldl Tap.next s.dbg.tap
  (s.modDebug (fun d => { d with tap := t, ir := if t = .testLogicReset then 15 else d.ir })).gpioSettle old

/-- An instruction is shifted in and comes into force (R409); the controller comes to rest in Run-Test/Idle (DESIGN CHOICE, log entry 92). -/
def State.irScan (s : State) (code : BitVec 4) : State :=
  let old := s.gpioLevels
  (s.modDebug (fun d => { d with tap := .runTestIdle, ir := irOf code })).gpioSettle old

/-- A pass with an instruction of the boundary register: the instruction comes into force, then the cells are captured, leave on TDO
behind what the instruction register captured, and those shifted in are held (R409, R410; DESIGN CHOICE, log entry 92: one pass). -/
def State.scanPass (s : State) (code : BitVec 4) (ext : BitVec 57) (shifted : BitVec 157) : State :=
  if !s.dbg.scan then s
  else
    let s := s.irScan code
    let old := s.gpioLevels
    let seen := byte irCapture.toNat :: leOctets 20 (s.capture ext).toNat
    ((s.modDebug (fun d => { d with cells := shifted })).gpioSettle old).see (.octets seen)

/-- JTAG_EXTEST (R409, R410). -/
def execJtagExtest (ext : BitVec 57) (shifted : BitVec 157) (s : State) : Out := .next (s.scanPass 0 ext shifted)

/-- JTAG_SAMPLE_PRELOAD (R409, R410). -/
def execJtagSamplePreload (ext : BitVec 57) (shifted : BitVec 157) (s : State) : Out := .next (s.scanPass 2 ext shifted)

/-- JTAG_BYPASS (R409). -/
def execJtagBypass (s : State) : Out :=
  .next (if s.dbg.scan then (s.irScan 15).see (.octets [byte irCapture.toNat]) else s)

end Sys2Proof.Machine
end

