-- ==== Sys2Proof/Machine/Hod.lean ====
section
/-! DEFINITION. The Hod: order, acknowledgement status, Enhanced Acknowledgements, buffers and the descriptor ring
(R113 to R122), and what Lintel firmware does with a descriptor (R341, R344, R358). -/
namespace Sys2Proof.Machine

/-- Octets of a buffer, as latched at the last enabling (R122). -/
def State.bufSize (s : State) : Nat := 128 * 2 ^ s.effFld F.HOD_CTRL_BUF_SIZE

/-- HOD_INGEST (R113): the oldest frame that lane `n` has handed off is placed in order. -/
def execHodIngest (n : Fin 64) (s : State) : Out :=
  .next (match s.frameOf n (fun f => f.handoff.isSome && !f.placed) with
    | some f => (s.modFrame f.fid (fun f => { f with placed := true })).fixFailed f.fid
    | none => s)

/-! ## The Enhanced Acknowledgement (R119 to R121) -/

/-- The time correction in µs; a free value where TS_SFD precedes every t_CT (log entry 2). -/
def State.ackCorrection (s : State) (f : Frame) : Int × State :=
  if f.sfdCt = 0 then let (n, s) := s.draw 4095; ((n : Int) - 2047, s)
  else
    let x : Int := (f.sfdCt + us (s.regN A.COURSE_T_TXOFS) + shrTicks f.mode s.preOct : Nat) - (f.tsSfd : Int)
    (clampInt (-2047) 2047 (divRound x 48), s)

/-- The PSDU of the acknowledgement of a frame. -/
def ackPsdu (f : Frame) (m : Mhr) (tcie : Bool) (corr : Int) : List Byte :=
  let fc := 0x2C42 + 0x200 * bit tcie + 0x10 * bit f.pending + 0x100 * bit m.sns
  let seq := match m.seq with | some q => [q] | none => []
  let ie := if tcie then leOctets 2 0x0F02 ++ leOctets 2 (ofSigned 12 corr) else []
  withFcs f.fcs32 (leOctets 2 fc ++ seq ++ leOctets 8 m.src ++ ie)

/-! ## Settlement (R114 to R118) -/

/-- ACKST codes. -/
abbrev akAcked : Nat := 0x0
abbrev akNoReq : Nat := 0x1
abbrev akUnsec : Nat := 0x2
abbrev akReject : Nat := 0x3
abbrev akCapped : Nat := 0x4
abbrev akTxFull : Nat := 0x5
abbrev akDuty : Nat := 0x6
abbrev akOff : Nat := 0x7
abbrev akBadFcs : Nat := 0x8
abbrev akBuf : Nat := 0x9

/-- Grants made on a frame's band in its course (R115). -/
def State.grantsOf (s : State) (f : Frame) (h : Handoff) : Nat :=
  match f.band, decide (h.ct = s.course.ct) with
  | .sub, true => s.fld F.HOD_GRANTS_SUB
  | .ism, true => s.fld F.HOD_GRANTS_ISM
  | .sub, false => s.course.prevSub
  | .ism, false => s.course.prevIsm

/-- One more grant. -/
def State.addGrant (s : State) (f : Frame) (h : Handoff) : State :=
  match f.band, decide (h.ct = s.course.ct) with
  | .sub, true => s.countFld F.HOD_GRANTS_SUB
  | .ism, true => s.countFld F.HOD_GRANTS_ISM
  | .sub, false => s.modCourse (fun c => { c with prevSub := c.prevSub + 1 })
  | .ism, false => s.modCourse (fun c => { c with prevIsm := c.prevIsm + 1 })

/-- Rows 7 to 11 of R114: the status and the grant ordinal. -/
def State.ackGrant (s : State) (f : Frame) (h : Handoff) (m : Mhr) : Nat × Nat × State :=
  let n := s.grantsOf f h
  if !s.txReady f.band then (akOff, 0, s)
  else if 16 ≤ n then (akCapped, 0, s.count A.HOD_CNT_CAPPED)
  else
    let (corr, s) := s.ackCorrection f
    let psdu := ackPsdu f m (s.flag F.HOD_ACK_CFG_TCIE) corr
    let air := airTicks f.mode f.coded s.preOct psdu.length
    let start := h.tsEof + us 72
    if !s.carrierFits f.band start (start + air) then (akTxFull, 0, s.count A.HOD_CNT_TXFULL)
    else
      let (ok, s) := s.dutyAdmit f.band f.ofs air
      if !ok then (akDuty, 0, s)
      else
        let s := s.addCarrier f.band { entry := none, asn := h.asn, start := start, stop := start + air, started := false
                                       crossed := false, mode := f.mode, ofs := f.ofs, coded := f.coded
                                       fec := f.fec, dw := f.dw, psdu := psdu }
        let s := (s.addGrant f h).modHod (fun k => { k with lastAck := psdu })
        (akAcked, n + 1, s.count A.HOD_CNT_ACKED)

/-- Rows 3 to 11 of R114. -/
def State.ackStatus (s : State) (f : Frame) (h : Handoff) : Nat × Nat × State :=
  let m := mhrOf f.octets
  let d := match f.macf with | .passed d => d | _ => 0
  if !m.ar ∨ 1 < d ∨ (m.ftype ≠ 1 ∧ m.ftype ≠ 3) then (akNoReq, 0, s)
  else if !m.sec ∨ (f.check.any (fun c => c.level = 0)) then (akUnsec, 0, s)
  else if f.verdict ≠ some vPass then (akReject, 0, s)
  else if f.buf.isNone ∨ s.bufSize < f.len then (akBuf, 0, s.count A.HOD_CNT_NOBUF)
  else s.ackGrant f h m

/-- The PSDU as ASHLAR hands it on (R135). -/
def Frame.stored (f : Frame) : List Byte :=
  match f.check with
  | some c =>
    if c.dec then
      let x := secOf f.octets (mhrOf f.octets) (f.len - fcsLen f.fcs32)
      (f.octets.take x.aEnd ++ f.payload c ++ f.octets.drop x.mic).take f.octets.length
    else f.octets
  | none => f.octets

/-- The first 15 words of a descriptor (R118). -/
def State.descWords (s : State) (f : Frame) (h : Handoff) (ackst grant : Nat) : List Half :=
  let m := mhrOf f.octets
  let d := match f.macf with | .passed d => d | _ => 0
  let dec := f.buf.isSome && f.check.any (·.dec)
  [half (f.lane * 1024 + bandCode f.band * 512 + f.mode * 16 + ackst), h.status, h.rssi, f.fofs,
   half (h.lqi * 256 + min f.eras 255),
   half (bit (decide (s.bufSize < f.len)) * 0x8000 + d * 4096 + bit m.ar * 2048 + f.len),
   half f.tsSfd, half (f.tsSfd / 65536), half h.tsEof, half (h.tsEof / 65536), half h.asn,
   half (bit dec * 128 + f.verdict.getD vNone), half ((f.check.map (·.tenant)).getD 0), half (f.buf.getD 0x1FF), half grant]

/-- A buffer becomes free (R116). -/
def State.freeBuf (s : State) (b : Option Nat) : State :=
  match b with | some i => s.modHod (fun h => { h with bufs := h.bufs.filter (· != i) }) | none => s

/-- Occupancy of the ring (R117). -/
def State.hodOcc (s : State) : Nat := (s.regN A.HOD_WR + 512 - s.regN A.HOD_RD) % 512

/-- HOD_DESCRIPTOR_WRITE and HOD_EVENT (R117, R118). -/
def State.writeDesc (s : State) (ws : List Half) (buf : Option Nat) : State :=
  let wr := s.regN A.HOD_WR
  let s := s.setSramWords (s.latAddr A.HOD_RING_BASE_LO + 32 * (wr % 256)) (ws ++ [0])
  let s := s.setReg A.HOD_WR (half ((wr + 1) % 512))
  let s := match buf with | some b => s.modHod (fun h => { h with descBuf := h.descBuf ++ [(wr, b)] }) | none => s
  if s.hodOcc = s.fld F.HOD_NOTIFY_THRESH then s.raise 4 else s

/-- The route of a tenant (R341): HOSTSPI without REJECT delivery by default. -/
def State.routeOf (s : State) (t : Nat) : Nat × Bool := sparseGet (fun _ => (0, false)) s.adsin.routes t

/-- Lintel firmware takes a descriptor (R341, R342, R344, R358): a frame of the fabric tenant goes to the fabric, any
other to its routed destination. A REJECT frame is delivered only where the route says so. -/
def State.deliver (s : State) (f : Frame) (h : Handoff) (ws : List Half) (ackst : Nat) : State :=
  if !s.sys.fwRun then s
  else
    let tenant := match f.check with | some c => if c.failed = some vNone then 0xFFFF else c.tenant | none => 0xFFFF
    let psdu := if f.buf.isSome then f.stored.take s.bufSize else []
    if s.fabric.on ∧ tenant = s.fabric.tenant then
      match f.check with
      | some c => if f.verdict = some vPass ∧ f.buf.isSome ∧ c.dec then
          s.fabTake ⟨c.eui, f.lane, h.lqi, f.tsSfd, f.sfdCt, f.mode, f.payload c⟩ else s
      | none => s
    else
      let (dest, rej) := s.routeOf tenant
      if ackst = akReject ∧ !rej then s
      else if h : dest < 6 then s.event [⟨dest, h⟩] 3 0x80 (ws ++ packWords psdu)
      else if dest = 6 then s.fabRelay ws psdu else s

/-- A frame that the Hod has settled: LATE ones stay until their checks end (R140), which a cut frame's may never do. -/
def State.settled (s : State) (f : Frame) : State :=
  if f.verdict = some vLate ∧ !f.committed ∧ !(f.check.isNone ∧ f.handoff.any (·.cut)) then s.modFrame f.fid (fun f => { f with settled := true }) else s.dropFrame f.fid

/-- Settle a frame (R114). -/
def State.settle (s : State) (f : Frame) (h : Handoff) : State :=
  if !s.flag F.HOD_CTRL_EN then (s.freeBuf f.buf).settled f
  else
    let s := match f.buf with
      | some b => s.sramPut (s.latAddr A.HOD_POOL_BASE_LO + s.bufSize * b) (f.stored.take s.bufSize)
      | none => s
    if s.hodOcc = 256 then
      (((s.count A.HOD_CNT_RINGDROP).setFlag F.HOD_STATUS_RING_DROP).freeBuf f.buf).settled f
    else if (h.fcsErr ∨ h.cut) ∧ !s.flag F.HOD_CTRL_FCS_KEEP then
      ((s.count A.HOD_CNT_FCSDROP).freeBuf f.buf).settled f
    else
      let (ackst, grant, s) := if h.fcsErr ∨ h.cut then (akBadFcs, 0, s) else s.ackStatus f h
      let ws := s.descWords f h ackst grant
      ((s.writeDesc ws f.buf).deliver f h ws ackst).settled f

/-- HOD_SETTLE (R114): the frame of lane `n` that is next in order, once its verdict is fixed. -/
def execHodSettle (n : Fin 64) (s : State) : Out :=
  .next (match s.frameOf n (fun f => f.placed && !f.settled) with
    | some f => match f.handoff with
      | some h =>
        if f.verdict.isNone ∨ s.radio.frames.any (fun g => g.handoff.isSome && !g.settled && hodBefore g f) then s
        else s.settle f h
      | none => s
    | none => s)

/-! ## Registers (R117, R122) -/

/-- A write of HOD_RD (R117). -/
def State.hodRdWrite (s : State) (w : Half) : State :=
  let rd := s.regN A.HOD_RD
  let d := (w.toNat % 512 + 512 - rd) % 512
  if s.hodOcc < d then s.setFlag F.HOD_STATUS_RD_ERR
  else
    let gone (i : Nat) : Bool := decide ((i + 512 - rd) % 512 < d)
    let free := (s.radio.hod.descBuf.filter (fun p => gone p.1)).map (·.2)
    (s.setReg A.HOD_RD (half (w.toNat % 512))).modHod (fun h => { h with
      descBuf := h.descBuf.filter (fun p => !gone p.1), bufs := h.bufs.filter (fun b => !free.contains b) })

/-- HOD_RD_WRITE (R117). -/
def execHodRdWrite (d : Fin 512) (s : State) : Out := .next (s.hodRdWrite (half d))

/-- R122 accepts the bases and the buffer size. -/
def State.hodCfgOk (s : State) : Bool :=
  let ring := s.effAddr A.HOD_RING_BASE_LO
  let pool := s.effAddr A.HOD_POOL_BASE_LO
  let size := 128 * 2 ^ s.fld F.HOD_CTRL_BUF_SIZE
  inSram ring 8192 && inSram pool (384 * size) && pool % size == 0 &&
    (decide (ring + 8192 ≤ pool) || decide (pool + 384 * size ≤ ring))

/-- A write of HOD_CTRL (R122). -/
def State.hodCtrlWrite (s : State) (w : Half) : State :=
  let was := s.flag F.HOD_CTRL_EN
  let s := s.plainWrite A.HOD_CTRL w
  if s.flag F.HOD_CTRL_EN && !was then
    if s.hodCfgOk then
      let s := (s.latch [A.HOD_RING_BASE_LO, A.HOD_RING_BASE_HI, A.HOD_POOL_BASE_LO, A.HOD_POOL_BASE_HI]).commit [A.HOD_CTRL]
      let s := (s.setReg A.HOD_WR 0).setReg A.HOD_RD 0
      (s.modHod (fun h => { h with bufs := [], descBuf := [] })).modRadio (fun r => { r with
        frames := r.frames.map (fun f => { f with buf := none }) })
    else (s.setFlag F.HOD_CTRL_EN false).setFlag F.HOD_STATUS_CFG_ERR
  else s

/-- HOD_ENABLE (R122). -/
def execHodEnable (w : Half) (s : State) : Out := .next (s.hodCtrlWrite (w ||| 1))

/-- HOD_DISABLE (R122). -/
def execHodDisable (w : Half) (s : State) : Out := .next (s.hodCtrlWrite (w &&& 0xFFFE))

end Sys2Proof.Machine
end

