-- ==== Sys2Proof/Machine/Regs.lean ====
section
/-! DEFINITION. Registers as a whole: what a read returns and does, what a write does (R3 to R6, R21 to R26, and the
register tables of every block). -/
namespace Sys2Proof

/-! ## Masters -/

/-- The core that an access belongs to, for a core's own access. -/
def Master.core? : Master → Option (Fin 6)
  | .core c => some c
  | _ => none

/-- A master's accesses take the VAULT column of R17. -/
def Master.vault : Master → Bool
  | .core c => c.val < 2
  | .trowel v => v
  | _ => true

/-- The core as which KEYS, PKE, CRYPTO and the doorbell see an access; one that is no core's counts as LINTEL0 (log entry
53). -/
def Master.coreOr0 (m : Master) : Fin 6 := m.core?.getD 0

end Sys2Proof
namespace Sys2Proof.Machine

/-- A channel index from an offset. -/
abbrev fin8 (n : Nat) : Fin 8 := ⟨n % 8, Nat.mod_lt _ (by decide)⟩
/-- A core number from a number. -/
abbrev fin6 (n : Nat) : Fin 6 := ⟨n % 6, Nat.mod_lt _ (by decide)⟩
/-- A thread number from a number. -/
abbrev fin4 (n : Nat) : Fin 4 := ⟨n % 4, Nat.mod_lt _ (by decide)⟩

/-! ## Status groups (R23) -/

/-- The status groups at fixed addresses: first word and number of words. -/
def groupsFixed : List (Nat × Nat) :=
  [(A.REC_PRE_COUNT, 5), (A.COURSE_ASN_0, 4), (A.COURSE_HFT_0, 3), (A.COURSE_TXRES_0, 2), (A.COURSE_TXEND_0, 2),
   (A.ASHLAR_ENTRIES_LO, 2), (A.ASHLAR_CNT 0, 12), (A.ASHLAR_TCNT_ENTRIES, 5), (A.KEYS_ATTR0, 6), (A.PLUMB_RES, 4),
   (A.ACCESS_LAST_VERDICT, 7), (A.PLINTH_LO_STATE, 7), (A.NVMC_UNC_ADDR_LO, 2), (A.TRIM_MEAS_LO, 2), (A.ASSAY_RES_SLICE, 4)]

/-- The status group of an address: its first word and its number of words. -/
def groupOf (a : Nat) : Option (Nat × Nat) :=
  if 0xE14000 ≤ a ∧ a < 0xE15000 then
    let o := a % 0x40
    let b := a - o
    if 2 ≤ o ∧ o < 6 then some (b + 2, 2) else if 0x14 ≤ o ∧ o < 0x20 then some (b + 0x14, 6)
    else if 0x20 ≤ o ∧ o < 0x28 then some (b + 0x20, 4) else none
  else if 0x1000000 ≤ a then
    let o := a % 0x1000
    if 0x40 ≤ o ∧ o < 0x50 then some (a - o % 4, 2) else none
  else groupsFixed.find? (fun g => g.1 ≤ a && a < g.1 + 2 * g.2)

/-! ## Reads -/

/-- Word `i` of octets, two to the word. -/
abbrev octWord (l : List Byte) (i : Nat) : Half := half (beNat (slice l (2 * i) 2))

/-- The state codes of THR_STATE (R232). -/
def ThrState.code : ThrState → Nat
  | .dead => 0 | .ready => 1 | .run => 2 | .wait => 3

/-- THR_STATE of a core. -/
def State.thrState (s : State) (c : Fin 6) : Half :=
  half ([(0 : Fin 4), 1, 2, 3].foldl (fun v t => v + (s.thr c t).st.code * 4 ^ t.val) 0)

/-- The value of an ASHLAR register that is read through ASHLAR_TSEL or counts places. -/
def State.ashlarReg (s : State) (a : Nat) : Half :=
  let t := s.tenant s.tsel
  let n := s.ashlarEntries
  if a = A.ASHLAR_STASH then half s.ashlar.stash.length
  else if a = A.ASHLAR_ENTRIES_LO then half n
  else if a = A.ASHLAR_ENTRIES_HI then half (n / 65536)
  else if a = A.ASHLAR_DIRTYQ then half s.ashlar.dirtyQ.length
  else if a = A.ASHLAR_TCFG then
    half (bit t.root.isSome * 32768 + bit t.en * 16384 + bit t.auto * 8192 + bit t.grace * 4096 + t.usage)
  else if a = A.ASHLAR_TEPOCH then half t.epoch
  else if a = A.ASHLAR_TQUOTA then half t.quota
  else if a = A.ASHLAR_TRATE then half t.rate
  else if a = A.ASHLAR_TCNT_ENTRIES then half (min 65535 (s.tenantEntries s.tsel))
  else if a = A.ASHLAR_TCNT 0 then half t.cntFull
  else if a = A.ASHLAR_TCNT 1 then half t.cntQuota
  else if a = A.ASHLAR_TCNT 2 then half t.cntMic
  else if a = A.ASHLAR_TCNT 3 then half t.cntReplay
  else s.reg a

/-- The value of a KEYS register: the attribute group shows the slot of KEYS_SEL (R171, R161). -/
def State.keysReg (s : State) (a : Nat) : Half :=
  let k := s.slot (s.fld F.KEYS_SEL_SLOT)
  let i := a % 0x1000 / 2
  if a = A.KEYS_ATTR0 then k.attr0
  else if a = A.KEYS_ATTR1 then k.attr1
  else if a = A.KEYS_USES_LO then half k.u
  else if a = A.KEYS_USES_HI then half (k.u / 65536)
  else if a = A.KEYS_NCTR_LO then half k.c
  else if a = A.KEYS_NCTR_HI then half (k.c / 65536)
  else if 0x10 ≤ i ∧ i < 0x18 then s.nonceWords.getD (i - 0x10) 0
  else if 0x80 ≤ i ∧ i < 0xA0 then octWord (s.identityPub s.lcState) (i - 0x80)
  else if 0xA0 ≤ i ∧ i < 0xC0 then if s.lcState = 2 then octWord s.lccert (i - 0xA0) else 0
  else s.reg a

/-- What the registers that follow other state read as, and every other register. A GPIO register is read as VAULT reads
it. ACCESS_STATUS.LOCKED is the mirror of PLINTH_LO_STATE.LOCKED that its description makes it, which reads 1 after the loss of both
supplies, not the 0 of its Reset column (R7; DESIGN CHOICE, log entry 107). -/
def State.regValue (s : State) (a : Nat) : Half :=
  let o := a % 0x1000
  if 0x1000000 ≤ a then
    if o = 4 then s.thrState (fin6 (a / 0x1000000 - 1)) else s.reg a
  else match a / 0x1000 with
    | 0xE10 | 0xE11 =>
      let b := bandOf (a / 0x1000 = 0xE11)
      let dc := (s.rfe b).dc.getD (s.fld (F.RFE_DC_SEL_INDEX b)) (0, 0)
      if a = A.RFE_DC_I b then dc.1 else if a = A.RFE_DC_Q b then dc.2 else s.reg a
    | 0xE20 =>
      if a = A.COURSE_HFT_0 then half s.hft
      else if a = A.COURSE_HFT_1 then half (s.hft / 65536)
      else if a = A.COURSE_HFT_2 then half (s.hft / 2 ^ 32)
      else if a = A.COURSE_IW_REMAIN then half s.iwRemain
      else if 0x80 ≤ o ∧ o < 0x100 ∧ o % 16 = 8 then half (min 65535 ((s.dutyUsed (fin8 (o / 16)) + 99) / 100))
      else s.reg a
    | 0xE30 => s.ashlarReg a
    | 0xE41 => s.keysReg a
    | 0xE52 => if a = A.ACCESS_STATUS then F.ACCESS_STATUS_LOCKED.put (s.reg a) (s.fld F.PLINTH_LO_STATE_LOCKED) else s.reg a
    | 0xE60 =>
      if o < 0x80 ∧ o % 16 = 2 then F.MB_STATUS_COUNT 0 |>.put (s.reg a) (s.mbox[fin8 (o / 16)]).length else s.reg a
    | 0xE61 => if a = A.HOSTIF_STATUS then s.hostifStatus else s.reg a
    | 0xE80 => if a = A.NVMC_FREE then s.nvmcFree else s.reg a
    | 0xE90 => if o < 0x40 then s.gpioRead a true else s.reg a
    | 0xE91 => if a = A.UART0_STATUS then s.uartStatus else s.reg a
    | _ => s.reg a

/-- A read of the first word of an ASHLAR counter group clears the group's counters (R23, ASHLAR registers). -/
def State.clearCounters (s : State) (a : Nat) : State :=
  if a = A.ASHLAR_CNT 0 then forEach (List.range 12) s (fun s i => s.setReg (A.ASHLAR_CNT i) 0)
  else if a = A.ASHLAR_TCNT_ENTRIES then
    s.modTenant s.tsel (fun t => { t with cntFull := 0, cntQuota := 0, cntMic := 0, cntReplay := 0 })
  else s

/-- A read of the register at an admitted address: the value, and what the read does. -/
def State.regRead (s : State) (m : Master) (a : Nat) : Half × State :=
  let o := a % 0x1000
  if a = A.COURSE_TXEND_0 then s.txendRead
  else if (0xE20400 ≤ a ∧ a < 0xE20560) ∨ (0xE20600 ≤ a ∧ a < 0xE20800) then
    let s := s.awaitCopy
    (s.reg a, s)
  else if a = A.TRNG_OUT then s.trngRead
  else if 0xE42100 ≤ a ∧ a < 0xE421A0 ∧ s.flag F.PKE_STATUS_BUSY then
    -- the window can be read only while BUSY = 0 (R165): what it shows before that is not given (log entry 2)
    let (v, s) := s.draw 65536
    (half v, s)
  else if a = A.CRYPTO_STATUS ∧ s.radio.frames.any Frame.awaitsMic then
    -- which cores ASHLAR uses for the frames in its hands is not given (log entry 2)
    let (v, s) := s.draw 16
    let w := s.reg a
    (w ||| half (v &&& (15 - (bits w.toNat 7 4 ||| bits w.toNat 11 8))), s)
  else if a = A.UART0_DATA then s.uartDataRead
  else if 0xE60000 ≤ a ∧ a < 0xE60080 then
    let k := fin8 (o / 16)
    match m.core? with
    | some c =>
      if o % 16 = 0 then s.mbRead k c
      else if o % 16 = 2 ∧ (mbReader k c ∨ mbWriter k c) then (s.regValue a, s) else (0, s)
    | none => if o % 16 = 2 then (s.regValue a, s) else (0, s)
  else if 0xE02000 ≤ a ∧ a < 0xE02100 ∧ o % 32 = 0xE then s.tmrCapRead (fin8 (o / 32))
  else if 0xE02000 ≤ a ∧ a < 0xE02100 ∧ o % 32 = 0x12 then
    let s := s.tmrSettle (fin8 (o / 32))
    (s.regValue a, s)
  else if 0x1000000 ≤ a ∧ o = 2 then
    let c := fin6 (a / 0x1000000 - 1)
    (half s.cores[c].cur.val, s)
  else if 0xE90000 ≤ a ∧ a < 0xE90040 then (s.gpioRead a m.vault, s)
  else if 0xE14000 ≤ a ∧ a < 0xE15000 ∧ o % 0x40 = 0x14 then
    -- the channel power is a measurement (log entry 2); 0xFF in IDLE, OUT or ASSAY, or while the band is muted
    let n := (a - 0xE14000) / 0x40
    let v := s.reg a
    let b := bandOf ((s.reg (A.LANE_CUR0 n)).getLsbD 13)
    let st := bits v.toNat 15 13
    let (p, s) := if st = laneIdle ∨ st = laneOut ∨ st = laneAssay ∨ (s.rfe b).isMuted then (0xFF, s) else s.draw 255
    let v := F.LANE_ST0_PWR_NEG n |>.put v p
    (v, s.takeSnap ((List.range 5).map (fun i => (a + 2 + 2 * i, s.reg (a + 2 + 2 * i)))))
  else match groupOf a with
    | some (first, n) =>
      if a = first then
        let v := s.regValue a
        (v, (s.takeSnap ((List.range (n - 1)).map (fun i => (a + 2 + 2 * i, s.regValue (a + 2 + 2 * i))))).clearCounters a)
      else (s.snapReg a, s)
    | none => (s.regValue a, s.setReg a (clearRcl (fieldsAt a) (s.reg a)))

/-! ## Writes -/

/-- The registers whose write commits a value of several words, with the words (R26). -/
def commitsOn (a : Nat) : List Nat :=
  let o := a % 0x1000
  if a ∈ [A.HOD_RING_BASE_HI, A.HOD_POOL_BASE_HI, A.CRYPTO_Q_BASE_HI, A.ACCESS_TOK_BASE_HI, A.ACCESS_REV_BASE_HI,
      A.HOSTIF_IN_BASE_HI, A.HOSTIF_OQ_BASE_HI, A.COURSE_START_HI, A.PMU_SLP_TIMER_HI, A.ASSAY_REGION_HI, A.PKE_ARG_HI] then [a - 2, a]
  else if 0xE00010 ≤ a ∧ a < 0xE00024 ∧ o % 4 = 2 then [a - 2, a]
  else if 0xE00080 ≤ a ∧ a < 0xE000C0 ∧ (o % 16 = 4 ∨ o % 16 = 8) then [a - 2, a]
  else if 0xE00100 ≤ a ∧ a < 0xE00200 ∧ (o % 16 = 2 ∨ o % 16 = 6) then [a - 2, a]
  else if 0xE02000 ≤ a ∧ a < 0xE02100 ∧ o % 32 = 0xC then [a - 2, a]
  else if 0x1000000 ≤ a ∧ 0x10 ≤ o ∧ o < 0x30 ∧ o % 4 = 2 then [a - 2, a]
  else []

/-- A write with no effect of its own beside the fields' and a commit (R3, R6, R26). -/
def State.fieldWrite (s : State) (a : Nat) (w : Half) : State := (s.plainWrite a w).commit (commitsOn a)

/-- A write of an RFE register. RFE_DC_I and RFE_DC_Q take any word: chapter 02 gives −2,048 to +2,047 for the offset and calls no
other value reserved (DESIGN CHOICE, log entry 95). -/
def State.rfeWrite (s : State) (b : Band) (a : Nat) (w : Half) : State :=
  let setDc (f : Half × Half → Half × Half) : State :=
    let i := s.fld (F.RFE_DC_SEL_INDEX b)
    s.modRfe b (fun r => { r with dc := r.dc.set i (f (r.dc.getD i (0, 0))) })
  if a = A.RFE_CTRL b then s.rfeCtrlWrite b w
  else if a = A.RFE_SPAN b then s.spanWrite b w
  else if a = A.RFE_CAL_CMD b then s.calCmdWrite b w
  else if a = A.RFE_DC_I b then setDc (fun p => (w, p.2))
  else if a = A.RFE_DC_Q b then setDc (fun p => (p.1, w))
  else if a = A.RFE_XO_TRIM .sub then s.trimWrite w
  else if a ∈ txRegs b then s.txConfigWrite b a w
  else s.fieldWrite a w

/-- A write of a COURSE register. -/
def State.courseWrite (s : State) (a : Nat) (w : Half) : State :=
  let o := a % 0x1000
  if a = A.COURSE_CTRL then s.courseCtrlWrite w
  else if a = A.COURSE_ADJ then s.adjWrite w
  else if a = A.COURSE_PLAN_CMD then (if w.getLsbD 0 then s.planCommit else s)
  else if a = A.COURSE_CFG ∨ (0x10 ≤ o ∧ o < 0x16) ∨ (0x30 ≤ o ∧ o < 0x3A) then s.courseCfgWrite a w
  else if 0x80 ≤ o ∧ o < 0x100 ∧ o % 16 = 0 then s.dutyCtrlWrite (fin8 (o / 16)) w
  else if 0x400 ≤ o ∧ o < 0x800 then s.shadowWrite ((o - 0x400) / 2) w
  else s.fieldWrite a w

/-- A write of an ASHLAR register. -/
def State.ashlarWrite (s : State) (a : Nat) (w : Half) : State :=
  if a = A.ASHLAR_CTRL then s.ashlarCtrlWrite w
  else if a = A.ASHLAR_CMD then s.ashlarCmdWrite w
  else if a = A.ASHLAR_E_CMD then s.entryOp (w.toNat % 16)
  else if a = A.ASHLAR_TCFG then s.tcfgWrite w
  else if a = A.ASHLAR_TEPOCH then s.tepochWrite w
  else if a = A.ASHLAR_TQUOTA then s.modTenant s.tsel (fun t => { t with quota := w.toNat })
  else if a = A.ASHLAR_TRATE then s.modTenant s.tsel (fun t => { t with rate := w.toNat })
  else s.fieldWrite a w

/-- A write of a PLINTH register. -/
def State.plinthWrite (s : State) (a : Nat) (w : Half) : State :=
  if a ∈ [A.RTC_SET_0, A.RTC_SET_1, A.RTC_SET_2] then s.rtcSetWrite a w
  else if a = A.RTC_CMD then s.rtcCmdWrite w
  else if a ∈ [A.RTC_ALM_0, A.RTC_ALM_1, A.RTC_ALM_2] then s.rtcAlmWrite a w
  else if a = A.PLINTH_CTRL then s.plinthCtrlWrite w
  else if a = A.PLINTH_MAINS then s.mainsWrite w
  else if a = A.PLINTH_TRICKLE then s.trickleWrite w
  else s.fieldWrite a w

/-- A write of a TIMER register: an OPEN access reaches the channels of its world, and not TMR_WORLD (R19). -/
def State.timerWrite (s : State) (m : Master) (a : Nat) (w : Half) : State :=
  let o := a % 0x1000
  let k := fin8 (o / 32)
  if o < 0x100 then
    if !m.vault ∧ !(s.reg A.TMR_WORLD).getLsbD k then s
    else match o % 32 with
      | 0x0 => s.tmrCtrlWrite k w
      | 0x2 => s.tmrCntWrite k false w
      | 0x4 => s.tmrCntWrite k true w
      | 0x6 => s.tmrCmpWrite k false w
      | 0x8 => s.tmrCmpWrite k true w
      | _ => s.fieldWrite a w
  else if !m.vault then s
  else if a = A.TMR_WORLD then s.tmrWorldWrite w
  else s.fieldWrite a w

/-- A write of a core-local register, under its core's key. -/
def State.coreWrite (s : State) (c : Fin 6) (a : Nat) (w : Half) : State :=
  let o := a % 0x1000
  if o = 6 then s.thrStartWrite c w
  else if o = 8 then s.thrKillWrite c w
  else if o = 0xC then s.kick c w
  else if 0x80 ≤ o ∧ o < 0xA0 then (s.fieldWrite a w).wakeThreads c
  else if 0xA0 ≤ o ∧ o < 0xA8 then s.pendWrite c (fin4 ((o - 0xA0) / 2)) w
  else s.fieldWrite a w

/-- A write of the register at an admitted address; one that names no register has no effect (R21). -/
def State.regWrite (s : State) (m : Master) (a : Nat) (w : Half) : State :=
  let o := a % 0x1000
  if 0x1000000 ≤ a then s.coreWrite (fin6 (a / 0x1000000 - 1)) a w
  else match a / 0x1000 with
    | 0xE00 =>
      if a = A.SYSCTL_RST then s.rstWrite w
      else if a = A.SYSCTL_CLK then s.clkWrite w
      else if a = A.SYSCTL_CORE_CTRL then s.coreCtrlWrite w
      else if a = A.SYSCTL_ADMIT then s.admitWrite w
      else if 0x80 ≤ o ∧ o < 0xC0 ∧ o % 16 = 0 then s.dmaCtrlWrite ((o - 0x80) / 16) w
      else s.fieldWrite a w
    | 0xE01 =>
      if a = A.PMU_PL_REQ then s.plReqWrite (w.toNat % 4)
      else if a = A.PMU_SLEEP then s.sleepWrite w
      else s.fieldWrite a w
    | 0xE02 => s.timerWrite m a w
    | 0xE03 => if o < 0x30 ∧ o % 8 = 0 then s.wdtCtrlWrite (fin6 (o / 8)) w else s.fieldWrite a w
    | 0xE10 => s.rfeWrite .sub a w
    | 0xE11 => s.rfeWrite .ism a w
    | 0xE12 =>
      if (regDesc a).isNone then s
      else if o < 0x100 then s.femWrite .sub a w else s.femWrite .ism a w
    | 0xE18 =>
      if a = A.REC_CMD then s.recCmdWrite w
      else if a ∈ recConfig ++ [A.REC_EXT_BASE_LO, A.REC_EXT_BASE_HI] then s.recConfigWrite a w
      else s.fieldWrite a w
    | 0xE20 => s.courseWrite a w
    | 0xE21 => if a = A.HOD_CTRL then s.hodCtrlWrite w else if a = A.HOD_RD then s.hodRdWrite w else s.fieldWrite a w
    | 0xE30 => s.ashlarWrite a w
    | 0xE40 =>
      if a = A.CRYPTO_CTRL then s.cryptoCtrlWrite w
      else if a = A.CRYPTO_Q_WR then s.queueWrite m.coreOr0 w
      else s.fieldWrite a w
    | 0xE41 => if a = A.KEYS_CMD then s.keysCmdWrite m.coreOr0 (w.toNat % 16) else s.fieldWrite a w
    | 0xE42 =>
      if a = A.PKE_CMD then s.pkeCmdWrite m.coreOr0 w
      else if 0x100 ≤ o ∧ s.flag F.PKE_STATUS_BUSY then s
      else s.fieldWrite a w
    | 0xE43 => if a = A.TRNG_CTRL then s.trngCtrlWrite w else s.fieldWrite a w
    | 0xE50 => if a = A.LF_CMD then s.lfCmdWrite w else s.fieldWrite a w
    | 0xE52 =>
      if a = A.ACCESS_CTRL then s.accessCtrlWrite w
      else if a = A.ACCESS_TBL_CMD then s.tblCmdWrite w
      else s.fieldWrite a w
    | 0xE60 =>
      if a = A.MBOX_BELL then s.bell m.coreOr0 w
      else if o < 0x80 ∧ o % 16 = 0 then
        match m.core? with | some c => s.mbWrite (fin8 (o / 16)) c w | none => s
      else s.fieldWrite a w
    | 0xE61 =>
      if a = A.HOSTIF_CTRL then s.hostifCtrlWrite w
      else if a = A.HOSTIF_OQ_WR then s.oqWrite w
      else s.fieldWrite a w
    | 0xE70 =>
      if a = A.ASSAY_CTRL then s.assayCtrlWrite w
      else if a = A.ASSAY_CMD then s.assayCmdWrite w
      else s.fieldWrite a w
    | 0xE80 => if a = A.NVMC_CMD then s.nvmcCmdWrite (w.toNat % 16) else s.fieldWrite a w
    | 0xE90 =>
      if o < 0x40 then (if (regDesc a).isSome then s.gpioWrite a w m.vault else s)
      else if m.vault then s.gpioWorldWrite a w else s
    | 0xE91 =>
      if a = A.UART0_CTRL then s.uartCtrlWrite w
      else if a = A.UART0_BAUD then s.uartBaudWrite w
      else if a = A.UART0_DATA then s.uartDataWrite w
      else s.fieldWrite a w
    | 0xF00 => s.plinthWrite a w
    | _ => s.fieldWrite a w

end Sys2Proof.Machine
end

