-- ==== Sys2Proof/Machine/Bus.lean ====
section
/-! DEFINITION. Accesses of the address map (R15 to R26): which are admitted, what they return and do; and the register
accesses that no other row names. -/
namespace Sys2Proof.Machine

/-- The outcome of a read: a value, refused (R17), or an uncorrectable word of MRAM (R266). -/
inductive BusRead where
  | value (v : Nat)
  | refused
  | ecc
  deriving DecidableEq, Repr

/-- A word of the Ashlar SRAM (R123, R124). -/
def State.ashlarWord (s : State) (off : Nat) : Half :=
  let e := wayAt s.ashlar.ways (off / 16)
  match off % 16 / 2 with
  | 4 => half e.hwm.toNat
  | 5 => half (e.hwm.toNat / 65536)
  | 6 => half (bit e.valid * 32768 + bit e.pending * 16384 + bit e.quarantine * 8192 + bit e.dirty * 4096 + e.tenant.toNat)
  | 7 => half (e.heard.toNat * 256 + e.epoch.toNat)
  | i => half (e.eui.toNat / 2 ^ (16 * (3 - i)))

/-- An octet of the memories that are read as memory: boot ROM, SRAM, Ashlar SRAM, recorder SRAM, MRAM (R17). -/
def State.memOctet (s : State) (a : Nat) : Byte :=
  let ofHalf (w : Half) : Byte := byte (if a % 2 = 0 then w.toNat else w.toNat / 256)
  if a < 0x18000 then ofHalf (Config.romHalf (a / 2))
  else if a < 0x300000 then memGet 0 s.sram a
  else if a < 0x500000 then ofHalf (s.ashlarWord (a - 0x400000))
  else if a < 0x680000 then memGet 0 s.recRam a
  else s.mramOctet a

/-- The kinds of place in the address map. -/
inductive Place where
  | rom | sram | ashlarRam | recRam | mram | periph | plinth | coreLocal | none
  deriving DecidableEq, Repr

/-- The region of an address (R17), a window of the peripheral region only where a block stands (R19, R21). -/
def placeOf (a : Nat) : Place :=
  if a < 0x18000 then .rom
  else if 0x100000 ≤ a ∧ a < 0x300000 then .sram
  else if 0x400000 ≤ a ∧ a < 0x500000 then .ashlarRam
  else if 0x600000 ≤ a ∧ a < 0x680000 then .recRam
  else if 0x800000 ≤ a ∧ a < 0xC00000 then .mram
  else if 0xE00000 ≤ a ∧ a < 0xF00000 then
    if a / 0x1000 = 0xE14 ∨ (blocks.lookup (a / 0x1000 * 0x1000)).isSome then .periph else .none
  else if 0xF00000 ≤ a ∧ a < 0xF01000 then .plinth
  else if 0xFF0000 ≤ a ∧ a < 0x1000000 then .coreLocal
  else .none

/-- The region of an access of `n` octets, none where it spans two. -/
def placeSpan (a n : Nat) : Place := if placeOf a = placeOf (a + n - 1) then placeOf a else .none

/-- Blocks that the OPEN world reaches (R19). -/
def openBlock (a : Nat) (write : Bool) : Bool :=
  match a / 0x1000 with
  | 0xE02 | 0xE60 | 0xE90 => true
  | 0xE0F => !write
  | _ => false

/-- An entry with one of its eight words replaced (R124). -/
def AEntry.putWord (e : AEntry) (i : Nat) (w : Half) : AEntry :=
  match i with
  | 4 => { e with hwm := BitVec.ofNat 32 (putBits e.hwm.toNat 15 0 w.toNat) }
  | 5 => { e with hwm := BitVec.ofNat 32 (putBits e.hwm.toNat 31 16 w.toNat) }
  | 6 => { e with valid := w.getLsbD 15, pending := w.getLsbD 14, quarantine := w.getLsbD 13, dirty := w.getLsbD 12
                  tenant := BitVec.ofNat 12 w.toNat }
  | 7 => { e with heard := byte (w.toNat / 256), epoch := byte w.toNat }
  | i => { e with eui := BitVec.ofNat 64 (putBits e.eui.toNat (63 - 16 * i) (48 - 16 * i) w.toNat) }

/-- Masters that reach registers: cores, and TROWEL. -/
def reachesRegs (m : Master) : Bool := match m with | .core _ | .trowel _ => true | _ => false

/-- An access of `n` octets at `a` is admitted (R17 to R20): cores and TROWEL by the column of their world, other masters as the
last column has it. NVMC writes MRAM through its commands alone (R18); a core-local access that is no 16-bit access at an even
address is treated as R20 treats one of a block (DESIGN CHOICE, log entry 54). -/
def admitted (m : Master) (a n : Nat) (write : Bool) : Bool :=
  let v := m.vault
  match placeSpan a n with
  | .rom => v && reachesRegs m && !write
  | .ashlarRam => (v && reachesRegs m && !write) || m = .ashlar
  | .recRam => (v && reachesRegs m && !write) || (m = .recorder && write) || (m = .dma && !write)
  | .sram => true
  | .mram => !write && (reachesRegs m || m = .dma || m = .assay)
  | .periph => reachesRegs m && n = 2 && a % 2 = 0 && (v || openBlock a write)
  | .plinth => reachesRegs m && v && n = 2 && a % 2 = 0
  | .coreLocal => reachesRegs m && n = 2 && a % 2 = 0
  | .none => false

/-- The register key of an admitted register access: a core-local register under the core the access belongs to, none
where no register can stand. -/
def regKey (core : Fin 6) (a : Nat) : Option Nat :=
  if a < 0xFF0000 then some a else if a < 0xFF1000 then some (coreKey core a) else none

/-- An OPEN access to a TIMER channel or register of the VAULT world reads 0 (R19). -/
def State.timerHidden (s : State) (m : Master) (a : Nat) : Bool :=
  !m.vault && 0xE02000 ≤ a && a < 0xE03000 && (0xE02100 ≤ a || !(s.reg A.TMR_WORLD).getLsbD (a % 0x1000 / 32))

/-- A read of `n` octets by a master; `core` owns the core-local region that it sees. -/
def State.busRead (s : State) (m : Master) (core : Fin 6) (a n : Nat) : BusRead × State :=
  if !admitted m a n false then (.refused, s)
  else match placeSpan a n with
    | .periph | .plinth | .coreLocal =>
      if s.timerHidden m a ∨ (!m.vault ∧ 0xE90100 ≤ a ∧ a < 0xE90104) then (.value 0, s)
      else match regKey core a with
        | some k => let (v, s) := s.regRead m k; (.value v.toNat, s)
        | none => (.value 0, s)
    | .mram =>
      let t := s.eccNote (a / 2 * 2) (a + n)
      if s.mramBad.any (fun w => decide (a / 2 * 2 ≤ w) && decide (w < a + n)) then (.ecc, t)
      else (.value (leNat ((List.range n).map (fun i => s.memOctet (a + i)))), t)
    | _ => (.value (leNat ((List.range n).map (fun i => s.memOctet (a + i)))), s)

/-- A write of `n` octets by a master: none where it is refused. -/
def State.busWrite (s : State) (m : Master) (core : Fin 6) (a n v : Nat) : Option State :=
  if !admitted m a n true then none
  else match placeSpan a n with
    | .sram => some (s.sramPut a (leOctets n v))
    | .recRam => some { s with recRam := memPut 0 s.recRam a (leOctets n v) }
    | .ashlarRam =>
      let i := (a - 0x400000) / 16
      some (s.modAshlar (fun h => { h with ways := putWay h.ways i ((wayAt h.ways i).putWord (a % 16 / 2) (half v)) }))
    | _ => match regKey core a with
      | some k => some (s.regWrite m k (half v))
      | none => some s

/-- A data access of `n` octets may be made: PRIV of a store to the core-local region, ALIGN, DATA_MPU, DATA_BUS in the order
of R241. -/
def State.dataFault (s : State) (c : Fin 6) (t : Fin 4) (a n : Nat) (store : Bool) : Option (Nat × Option Nat) :=
  let th := s.thr c t
  let o := a - 0xFF0000
  let own := (0x80 + 8 * t.val ≤ o && o < 0x88 + 8 * t.val) || (0xA0 ≤ o && o < 0xA8) || (0xC ≤ o && o < 0xE)
  let mem := placeOf a == .sram || placeOf a == .mram
  if store && placeOf a == .coreLocal && !th.priv && !own then some (exPriv, none)
  else if a % n ≠ 0 then some (exAlign, some a)
  else if mem && !s.mpuAdmits c th.priv a (if store then 1 else 0) then some (exDataMpu, some a)
  else if !admitted (.core c) a n store then some (exDataBus, some a)
  else none

/-- The exception that stops a core's own 16-bit access before it is made (R15, R17, R206, R240, R248): that of the thread that
executes; on a core where none does the outer windows alone are tested. Another master's access meets R17 alone. -/
def State.accessFault (s : State) (m : Master) (a : Nat) (store : Bool) : Option (Nat × Option Nat) :=
  match m with
  | .core c => match s.cpuThread c with
    | some t => s.dataFault c t a 2 store
    | none =>
      if (placeOf a == .sram || placeOf a == .mram) && !s.mpuAdmits c true a (if store then 1 else 0) then some (exDataMpu, some a)
      else none
  | _ => none

/-- An access that is refused, or that meets an uncorrectable word: on a core the thread that makes it takes the exception (R17,
R19, R266); where none executes, or for another master, the transfer is aborted and nothing else is stated. -/
def State.busError (s : State) (m : Master) (e : Nat × Option Nat) : State :=
  let s := s.see .refused
  match m with
  | .core c => match s.cpuThread c with
    | some t => s.raiseInstr c t e.1 e.2
    | none => s
  | _ => s

/-- A 16-bit read as a command: its outcome is seen. -/
def State.busReadSeen (s : State) (m : Master) (a : Nat) : State :=
  match s.accessFault m a false with
  | some e => s.busError m e
  | none => match s.busRead m m.coreOr0 a 2 with
    | (.value v, s) => s.see (.value (half v))
    | (.refused, s) => s.busError m (exDataBus, some a)
    | (.ecc, s) => s.busError m (exEcc, some a)

/-- A 16-bit write as a command. -/
def State.busWriteSeen (s : State) (m : Master) (a : Nat) (w : Half) : State :=
  match s.accessFault m a true with
  | some e => s.busError m e
  | none => (s.busWrite m m.coreOr0 a 2 w.toNat).getD (s.busError m (exDataBus, some a))

/-- REGISTER_WRITE (R3, R6, R26): a 16-bit write by a master. -/
def execRegisterWrite (m : Master) (a : BitVec 24) (w : Half) (s : State) : Out := .next (s.busWriteSeen m a.toNat w)

/-- RCL_READ (R3, R5): a 16-bit read by a master. -/
def execRclRead (m : Master) (a : BitVec 24) (s : State) : Out := .next (s.busReadSeen m a.toNat)

/-- SNAPSHOT_READ (R23, R24): a 16-bit read by a master, of a word of a status group. -/
def execSnapshotRead (m : Master) (a : BitVec 24) (s : State) : Out := .next (s.busReadSeen m a.toNat)

/-- ASHLAR_COUNTER_GROUP_READ (R23): a read of the first word of the counter group, or of the tenant counter group. -/
def execAshlarCounterGroupRead (m : Master) (tenant : Bool) (s : State) : Out :=
  .next (s.busReadSeen m (if tenant then A.ASHLAR_TCNT_ENTRIES else A.ASHLAR_CNT 0))

end Sys2Proof.Machine
end

