-- ==== Sys2Proof/Machine/AdsinSys.lean ====
section
/-! DEFINITION. Adsin classes SYS, PWR and TIME (R339, R341). -/
namespace Sys2Proof.Machine

/-! ## Lintel firmware at the registers -/

/-- The core that firmware's accesses come from. -/
def State.fwMaster (s : State) : Master := .core s.oldCore

/-- Firmware writes registers, in order. -/
def State.fwWrite (s : State) (l : List (Nat × Half)) : State := forEach l s (fun s p => s.regWrite s.fwMaster p.1 p.2)

/-- Firmware reads registers, in order. -/
def State.fwRead (s : State) : List Nat → List Half × State
  | [] => ([], s)
  | a :: l =>
    let (v, s) := s.regRead s.fwMaster a
    let (vs, s) := s.fwRead l
    (v :: vs, s)

/-- Registers at consecutive addresses. -/
def regRange (a n : Nat) : List Nat := (List.range n).map (fun i => a + 2 * i)

/-- A value in the form of a register word (R341): no bit outside the fields that software writes, no reserved encoding. -/
def regFits (a : Nat) (w : Half) : Bool :=
  let fs := (fieldsAt a).filter (fun d => d.acc == .rw || d.acc == .wo || d.acc == .w1s)
  fs.all (fun d => d.admits (bits w.toNat d.hi d.lo)) &&
    fs.foldl (fun v d => putBits v d.hi d.lo 0) w.toNat == 0

/-- Every value fits its register. -/
def allFit (l : List (Nat × Half)) : Bool := l.all (fun p => regFits p.1 p.2)

/-- The job ring runs and has room for a descriptor (R160). -/
def State.ringRoom (s : State) : Bool :=
  s.flag F.CRYPTO_CTRL_EN && !s.crypto.stopPend && decide ((s.regN A.CRYPTO_Q_WR + 32 - s.regN A.CRYPTO_Q_RD) % 32 < 16)

/-- Firmware submits a CRYPTO job (R157, R160): it writes the octets and a descriptor, of which it gives word 0 and words 5 to 15, and
moves the ring on. The ring index, and where DST lies. -/
def State.jobAsk (s : State) (w0 : Half) (tail : List Half) (octets : List Byte) : Nat × Nat × State :=
  let (src, s) := s.scratch 2080
  let (dst, s) := s.scratch 2080
  let s := s.sramPut src octets
  let idx := s.regN A.CRYPTO_Q_WR
  let w := [w0, half src, half (src / 65536), half dst, half (dst / 65536)] ++ tail
  let s := s.setSramWords (s.descAddr idx) (w ++ List.replicate 8 0)
  (idx, dst, s.fwWrite [(A.CRYPTO_Q_WR, half ((idx + 1) % 32))])

/-- Words that a request gives for registers, from a position on. -/
def given (p : List Half) (i : Nat) (l : List Nat) : List (Nat × Half) := l.zip (p.drop i)

/-! ## Bandwidth admission (R260, R261) -/

/-- Samples per ms of a lane stream in a mode (R68). -/
def Mode.stream (m : Mode) : Nat :=
  match m.kind with | .fsk2 | .fsk4 => 8 * 48000 / m.dfeTicks | _ => 4000

/-- The mode of a lane in the plan: that in force, or the one in the shadow buffer. -/
def State.planMode (s : State) (shadow : Bool) (n : Nat) : Option Mode := modeOf (bits (s.planWord shadow (2 * n)).toNat 12 8)

/-- A rate in whole bytes per µs, rounded up. -/
def upTo (n d : Nat) : Nat := (n + d - 1) / d

/-- The data rates of the plan's receive lanes in kbit/s. -/
def State.receiveRate (s : State) (shadow : Bool) : Nat :=
  ((List.range 64).map (fun n =>
    if bits (s.planWord shadow (2 * n)).toNat 15 14 = 1 then match s.planMode shadow n with | some m => 48000 / m.bitTicks | none => 0
    else 0)).foldl (· + ·) 0

/-- The rate of the recorder's extension. -/
def State.extRate (s : State) (shadow : Bool) : Nat :=
  if s.effFld F.REC_SRC_EXT = 1 ∧ s.effFld F.REC_SRC_KIND = 3 then
    match s.planMode shadow (s.effFld F.REC_SRC_LANE) with | some m => upTo (4 * m.stream) 1000 | none => 0
  else 0

/-- The rate of the host at the board's HCLK (R325). -/
def State.hostRate (s : State) : Nat :=
  if s.flag F.HOSTIF_CTRL_EN then upTo (min 50 Config.hclkMHz) (if s.effFld F.HOSTIF_CTRL_FMT = 1 then 2 else 8) else 0

/-- The rates that firmware counts for the guaranteed requesters, in bytes per µs (R260); `shadow` says whose lanes count. Fractions
are rounded up (DESIGN CHOICE, log entry 103). -/
def State.guaranteed (s : State) (shadow : Bool) : Nat :=
  16 * bit (s.flag F.HOD_CTRL_EN) + upTo (s.receiveRate shadow) 8000 + s.extRate shadow +
    (([0, 1, 2, 3].filter (fun k => s.flag (F.DMA_CTRL_EN k))).map (fun k => s.fld (F.DMA_RATE_BYTES k))).foldl (· + ·) 0 + s.hostRate

/-- The lanes that count: those of the plan in force, or of one that is being committed. -/
def State.planAhead (s : State) : Bool := s.flag F.COURSE_STATUS_COMMIT_PEND || s.course.checking

/-- Firmware writes the admitted sum (R261). -/
def State.noteAdmitted (s : State) : State :=
  let n := s.guaranteed s.planAhead
  if n = s.fld F.SYSCTL_ADMIT_BYTES ∨ s.fld F.SYSCTL_ADMIT_CAP_BYTES < n then s else s.fwWrite [(A.SYSCTL_ADMIT, half n)]

/-- Firmware makes a configuration of guaranteed requesters only if their sum stays within the admissible figure; else it refuses
with FULL and leaves everything as it stood (R260; the status is a DESIGN CHOICE, log entry 103). -/
def State.admission (s : State) (act : State → Answer × State) : Answer × State :=
  let (a, t) := act s
  if t.fld F.SYSCTL_ADMIT_CAP_BYTES < t.guaranteed t.planAhead then (.no stFull, s) else (a, t.noteAdmitted)

/-! ## SYS -/

/-- SYS HELLO: the events queued go, that in the HOSTIF queue among them. -/
def State.sysHello (k : Fin 6) (p : List Half) (s : State) : Answer × State :=
  let lo := wordAt p 0
  let hi := wordAt p 1
  let v := min hi 0x0204
  if max lo 0x0200 ≤ v ∧ lo ≤ hi then
    let fw := if s.sys.recovery ∨ s.sys.romSys then 0 else (Config.fwVersion (s.manifest (s.update.runs - 1)).version).toNat
    (.ok [half v, 0x0200, 0x0204, s.reg A.ID_PART, s.reg A.ID_STEP, s.reg A.ID_LIFECYCLE, 1088, half k.val, half fw, half (fw / 65536)],
     (if k = 0 then s.spiTakeBack else s).modChan k (fun c =>
       { c with version := some v, mask := evtAllowed (isHost k), evtSeq := 0, outq := c.dropEvents }))
  else (.done stVersion 0 [0x0200, 0x0204], s.modChan k (fun c => { c with version := none }))

/-- SYS_HELLO (R339, R341). -/
def execSysHello (k : Fin 6) (h : AdsinHdr) (p : List Half) (s : State) : Out := .next (s.adsinReq k h 0 1 p (State.sysHello k p))

/-- SYS_PING (R341). -/
def execSysPing (k : Fin 6) (h : AdsinHdr) (p : List Half) (s : State) : Out :=
  .next (s.adsinReq k h 0 2 p (fun s => (.ok p, s)))

/-- SYS INFO. Without a confirmed set its version is a free value (log entry 2). -/
def State.sysInfo (s : State) : Answer × State :=
  let conf := s.bootRec.conf
  let (v, s) := if conf = 0 then s.draw (2 ^ 32) else ((s.manifest (conf - 1)).version, s)
  (.ok ((List.range 4).map (fun i => s.reg (A.ID_EUI i)) ++
    [s.reg A.ID_CAPS0, s.reg A.ID_CAPS1, s.reg A.ID_ROMVER, s.reg A.ID_GRADE, half v, half (v / 65536)]), s)

/-- SYS_INFO (R341). -/
def execSysInfo (k : Fin 6) (h : AdsinHdr) (p : List Half) (s : State) : Out := .next (s.adsinReq k h 0 3 p State.sysInfo)

/-- SYS EVT_MASK. -/
def State.sysEvtMask (k : Fin 6) (p : List Half) (s : State) : Answer × State :=
  let m := List.zipWith (· &&& ·) p (evtAllowed (isHost k))
  (.ok m, s.modChan k (fun c => { c with mask := m }))

/-- SYS_EVT_MASK (R338, R341). -/
def execSysEvtMask (k : Fin 6) (h : AdsinHdr) (p : List Half) (s : State) : Out :=
  .next (s.adsinReq k h 0 4 p (State.sysEvtMask k p))

/-- SYS RESET. -/
def State.sysReset (p : List Half) (s : State) : Answer × State :=
  (if wordAt p 0 = 0x5A3C then .leave .reset else .no stBadArg, s)

/-- SYS_RESET (R341). -/
def execSysReset (k : Fin 6) (h : AdsinHdr) (p : List Half) (s : State) : Out := .next (s.adsinReq k h 0 5 p (State.sysReset p))

/-- SYS STATS. -/
def State.sysStats (k : Fin 6) (s : State) : Answer × State :=
  let c := s.adsin.chans[k]
  (.ok [half c.requests, half c.busy, half c.dropped, half c.discarded], s)

/-- SYS_STATS (R341). -/
def execSysStats (k : Fin 6) (h : AdsinHdr) (p : List Half) (s : State) : Out := .next (s.adsinReq k h 0 6 p (State.sysStats k))

/-! ## PWR -/

/-- PWR PL_SET. A request that BUSY or SAME ends answers with that code; SAME ends a request that waited, too. -/
def State.pwrPlSet (p : List Half) (s : State) : Answer × State :=
  if 3 < wordAt p 0 then (.no stBadArg, s)
  else
    let s := s.noteAdmitted.plReqWrite (wordAt p 0)
    let r := s.fld F.PMU_PL_STAT_RESULT
    if s.sys.plChange.isSome then (.no stFail r, s)
    else if s.sys.plPend.isNone then (.no stFail r, s.complete .plSet stFail r [])
    else (.until .plSet, s)

/-- PWR_PL_SET (R283, R284, R341). -/
def execPwrPlSet (k : Fin 6) (h : AdsinHdr) (p : List Half) (s : State) : Out := .next (s.adsinReq k h 1 1 p (State.pwrPlSet p))

/-- PWR PL_GET. -/
def State.pwrPlGet (s : State) : Answer × State :=
  let s := s.noteAdmitted
  (.ok [s.reg A.PMU_PL, s.reg A.SYSCTL_ADMIT, s.reg A.SYSCTL_ADMIT_CAP], s)

/-- PWR_PL_GET (R341). -/
def execPwrPlGet (k : Fin 6) (h : AdsinHdr) (p : List Half) (s : State) : Out :=
  .next (s.adsinReq k h 1 2 p State.pwrPlGet)

/-- PWR SLEEP. A refusal shows in PMU_STATUS as that of the write of PMU_SLEEP. -/
def State.pwrSleep (p : List Half) (s : State) : Answer × State :=
  let st := wordAt p 0
  let en := p.getD 1 0
  if st = 0 ∨ 3 < st ∨ !regFits A.PMU_WAKE_EN en then (.no stBadArg, s)
  else match s.sleepWhy with
    | some y => (.no stFail y, (s.setFlag F.PMU_STATUS_SLP_ERR).setFld F.PMU_STATUS_SLP_WHY y)
    | none => (.leave (.sleep en (wordAt p 2 + 65536 * wordAt p 3) st), s)

/-- PWR_SLEEP (R286, R341). -/
def execPwrSleep (k : Fin 6) (h : AdsinHdr) (p : List Half) (s : State) : Out := .next (s.adsinReq k h 1 3 p (State.pwrSleep p))

/-- PWR MAINS. -/
def State.pwrMains (p : List Half) (s : State) : Answer × State :=
  let w := p.getD 0 0
  if regFits A.PLINTH_MAINS w then (.ok, s.fwWrite [(A.PLINTH_MAINS, w)]) else (.no stBadArg, s)

/-- PWR_MAINS (R313, R341). -/
def execPwrMains (k : Fin 6) (h : AdsinHdr) (p : List Half) (s : State) : Out := .next (s.adsinReq k h 1 4 p (State.pwrMains p))

/-! ## TIME -/

/-- The ASN as three words, the low one first. -/
def asnWords (n : Nat) : List Half := [half n, half (n / 65536), half (n / 2 ^ 32)]

/-- TIME GET. -/
def State.timeGet (s : State) : Answer × State :=
  (.ok (s.rtcLow ++ [half (s.fld F.PLINTH_EVT_OSC_STOP)] ++ asnWords s.asn ++ [s.reg A.COURSE_SLOT]), s)

/-- TIME_GET (R305, R341). -/
def execTimeGet (k : Fin 6) (h : AdsinHdr) (p : List Half) (s : State) : Out := .next (s.adsinReq k h 2 1 p State.timeGet)

/-- TIME_SET (R306, R341). -/
def execTimeSet (k : Fin 6) (h : AdsinHdr) (p : List Half) (s : State) : Out :=
  .next (s.adsinReq k h 2 2 p (fun s => (.ok, s.fwWrite (given p 0 [A.RTC_SET_0, A.RTC_SET_1, A.RTC_SET_2]))))

/-- TIME SHIFT. A write that finds a shift pending sets CMD_ERR. -/
def State.timeShift (p : List Half) (s : State) : Answer × State :=
  let d := wordAt p 0
  if d ≠ 1 ∧ d ≠ 2 then (.no stBadArg, s)
  else
    let was := s.flag F.PLINTH_STATUS_SHIFT_PEND
    let s := s.fwWrite [(A.RTC_CMD, half (0xB400 + d))]
    (if was then .no stFail else .until .timeShift, s)

/-- TIME_SHIFT (R307, R341). -/
def execTimeShift (k : Fin 6) (h : AdsinHdr) (p : List Half) (s : State) : Out := .next (s.adsinReq k h 2 3 p (State.timeShift p))

/-- TIME TRIM. -/
def State.timeTrim (p : List Half) (s : State) : Answer × State :=
  let w := p.getD 0 0
  if w &&& 0x80FF != 0 || !regFits A.PLINTH_CTRL w then (.no stBadArg, s)
  else
    let s := s.fwWrite [(A.PLINTH_CTRL, (s.reg A.PLINTH_CTRL &&& 0x8000) ||| w), (A.RTC_TRIM, p.getD 1 0)]
    let (v, s) := s.fwRead [A.TRIM_MEAS_LO, A.TRIM_MEAS_HI]
    (.ok v, s)

/-- TIME_TRIM (R310, R341). -/
def execTimeTrim (k : Fin 6) (h : AdsinHdr) (p : List Half) (s : State) : Out := .next (s.adsinReq k h 2 4 p (State.timeTrim p))

/-- TIME ALARM. -/
def State.timeAlarm (p : List Half) (s : State) : Answer × State :=
  if 1 < wordAt p 3 then (.no stBadArg, s)
  else
    let s := s.fwWrite (given p 0 [A.RTC_ALM_0, A.RTC_ALM_1, A.RTC_ALM_2])
    (.ok, s.fwWrite [(A.PLINTH_CTRL, (s.reg A.PLINTH_CTRL &&& 0x7FFF) ||| half (wordAt p 3 * 32768))])

/-- TIME_ALARM (R309, R341). -/
def execTimeAlarm (k : Fin 6) (h : AdsinHdr) (p : List Half) (s : State) : Out := .next (s.adsinReq k h 2 5 p (State.timeAlarm p))

end Sys2Proof.Machine
end

