-- ==== Sys2Proof/Machine/AdsinRadio.lean ====
section
/-! DEFINITION. Adsin classes RADIO, COURSE and ASHLAR (R341). -/
namespace Sys2Proof.Machine

/-- Whether a change sets an error bit; a bit that stood before stays. -/
def State.errs (s : State) (f : Fld) (act : State → State) : Bool × State :=
  let was := s.flag f
  let s := act (s.setFlag f false)
  (s.flag f, s.setFlag f (s.flag f || was))

/-- A request of some channel waits for a completion. -/
def State.awaited (s : State) (w : Await) : Bool :=
  allChans.any (fun k => s.adsin.chans[k].outstanding.any (fun r => r.wait == w && r.resp.isNone))

/-- The band of a request: 0 or 1. -/
def bandAt (p : List Half) : Option Band := match wordAt p 0 with | 0 => some .sub | 1 => some .ism | _ => none

/-! ## RADIO -/

/-- RADIO FE_CFG. -/
def State.radioFeCfg (p : List Half) (s : State) : Answer × State :=
  match bandAt p with
  | none => (.no stBadArg, s)
  | some b =>
    let ctrl := (F.RFE_CTRL_AGC_MODE b).put (s.reg (A.RFE_CTRL b)) (wordAt p 2)
    let l := [(A.RFE_SPAN b, p.getD 1 0), (A.RFE_GAIN b, p.getD 3 0), (A.RFE_AGC_TOP b, p.getD 4 0),
      (A.RFE_TX_TOTAL b, p.getD 5 0), (A.RFE_TX_NMAX b, p.getD 6 0)]
    if (F.RFE_CTRL_AGC_MODE b).of ctrl ≠ wordAt p 2 ∨ !allFit ((A.RFE_CTRL b, ctrl) :: l) then (.no stBadArg, s)
    else
      let s := s.fwWrite ((A.RFE_CTRL b, ctrl) :: l)
      (.ok [s.reg (A.RFE_TX_CARRIER b)], s)

/-- RADIO_FE_CFG (R341). -/
def execRadioFeCfg (k : Fin 6) (h : AdsinHdr) (p : List Half) (s : State) : Out := .next (s.adsinReq k h 3 1 p (State.radioFeCfg p))

/-- RADIO FE_EN. A disable is answered at once, and ends a request that waited for READY. -/
def State.radioFeEn (p : List Half) (s : State) : Answer × State :=
  match bandAt p, decide (wordAt p 1 < 4) with
  | some b, true =>
    let w := p.getD 1 0
    let ctrl := (F.RFE_CTRL_EN b).put ((F.RFE_CTRL_TX_EN b).put (s.reg (A.RFE_CTRL b)) (bit (w.getLsbD 1))) (bit (w.getLsbD 0))
    let s := s.fwWrite [(A.RFE_CTRL b, ctrl)]
    let st := s.reg (A.RFE_STATUS b)
    if !w.getLsbD 0 then (.ok [st], s.complete (.feEn b) stOk 0 [st])
    else if s.flag (F.RFE_STATUS_READY b) then (.ok [st], s)
    else (.until (.feEn b), s)
  | _, _ => (.no stBadArg, s)

/-- RADIO_FE_EN (R36, R38, R341). -/
def execRadioFeEn (k : Fin 6) (h : AdsinHdr) (p : List Half) (s : State) : Out := .next (s.adsinReq k h 3 2 p (State.radioFeEn p))

/-- RADIO CAL. -/
def State.radioCal (p : List Half) (s : State) : Answer × State :=
  match bandAt p with
  | some b =>
    if regFits (A.RFE_CAL_CMD b) (p.getD 1 0) then (.no stAccepted, s.fwWrite [(A.RFE_CAL_CMD b, p.getD 1 0)])
    else (.no stBadArg, s)
  | none => (.no stBadArg, s)

/-- RADIO_CAL (R45, R341). -/
def execRadioCal (k : Fin 6) (h : AdsinHdr) (p : List Half) (s : State) : Out := .next (s.adsinReq k h 3 3 p (State.radioCal p))

/-- RADIO ROUTE. -/
def State.radioRoute (p : List Half) (s : State) : Answer × State :=
  let t := wordAt p 0
  let d := wordAt p 1
  if (4095 < t ∧ t ≠ 0xFFFF) ∨ 7 < d ∨ 1 < wordAt p 2 then (.no stBadArg, s)
  else (.ok, s.modAdsin (fun a => { a with routes := sparseSet (fun _ => (0, false)) a.routes t (d, wordAt p 2 == 1) }))

/-- RADIO_ROUTE (R341). -/
def execRadioRoute (k : Fin 6) (h : AdsinHdr) (p : List Half) (s : State) : Out := .next (s.adsinReq k h 3 4 p (State.radioRoute p))

/-- An ASN lies before another. -/
def asnBehind (x a : Nat) : Bool := 2 ^ 39 ≤ (x + 2 ^ 40 - a) % 2 ^ 40

/-- The first transmit entry that is free for a course (R341): no SEND holds it in that course, and in the plan made next
nothing else is VALID in it. -/
def State.sendFree (s : State) (a : Nat) : Option Nat :=
  (List.range 8).find? (fun e => !s.adsin.later.any (fun l => l.1 == a && l.2.1 == e) && !s.adsin.placed.contains (a, e) &&
    !(a == s.nextPlanAsn && (s.planWord true (0x90 + 4 * e)).getLsbD 15 && !s.adsin.placed.any (fun q => q.2 == e)))

/-- The course and entry of a SEND: those asked for, or the first with room. -/
def State.sendPlace (s : State) (asn : Nat) : Option (Nat × Nat) :=
  let a := s.nextPlanAsn
  if asn = 0 then
    (List.range (s.adsin.later.length + 2)).findSome? (fun i =>
      let x := (a + i) % 2 ^ 40
      (s.sendFree x).map (fun e => (x, e)))
  else if asnBehind asn a then none else (s.sendFree asn).map (fun e => (asn, e))

/-- A transmit entry's words that the plan check would refuse (R101), its buffer apart. -/
def State.sendBad (s : State) (e : Nat) (w : List Half) : Bool :=
  let i := 0x90 + 4 * e
  let t := (((s.shadowPut i (w.getD 0 0 ||| 0x8000)).shadowPut (i + 1) (w.getD 1 0)).shadowPut (i + 2) (w.getD 2 0)).shadowPut (i + 3) 0x1000
  (t.txFault e).isSome

/-- RADIO SEND. The frame waits until firmware makes the plan of its course (DESIGN CHOICE, log entry 63). -/
def State.radioSend (k : Fin 6) (p : List Half) (s : State) : Answer × State :=
  let w := p.take 3
  let asn := wordAt p 3 + 65536 * wordAt p 4 + 2 ^ 32 * wordAt p 5
  let len := wordAt p 6
  let w0 := p.getD 0 0
  if len = 0 ∨ maxPsdu (bits w0.toNat 12 8) < len + fcsLen (txFcs32 w0) ∨ 2 ^ 40 ≤ asn ∨ s.sendBad 0 w then (.no stBadArg, s)
  else match s.sendPlace asn with
    | none => (.no stFull, s)
    | some (a, e) =>
      (.done stAccepted 0 (asnWords a ++ [half e]), s.modAdsin (fun q => { q with
        later := q.later ++ [(a, e, w, (wordOctets (p.drop 7)).take len)], sent := q.sent ++ [⟨a, e, k.val⟩] }))

/-- RADIO_SEND (R104, R341). -/
def execRadioSend (k : Fin 6) (h : AdsinHdr) (p : List Half) (s : State) : Out := .next (s.adsinReq k h 3 5 p (State.radioSend k p))

/-- Firmware writes a frame's buffer, 256-octet aligned, and its transmit entry. -/
def State.placeOne (s : State) (x : Nat × Nat × List Half × List Byte) : State :=
  let (a, e, w, psdu) := x
  let (n, s) := s.draw ((0x200000 - 2304) / 256)
  let s := s.sramPut (0x100000 + 256 * n) (leOctets 2 psdu.length ++ psdu)
  let i := 0x90 + 4 * e
  let s := ((s.shadowWrite i (w.getD 0 0 ||| 0x8000)).shadowWrite (i + 1) (w.getD 1 0)).shadowWrite (i + 2) (w.getD 2 0)
  (s.shadowWrite (i + 3) (half (0x1000 + n))).modAdsin (fun q => { q with placed := q.placed ++ [(a, e)] })

/-- RADIO LANE_STATS. -/
def State.radioLaneStats (p : List Half) (s : State) : Answer × State :=
  let n := wordAt p 0
  if 63 < n then (.no stBadArg, s)
  else
    let (v, s) := s.fwRead [A.LANE_PHYS n, A.LANE_ST0 n, A.LANE_CNT_OK n, A.LANE_CNT_FCS n, A.LANE_CNT_HDR n, A.LANE_CNT_SYNC n,
      A.LANE_CNT_DEFER n]
    (.ok v, s)

/-- RADIO_LANE_STATS (R341). -/
def execRadioLaneStats (k : Fin 6) (h : AdsinHdr) (p : List Half) (s : State) : Out :=
  .next (s.adsinReq k h 3 6 p (State.radioLaneStats p))

/-- RADIO RECORD. With EXT = 1 the recorder is one of the guaranteed requesters (R260). -/
def State.radioRecord (p : List Half) (s : State) : Answer × State :=
  let l := given p 0 [A.REC_SRC, A.REC_TRIG, A.REC_PRE, A.REC_POST]
  if !allFit l then (.no stBadArg, s)
  else s.admission (fun s =>
    let (bad, s) := s.errs F.REC_STATUS_CFG_ERR (fun s => s.fwWrite (l ++ [(A.REC_CMD, 1)]))
    (if bad then .no stFail 1 else .no stAccepted, s))

/-- RADIO_RECORD (R86, R87, R341). -/
def execRadioRecord (k : Fin 6) (h : AdsinHdr) (p : List Half) (s : State) : Out := .next (s.adsinReq k h 3 7 p (State.radioRecord p))

/-- A group of the recording, where the recorder has written it (R87, R88): the recorder SRAM, or the extension window. -/
def State.recHeld (s : State) (i : Nat) : List Half :=
  if i < 32768 then (List.range 8).map (fun j => half (leNat (memTake 0 s.recRam (0x600000 + 16 * i + 2 * j) 2)))
  else s.sramWords (s.latAddr A.REC_EXT_BASE_LO + 16 * (i - 32768)) 8

/-- RADIO REC_READ. A group holds eight words, and the response four for each: which four, in which order, the spec does not say
(DESIGN CHOICE, log entry 64). -/
def State.radioRecRead (p : List Half) (s : State) : Answer × State :=
  let first := wordAt p 0 + 65536 * wordAt p 1
  let n := wordAt p 2
  let cap := 32768 + (if s.effFld F.REC_SRC_EXT = 1 then (s.eff A.REC_EXT_LEN).toNat else 0)
  if n = 0 ∨ 256 < n ∨ cap < first + n then (.no stBadArg, s)
  else
    (.ok ([s.reg A.REC_STATUS, s.reg A.REC_PRE_COUNT, s.reg A.REC_FIRST] ++ (List.range n).flatMap (fun i =>
      (List.range 4).map (fun j => (s.recHeld (first + i)).getD (Config.recWord j % 8) 0))), s)

/-- RADIO_REC_READ (R341). -/
def execRadioRecRead (k : Fin 6) (h : AdsinHdr) (p : List Half) (s : State) : Out :=
  .next (s.adsinReq k h 3 8 p (State.radioRecRead p))

/-! ## COURSE -/

/-- COURSE CFG. -/
def State.courseCfgReq (p : List Half) (s : State) : Answer × State :=
  let l := given p 0 [A.COURSE_CFG, A.COURSE_WALL, A.COURSE_T_CCAOFS, A.COURSE_T_CCA, A.COURSE_T_TXOFS, A.COURSE_T_IDLE,
    A.COURSE_T_GUARD, A.COURSE_CCA_THR]
  if allFit l then (.ok, s.fwWrite l) else (.no stBadArg, s)

/-- COURSE_CFG (R95, R341). -/
def execCourseCfg (k : Fin 6) (h : AdsinHdr) (p : List Half) (s : State) : Out := .next (s.adsinReq k h 4 1 p (State.courseCfgReq p))

/-- COURSE START. -/
def State.courseStartReq (p : List Half) (s : State) : Answer × State :=
  let l := given p 1 [A.COURSE_START_LO, A.COURSE_START_HI, A.COURSE_ASN_0, A.COURSE_ASN_1, A.COURSE_ASN_2]
  if 1 < wordAt p 0 ∨ !allFit l then (.no stBadArg, s)
  else
    let (bad, s) := s.errs F.COURSE_STATUS_CFG_REFUSED (fun s => s.fwWrite (l ++ [(A.COURSE_CTRL, half (2 * wordAt p 0 + 1))]))
    (if bad then .no stFail else .ok, s)

/-- COURSE_START (R92, R341). -/
def execCourseStart (k : Fin 6) (h : AdsinHdr) (p : List Half) (s : State) : Out := .next (s.adsinReq k h 4 2 p (State.courseStartReq p))

/-- COURSE STOP. -/
def State.courseStopReq (s : State) : Answer × State :=
  let s := s.fwWrite [(A.COURSE_CTRL, s.reg A.COURSE_CTRL &&& 0xFFFE)]
  (if s.running then .until .courseStop else .ok, s)

/-- COURSE_STOP (R93, R341). -/
def execCourseStop (k : Fin 6) (h : AdsinHdr) (p : List Half) (s : State) : Out := .next (s.adsinReq k h 4 3 p State.courseStopReq)

/-- The `i`-th lane entry of COURSE LANES: lane, word 0, word 1. -/
def laneAt (p : List Half) (i : Nat) : Nat × Half × Half := (wordAt p (1 + 3 * i), p.getD (2 + 3 * i) 0, p.getD (3 + 3 * i) 0)

/-- COURSE LANES: the receive lanes of the plan it makes must be admitted (R260). -/
def State.courseLanes (p : List Half) (s : State) : Answer × State :=
  let n := wordAt p 0
  let l := (List.range n).map (laneAt p)
  if n = 0 ∨ 64 < n ∨ l.any (fun x => decide (63 < x.1)) then (.no stBadArg, s)
  else if s.awaited .planCheck then (.held, s)
  else s.admission (fun s =>
    (.until .planCheck, (forEach l s (fun s x => (s.shadowWrite (2 * x.1) x.2.1).shadowWrite (2 * x.1 + 1) x.2.2)).planCommit))

/-- COURSE_LANES (R101, R102, R341). -/
def execCourseLanes (k : Fin 6) (h : AdsinHdr) (p : List Half) (s : State) : Out := .next (s.adsinReq k h 4 4 p (State.courseLanes p))

/-- COURSE HOPLIST. -/
def State.courseHoplist (p : List Half) (s : State) : Answer × State :=
  let l := wordAt p 0
  let len := wordAt p 1 % 256
  if 3 < l ∨ len = 0 ∨ 128 < len ∨ bits (wordAt p 1) 14 8 ≠ 0 ∨ bits (wordAt p 3) 15 2 ≠ 0 then (.no stBadArg, s)
  else
    let s := forEach (List.range 4) s (fun s j => s.shadowWrite (0x80 + 4 * l + j) (p.getD (1 + j) 0))
    (.ok, forEach (List.range ((len + 1) / 2)) s (fun s j => s.shadowWrite (0x100 + 0x40 * l + j) (p.getD (5 + j) 0)))

/-- COURSE_HOPLIST (R100, R341). -/
def execCourseHoplist (k : Fin 6) (h : AdsinHdr) (p : List Half) (s : State) : Out :=
  .next (s.adsinReq k h 4 5 p (State.courseHoplist p))

/-- COURSE DUTY: the limits go before the control word, whose EN applies them. -/
def State.courseDuty (p : List Half) (s : State) : Answer × State :=
  let a := wordAt p 0
  let l := [(A.COURSE_DC_LO a, p.getD 2 0), (A.COURSE_DC_HI a, p.getD 3 0), (A.COURSE_DC_LIM a, p.getD 4 0),
    (A.COURSE_DC_CTRL a, p.getD 1 0)]
  if 7 < a ∨ !allFit l then (.no stBadArg, s)
  else
    let (v, s) := (s.fwWrite l).fwRead [A.COURSE_DC_USED a]
    (.ok v, s)

/-- COURSE_DUTY (R108, R341). -/
def execCourseDuty (k : Fin 6) (h : AdsinHdr) (p : List Half) (s : State) : Out := .next (s.adsinReq k h 4 6 p (State.courseDuty p))

/-! ## ASHLAR -/

/-- ASHLAR TENANT. -/
def State.ashlarTenant (p : List Half) (s : State) : Answer × State :=
  let l := given p 0 [A.ASHLAR_TSEL, A.ASHLAR_TCFG, A.ASHLAR_TQUOTA, A.ASHLAR_TRATE]
  if allFit l then (.ok, s.fwWrite l) else (.no stBadArg, s)

/-- ASHLAR_TENANT (R130, R341). -/
def execAshlarTenant (k : Fin 6) (h : AdsinHdr) (p : List Half) (s : State) : Out :=
  .next (s.adsinReq k h 5 1 p (State.ashlarTenant p))

/-- ASHLAR EPOCH. -/
def State.ashlarEpoch (p : List Half) (s : State) : Answer × State :=
  let l := given p 0 [A.ASHLAR_TSEL, A.ASHLAR_TEPOCH]
  if !allFit l then (.no stBadArg, s)
  else
    let (bad, s) := s.errs F.ASHLAR_EVT_TEPOCH_ERR (fun s => s.fwWrite l)
    (if bad then .no stFail 1 else .ok, s)

/-- ASHLAR_EPOCH (R131, R341). -/
def execAshlarEpoch (k : Fin 6) (h : AdsinHdr) (p : List Half) (s : State) : Out := .next (s.adsinReq k h 5 2 p (State.ashlarEpoch p))

/-- ASHLAR ENTRY. -/
def State.ashlarEntryReq (p : List Half) (s : State) : Answer × State :=
  let l := given p 1 ((List.range 4).map (fun i => A.ASHLAR_E_EUI i) ++ (List.range 4).map (fun i => A.ASHLAR_E_W i))
  if 15 < wordAt p 0 then (.no stBadArg, s)
  else if s.flag F.ASHLAR_STATUS_CMD_BUSY then (.held, s)
  else (.until .entryOp, s.fwWrite (l ++ [(A.ASHLAR_E_CMD, p.getD 0 0)]))

/-- ASHLAR_ENTRY (R152, R341). -/
def execAshlarEntry (k : Fin 6) (h : AdsinHdr) (p : List Half) (s : State) : Out :=
  .next (s.adsinReq k h 5 3 p (State.ashlarEntryReq p))

/-- ASHLAR_REBUILD (R150, R341). -/
def execAshlarRebuild (k : Fin 6) (h : AdsinHdr) (p : List Half) (s : State) : Out :=
  .next (s.adsinReq k h 5 4 p (fun s => (.no stAccepted, s.fwWrite [(A.ASHLAR_CMD, 1)])))

/-- ASHLAR COUNTERS. -/
def State.ashlarCounters (p : List Half) (s : State) : Answer × State :=
  let t := wordAt p 0
  if t = 0xFFFF then
    let (v, s) := s.fwRead (regRange (A.ASHLAR_CNT 0) 12)
    (.ok v, s)
  else if 4095 < t then (.no stBadArg, s)
  else
    let (v, s) := (s.fwWrite [(A.ASHLAR_TSEL, half t)]).fwRead (regRange A.ASHLAR_TCNT_ENTRIES 5)
    (.ok v, s)

/-- ASHLAR_COUNTERS (R23, R341). -/
def execAshlarCounters (k : Fin 6) (h : AdsinHdr) (p : List Half) (s : State) : Out :=
  .next (s.adsinReq k h 5 5 p (State.ashlarCounters p))

end Sys2Proof.Machine
end

