-- ==== Sys2Proof/Machine/FabricSend.lean ====
section
/-! DEFINITION. Fabric frames on their way out (R344, R345, R347, R348), and the plan that Lintel firmware makes for the next
course. -/
namespace Sys2Proof.Machine

/-! ## Securing (R344, R345) -/

/-- The slot has the attributes that R345 asks for: AES128, COUNT, NCTR, CIPHER and MAC, LINTEL0 and LINTEL1 in MASTERS. -/
def State.fabKey (s : State) : Bool :=
  let k := s.slot s.fabric.slot
  k.kind == 1 && k.counted && k.nctr && k.attr0.getLsbD 8 && k.attr0.getLsbD 9 && k.attr1.getLsbD 0 && k.attr1.getLsbD 1

/-- The MHR of a fabric frame (R344) in the form of IEEE 802.15.4-2020 (PRESUMED, log entry 24): a HELLO to the short address
0xFFFF without AR, any other frame to the next hop's EUI-64 with AR; the destination PAN ID alone. `q` is the sequence number. -/
def State.fabMhr (s : State) (hop : Option (BitVec 64)) (q : Byte) : List Byte :=
  let fc := 0x0009 + 2 * 4096 + 3 * 16384 + (match hop with | some _ => 0x20 + 3 * 1024 | none => 0x40 + 2 * 1024)
  let dst := match hop with | some e => leOctets 8 e.toNat | none => leOctets 2 0xFFFF
  leOctets 2 fc ++ [q] ++ leOctets 2 (s.fabric.c 3) ++ dst ++ leOctets 8 s.deviceEui

/-- The auxiliary security header (R344): level 6, Key Identifier Mode 0x02, the counter's place, the fabric tenant as Key Source and its
epoch as Key Index. -/
def State.fabAux (s : State) : List Byte :=
  [0x16] ++ leOctets 4 0 ++ leOctets 4 s.fabric.tenant ++ [byte (s.tenant s.fabric.tenant).epoch]

/-- Firmware starts the CCM_ENC job of a frame (R345): NCTR = 1, CTROFS at the frame counter, a MIC of 8 octets. It waits for room on the
ring; without the key that R345 asks for the frame fails. The sequence number of the MHR is a free value (log entry 2). -/
def State.fabSecure (s : State) (hop : Option (BitVec 64)) (payload : List Byte) : Fstage × State :=
  if !s.fabKey then (.failed, s)
  else if !s.ringRoom then (.waiting, s)
  else
    let (q, s) := s.draw 256
    let mhr := s.fabMhr hop (byte q)
    let a := mhr ++ s.fabAux
    let nonce := beOctets 8 s.deviceEui ++ leOctets 4 0 ++ [6, 0, 0, 0]
    let w0 := half (0x7800 + 128 * s.oldCore.val + s.fabric.slot)
    let (idx, dst, s) := s.jobAsk w0 ([half payload.length, half a.length, half ((mhr.length + 1) * 256 + 8)] ++ packWords nonce)
      (a ++ payload)
    (.job idx dst (a.length + payload.length + 8), s)

/-! ## The work between commands -/

/-- A descriptor stands on the ring. -/
def State.ringHolds (s : State) (idx : Nat) : Bool :=
  decide ((idx + 32 - s.regN A.CRYPTO_Q_RD) % 32 < (s.regN A.CRYPTO_Q_WR + 32 - s.regN A.CRYPTO_Q_RD) % 32)

/-- A carrier of a transmit entry of a course is still to end. -/
def State.entryOnAir (s : State) (asn e : Nat) : Bool :=
  [Band.sub, Band.ism].any (fun b => (s.rfe b).carriers.any (fun c => c.entry == some e && c.asn == asn % 65536))

/-- A stage that led to nothing is taken again: the job's ring was stopped, or the course of the entry went by unused. -/
def State.restage (s : State) : Fstage → Fstage
  | .job i a n => if s.ringHolds i then .job i a n else .waiting
  | .placed p a e => if asnBehind a s.asn && !s.entryOnAir a e then .ready p else .placed p a e
  | x => x

/-- The queue's first frame is secured, one frame at a time, so that frame counters rise in the order of sending (DESIGN CHOICE, log
entry 104): a frame that was secured before another came ahead of it is secured anew. -/
def State.fabNextJob (s : State) : State :=
  match s.fabric.queue with
  | [] => s
  | m :: l =>
    if m.stage ≠ .waiting ∨ l.any (fun x => match x.stage with | .job _ _ _ | .placed _ _ _ => true | _ => false) then s
    else
      let (st, s) := s.fabSecure (some m.hop) m.payload
      let rest := l.map (fun x => { x with stage := match x.stage with | .ready _ => .waiting | y => y })
      s.modFabric (fun f => { f with queue := { m with stage := st } :: rest })

/-- What the latest HELLO of its next hop makes of a queued frame that is in no transmit entry (R351): it goes as it stands, or with the
link's new version, or not at all. -/
def State.fabFits (s : State) (m : Fmsg) : Option Fmsg :=
  match m.stage, s.fabric.nbr m.hop with
  | .placed _ _ _, _ | _, none => some m
  | _, some n =>
    let v := n.version.getD 0
    if !n.usable || (v == 1 && (m.typ == 5 || m.typ == 6)) then none
    else if (octAt m.payload 1).toNat = v then some m else some (m.turn m.hop v)

/-- Queued frames are held to the links they are to cross (R351); those that may not cross are dropped and counted. -/
def State.fabRecheck (s : State) : State :=
  let out := s.fabric.queue.filter (fun m => (s.fabFits m).isNone)
  forEach out (s.modFabric (fun f => { f with queue := f.queue.filterMap s.fabFits })) (fun s m => s.fabDrop.fabSent m.host 2)

/-- Frames on their way out go on (R345, R348): HELLOs of courses gone by, and frames without a key, go; the others are secured. A frame
without a key ends with SENT result 3 (DESIGN CHOICE, log entry 104). -/
def State.fabPump (s : State) : State :=
  if !s.fabric.on then s
  else
    let a := s.nextPlanAsn
    let s := (s.modFabric (fun f => f.mapStage s.restage)).fabRecheck
    let s := s.modFabric (fun f => { f with hellos := f.hellos.filter (fun h => !asnBehind h.asn a && h.stage != .failed) })
    let failed := s.fabric.queue.filter (·.stage == .failed)
    let s := s.modFabric (fun f => { f with queue := f.queue.filter (·.stage != .failed) })
    let s := forEach failed s (fun s m => s.fabSent m.host 3)
    let s := forEach (s.fabric.hellos.filter (·.stage == .waiting)) s (fun s h =>
      let (st, s) := s.fabSecure none h.payload
      s.modFabric (fun f => { f with hellos := f.hellos.map (fun x => if x = h then { h with stage := st } else x) }))
    s.fabNextJob

/-! ## Lanes and transmit entries (R347, R348) -/

/-- Words 0 and 1 of an entry on a fixed channel (R100): everything of word 0 but OFS bits 17 and 16, and OFS as two words of CFG. -/
def Fabric.fixed (f : Fabric) (w0 i : Nat) : List Half := [half (w0 + f.c (i + 1) % 4), half (f.c i)]

/-- Words 0 and 1 of an entry on a hop list at the CHOFS of an address (R100, R347). -/
def State.onList (s : State) (w0 list addr : Nat) : List Half :=
  [half (w0 + 128), half (list * 16384 + addr % max 1 (s.hopList true list).len)]

/-- BAND and MODE in word 0: the backbone is CZ-HR on RFE_ISM, the fallback band the MODE of CFG on RFE_SUB (R347), without coding,
whitening or a 32-bit FCS (DESIGN CHOICE, log entry 104). -/
def Fabric.bandMode (f : Fabric) (bb : Bool) : Nat := if bb then 0x2000 + 0x18 * 256 else f.c 12 * 256

/-- The words of the four reserved lanes (R347); an anchor not yet joined has the two hello lanes only. -/
def State.fabLanes (s : State) : List Half :=
  let f := s.fabric
  let rx (bb : Bool) : Nat := 0x4000 + f.bandMode bb
  f.fixed (rx true) 6 ++ f.fixed (rx false) 8 ++
    (if f.st = 3 then s.onList (rx true) (f.c 10) f.addr ++ s.onList (rx false) (f.c 11) f.addr else [0, 0, 0, 0])

/-- The plan words of the reserved lanes that are not yet as they should be: index and word. -/
def State.lanesDue (s : State) : List (Nat × Half) :=
  if s.fabric.on then
    (s.fabLanes.zipIdx.map (fun p => (2 * s.fabric.firstLane + p.2, p.1))).filter (fun p => s.planWord true p.1 != p.2)
  else []

/-- The link's band for a queued frame: the one of its first transmit entry, else the present choice (R350). -/
def State.fabBand (s : State) (m : Fmsg) : Bool := m.onBb.getD (match s.fabric.nbr m.hop with | some n => n.backbone | none => false)

/-- Words 0 to 2 of a unicast frame's transmit entry (R347): LBT, S = 0, the receiver's hop list at its CHOFS. A receiver that has not
joined plans its hello lanes only, and is sent to there (DEDUCED, log entry 104). -/
def State.fabEntry (s : State) (m : Fmsg) : List Half :=
  let f := s.fabric
  let bb := s.fabBand m
  let w0 := 0xC000 + f.bandMode bb
  (match f.nbr m.hop with
    | some n => if n.joined then s.onList w0 (f.c (if bb then 10 else 11)) n.addr else f.fixed w0 (if bb then 6 else 8)
    | none => f.fixed w0 (if bb then 6 else 8)) ++ [0]

/-- Words 0 to 2 of a HELLO's transmit entry (R348): LBT, S = 0, the fixed hello channel. -/
def Fabric.helloEntry (f : Fabric) (bb : Bool) : List Half := f.fixed (0xC000 + f.bandMode bb) (if bb then 6 else 8) ++ [0]

/-- A secured HELLO goes into the plan, where an entry is free. -/
def State.placeHello (s : State) (a : Nat) (h : Fhello) : State :=
  let s := s.modFabric (fun f => { f with hellos := f.hellos.filter (· != h) })
  match h.stage, s.sendFree a with
  | .ready p, some e => s.placeOne (a, e, s.fabric.helloEntry h.bb, p)
  | _, _ => s

/-- The queue's first frame, secured, with a transmit entry that is free in a course; no frame behind it stands in an entry. -/
def State.fabDue (s : State) (a : Nat) : Option (Fmsg × List Byte × Nat) :=
  match s.fabric.queue with
  | [] => none
  | m :: l => match m.stage, s.sendFree a with
    | .ready p, some e =>
      if l.any (fun x => match x.stage with | .placed _ _ _ => true | _ => false) then none else some (m, p, e)
    | _, _ => none

/-- A queued frame goes into the plan. -/
def State.placeUnicast (s : State) (a : Nat) (m : Fmsg) (p : List Byte) : State :=
  match s.sendFree a with
  | some e =>
    let bb := s.fabBand m
    let put (x : Fmsg) : Fmsg := if x = m then { m with stage := .placed p a e, onBb := some bb } else x
    (s.placeOne (a, e, s.fabEntry m, p)).modFabric (fun f => { f with queue := f.queue.map put })
  | none => s

/-- Firmware makes the plan of the next course: entries of courses gone by are cleared, the frames accepted for it, the HELLOs and the
queue's first frame are placed, the reserved lanes planned, and the plan is committed. Frames whose course has passed report REPEAT
(DESIGN CHOICE, log entry 63). -/
def State.placeSends (s : State) : State :=
  let a := s.nextPlanAsn
  let now := s.adsin.later.filter (fun x => x.1 == a)
  let gone := s.adsin.later.filter (fun x => asnBehind x.1 a)
  let hellos := s.fabric.hellos.filter (fun h => h.asn == a && (match h.stage with | .ready _ => true | _ => false))
  let due := s.fabDue a
  let lanes := s.lanesDue
  let idle := now.isEmpty && hellos.isEmpty && due.isNone && lanes.isEmpty
  if s.flag F.COURSE_STATUS_COPY || (idle && gone.isEmpty) then s
  else
    let s := s.modAdsin (fun q => { q with later := q.later.filter (fun x => x.1 != a && !asnBehind x.1 a) })
    let s := forEach gone s (fun s x => s.txDone (x.1 % 65536) x.2.1 6)
    if idle then s
    else
      let s := forEach (s.adsin.placed.filter (fun q => q.1 != a)) s (fun s q =>
        s.shadowWrite (0x90 + 4 * q.2) (s.planWord true (0x90 + 4 * q.2) &&& 0x7FFF))
      let s := s.modAdsin (fun q => { q with placed := q.placed.filter (fun q => q.1 == a) })
      let s := forEach now s State.placeOne
      let s := forEach hellos s (fun s h => s.placeHello a h)
      let s := match due with | some (m, p, _) => s.placeUnicast a m p | none => s
      (forEach lanes s (fun s p => s.shadowWrite p.1 p.2)).planCommit

/-- The reserved lanes as FABRIC START would plan them count in the admitted sum (R260). -/
def State.fabAdmits (s : State) : Bool :=
  let t := (s.modFabric (fun f => { f with st := 3 }))
  let t := forEach t.lanesDue t (fun s p => s.shadowPut p.1 p.2)
  decide (t.guaranteed true ≤ s.fld F.SYSCTL_ADMIT_CAP_BYTES)

end Sys2Proof.Machine
end

