-- ==== Sys2Proof/Machine/AdsinKey.lean ====
section
/-! DEFINITION. Adsin classes KEY, ACCESS, FABRIC and ASSAY (R341, R360, R374). -/
namespace Sys2Proof.Machine

/-! ## KEY -/

/-- A KEYS command for a request (R173): its octets go to general SRAM, its arguments to KEYS_ARG0 to 3. -/
def State.keysAsk (op arg0 arg3 : Nat) (octets : List Byte) (s : State) : Answer × State :=
  if s.flag F.KEYS_STATUS_BUSY then (.held, s)
  else
    let (a, s) := s.scratch 256
    let s := s.sramPut a octets
    let s := s.fwWrite [(A.KEYS_ARG 0, half arg0), (A.KEYS_ARG 1, half a), (A.KEYS_ARG 2, half (a / 65536)), (A.KEYS_ARG 3, half arg3),
      (A.KEYS_CMD, half op)]
    if s.keys.lcPhase = .none then (.until .keys, s) else (.ok, s)

/-- KEY_IMPORT (R173, R341). -/
def execKeyImport (k : Fin 6) (h : AdsinHdr) (p : List Half) (s : State) : Out :=
  .next (s.adsinReq k h 6 1 p (State.keysAsk 1 0 0 (wordOctets p)))

/-- KEY DERIVE. -/
def State.keyDerive (p : List Half) (s : State) : Answer × State :=
  if p.getD 0 0 &&& 0xC0C0 != 0 then (.no stBadArg, s) else s.keysAsk 2 (wordAt p 0) 0 (wordOctets (p.drop 1))

/-- KEY_DERIVE (R173, R341). -/
def execKeyDerive (k : Fin 6) (h : AdsinHdr) (p : List Half) (s : State) : Out := .next (s.adsinReq k h 6 2 p (State.keyDerive p))

/-- KEY GENERATE. -/
def State.keyGenerate (p : List Half) (s : State) : Answer × State :=
  if 63 < wordAt p 0 then (.no stBadArg, s) else s.keysAsk 3 (wordAt p 0 * 256) 0 (wordOctets (p.drop 1))

/-- KEY_GENERATE (R173, R341). -/
def execKeyGenerate (k : Fin 6) (h : AdsinHdr) (p : List Half) (s : State) : Out := .next (s.adsinReq k h 6 3 p (State.keyGenerate p))

/-- KEY DESTROY. -/
def State.keyDestroy (p : List Half) (s : State) : Answer × State :=
  if 63 < wordAt p 0 then (.no stBadArg, s) else s.keysAsk 4 (wordAt p 0) 0 []

/-- KEY_DESTROY (R173, R341). -/
def execKeyDestroy (k : Fin 6) (h : AdsinHdr) (p : List Half) (s : State) : Out := .next (s.adsinReq k h 6 4 p (State.keyDestroy p))

/-- KEY TRANSFER. -/
def State.keyTransfer (p : List Half) (s : State) : Answer × State :=
  if 63 < wordAt p 0 ∨ 4095 < wordAt p 1 then (.no stBadArg, s) else s.keysAsk 5 (wordAt p 0) (wordAt p 1) []

/-- KEY_TRANSFER (R173, R341). -/
def execKeyTransfer (k : Fin 6) (h : AdsinHdr) (p : List Half) (s : State) : Out := .next (s.adsinReq k h 6 5 p (State.keyTransfer p))

/-- KEY DROP. -/
def State.keyDrop (p : List Half) (s : State) : Answer × State :=
  if 4095 < wordAt p 0 then (.no stBadArg, s) else s.keysAsk 6 0 (wordAt p 0) []

/-- KEY_DROP (R173, R341). -/
def execKeyDrop (k : Fin 6) (h : AdsinHdr) (p : List Half) (s : State) : Out := .next (s.adsinReq k h 6 6 p (State.keyDrop p))

/-- KEY ATTR. -/
def State.keyAttr (p : List Half) (s : State) : Answer × State :=
  if 63 < wordAt p 0 then (.no stBadArg, s)
  else
    let (v, s) := (s.fwWrite [(A.KEYS_SEL, p.getD 0 0)]).fwRead (regRange A.KEYS_ATTR0 6)
    (.ok v, s)

/-- KEY_ATTR (R171, R341). -/
def execKeyAttr (k : Fin 6) (h : AdsinHdr) (p : List Half) (s : State) : Out := .next (s.adsinReq k h 6 7 p (State.keyAttr p))

/-- KEY IDPUB. -/
def State.keyIdpub (s : State) : Answer × State :=
  let (v, s) := s.fwRead (regRange (A.KEYS_IDPUB 0) 32 ++ regRange (A.KEYS_LCCERT 0) 32)
  (.ok v, s)

/-- KEY_IDPUB (R341). -/
def execKeyIdpub (k : Fin 6) (h : AdsinHdr) (p : List Half) (s : State) : Out := .next (s.adsinReq k h 6 8 p State.keyIdpub)

/-- KEY_LC_NONCE (R173, R341). -/
def execKeyLcNonce (k : Fin 6) (h : AdsinHdr) (p : List Half) (s : State) : Out := .next (s.adsinReq k h 6 9 p (State.keysAsk 7 0 0 []))

/-- KEY LC_CHANGE: OK once the transition begins; the device resets when KEYS has made it (R180). -/
def State.keyLcChange (p : List Half) (s : State) : Answer × State :=
  if 7 < wordAt p 0 then (.no stBadArg, s) else s.keysAsk 8 (wordAt p 0) 0 (wordOctets (p.drop 1))

/-- KEY_LC_CHANGE (R178, R180, R341). -/
def execKeyLcChange (k : Fin 6) (h : AdsinHdr) (p : List Half) (s : State) : Out := .next (s.adsinReq k h 6 10 p (State.keyLcChange p))

/-- REQ of a requester's master: HOST, or APP0 to APP3. -/
def masterOf (k : Fin 6) : Nat := if isHost k then 6 else k.val

/-- KEY CIPHER: the descriptor names the requester's master. A job that CRYPTO ends at once is answered at once. -/
def State.keyCipher (k : Fin 6) (p : List Half) (s : State) : Answer × State :=
  let d := cipherDesc p
  let (ns, nd) := d.sizes
  if d.req ≠ 0 ∨ 2048 < d.len + d.alen + 16 then (.no stBadArg, s)
  else if !s.ringRoom then (.held, s)
  else
    let (idx, dst, s) := s.jobAsk (half (d.w 0 + 128 * masterOf k)) ((p.drop 1).take 11) (slice (wordOctets (p.drop 12)) 0 ns)
    let r := s.sramHalf (s.descAddr idx + 36)
    if r.getLsbD 15 then (.no stFail (r.toNat % 16), s) else (.until (.crypto idx dst nd), s)

/-- KEY_CIPHER (R157 to R160, R341). -/
def execKeyCipher (k : Fin 6) (h : AdsinHdr) (p : List Half) (s : State) : Out := .next (s.adsinReq k h 6 11 p (State.keyCipher k p))

/-! ## ACCESS -/

/-- ACCESS CFG: ACCESS_CTRL, which can enable ACCESS, goes last. -/
def State.accessCfg (p : List Half) (s : State) : Answer × State :=
  let l := given p 1 ([A.ACCESS_REL, A.ACCESS_LO_CFG, A.ACCESS_PCH] ++ (List.range 4).map (fun i => A.ACCESS_ZONE i) ++ [A.LF_CTRL] ++
    (List.range 4).map (fun i => A.LF_ISET i) ++ [A.PLUMB_LIMIT]) ++ [(A.ACCESS_CTRL, p.getD 0 0)]
  if allFit l then (.ok, s.fwWrite l) else (.no stBadArg, s)

/-- ACCESS_CFG (R341). -/
def execAccessCfg (k : Fin 6) (h : AdsinHdr) (p : List Half) (s : State) : Out := .next (s.adsinReq k h 7 1 p (State.accessCfg p))

/-- Address of a token table of firmware. -/
def tableAddr (t : Nat) : Nat := 0x100000 + 2 * (Config.fwTable t % 0xFE000)

/-- ACCESS TABLE_PUT: entries of six words, or of four. -/
def State.accessTablePut (p : List Half) (s : State) : Answer × State :=
  let t := wordAt p 0
  let size := if t = 0 then 6 else 4
  if 1 < t ∨ (if t = 0 then 256 else 1024) < wordAt p 1 + wordAt p 2 then (.no stBadArg, s)
  else (.ok, s.setSramWords (tableAddr t + 2 * size * wordAt p 1) (p.drop 3))

/-- ACCESS_TABLE_PUT (R200, R341). -/
def execAccessTablePut (k : Fin 6) (h : AdsinHdr) (p : List Half) (s : State) : Out :=
  .next (s.adsinReq k h 7 2 p (State.accessTablePut p))

/-- ACCESS TABLE_LOAD. -/
def State.accessTableLoad (p : List Half) (s : State) : Answer × State :=
  let l := [(A.ACCESS_TOK_N, p.getD 0 0), (A.ACCESS_REV_N, p.getD 1 0)]
  if !allFit l then (.no stBadArg, s)
  else if s.flag F.ACCESS_STATUS_TBL_BUSY then (.held, s)
  else
    let a := tableAddr 0
    let b := tableAddr 1
    (.until .tblLoad, s.fwWrite (l ++ [(A.ACCESS_TOK_BASE_LO, half a), (A.ACCESS_TOK_BASE_HI, half (a / 65536)),
      (A.ACCESS_REV_BASE_LO, half b), (A.ACCESS_REV_BASE_HI, half (b / 65536)), (A.ACCESS_TBL_CMD, 1)]))

/-- ACCESS_TABLE_LOAD (R200, R341). -/
def execAccessTableLoad (k : Fin 6) (h : AdsinHdr) (p : List Half) (s : State) : Out :=
  .next (s.adsinReq k h 7 3 p (State.accessTableLoad p))

/-- ACCESS STATUS. -/
def State.accessStatusReq (s : State) : Answer × State :=
  let (v, s) := s.fwRead (A.ACCESS_STATUS :: (regRange A.PLINTH_LO_STATE 7 ++ regRange A.ACCESS_LAST_VERDICT 7))
  (.ok v, s)

/-- ACCESS_STATUS (R341). -/
def execAccessStatus (k : Fin 6) (h : AdsinHdr) (p : List Half) (s : State) : Out := .next (s.adsinReq k h 7 4 p State.accessStatusReq)

/-- ACCESS TUNE. -/
def State.accessTune (p : List Half) (s : State) : Answer × State :=
  let w := p.getD 0 0
  if !regFits A.LF_CMD w then (.no stBadArg, s)
  else if s.access.tuning != 0 || s.access.tuneReq != 0 then (.held, s)
  else if w = 0 then (.ok (s.reg A.LF_STATUS :: (List.range 4).map (fun n => s.reg (A.LF_TUNE n))), s)
  else (.until .tune, s.fwWrite [(A.LF_CMD, w)])

/-- ACCESS_TUNE (R185, R341). -/
def execAccessTune (k : Fin 6) (h : AdsinHdr) (p : List Half) (s : State) : Out := .next (s.adsinReq k h 7 5 p (State.accessTune p))

/-- ACCESS PLUMB_CAL. -/
def State.accessPlumbCal (p : List Half) (s : State) : Answer × State :=
  let w := p.getD 0 0
  if regFits A.PLUMB_CAL_BOARD w then (.ok, s.fwWrite [(A.PLUMB_CAL_BOARD, w)]) else (.no stBadArg, s)

/-- ACCESS_PLUMB_CAL (R341). -/
def execAccessPlumbCal (k : Fin 6) (h : AdsinHdr) (p : List Half) (s : State) : Out :=
  .next (s.adsinReq k h 7 6 p (State.accessPlumbCal p))

/-! ## FABRIC -/

/-- The words of FABRIC CFG lie in their ranges; an OFS of 18 bits, extended by its sign or not. -/
def fabricFits (p : List Half) : Bool :=
  let w := wordAt p
  let ofs (i : Nat) : Bool := decide (w (i + 1) < 4) || decide (0xFFFE ≤ w (i + 1))
  decide (w 0 ≤ 1) && decide (w 1 ≤ 4095) && decide (w 2 ≤ 63) && decide (16 ≤ w 4) && decide (w 4 ≤ 4096) && decide (w 5 ≤ 60) &&
    ofs 6 && ofs 8 && decide (w 10 ≤ 3) && decide (w 11 ≤ 3) && decide (w 12 < 32) && isSun (w 12) && decide (w 13 ≤ 255)

/-- FABRIC CFG. -/
def State.fabricCfg (p : List Half) (s : State) : Answer × State :=
  if fabricFits p then (.ok, s.modFabric (fun f => { f with cfg := p })) else (.no stBadArg, s)

/-- FABRIC_CFG (R360). -/
def execFabricCfg (k : Fin 6) (h : AdsinHdr) (p : List Half) (s : State) : Out := .next (s.adsinReq k h 8 1 p (State.fabricCfg p))

/-- FABRIC START: what it starts follows its response. FULL where the reserved lanes would exceed the admissible sum (R260; the status
is a DESIGN CHOICE, log entry 103). -/
def State.fabricStart (s : State) : Answer × State := (.no (if s.fabAdmits then stAccepted else stFull), s)

/-- FABRIC_START (R360). -/
def execFabricStart (k : Fin 6) (h : AdsinHdr) (p : List Half) (s : State) : Out := .next (s.adsinReq k h 8 2 p State.fabricStart)

/-- FABRIC_STOP (R360): what it stops follows its response. -/
def execFabricStop (k : Fin 6) (h : AdsinHdr) (p : List Half) (s : State) : Out := .next (s.adsinReq k h 8 3 p (fun s => (.ok, s)))

/-- FABRIC STATUS. -/
def State.fabricStatus (s : State) : Answer × State :=
  let (v, s) := s.fabStatus
  (.ok v, s)

/-- FABRIC_STATUS (R360). -/
def execFabricStatus (k : Fin 6) (h : AdsinHdr) (p : List Half) (s : State) : Out := .next (s.adsinReq k h 8 4 p State.fabricStatus)

/-- FABRIC NEIGHBOURS. -/
def State.fabricNeighbours (p : List Half) (s : State) : Answer × State :=
  let n := wordAt p 1
  if n = 0 ∨ 32 < n then (.no stBadArg, s)
  else
    let l := (s.nbrsNow.drop (wordAt p 0)).take n
    let (o, s) := s.drawOctets l.length
    (.ok (half l.length :: (l.zip o).flatMap (fun x => x.1.words x.2)), s)

/-- FABRIC_NEIGHBOURS (R349, R360). -/
def execFabricNeighbours (k : Fin 6) (h : AdsinHdr) (p : List Half) (s : State) : Out :=
  .next (s.adsinReq k h 8 5 p (State.fabricNeighbours p))

/-- FABRIC SEND. The frame goes on its way behind the response. -/
def State.fabricSend (s : State) : Answer × State :=
  if 64 ≤ s.fabric.queue.length then (.no stFull, s)
  else
    let (q, s) := s.fabSeq
    (.done stAccepted 0 [half q], s)

/-- FABRIC_SEND (R355, R360). -/
def execFabricSend (k : Fin 6) (h : AdsinHdr) (p : List Half) (s : State) : Out := .next (s.adsinReq k h 8 6 p State.fabricSend)

/-- The short address of a neighbour; 0xFFFF where it is no longer in the table. -/
def Fabric.addrOf (f : Fabric) (e : BitVec 64) : Nat := match f.nbr e with | some n => n.addr | none => 0xFFFF

/-- FABRIC ROUTES. -/
def State.fabricRoutes (p : List Half) (s : State) : Answer × State :=
  let n := wordAt p 1
  if n = 0 ∨ 256 < n then (.no stBadArg, s)
  else
    let l := (s.fabric.routes.drop (wordAt p 0)).take n
    (.ok (half l.length :: l.flatMap (fun r => [half r.dest, half (s.fabric.addrOf r.hop)])), s)

/-- FABRIC_ROUTES (R354, R360). -/
def execFabricRoutes (k : Fin 6) (h : AdsinHdr) (p : List Half) (s : State) : Out := .next (s.adsinReq k h 8 7 p (State.fabricRoutes p))

/-! ## ASSAY -/

/-- ASSAY RUN: a full queue has no room. -/
def State.assayRun (p : List Half) (s : State) : Answer × State :=
  if 255 < wordAt p 0 ∨ 127 < wordAt p 1 then (.no stBadArg, s)
  else if 8 ≤ s.assay.queue.length then (.no stFull, s)
  else (.no stAccepted, s.fwWrite [(A.ASSAY_CMD, assayWord (wordAt p 0) (wordAt p 1))])

/-- ASSAY_RUN (R364, R341). -/
def execAssayRun (k : Fin 6) (h : AdsinHdr) (p : List Half) (s : State) : Out := .next (s.adsinReq k h 9 1 p (State.assayRun p))

/-- ASSAY SCHEDULE: a period of 0 ends the schedule. -/
def State.assaySchedule (p : List Half) (s : State) : Answer × State :=
  if (sliceBudget (wordAt p 0)).isNone then (.no stBadArg, s)
  else
    let c : Sched := if wordAt p 6 = 0 then {} else { mask := (p.drop 1).take 5, period := wordAt p 6 }
    (.ok, s.modAdsin (fun a => { a with schedules := sparseSet (fun _ => {}) a.schedules (wordAt p 0) c }))

/-- ASSAY_SCHEDULE (R374). -/
def execAssaySchedule (k : Fin 6) (h : AdsinHdr) (p : List Half) (s : State) : Out := .next (s.adsinReq k h 9 2 p (State.assaySchedule p))

/-- ASSAY RESULTS: what firmware has counted since it started (DESIGN CHOICE, log entry 65). -/
def State.assayResults (p : List Half) (s : State) : Answer × State :=
  if (sliceBudget (wordAt p 0)).isNone then (.no stBadArg, s)
  else
    let (runs, fails, out, tgt) := sparseGet (fun _ => (0, 0, 0, 0)) s.adsin.sliceStats (wordAt p 0)
    (.ok [half runs, half fails, half out, half tgt], s)

/-- ASSAY_RESULTS (R341). -/
def execAssayResults (k : Fin 6) (h : AdsinHdr) (p : List Half) (s : State) : Out := .next (s.adsinReq k h 9 3 p (State.assayResults p))

end Sys2Proof.Machine
end

