-- ==== Sys2Proof/Machine/AdsinUpdate.lean ====
section
/-! DEFINITION. Adsin classes UPDATE and LOG (R341, R381, R382, R269), and the work of Lintel firmware between commands:
requests that waited for a block, and the messages that leave. -/
namespace Sys2Proof.Machine

/-! ## UPDATE -/

/-- Firmware erases an image slot, which is STAGING from then on (R381). -/
def State.stageErase (s : State) (i : Fin 2) : State := (s.setSlotState (i.val + 1) ssStaging).fwWrite [(A.NVMC_ARG 0, half i.val), (A.NVMC_CMD, 5)]

/-- UPDATE BEGIN: PREV goes first where it names the slot. -/
def State.updateBegin (p : List Half) (s : State) : Answer × State :=
  let n := wordAt p 0 + 65536 * wordAt p 1
  if 655360 < n then (.no stBadArg, s)
  else if s.nvmcTaken then (.held, s)
  else
    let r := s.bootRec
    let i : Fin 2 := if r.conf = 1 then 1 else 0
    let s := s.modUpdate (fun u => { u with imgWords := n, staging := i })
    (.until .nvmc [half i.val, 1024],
      if r.prev = i.val + 1 then (s.bootPush { r with prev := 0 } (.erase i)).cfgPump else s.stageErase i)

/-- UPDATE_BEGIN (R381, R382). -/
def execUpdateBegin (k : Fin 6) (h : AdsinHdr) (p : List Half) (s : State) : Out := .next (s.adsinReq k h 10 1 p (State.updateBegin p))

/-- An NVMC command over words that firmware puts in general SRAM. -/
def State.nvmcAsk (s : State) (op arg0 arg1 : Nat) (ws : List Half) : State :=
  let (a, s) := s.scratch 2080
  (s.setSramWords a ws).fwWrite [(A.NVMC_ARG 0, half arg0), (A.NVMC_ARG 1, half arg1), (A.NVMC_ARG 2, half a),
    (A.NVMC_ARG 3, half (a / 65536)), (A.NVMC_ARG 4, half ws.length), (A.NVMC_CMD, half op)]

/-- UPDATE CHUNK. -/
def State.updateChunk (p : List Half) (s : State) : Answer × State :=
  let off := wordAt p 0 + 65536 * wordAt p 1
  let ws := p.drop 2
  if s.update.imgWords < off + ws.length then (.no stBadArg, s)
  else if s.nvmcTaken then (.held, s)
  else
    let d := (slotPlace s.update.staging).1 + 2 * off
    (.until .nvmc, (s.setSlotState (s.update.staging.val + 1) ssStaging).nvmcAsk 4 d (d / 65536) ws)

/-- UPDATE_CHUNK (R381, R382). -/
def execUpdateChunk (k : Fin 6) (h : AdsinHdr) (p : List Half) (s : State) : Out := .next (s.adsinReq k h 10 2 p (State.updateChunk p))

/-- UPDATE VERIFY: the check follows the response. -/
def State.updateVerify (s : State) : Answer × State :=
  (if s.nvmcTaken then .held else .no stAccepted, s)

/-- UPDATE_VERIFY (R379, R381). -/
def execUpdateVerify (k : Fin 6) (h : AdsinHdr) (p : List Half) (s : State) : Out := .next (s.adsinReq k h 10 3 p State.updateVerify)

/-- UPDATE ACTIVATE: the activation follows the response. -/
def State.updateActivate (p : List Half) (s : State) : Answer × State :=
  (if 1 < wordAt p 0 then .no stBadArg else if s.nvmcTaken then .held else .no stAccepted, s)

/-- UPDATE_ACTIVATE (R381, R386). -/
def execUpdateActivate (k : Fin 6) (h : AdsinHdr) (p : List Half) (s : State) : Out :=
  .next (s.adsinReq k h 10 4 p (State.updateActivate p))

/-- UPDATE STATE. -/
def State.updateState (s : State) : Answer × State :=
  (.ok ([0, 1].flatMap (fun i => let v := (s.manifest i).version; [half (s.slotState i), half v, half (v / 65536)])), s)

/-- UPDATE_STATE (R381). -/
def execUpdateState (k : Fin 6) (h : AdsinHdr) (p : List Half) (s : State) : Out := .next (s.adsinReq k h 10 5 p State.updateState)

/-- UPDATE ABORT. A handover under way is given up and ends with REFUSED; with nothing to abandon there is no effect (DESIGN CHOICE,
log entry 66). -/
def State.updateAbort (s : State) : Answer × State :=
  if s.nvmcTaken then (.held, s)
  else
    let s := if s.update.hand = .none then s else (s.standbyPark.setHand .none).activated upRefused
    match [0, 1].find? (fun i : Fin 2 => s.slotState i = ssPending ∨ s.slotState i = ssRunning) with
    | some i => (.until .nvmc, (s.bootPush { s.bootRec with pend := 0, handover := false } (.withdrawn i)).cfgPump)
    | none =>
      match [0, 1].find? (fun i => s.slotState i = ssStaging ∨ s.slotState i = ssVerified) with
      | some i => (.ok, s.setSlotState (i + 1) ssEmpty)
      | none => (.ok, s)

/-- UPDATE_ABORT (R381). -/
def execUpdateAbort (k : Fin 6) (h : AdsinHdr) (p : List Half) (s : State) : Out := .next (s.adsinReq k h 10 6 p State.updateAbort)

/-! ## LOG -/

/-- The event and access records of a segment: word offset, the offset behind, and the record. -/
def logOf : Nat → List (List Copy) → List (Nat × Nat × Copy)
  | _, [] => []
  | off, g :: l =>
    let stop := off + (g.map (·.words.length)).foldl (· + ·) 0
    match resolve g with
    | .value c => if c.typ = 4 ∨ c.typ = 5 then (off, stop, c) :: logOf stop l else logOf stop l
    | _ => logOf stop l

/-- The records of the event and access log, oldest first: segment sequence, word offset, offset behind, record. -/
def State.evtLog (s : State) : List (Nat × Nat × Nat × Copy) :=
  (s.segsInUse .evt).flatMap (fun x => (logOf 0 (groupCopies (s.segCopies x.2).1).reverse).map (fun r => (x.1, r.1, r.2.1, r.2.2)))

/-- The first records that fit a message. -/
def fitLog : Nat → List (Nat × Nat × Nat × Copy) → List (Nat × Nat × Nat × Copy)
  | _, [] => []
  | room, r :: l =>
    let n := 1 + r.2.2.2.payload.length
    if n ≤ room then r :: fitLog (room - n) l else []

/-- LOG READ: no more records than a message of 1,088 words holds (DESIGN CHOICE, log entry 67). -/
def State.logRead (p : List Half) (s : State) : Answer × State :=
  let q := wordAt p 0 + 65536 * wordAt p 1
  let off := wordAt p 2
  let n := wordAt p 3
  if n = 0 ∨ 32 < n then (.no stBadArg, s)
  else
    let s := s.regionRead .evt
    let log := s.evtLog
    let oldest := match s.segsInUse .evt with | (x, _) :: _ => x | [] => 0
    let start := q = 0 ∧ off = 0
    let freed := !start ∧ q < oldest
    let l := if start ∨ freed then log else log.filter (fun r => q < r.1 || (q == r.1 && off ≤ r.2.1))
    let l := fitLog (1088 - 8) (l.take n)
    let (nq, no) := match l.getLast? with
      | some r => (r.1, r.2.2.1)
      | none => if freed then (oldest, 0) else (q, off)
    (.done stOk (bit freed) ([half nq, half (nq / 65536), half no, half l.length] ++
      l.flatMap (fun r => r.2.2.2.words.take (1 + r.2.2.2.payload.length))), s)

/-- LOG_READ (R269, R341). -/
def execLogRead (k : Fin 6) (h : AdsinHdr) (p : List Half) (s : State) : Out := .next (s.adsinReq k h 11 1 p (State.logRead p))

/-- LOG WRITE: an event record of code, requester code and words, at the VER that firmware writes (R392). -/
def State.logWrite (k : Fin 6) (p : List Half) (s : State) : Answer × State :=
  if wordAt p 0 < 0x8000 then (.no stBadArg, s)
  else if s.nvmcTaken then (.held, s)
  else
    let ws := [p.getD 0 0, half k.val] ++ p.drop 1
    (.until .nvmc, s.nvmcAsk 3 (recVer s.update.writes 0x10000 * 4096 + ws.length) 0 ws)

/-- LOG_WRITE (R269, R341). -/
def execLogWrite (k : Fin 6) (h : AdsinHdr) (p : List Half) (s : State) : Out := .next (s.adsinReq k h 11 2 p (State.logWrite k p))

/-! ## Requests that waited -/

/-- What a request that waits for a block makes of it now. -/
def State.adsinAct (s : State) (k : Fin 6) (cls cmd : Nat) (p : List Half) : Answer × State :=
  match (cls, cmd) with
  | (0, 1) => s.sysHello k p | (0, 2) => (.ok p, s) | (0, 3) => s.sysInfo | (0, 4) => s.sysEvtMask k p | (0, 5) => s.sysReset p
  | (0, 6) => s.sysStats k
  | (1, 1) => s.pwrPlSet p | (1, 2) => s.pwrPlGet
  | (1, 3) => s.pwrSleep p | (1, 4) => s.pwrMains p
  | (2, 1) => s.timeGet | (2, 2) => (.ok, s.fwWrite (given p 0 [A.RTC_SET_0, A.RTC_SET_1, A.RTC_SET_2])) | (2, 3) => s.timeShift p
  | (2, 4) => s.timeTrim p | (2, 5) => s.timeAlarm p
  | (3, 1) => s.radioFeCfg p | (3, 2) => s.radioFeEn p | (3, 3) => s.radioCal p | (3, 4) => s.radioRoute p
  | (3, 5) => s.radioSend k p | (3, 6) => s.radioLaneStats p | (3, 7) => s.radioRecord p | (3, 8) => s.radioRecRead p
  | (4, 1) => s.courseCfgReq p | (4, 2) => s.courseStartReq p | (4, 3) => s.courseStopReq | (4, 4) => s.courseLanes p
  | (4, 5) => s.courseHoplist p | (4, 6) => s.courseDuty p
  | (5, 1) => s.ashlarTenant p | (5, 2) => s.ashlarEpoch p | (5, 3) => s.ashlarEntryReq p
  | (5, 4) => (.no stAccepted, s.fwWrite [(A.ASHLAR_CMD, 1)]) | (5, 5) => s.ashlarCounters p
  | (6, 1) => s.keysAsk 1 0 0 (wordOctets p) | (6, 2) => s.keyDerive p | (6, 3) => s.keyGenerate p | (6, 4) => s.keyDestroy p
  | (6, 5) => s.keyTransfer p | (6, 6) => s.keyDrop p | (6, 7) => s.keyAttr p | (6, 8) => s.keyIdpub | (6, 9) => s.keysAsk 7 0 0 []
  | (6, 10) => s.keyLcChange p | (6, 11) => s.keyCipher k p
  | (7, 1) => s.accessCfg p | (7, 2) => s.accessTablePut p | (7, 3) => s.accessTableLoad p | (7, 4) => s.accessStatusReq
  | (7, 5) => s.accessTune p | (7, 6) => s.accessPlumbCal p
  | (8, 1) => s.fabricCfg p | (8, 2) => s.fabricStart | (8, 3) => (.ok, s) | (8, 4) => s.fabricStatus
  | (8, 5) => s.fabricNeighbours p | (8, 6) => s.fabricSend | (8, 7) => s.fabricRoutes p
  | (9, 1) => s.assayRun p | (9, 2) => s.assaySchedule p | (9, 3) => s.assayResults p
  | (10, 1) => s.updateBegin p | (10, 2) => s.updateChunk p | (10, 3) => s.updateVerify | (10, 4) => s.updateActivate p
  | (10, 5) => s.updateState | (10, 6) => s.updateAbort
  | (11, 1) => s.logRead p | (11, 2) => s.logWrite k p
  | _ => (.no stBadCmd, s)

/-- The first of the requests that wait is settled. -/
def settleFirst (a : Answer) : List Request → List Request
  | [] => []
  | r :: l => match r.held with
    | some p => r.settle p a :: l
    | none => r :: settleFirst a l

/-- The first request of a channel that waits for a block is tried again. -/
def State.adsinRetry (s : State) (k : Fin 6) : State :=
  match s.adsin.chans[k].outstanding.find? (·.held.isSome) with
  | none => s
  | some r =>
    let p := r.held.getD []
    let (a, s) := s.adsinAct k r.cls r.cmd p
    if a = .held then s
    else
      let s := (s.modChan k (fun c => Channel.flush { c with outstanding := settleFirst a c.outstanding })).noteReset
      if a.taken then s.adsinNext r.cls r.cmd p else s

/-! ## Messages that leave -/

/-- The frame of a message on UART0 (R332). -/
def uartFrame (ws : List Half) : List Byte :=
  [0xA5, 0x5A] ++ wordOctets ws ++ beOctets 2 (crc16 0xFFFF (wordOctets ws))

/-- UART0 (R332): the transmit FIFO is filled from the head message; it has left when its last octet is sent. -/
def State.pumpUart (s : State) : State :=
  let c := s.adsin.chans[(1 : Fin 6)]
  match c.outq with
  | [] => s
  | m :: _ =>
    if !s.uartLive then s
    else
      let f := uartFrame m.words
      if f.length ≤ c.sendPos then (if s.uart.tx.isEmpty then s.adsinPop 1 else s)
      else
        let n := min (64 - s.uart.tx.length) (f.length - c.sendPos)
        (s.modUart (fun u => { u with tx := u.tx ++ (f.drop c.sendPos).take n })).modChan 1 (fun c => { c with sendPos := c.sendPos + n })

/-- An application channel (R333): words of the head message go to its mailbox while COUNT is below 32. -/
def State.pumpApp (s : State) (k : Fin 6) : State :=
  let c := s.adsin.chans[k]
  let b := fin8 (k.val + 2)
  match c.outq with
  | [] => s
  | m :: _ =>
    if k.val < 2 then s
    else
      let n := min (32 - s.mbox[b].length) (m.words.length - c.sendPos)
      let s := forEach ((m.words.drop c.sendPos).take n) s (fun s w => s.mbWrite b s.oldCore w)
      if m.words.length ≤ c.sendPos + n then s.adsinPop k else s.modChan k (fun c => { c with sendPos := c.sendPos + n })

/-- Firmware writes a message in general SRAM and its address in a queue entry of HOSTIF (R343). -/
def State.oqPut (s : State) (i : Nat) (ws : List Half) : State :=
  let (a, s) := s.scratch 2176
  (s.setSramWords a ws).setSramWords (s.latAddr A.HOSTIF_OQ_BASE_LO + 4 * (i % 16)) [half a, half (a / 65536)]

/-- HOSTIF (R337, R343): firmware keeps the channel's first message at the head of the queue. A message of its own that another has
been put ahead of is taken back: its queue entry is written anew, the message itself left as it stands. -/
def State.pumpSpi (s : State) : State :=
  match s.adsin.chans[(0 : Fin 6)].outq with
  | [] => s
  | m :: _ =>
    if !s.hostifLive then s
    else
      let i := s.fld F.HOSTIF_OQ_RD_INDEX
      let own := s.modAdsin (fun a => { a with spiHead := some m.words })
      if s.oqCount = 0 then (own.oqPut i m.words).oqWrite (half ((i + 1) % 32))
      else
        let ws := s.sramWords s.oqHead s.outLen
        if ws ≠ m.words ∧ s.adsin.spiHead = some ws then (own.oqPut i m.words).modSys (fun y => { y with shown := false }) else s

/-- MAINS_LOSS (R313, R337, R358): no edge is counted for LOM_CYC + 0.5 nominal periods. The event goes ahead of a message in the HOSTIF
queue too, which no READ is transferring between commands. -/
def execMainsLoss (s : State) : Out :=
  .next (if s.plinth.powered ∧ s.fld F.PLINTH_MAINS_LOM_CYC ≠ 0 ∧ !s.flag F.PLINTH_STATUS_LOM ∧ s.plinth.detect then
    let s := ((s.setFlag F.PLINTH_STATUS_LOM).modPlinth (fun p => { p with good := 0 })).trimVoid
    let s := (s.plinthEvt F.PLINTH_EVT_MAINS_LOSS).event allChans 1 0x80 s.rtcLow
    let s := if s.sys.fwRun then s.fabGasp else s
    (if s.sys.fwRun && s.coresRun then s.pumpSpi else s).wakeRise 3
  else s)

/-- Firmware takes the octets that UART0 has received. -/
def State.pullUart (s : State) : State := if s.uartLive then (s.modUart (fun u => { u with rx := [] })).uartBaud else s

/-- A SYS RESET whose 100 ms have passed (R341). -/
def State.resetDue (s : State) : State :=
  match s.adsin.resetAt with
  | some t => if t ≤ s.hft then (s.modAdsin (fun a => { a with resetAt := none })).deviceReset rcSoft else s
  | none => s

/-! ## Lintel firmware's own records -/

/-- Put a value at its key in a rising list. -/
def insertKey {α : Type} (x : Nat × α) : List (Nat × α) → List (Nat × α)
  | [] => [x]
  | y :: l => if x.1 < y.1 then x :: y :: l else y :: insertKey x l

/-- Firmware takes the anchor's address and, at the root, the assignments from its configuration records (R352, R353). -/
def State.fabLoad (s : State) : State :=
  let l := s.cfgAll
  let own := match l.lookup cidAddr with | some c => wordAt c.payload 1 | none => 0xFFFF
  let rows := (l.filter (fun p => cidAssign ≤ p.1)).foldl (fun l p => insertKey (p.1, p.2.payload) l) []
  s.modFabric (fun f => { f with
    savedAddr := own
    assigned := rows.map (fun p =>
      (BitVec.ofNat 64 (((p.2.drop 1).take 4).foldl (fun a w => a * 65536 + w.toNat) 0), wordAt p.2 5)) })

/-- Firmware puts the initial token tables of the set's TOKENTAB part in general SRAM and has ACCESS copy them (R200, R377). -/
def State.tokenLoad (s : State) : State :=
  match s.partOf s.update.runs 7 with
  | none => s
  | some o =>
    let (a, b) := (tableAddr 0, tableAddr 1)
    let (e, r) := (Config.tokenPart o 0, Config.tokenPart o 1)
    ((s.setSramWords a e).setSramWords b r).fwWrite [
      (A.ACCESS_TOK_N, half (e.length / 6)), (A.ACCESS_REV_N, half (r.length / 4)), (A.ACCESS_TOK_BASE_LO, half a),
      (A.ACCESS_TOK_BASE_HI, half (a / 65536)), (A.ACCESS_REV_BASE_LO, half b), (A.ACCESS_REV_BASE_HI, half (b / 65536)),
      (A.ACCESS_TBL_CMD, 1)]

/-- The first work of firmware that has started: the token tables, the records of the CONFIG part that do not exist, the addresses of the
fabric (R200, R352, R377). -/
def State.fwInit (s : State) : State :=
  if !s.update.fresh then s
  else
    let s := (s.modUpdate (fun u => { u with fresh := false })).tokenLoad
    let initial := ((s.partOf s.update.runs 8).map Config.configPart).getD []
    (forEach initial s (fun s p => if s.cfgFind (wordAt p 0) = .absent then s.cfgPush p else s)).fabLoad

/-- What firmware, or the boot ROM, does when the configuration record that it wrote has ended with a RESULT. -/
def State.cfgNext (s : State) (r : Nat) : FwNext → State
  | .nothing => s
  | .erase i => if r = nvDone then s.stageErase i else s.complete .nvmc stFail r []
  | .pending i => if r = nvDone then (s.setSlotState (i.val + 1) ssPending).activated upOk else s.activated upRecord
  | .staged i => if r = nvDone then (s.setSlotState (i.val + 1) ssPending).verified upOk else s.verified upRecord
  | .withdrawn i =>
    if r = nvDone then (s.setSlotState (i.val + 1) ssVerified).complete .nvmc stOk 0 [] else s.complete .nvmc stFail r []
  | .tookOver k old => s.tookOver k old (r = nvDone)
  | .boot k => s.bootSet k
  | .select => s.bootConf { s.bootRec with pend := 0, handover := false } false

/-- NVMC_CMD_DONE (R277, R278): NVMC has come to the firmware command, and it ends; what waited for it follows. -/
def execNvmcCmdDone (fails : Fin 3) (s : State) : Out :=
  .next (if s.nvTurn .firmware ∧ s.nvm.cmd.isSome then
    let s := s.nvmcDone fails
    let r := s.fld F.NVMC_STATUS_RESULT
    match s.update.inCfg with
    | some n => (s.modUpdate (fun u => { u with inCfg := none })).cfgNext r n
    | none => s.complete .nvmc (if r = nvDone then stOk else stFail) r []
  else s)

/-- The work of Lintel firmware, or of the boot ROM, between commands; within a cutover firmware starts none (R388), and while TROWEL
halts a thread of its core it writes no plan (R406). -/
def State.adsinPump (s : State) : State :=
  if s.coresRun && !s.cutover && (s.sys.fwRun || s.sys.recovery || s.sys.romSys) then
    let s := if s.sys.fwRun then s.fwInit.noteAdmitted else s
    let s := (forEach allChans s State.adsinRetry).cfgPump
    let s := if s.sys.fwRun && !s.cores[s.oldCore].anyHalted then s.fabPump.placeSends else s
    let s := if s.sys.fwRun then forEach [(2 : Fin 6), 3, 4, 5] s (fun s k => s.pullApp k 32) else s
    let s := forEach [(2 : Fin 6), 3, 4, 5] s State.pumpApp
    s.pullUart.pumpUart.pumpSpi.noteReset.resetDue.lcDue
  else s

end Sys2Proof.Machine
end

