-- ==== Sys2Proof/Machine/Flags.lean ====
section
/-! DEFINITION. The ALU helpers and the flags of Plynnel-16 (R212), and the conditions of Bcc (R219). -/
namespace Sys2Proof.Machine

/-- The flags N, Z, C, V as bits 3 to 0 of PSW. -/
structure Flags where
  n : Bool
  z : Bool
  c : Bool
  v : Bool
  deriving DecidableEq, Repr

/-- The flags of a PSW value. -/
def Flags.of (w : Half) : Flags := ⟨w.getLsbD 3, w.getLsbD 2, w.getLsbD 1, w.getLsbD 0⟩

/-- A PSW value with its flags replaced. -/
def Flags.put (f : Flags) (w : Half) : Half := (w &&& 0xFFF0) ||| half (bit f.n * 8 + bit f.z * 4 + bit f.c * 2 + bit f.v)

/-- add16 (R212). -/
def add16 (x y : Half) (ci : Bool) : Half × Flags :=
  let t := x.toNat + y.toNat + bit ci
  let r := half t
  (r, ⟨r.msb, r == 0, decide (65536 ≤ t), x.msb == y.msb && r.msb != x.msb⟩)

/-- sub16 (R212): C = 1 means no borrow. -/
def sub16 (x y : Half) (ci : Bool) : Half × Flags := add16 x (~~~y) ci

/-- setnz (R212): C unchanged. -/
def setnz (r : Half) (f : Flags) : Flags := ⟨r.msb, r == 0, f.c, false⟩

/-- The shift kinds in the order of SHI's IMM[5:4] (R214). -/
inductive ShiftKind where
  | shl | shr | sar | rol
  deriving DecidableEq, Repr

/-- A shift by 0 to 15 (R212, R213): setnz, and C from the last bit shifted out; a count of 0 leaves C. -/
def shift (k : ShiftKind) (a : Half) (s : Nat) (f : Flags) : Half × Flags :=
  let r : Half := match k with
    | .shl => a <<< s
    | .shr => a >>> s
    | .sar => a.sshiftRight s
    | .rol => if s = 0 then a else (a <<< s) ||| (a >>> (16 - s))
  let c := if s = 0 then f.c else match k with
    | .shl => a.getLsbD (16 - s)
    | .shr | .sar => a.getLsbD (s - 1)
    | .rol => r.getLsbD 0
  (r, ⟨r.msb, r == 0, c, false⟩)

/-- A saturating result (R213): N, Z and V; C unchanged. -/
def saturate (t : Int) (f : Flags) : Half × Flags :=
  let d := clampInt (-32768) 32767 t
  let r := half (ofSigned 16 d)
  (r, ⟨r.msb, r == 0, f.c, t != d⟩)

/-- crc(x, y) of R212. -/
def crcStep (x y : Half) : Half := half (crc16Octet x.toNat (byte y.toNat))

/-- The flags of a pointer comparison on 24 bits (R216). -/
def cmp24 (x y : Ptr) : Flags :=
  let t := x.toNat + (~~~y).toNat + 1
  let r := BitVec.ofNat 24 t
  ⟨r.msb, r == 0, decide (2 ^ 24 ≤ t), x.msb == (~~~y).msb && r.msb != x.msb⟩

/-- Whether a condition holds (R219); 0xF is illegal. -/
def condHolds (k : Nat) (f : Flags) : Bool :=
  match k with
  | 0x0 => f.z | 0x1 => !f.z | 0x2 => f.c | 0x3 => !f.c | 0x4 => f.n | 0x5 => !f.n | 0x6 => f.v | 0x7 => !f.v
  | 0x8 => f.c && !f.z | 0x9 => !f.c || f.z | 0xA => f.n == f.v | 0xB => f.n != f.v
  | 0xC => !f.z && f.n == f.v | 0xD => f.z || f.n != f.v | _ => true

end Sys2Proof.Machine
end

