-- ==== Sys2Proof/Machine/Operands.lean ====
section
/-! DEFINITION. The operand forms of the memory instructions of Plynnel-16: addressing modes and write-back (R217). -/
namespace Sys2Proof.Machine

/-- The sign-extended value of a 16-bit immediate or register, on 24 bits. -/
abbrev sext24 (w : Half) : Ptr := w.signExtend 24

/-- The zero-extended value of a 16-bit immediate or register, on 24 bits. -/
abbrev zext24 (w : Half) : Ptr := w.zeroExtend 24

/-- An addressing mode and immediate that are not listed are illegal: modes 4 to 7, and IDX with IMM[11:3] not 0 (R211,
R217). -/
def amLegal (am : Nat) (imm : Half) : Bool := decide (am < 3) || (am = 3 && bits imm.toNat 11 3 = 0)

/-- The address ea and the write-back to P[PB] of a memory operation (R217). -/
def Thread.ea (t : Thread) (pb : Fin 8) (am : Nat) (imm : Half) : Ptr × Option Ptr :=
  let b := t.p[pb]
  match am with
  | 0 => (b + sext24 imm, none)
  | 1 => (b, some (b + sext24 imm))
  | 2 => (b - zext24 imm, some (b - zext24 imm))
  | _ =>
    let x := t.d[(⟨bits imm.toNat 15 12, by simp only [bits]; omega⟩ : Fin 16)]
    let x := if imm.getLsbD 2 then sext24 x else zext24 x
    (b + x * BitVec.ofNat 24 (2 ^ bits imm.toNat 1 0), none)

end Sys2Proof.Machine
end

