-- ==== Sys2Proof/Machine/Cpu.lean ====
section
/-! DEFINITION. How a core executes one instruction: the thread, fetch, the checks common to all, completion, distances,
delay slots and hardware loops (R207, R211, R217 to R230, R237 to R248, R406). The instruction itself is the command's
(DESIGN CHOICE, log entry 60): its operands are the fields of the word, `z` the bits that must be 0 (R211). -/
namespace Sys2Proof.Machine

/-! ## TROWEL halts and breakpoints (R406) -/

/-- A thread halts: its results land; one that ran shows READY, and another may run. -/
def State.haltThread (s : State) (c : Fin 6) (t : Fin 4) : State :=
  s.modCore c (fun k =>
    let k := k.landAll t
    let th := k.thr[t]
    let th := { th with haltReq := false, stepping := false, halted := true, st := if th.st = .run then .ready else th.st }
    ({ k with thr := k.thr.set t th } : Core).wakeup)

/-- The breakpoint slot that the instruction about to execute matches; a branch matches for its delay slot too. The first
instruction after a RESUME or STEP does not match the slot that halted it, and a slot that a branch passed is passed. -/
def State.bkMatch (s : State) (c : Fin 6) (t : Fin 4) (branch : Bool) : Option (Fin 4) :=
  let th := s.thr c t
  if th.slot.isSome then none
  else [(0 : Fin 4), 1, 2, 3].find? (fun i =>
    let b := s.cores[c].bkpt[i]
    b.2 && s.cores[c].bkthr[i] == t && th.passed != some i && (b.1 == th.pc || (branch && b.1 == th.pc + 4)))

/-- A breakpoint halts a thread. -/
def State.bkHalt (s : State) (c : Fin 6) (t : Fin 4) (i : Fin 4) : State :=
  (s.haltThread c t).modCore c (fun k => { k with bkhit := true, thr := k.thr.set t { k.thr[t] with passed := some i } })

/-! ## Fetch and the shape of an instruction -/

/-- The exception that the fetch at the PC raises (R17, R207, R248, R266), in the order of R241. -/
def State.fetchFault (s : State) (c : Fin 6) (t : Fin 4) : Option Nat :=
  let th := s.thr c t
  let a := th.pc.toNat
  match placeSpan a 4 with
  | .rom => if c.val < 2 then none else some exFetchBus
  | .sram => if s.mpuAdmits c th.priv a 2 then none else some exFetchMpu
  | .mram =>
    if !s.mpuAdmits c th.priv a 2 then some exFetchMpu
    else if s.mramBad.contains a || s.mramBad.contains (a + 2) then some exEcc else none
  | _ => some exFetchBus

/-- A fetch from MRAM reads the 8-byte line, unless the core still keeps it: its corrected words are counted, and the core keeps
it (R264, R266; DESIGN CHOICE, log entry 102: what a corrected read counts). -/
def State.fetchLine (s : State) (c : Fin 6) (a : Nat) : State :=
  if placeOf a ≠ .mram ∨ s.lines[c] = some (a / 8) then s
  else { s.eccCount (a / 8 * 8) (a / 8 * 8 + 8) with lines := s.lines.set c (some (a / 8)) }

/-- What an instruction may be: control instructions may not stand in a delay slot or at LEk; branches have a slot. -/
inductive Shape where
  | plain | ctl | branch
  deriving DecidableEq, Repr

/-- What a thread does once an instruction has completed. -/
inductive Then where
  | goOn | yield | wait
  deriving DecidableEq, Repr

/-- The effects of an instruction that completes: flags, results of distance 0, results with their distances, where it goes
on other than at the next address, the target of a branch, ERET's change of mode, and what the thread does then. -/
structure Done where
  flags : Option Flags := none
  now : List (Target × Nat) := []
  late : List (Nat × Target × Nat) := []
  next : Option Ptr := none
  branch : Option Ptr := none
  eret : Bool := false
  andThen : Then := .goOn
  deriving DecidableEq, Repr

/-- An instruction raises an exception, with the address of a data fault, or completes. -/
inductive Result where
  | fault (code : Nat) (addr : Option Nat)
  | done (d : Done)
  deriving DecidableEq, Repr

/-! ## Completion -/

/-- Where a thread goes on; an address that is no multiple of 4 has no stated effect there: a free one is taken (log entry
55). -/
def State.pcOf (s : State) (a : Ptr) : Ptr × State :=
  if a.toNat % 4 = 0 then (a, s) else
    let (x, s) := s.draw (2 ^ 22)
    (BitVec.ofNat 24 (4 * x), s)

/-- An instruction has completed: its results, and where the thread goes on (R222, R225, R228). ERET takes PPRIV as its
position sees it (R244). -/
def State.retire (s : State) (c : Fin 6) (t : Fin 4) (d : Done) : State :=
  let th := s.thr c t
  let (priv0, i) := (th.ppriv, th.pos)
  let wasSlot := th.slot
  let th := match d.flags with | some f => { th with psw := f.put th.psw } | none => th
  let (th, back) := th.loopCheck
  let next : Ptr := match wasSlot with
    | some (_, tgt) => tgt
    | none => (back.or d.next).getD (th.pc + 4)
  let slot := d.branch.map (fun tgt => (th.pc, tgt))
  let (pc, s) := s.pcOf next
  let th := { th with pend := th.pend ++ d.late.map (fun r => ⟨i + r.1 + 1, r.2.1, r.2.2⟩) }
  s.modCore c (fun k =>
    let k := ({ k with thr := k.thr.set t th } : Core).landAt t (i + 1)
    let k := d.now.foldl (fun k r => k.landOne t ⟨i, r.1, r.2⟩) k
    let th := k.thr[t]
    let th := { th with pos := i + 1, pc := pc, slot := slot, waitAt := none, passed := none }
    let th := if d.eret then { th with psw := pswMode th.psw priv0 th.ppriv false } else th
    { k with thr := k.thr.set t th })

/-- A WAIT blocks: it has not completed (R230, R237). -/
def State.waitBlocks (s : State) (c : Fin 6) (t : Fin 4) : State :=
  let (x, s) := s.pcOf (((s.thr c t).loopCheck.2).getD 0)
  s.modThr c t (fun th => { th with st := .wait, waitAt := some (th.pc, th.slot.map (·.1)), waitNext := x, passed := none })

/-- An instruction that raises nothing: it completes, or is a WAIT that blocks; YIELD and such a WAIT are switch points, and an
asynchronous exception that is held may be taken (R234, R237, R243). At the end of a step the results land (R406). -/
def State.completeInstr (s : State) (c : Fin 6) (t : Fin 4) (d : Done) : State :=
  let stepping := (s.thr c t).stepping
  let s := match d.andThen with
    | .goOn => s.retire c t d
    | .yield => if stepping then s.retire c t d else (s.retire c t d).modCore c Core.switch
    | .wait =>
      if s.maskMet c t then s.retire c t d
      else if stepping then s.waitBlocks c t else (s.waitBlocks c t).modCore c Core.switch
  let s := s.takeHeld c t
  if stepping ∧ ((s.thr c t).slot.isNone ∨ (s.thr c t).st = .wait) then
    (s.modCore c (fun k => k.landAll t)).modThr c t (fun th => { th with stepping := false })
  else s

/-- One instruction on a core: nothing executes without a thread that runs; a requested halt or a breakpoint takes effect
instead of it; then the causes of R241 in their order, `bad` being the instruction's own illegal encodings; then its
effect. -/
def State.instr (s : State) (c : Fin 6) (shape : Shape) (bad : Thread → Bool) (f : State → Fin 4 → Thread → Result × State) :
    State :=
  match s.cpuThread c with
  | none => s
  | some t =>
    let th := s.thr c t
    if th.haltReq ∧ th.slot.isNone then s.haltThread c t
    else match s.bkMatch c t (shape == .branch) with
      | some i => s.bkHalt c t i
      | none => match s.fetchFault c t with
        | some code =>
          let s := if code = exEcc then (s.fetchLine c th.pc.toNat).eccBad th.pc.toNat (th.pc.toNat + 4) else s
          s.raiseInstr c t code (if code = exEcc then some th.pc.toNat else none)
        | none =>
          let s := s.fetchLine c th.pc.toNat
          let misplaced := if shape = .plain then th.slot.isSome && th.atLe else th.slot.isSome || th.atLe
          if bad th || misplaced then s.raiseInstr c t exIllegal none
          else
            let (r, s) := f s t th
            match r with
            | .fault code addr => s.raiseInstr c t code addr
            | .done d => if (s.thr c t).st = .dead ∨ s.sys.inReset then s else s.completeInstr c t d

/-- A plain instruction that only computes. -/
def State.compute (s : State) (c : Fin 6) (bad : Bool) (f : Thread → Done) : State :=
  s.instr c .plain (fun _ => bad) (fun s _ th => (.done (f th), s))

/-! ## Results -/

/-- A result in a data register at distance 0, with flags. -/
def toD (i : Fin 16) (v : Half) (f : Option Flags := none) : Done := { now := [(.d i, v.toNat)], flags := f }

/-- A pointer result at distance 1. -/
def toP (i : Fin 8) (v : Ptr) : Done := { late := [(1, .p i, v.toNat)] }

/-- The flags of a thread. -/
def Thread.flags (t : Thread) : Flags := Flags.of t.psw

/-! ## Data accesses (R17, R206, R217, R240, R241, R248) -/

/-- A load of `n` octets: its value, or the exception it raises. -/
def State.load (s : State) (c : Fin 6) (t : Fin 4) (a n : Nat) : (Nat ⊕ (Nat × Option Nat)) × State :=
  match s.dataFault c t a n false with
  | some e => (.inr e, s)
  | none =>
    if a = 0xFF0002 then (.inl t.val, s)
    else match s.busRead (.core c) c a n with
      | (.value v, s) => (.inl v, s)
      | (.ecc, s) => (.inr (exEcc, some a), s)
      | (.refused, s) => (.inr (exDataBus, some a), s)

/-- A load instruction of `n` octets into a target through `g`: distance 2, with the write-back of its mode at distance
1. -/
def State.loadInstr (s : State) (c : Fin 6) (bad : Bool) (pb : Fin 8) (am : Fin 8) (imm : Half) (n : Nat) (tgt : Target)
    (g : Nat → Nat) : State :=
  s.instr c .plain (fun _ => bad || !amLegal am imm) (fun s t th =>
    let (a, wb) := th.ea pb am imm
    match s.load c t a.toNat n with
    | (.inl v, s) => (.done { late := (2, tgt, g v) :: (wb.map (fun w => (1, Target.p pb, w.toNat))).toList }, s)
    | (.inr (code, fa), s) => (.fault code fa, s))

/-- A store instruction of `n` octets. -/
def State.storeInstr (s : State) (c : Fin 6) (bad : Bool) (pb : Fin 8) (am : Fin 8) (imm : Half) (n : Nat) (v : Thread → Nat) :
    State :=
  s.instr c .plain (fun _ => bad || !amLegal am imm) (fun s t th =>
    let (a, wb) := th.ea pb am imm
    match s.dataFault c t a.toNat n true with
    | some (code, fa) => (.fault code fa, s)
    | none => match s.busWrite (.core c) c a.toNat n (v th) with
      | some s => (.done { late := (wb.map (fun w => (1, Target.p pb, w.toNat))).toList }, s)
      | none => (.fault exDataBus (some a.toNat), s))

end Sys2Proof.Machine
end

