-- ==== Sys2Proof/Machine/CpuData.lean ====
section
/-! DEFINITION. The data instructions of Plynnel-16: register and immediate ALU, bit fields, pointer operations (R213 to
R216). -/
namespace Sys2Proof.Machine

/-! ## Register ALU (R213). Fields DD, DA, DB; `z` is [13:6]. -/

/-- A format R instruction that reads a and b. -/
def State.aluR (s : State) (c : Fin 6) (da db : Fin 16) (z : Byte) (bad : Bool) (f : Thread → Half → Half → Done) : State :=
  s.compute c (z != 0 || bad) (fun t => f t t.d[da] t.d[db])

/-- A result with all four flags. -/
def toDF (i : Fin 16) (r : Half × Flags) : Done := toD i r.1 (some r.2)

/-- ADD (R213). -/
def execOpAdd (c : Fin 6) (dd da db : Fin 16) (z : Byte) (s : State) : Out :=
  .next (s.aluR c da db z false (fun t a b => let _ := t; toDF dd (add16 a b false)))

/-- ADDC (R213). -/
def execOpAddc (c : Fin 6) (dd da db : Fin 16) (z : Byte) (s : State) : Out :=
  .next (s.aluR c da db z false (fun t a b => toDF dd (add16 a b t.flags.c)))

/-- SUB (R213). -/
def execOpSub (c : Fin 6) (dd da db : Fin 16) (z : Byte) (s : State) : Out :=
  .next (s.aluR c da db z false (fun t a b => let _ := t; toDF dd (sub16 a b true)))

/-- SUBC (R213). -/
def execOpSubc (c : Fin 6) (dd da db : Fin 16) (z : Byte) (s : State) : Out :=
  .next (s.aluR c da db z false (fun t a b => toDF dd (sub16 a b t.flags.c)))

/-- AND (R213). -/
def execOpAnd (c : Fin 6) (dd da db : Fin 16) (z : Byte) (s : State) : Out :=
  .next (s.aluR c da db z false (fun t a b => toD dd (a &&& b) (some (setnz (a &&& b) t.flags))))

/-- OR (R213). -/
def execOpOr (c : Fin 6) (dd da db : Fin 16) (z : Byte) (s : State) : Out :=
  .next (s.aluR c da db z false (fun t a b => toD dd (a ||| b) (some (setnz (a ||| b) t.flags))))

/-- XOR (R213). -/
def execOpXor (c : Fin 6) (dd da db : Fin 16) (z : Byte) (s : State) : Out :=
  .next (s.aluR c da db z false (fun t a b => toD dd (a ^^^ b) (some (setnz (a ^^^ b) t.flags))))

/-- CMP (R213). -/
def execOpCmp (c : Fin 6) (dd da db : Fin 16) (z : Byte) (s : State) : Out :=
  .next (s.aluR c da db z (dd != 0) (fun t a b => let _ := t; { flags := some (sub16 a b true).2 }))

/-- TST (R213). -/
def execOpTst (c : Fin 6) (dd da db : Fin 16) (z : Byte) (s : State) : Out :=
  .next (s.aluR c da db z (dd != 0) (fun t a b => { flags := some (setnz (a &&& b) t.flags) }))

/-- MOV (R213). -/
def execOpMov (c : Fin 6) (dd da db : Fin 16) (z : Byte) (s : State) : Out :=
  .next (s.aluR c da db z (db != 0) (fun t a b => let _ := (t, b); toD dd a))

/-- NOT (R213). -/
def execOpNot (c : Fin 6) (dd da db : Fin 16) (z : Byte) (s : State) : Out :=
  .next (s.aluR c da db z (db != 0) (fun t a b => let _ := b; toD dd (~~~a) (some (setnz (~~~a) t.flags))))

/-- NEG (R213). -/
def execOpNeg (c : Fin 6) (dd da db : Fin 16) (z : Byte) (s : State) : Out :=
  .next (s.aluR c da db z (db != 0) (fun t a b => let _ := (t, b); toDF dd (sub16 0 a true)))

/-- SHL (R213). -/
def execOpShl (c : Fin 6) (dd da db : Fin 16) (z : Byte) (s : State) : Out :=
  .next (s.aluR c da db z false (fun t a b => toDF dd (shift .shl a (b.toNat % 16) t.flags)))

/-- SHR (R213). -/
def execOpShr (c : Fin 6) (dd da db : Fin 16) (z : Byte) (s : State) : Out :=
  .next (s.aluR c da db z false (fun t a b => toDF dd (shift .shr a (b.toNat % 16) t.flags)))

/-- SAR (R213). -/
def execOpSar (c : Fin 6) (dd da db : Fin 16) (z : Byte) (s : State) : Out :=
  .next (s.aluR c da db z false (fun t a b => toDF dd (shift .sar a (b.toNat % 16) t.flags)))

/-- ROL (R213). -/
def execOpRol (c : Fin 6) (dd da db : Fin 16) (z : Byte) (s : State) : Out :=
  .next (s.aluR c da db z false (fun t a b => toDF dd (shift .rol a (b.toNat % 16) t.flags)))

/-- MUL: distance 3 (R213). -/
def execOpMul (c : Fin 6) (dd da db : Fin 16) (z : Byte) (s : State) : Out :=
  .next (s.aluR c da db z false (fun t a b => let _ := t; { late := [(3, .d dd, a.toNat * b.toNat % 65536)] }))

/-- MULHS: distance 3 (R213). -/
def execOpMulhs (c : Fin 6) (dd da db : Fin 16) (z : Byte) (s : State) : Out :=
  .next (s.aluR c da db z false (fun t a b => let _ := t; { late := [(3, .d dd, ofSigned 16 (a.toInt * b.toInt / 65536))] }))

/-- MULHU: distance 3 (R213). -/
def execOpMulhu (c : Fin 6) (dd da db : Fin 16) (z : Byte) (s : State) : Out :=
  .next (s.aluR c da db z false (fun t a b => let _ := t; { late := [(3, .d dd, a.toNat * b.toNat / 65536)] }))

/-- A product added to the accumulator pair D[DD+1], D[DD], modulo 2^32: distance 3 (R213, R222). -/
def Thread.mac (t : Thread) (dd : Fin 16) (p : Int) : Done :=
  let acc := t.d[dd].toNat + 65536 * t.d[dd + 1].toNat
  let r := ofSigned 32 ((acc : Int) + p)
  { late := [(3, .d dd, r % 65536), (3, .d (dd + 1), r / 65536)] }

/-- MAC; DD odd is illegal (R213). -/
def execOpMac (c : Fin 6) (dd da db : Fin 16) (z : Byte) (s : State) : Out :=
  .next (s.aluR c da db z (dd.val % 2 == 1) (fun t a b => t.mac dd (a.toInt * b.toInt)))

/-- MACU; DD odd is illegal (R213). -/
def execOpMacu (c : Fin 6) (dd da db : Fin 16) (z : Byte) (s : State) : Out :=
  .next (s.aluR c da db z (dd.val % 2 == 1) (fun t a b => t.mac dd (a.toNat * b.toNat : Nat)))

/-- ADDS (R213). -/
def execOpAdds (c : Fin 6) (dd da db : Fin 16) (z : Byte) (s : State) : Out :=
  .next (s.aluR c da db z false (fun t a b => toDF dd (saturate (a.toInt + b.toInt) t.flags)))

/-- SUBS (R213). -/
def execOpSubs (c : Fin 6) (dd da db : Fin 16) (z : Byte) (s : State) : Out :=
  .next (s.aluR c da db z false (fun t a b => toDF dd (saturate (a.toInt - b.toInt) t.flags)))

/-- CRC (R213). -/
def execOpCrc (c : Fin 6) (dd da db : Fin 16) (z : Byte) (s : State) : Out :=
  .next (s.aluR c da db z (db != 0) (fun t a b => let _ := b; toD dd (crcStep t.d[dd] a)))

/-! ## Immediate ALU (R214). Fields DD, DA, IMM; `z` is [17:16]. -/

/-- A format I instruction. -/
def State.aluI (s : State) (c : Fin 6) (da : Fin 16) (z : BitVec 2) (bad : Bool) (f : Thread → Half → Done) : State :=
  s.compute c (z != 0 || bad) (fun t => f t t.d[da])

/-- ADDI (R214). -/
def execOpAddi (c : Fin 6) (dd da : Fin 16) (z : BitVec 2) (imm : Half) (s : State) : Out :=
  .next (s.aluI c da z false (fun t a => let _ := t; toDF dd (add16 a imm false)))

/-- ANDI (R214). -/
def execOpAndi (c : Fin 6) (dd da : Fin 16) (z : BitVec 2) (imm : Half) (s : State) : Out :=
  .next (s.aluI c da z false (fun t a => toD dd (a &&& imm) (some (setnz (a &&& imm) t.flags))))

/-- ORI (R214). -/
def execOpOri (c : Fin 6) (dd da : Fin 16) (z : BitVec 2) (imm : Half) (s : State) : Out :=
  .next (s.aluI c da z false (fun t a => toD dd (a ||| imm) (some (setnz (a ||| imm) t.flags))))

/-- XORI (R214). -/
def execOpXori (c : Fin 6) (dd da : Fin 16) (z : BitVec 2) (imm : Half) (s : State) : Out :=
  .next (s.aluI c da z false (fun t a => toD dd (a ^^^ imm) (some (setnz (a ^^^ imm) t.flags))))

/-- CMPI (R214). -/
def execOpCmpi (c : Fin 6) (dd da : Fin 16) (z : BitVec 2) (imm : Half) (s : State) : Out :=
  .next (s.aluI c da z (dd != 0) (fun t a => let _ := t; { flags := some (sub16 a imm true).2 }))

/-- MOVI (R214). -/
def execOpMovi (c : Fin 6) (dd da : Fin 16) (z : BitVec 2) (imm : Half) (s : State) : Out :=
  .next (s.aluI c da z (da != 0) (fun t a => let _ := (t, a); toD dd imm))

/-- The shift that IMM[5:4] selects. -/
def shiftOf (imm : Half) : ShiftKind :=
  match bits imm.toNat 5 4 with | 0 => .shl | 1 => .shr | 2 => .sar | _ => .rol

/-- SHI (R214). -/
def execOpShi (c : Fin 6) (dd da : Fin 16) (z : BitVec 2) (imm : Half) (s : State) : Out :=
  .next (s.aluI c da z (imm.toNat / 64 != 0) (fun t a => toDF dd (shift (shiftOf imm) a (imm.toNat % 16) t.flags)))

/-! ## Bit fields (R215). Fields DD, DA, POS, LM1; `z` is [15:12], `z2` is [3:0]. -/

/-- A format BF instruction; a field that passes bit 15 is illegal. -/
def State.aluBf (s : State) (c : Fin 6) (da pos lm1 : Fin 16) (z z2 : BitVec 4) (f : Thread → Half → Done) : State :=
  s.compute c (z != 0 || z2 != 0 || decide (16 < pos.val + lm1.val + 1)) (fun t => f t t.d[da])

/-- A field of a value: `len` bits from `pos`. -/
def fieldAt (a : Half) (pos len : Nat) : Nat := a.toNat / 2 ^ pos % 2 ^ len

/-- EXTU (R215). -/
def execOpExtu (c : Fin 6) (dd da pos lm1 : Fin 16) (z z2 : BitVec 4) (s : State) : Out :=
  .next (s.aluBf c da pos lm1 z z2 (fun t a => let _ := t; toD dd (half (fieldAt a pos (lm1 + 1)))))

/-- EXTS (R215). -/
def execOpExts (c : Fin 6) (dd da pos lm1 : Fin 16) (z z2 : BitVec 4) (s : State) : Out :=
  .next (s.aluBf c da pos lm1 z z2 (fun t a => let _ := t; toD dd (half (ofSigned 16 (toSigned (lm1 + 1) (fieldAt a pos (lm1 + 1)))))))

/-- INS (R215). -/
def execOpIns (c : Fin 6) (dd da pos lm1 : Fin 16) (z z2 : BitVec 4) (s : State) : Out :=
  .next (s.aluBf c da pos lm1 z z2 (fun t a => toD dd (half (putBits t.d[dd].toNat (pos + lm1) pos a.toNat))))

/-! ## Pointer operations (R216). `z` holds the bits that must be 0. -/

/-- ADDP: fields PD, PA, IMM; `z` is [25] and [18:16]. -/
def execOpAddp (c : Fin 6) (pd pa : Fin 8) (z : BitVec 4) (imm : Half) (s : State) : Out :=
  .next (s.compute c (z != 0) (fun t => toP pd (t.p[pa] + sext24 imm)))

/-- LPL: PA must be 0. -/
def execOpLpl (c : Fin 6) (pd pa : Fin 8) (z : BitVec 4) (imm : Half) (s : State) : Out :=
  .next (s.compute c (z != 0 || pa != 0) (fun _ => toP pd (zext24 imm)))

/-- LPH: PA and IMM[15:8] must be 0; bits 23-16 merge at landing (R222). -/
def execOpLph (c : Fin 6) (pd pa : Fin 8) (z : BitVec 4) (imm : Half) (s : State) : Out :=
  .next (s.compute c (z != 0 || pa != 0 || imm.toNat / 256 != 0) (fun _ => { late := [(1, .pHi pd, imm.toNat % 256)] }))

/-- ADDPD: fields PD, PA, PB, DX; `z` is [25] and [11:6] (R216). -/
def execOpAddpd (c : Fin 6) (pd pa pb : Fin 8) (dx : Fin 16) (z : BitVec 7) (s : State) : Out :=
  .next (s.compute c (z != 0 || pb != 0) (fun t => toP pd (t.p[pa] + sext24 t.d[dx])))

/-- ADDPU: fields PD, PA, PB, DX; `z` is [25] and [11:6] (R216). -/
def execOpAddpu (c : Fin 6) (pd pa pb : Fin 8) (dx : Fin 16) (z : BitVec 7) (s : State) : Out :=
  .next (s.compute c (z != 0 || pb != 0) (fun t => toP pd (t.p[pa] + zext24 t.d[dx])))

/-- MOVP: fields PD, PA, PB, DX; `z` is [25] and [11:6] (R216). -/
def execOpMovp (c : Fin 6) (pd pa pb : Fin 8) (dx : Fin 16) (z : BitVec 7) (s : State) : Out :=
  .next (s.compute c (z != 0 || pb != 0 || dx != 0) (fun t => toP pd t.p[pa]))

/-- CMPP: fields PD, PA, PB, DX; `z` is [25] and [11:6] (R216). -/
def execOpCmpp (c : Fin 6) (pd pa pb : Fin 8) (dx : Fin 16) (z : BitVec 7) (s : State) : Out :=
  .next (s.compute c (z != 0 || pd != 0 || dx != 0) (fun t => { flags := some (cmp24 t.p[pa] t.p[pb]) }))

/-- DIFP: fields PD, PA, PB, DX; `z` is [25] and [11:6] (R216). -/
def execOpDifp (c : Fin 6) (pd pa pb : Fin 8) (dx : Fin 16) (z : BitVec 7) (s : State) : Out :=
  .next (s.compute c (z != 0 || pd != 0) (fun t => toD dx (half (t.p[pa] - t.p[pb]).toNat)))

/-- MOVDP: fields PD, PA, PB, DX; `z` is [25] and [11:6] (R216). -/
def execOpMovdp (c : Fin 6) (pd pa pb : Fin 8) (dx : Fin 16) (z : BitVec 7) (s : State) : Out :=
  .next (s.compute c (z != 0 || pd != 0 || pb != 0) (fun t => toD dx (half t.p[pa].toNat)))

/-- MOVDPH: fields PD, PA, PB, DX; `z` is [25] and [11:6] (R216). -/
def execOpMovdph (c : Fin 6) (pd pa pb : Fin 8) (dx : Fin 16) (z : BitVec 7) (s : State) : Out :=
  .next (s.compute c (z != 0 || pd != 0 || pb != 0) (fun t => toD dx (half (t.p[pa].toNat / 65536))))

/-- MOVPD: fields PD, PA, PB, DX; `z` is [25] and [11:6] (R216). -/
def execOpMovpd (c : Fin 6) (pd pa pb : Fin 8) (dx : Fin 16) (z : BitVec 7) (s : State) : Out :=
  .next (s.compute c (z != 0 || pa != 0 || pb != 0) (fun t => toP pd (zext24 t.d[dx])))

end Sys2Proof.Machine
end

