-- ==== Sys2Proof/Machine/CpuFlow.lean ====
section
/-! DEFINITION. Branches, loops, control registers and system instructions of Plynnel-16 (R219 to R221, R227 to R229, R237,
R238, R244). -/
namespace Sys2Proof.Machine

/-! ## Branches (R219) -/

/-- A branch that computes its target, or raises an exception on itself. -/
def State.branchInstr (s : State) (c : Fin 6) (bad : Bool) (f : Thread → Option Ptr) (link : Bool) : State :=
  s.instr c .branch (fun _ => bad) (fun s _ t =>
    match f t with
    | some tgt => (.done { branch := some tgt, now := if link then [(.lr, (t.pc + 8).toNat)] else [] }, s)
    | none => (.fault exAlign none, s))

/-- The target in a register, none where it is no multiple of 4. -/
def aligned (p : Ptr) : Option Ptr := if p.toNat % 4 = 0 then some p else none

/-- BCC: fields COND and OFS; the slot executes whether or not the branch is taken. -/
def execOpBcc (c : Fin 6) (cond : Fin 16) (ofs : BitVec 22) (s : State) : Out :=
  .next (s.branchInstr c (cond == 15)
    (fun t => some (if condHolds cond t.flags then t.pc + 4 * ofs.signExtend 24 else t.pc + 8)) false)

/-- J: `z` is [25:22]. -/
def execOpJ (c : Fin 6) (z : BitVec 4) (ofs : BitVec 22) (s : State) : Out :=
  .next (s.branchInstr c (z != 0) (fun _ => some (4 * ofs.zeroExtend 24)) false)

/-- CALL: `z` is [25:22]. -/
def execOpCall (c : Fin 6) (z : BitVec 4) (ofs : BitVec 22) (s : State) : Out :=
  .next (s.branchInstr c (z != 0) (fun _ => some (4 * ofs.zeroExtend 24)) true)

/-- JR: `z` is [23:22] and [18:0]. -/
def execOpJr (c : Fin 6) (pa : Fin 8) (z : BitVec 21) (s : State) : Out :=
  .next (s.branchInstr c (z != 0) (fun t => aligned t.p[pa]) false)

/-- CALLR: `z` is [23:22] and [18:0]. -/
def execOpCallr (c : Fin 6) (pa : Fin 8) (z : BitVec 21) (s : State) : Out :=
  .next (s.branchInstr c (z != 0) (fun t => aligned t.p[pa]) true)

/-- RET: `z` is [23:0]. -/
def execOpRet (c : Fin 6) (z : BitVec 24) (s : State) : Out :=
  .next (s.branchInstr c (z != 0) (fun t => aligned t.lr) false)

/-! ## Hardware loops (R227, R229) -/

/-- A LOOP that R229 makes illegal, or whose DC field has bits beside it. -/
def Thread.loopBad (t : Thread) (lvl : Fin 2) (src : Bool) (count fin : BitVec 12) : Bool :=
  let le := t.pc.toNat + 4 * fin.toNat
  (!src && count.toNat % 256 != 0) || fin == 0 || decide (0xFFFFFF < le + 3) ||
    (if lvl = 0 then t.lc0 != 0 || t.lc1 != 0 else t.lc1 != 0 || (t.lc0 != 0 && decide (t.le0.toNat ≤ le)))

/-- LOOP: fields LVL, SRC, [23:12] (COUNT, or DC above eight bits that must be 0), END. -/
def execOpLoop (c : Fin 6) (lvl : Fin 2) (src : Bool) (count fin : BitVec 12) (s : State) : Out :=
  .next (s.instr c .ctl (fun t => t.loopBad lvl src count fin) (fun s _ t =>
    let n : Nat := if src then count.toNat else t.d[(⟨count.toNat / 256, by omega⟩ : Fin 16)].toNat
    let ls := t.pc + 4
    let le := t.pc + 4 * fin.zeroExtend 24
    let k := 3 * lvl.val
    (.done { now := [(.cr (5 + k), ls.toNat), (.cr (6 + k), le.toNat), (.cr (4 + k), n)]
             next := if n = 0 then some (le + 4) else none }, s)))

/-! ## Control and feature registers (R220, R240, R247) -/

/-- An MTC or MFC whose register is not of the control register's width, or whose CR is not listed. -/
def crBad (cr : BitVec 6) (isP : Bool) (r : Fin 16) (z : BitVec 15) : Bool :=
  z != 0 || crWidth cr.toNat != some (if isP then 24 else 16) || (isP && decide (8 ≤ r.val))

/-- A register of the kind that K names. -/
def Thread.regOf (t : Thread) (isP : Bool) (r : Fin 16) : Nat :=
  if isP then (t.p[(⟨r.val % 8, by omega⟩ : Fin 8)]).toNat else t.d[r].toNat

/-- An MTC that raises PRIV: EPC, CAUSE and the windows while unprivileged, an outer window in either mode (R240). No window
register stands at CR 0x23 + 4w, where an MTC has no effect (R247). -/
def Thread.mtcPriv (t : Thread) (n : Nat) : Bool :=
  let window := decide (0x20 ≤ n) && n % 4 != 3
  (window && decide (n < 0x30)) || (!t.priv && (n = 1 || n = 2 || window))

/-- MTC: fields CR, K, REG; `z` is [14:0]. LR lands at distance 1, any other at 3; CR 0x23 + 4w is no register (R247). -/
def execOpMtc (c : Fin 6) (cr : BitVec 6) (isP : Bool) (r : Fin 16) (z : BitVec 15) (s : State) : Out :=
  .next (s.instr c .plain (fun _ => crBad cr isP r z) (fun s _ t =>
    let n := cr.toNat
    let v := t.regOf isP r
    if t.mtcPriv n then (.fault exPriv none, s)
    else if n = 3 then (.done { late := [(1, .lr, v)] }, s)
    else if n = 0 ∧ !t.priv then (.done { late := [(3, .flags, v)] }, s)
    else if 0x20 ≤ n ∧ n % 4 = 3 then (.done {}, s)
    else (.done { late := [(3, .cr n, v)] }, s)))

/-- MFC: fields CR, K, REG; `z` is [14:0]. A pointer lands at distance 1 (DESIGN CHOICE, log entry 57). -/
def execOpMfc (c : Fin 6) (cr : BitVec 6) (isP : Bool) (r : Fin 16) (z : BitVec 15) (s : State) : Out :=
  .next (s.instr c .plain (fun _ => crBad cr isP r z) (fun s _ t =>
    let v := s.cores[c].crRead t cr.toNat
    if isP then (.done { late := [(1, .p ⟨r.val % 8, by omega⟩, v)] }, s) else (.done { now := [(.d r, v)] }, s)))

/-- The feature registers FEAT0 to FEAT7. -/
def feat (n : Nat) : Half := [0x0203, 0x000F, 0x0124, 0x3132].getD n 0

/-- MFS: fields DD and N; `z` is [21:3]. -/
def execOpMfs (c : Fin 6) (dd : Fin 16) (n : Fin 8) (z : BitVec 19) (s : State) : Out :=
  .next (s.compute c (z != 0) (fun _ => toD dd (feat n)))

/-! ## System instructions (R221). `z` is [25:22]; ARG must be 0 where it is not used. -/

/-- NOP. -/
def execOpNop (c : Fin 6) (z : BitVec 4) (arg : Half) (s : State) : Out :=
  .next (s.compute c (z != 0 || arg != 0) (fun _ => {}))

/-- YIELD (R234). -/
def execOpYield (c : Fin 6) (z : BitVec 4) (arg : Half) (s : State) : Out :=
  .next (s.compute c (z != 0 || arg != 0) (fun _ => { andThen := .yield }))

/-- WAIT (R237). -/
def execOpWait (c : Fin 6) (z : BitVec 4) (arg : Half) (s : State) : Out :=
  .next (s.compute c (z != 0 || arg != 0) (fun _ => { andThen := .wait }))

/-- SIG (R221, R238): ARG is a line from 32 to 47. -/
def execOpSig (c : Fin 6) (z : BitVec 4) (arg : Half) (s : State) : Out :=
  .next (s.instr c .plain (fun _ => z != 0 || arg.toNat < 32 || 47 < arg.toNat) (fun s _ _ => (.done {}, s.post c arg.toNat)))

/-- SYSCALL: the handler reads ARG from the word (R241). -/
def execOpSyscall (c : Fin 6) (z : BitVec 4) (arg : Half) (s : State) : Out :=
  let _ := arg
  .next (s.instr c .ctl (fun _ => z != 0) (fun s _ _ => (.fault exSyscall none, s)))

/-- BREAK: the handler reads ARG from the word (R241). -/
def execOpBreak (c : Fin 6) (z : BitVec 4) (arg : Half) (s : State) : Out :=
  let _ := arg
  .next (s.instr c .ctl (fun _ => z != 0) (fun s _ _ => (.fault exBreak none, s)))

/-- ERET (R240, R244). -/
def execOpEret (c : Fin 6) (z : BitVec 4) (arg : Half) (s : State) : Out :=
  .next (s.instr c .ctl (fun _ => z != 0 || arg != 0) (fun s _ t =>
    if t.priv then (.done { next := some t.epc, eret := true }, s) else (.fault exPriv none, s)))

/-- FENCE (R218): stores are complete when they are made here, so it changes nothing else. -/
def execOpFence (c : Fin 6) (z : BitVec 4) (arg : Half) (s : State) : Out :=
  .next (s.compute c (z != 0 || arg != 0) (fun _ => {}))

/-- RESULT_LANDING (R222): the results of a thread that are due at its position land. -/
def execResultLanding (c : Fin 6) (t : Fin 4) (s : State) : Out :=
  .next (s.modCore c (fun k => k.landAt t k.thr[t].pos))

end Sys2Proof.Machine
end

