-- ==== Sys2Proof/Machine/CpuMem.lean ====
section
/-! DEFINITION. The memory instructions of Plynnel-16 (R217). Fields T, PB, AM, IMM; for a pointer register `z` is [25]. -/
namespace Sys2Proof.Machine

/-- LDB (R217). -/
def execOpLdb (c : Fin 6) (t : Fin 16) (pb am : Fin 8) (imm : Half) (s : State) : Out :=
  .next (s.loadInstr c false pb am imm 1 (.d t) (fun v => v))

/-- LDBS (R217). -/
def execOpLdbs (c : Fin 6) (t : Fin 16) (pb am : Fin 8) (imm : Half) (s : State) : Out :=
  .next (s.loadInstr c false pb am imm 1 (.d t) (fun v => ofSigned 16 (toSigned 8 v)))

/-- LDH (R217). -/
def execOpLdh (c : Fin 6) (t : Fin 16) (pb am : Fin 8) (imm : Half) (s : State) : Out :=
  .next (s.loadInstr c false pb am imm 2 (.d t) (fun v => v))

/-- LDP: with POST or PRE, a destination that is the base is illegal (R217). -/
def execOpLdp (c : Fin 6) (t : Fin 8) (z : Bool) (pb am : Fin 8) (imm : Half) (s : State) : Out :=
  .next (s.loadInstr c (z || (t == pb && (am == 1 || am == 2))) pb am imm 4 (.p t) (fun v => v % 2 ^ 24))

/-- STB (R217). -/
def execOpStb (c : Fin 6) (t : Fin 16) (pb am : Fin 8) (imm : Half) (s : State) : Out :=
  .next (s.storeInstr c false pb am imm 1 (fun th => th.d[t].toNat % 256))

/-- STH (R217). -/
def execOpSth (c : Fin 6) (t : Fin 16) (pb am : Fin 8) (imm : Half) (s : State) : Out :=
  .next (s.storeInstr c false pb am imm 2 (fun th => th.d[t].toNat))

/-- STP: the pointer as it stands before a write-back (R217). -/
def execOpStp (c : Fin 6) (t : Fin 8) (z : Bool) (pb am : Fin 8) (imm : Half) (s : State) : Out :=
  .next (s.storeInstr c z pb am imm 4 (fun th => th.p[t].toNat))

end Sys2Proof.Machine
end

