-- ==== Sys2Proof/Machine/Trowel.lean ====
section
/-! DEFINITION. The TROWEL debug port (R403 to R408). A command is one whole transaction; `good` is the parity of the
debugger's data phase. What it returns is seen; a FAULT is seen as refused, and its reason is kept for STATUS. -/
namespace Sys2Proof.Machine

/-! ## Levels and faults (R405, R407) -/

abbrev twDenied : BitVec 3 := 1
abbrev twBadCmd : BitVec 3 := 2
abbrev twBadArg : BitVec 3 := 3
abbrev twNotHalted : BitVec 3 := 4
abbrev twBusErr : BitVec 3 := 5
abbrev twParity : BitVec 3 := 6

/-- The access level: 2 Full in BLANK and RETURN, 1 OPEN world only in PROVISION, 0 Closed. -/
def State.twLevel (s : State) : Nat :=
  match s.fld F.ID_LIFECYCLE_STATE with | 0 => 2 | 3 => 2 | 1 => 1 | _ => 0

/-- A command ends FAULT. -/
def State.twFault (s : State) (r : BitVec 3) : State := (s.modDebug (fun d => { d with reason := r })).see .refused

/-- The port answers: the host I/O domain is on, the device is not in reset, and its pins are not the test port's (DESIGN CHOICE,
log entry 106: asleep or halted it does not answer). -/
def State.twOn (s : State) : Bool := s.hostIo && s.alive && !s.dbg.scan

/-- A command: nothing answers a port that is off; a level below the one it needs ends DENIED; a data phase of wrong parity
is discarded. -/
def State.twCmd (s : State) (need : Nat) (good : Bool) (f : State → State) : State :=
  if !s.twOn then s
  else if s.twLevel < need then s.twFault twDenied
  else if !good then s.modDebug (fun d => { d with reason := twParity })
  else f s

/-- A command of a core: 6 and 7 name none; at the OPEN level only cores 2 to 5 are reached. -/
def State.twCore (s : State) (core : Fin 8) (good : Bool) (f : State → Fin 6 → State) : State :=
  s.twCmd 1 true (fun s =>
    if h : core.val < 6 then
      if s.twLevel = 1 ∧ core.val < 2 then s.twFault twDenied
      else s.twCmd 1 good (fun s => f s ⟨core.val, h⟩)
    else s.twFault twBadArg)

/-- The status word of R407 for a core. -/
def State.twStatus (s : State) (core : Fin 8) : Half :=
  let (hit, halted) : Bool × Nat :=
    if h : core.val < 6 then
      let k := s.cores[core.val]
      (k.bkhit, [(0 : Fin 4), 1, 2, 3].foldl (fun v t => v + bit k.thr[t].halted * 2 ^ t.val) 0)
    else (false, 0)
  half (s.fld F.ID_LIFECYCLE_STATE * 8192 + s.twLevel * 2048 + bit hit * 1024 + halted * 64 + s.dbg.reason.toNat * 8)

/-- TROWEL_STATUS (R407). -/
def execTrowelStatus (core : Fin 8) (s : State) : Out :=
  .next (s.twCmd 0 true (fun s =>
    let w := s.twStatus core
    let s := s.modDebug (fun d => { d with reason := 0 })
    let s := if h : core.val < 6 then s.modCore ⟨core.val, h⟩ (fun k => { k with bkhit := false }) else s
    s.see (.value w)))

/-! ## Memory (R404, R405) -/

/-- TROWEL_ADDR (R404). -/
def execTrowelAddr (a : BitVec 24) (good : Bool) (s : State) : Out :=
  .next (s.twCmd 1 good (fun s =>
    if a.toNat % 2 = 1 then s.twFault twBadArg
    else s.modDebug (fun d => { d with addr := a, held := if d.addr = a then d.held else none })))

/-- At the OPEN level, SRAM and MRAM are reached only inside an enabled outer window of some application core (R405). -/
def State.twWindow (s : State) (a : Nat) : Bool :=
  s.twLevel = 2 || !(placeOf a == .sram || placeOf a == .mram) ||
    apps.any (fun c => [(0 : Fin 8), 1, 2, 3].any (fun w =>
      let x := s.cores[c].win[w]
      x.attr.getLsbD 15 && decide (x.base.toNat / 16 * 16 ≤ a) && decide (a ≤ x.limit.toNat / 16 * 16 + 15)))

/-- The core whose core-local region the port reaches; at the OPEN level an application core's only (DESIGN CHOICE, log entry 106:
a CORE that names no core reaches the other regions). -/
def State.twLocal (s : State) (core : Fin 8) (a : Nat) : Option (Fin 6) :=
  if h : core.val < 6 then
    if placeOf a == .coreLocal && s.twLevel == 1 && decide (core.val < 2) then none else some ⟨core.val, h⟩
  else if placeOf a == .coreLocal then none else some 0

/-- The address register moves on. -/
def State.twNext (s : State) : State := s.modDebug (fun d => { d with addr := d.addr + 2 })

/-- An access takes its turn at a bank or at the MRAM port, and may be waiting for it at the ACK (R404). -/
abbrev twTurn (a : Nat) : Bool := placeOf a == .sram || placeOf a == .mram

/-- RD16 and WR16 are answered WAIT until a WR16 has completed (R404); when it does is a free value (log entry 106). -/
def State.twFree (s : State) (f : State → State) : State :=
  if !s.dbg.writing then f s
  else
    let (n, s) := s.draw 2
    if n = 0 then s.see .wait else f (s.modDebug (fun d => { d with writing := false }))

/-- RD16 has its value `v`; where its turn may be late, whether it came by the ACK is a free value (log entry 106). -/
def State.twGive (s : State) (late : Bool) (v : Half) : State :=
  let done (s : State) : State := (s.modDebug (fun d => { d with held := none })).twNext.see (.value v)
  if !late then done s
  else
    let (n, s) := s.draw 2
    if n = 0 then (s.modDebug (fun d => { d with held := some (d.addr, v) })).see .wait else done s

/-- TROWEL_RD16 (R404, R405, R266): a repeated one has its value without a second access. Which refusals are DENIED and which BUSERR is a
DESIGN CHOICE, log entry 106. -/
def execTrowelRd16 (core : Fin 8) (s : State) : Out :=
  .next (s.twCmd 1 true (fun s => s.twFree (fun s =>
    let a := s.dbg.addr.toNat
    if !s.twWindow a then s.twFault twDenied
    else match s.twLocal core a, s.dbg.held with
      | none, _ => s.twFault twDenied
      | some _, some (b, v) => if b = s.dbg.addr then s.twGive true v else s.twFault twBusErr
      | some c, none => match s.busRead (.trowel (s.twLevel = 2)) c a 2 with
        | (.value v, s) => s.twGive (twTurn a) (half v)
        | (_, s) => s.twFault twBusErr)))

/-- TROWEL_WR16 (R404, R405): a refused access ends FAULT before the data phase; the write may take its turn after the command
(DESIGN CHOICE, log entry 106: memory has it at once). -/
def execTrowelWr16 (core : Fin 8) (w : Half) (good : Bool) (s : State) : Out :=
  .next (s.twCmd 1 true (fun s => s.twFree (fun s =>
    let a := s.dbg.addr.toNat
    let m : Master := .trowel (s.twLevel = 2)
    if !s.twWindow a then s.twFault twDenied
    else match s.twLocal core a with
      | none => s.twFault twDenied
      | some c =>
        if !admitted m a 2 true then s.twFault twBusErr
        else s.twCmd 1 good (fun s => match s.busWrite m c a 2 w.toNat with
          | some s =>
            let (n, s) := if twTurn a then s.draw 2 else (1, s)
            (s.modDebug (fun d => { d with held := none, writing := n = 0 })).twNext
          | none => s))))

/-! ## Threads (R406) -/

/-- TROWEL_HALT (R406): a thread in RUN halts at its next boundary; any other at once. -/
def execTrowelHalt (core : Fin 8) (t : Fin 4) (s : State) : Out :=
  .next (s.twCore core true (fun s c =>
    if (s.thr c t).halted then s
    else if (s.thr c t).st = .run then s.modThr c t (fun th => { th with haltReq := true })
    else s.haltThread c t))

/-- THREAD_HALT_TAKES_EFFECT (R406): at a boundary that does not fall between a branch and its slot. -/
def execThreadHaltTakesEffect (c : Fin 6) (t : Fin 4) (s : State) : Out :=
  .next (if (s.thr c t).haltReq ∧ (s.thr c t).slot.isNone then s.haltThread c t else s)

/-- A command of a halted thread whose selected register passes `sel`; the data phase comes after the ACK. -/
def State.twHalted (s : State) (core : Fin 8) (t : Fin 4) (sel : Thread → Bool) (good : Bool) (f : State → Fin 6 → State) : State :=
  s.twCore core true (fun s c =>
    if !(s.thr c t).halted then s.twFault twNotHalted
    else if !sel (s.thr c t) then s.twFault twBadArg
    else s.twCmd 1 good (fun s => f s c))

/-- TROWEL_RESUME (R406): the thread goes on; an asynchronous exception that was held for EXL = 1 is taken if EXL has become 0 (R239). -/
def execTrowelResume (core : Fin 8) (t : Fin 4) (s : State) : Out :=
  .next (s.twHalted core t (fun _ => true) true (fun s c => (s.modCore c (fun k =>
    ({ k with thr := k.thr.set t { k.thr[t] with halted := false } } : Core).wakeup)).takeHeld c t))

/-- TROWEL_STEP (R406): the thread may execute one step, whose instruction is the next command of its core (DESIGN CHOICE,
log entries 89 and 106). -/
def execTrowelStep (core : Fin 8) (t : Fin 4) (s : State) : Out :=
  .next (s.twHalted core t (fun _ => true) true (fun s c =>
    if (s.thr c t).st = .wait then s.twFault twNotHalted
    else if (s.thr c t).st = .dead then s
    else s.modThr c t (fun th => { th with stepping := true })))

/-- TROWEL_RSEL (R406). -/
def execTrowelRsel (core : Fin 8) (t : Fin 4) (sel : Byte) (good : Bool) (s : State) : Out :=
  .next (s.twCore core good (fun s c => s.modThr c t (fun th => { th with rsel := sel })))

/-- What RSEL selects: a data register, a pointer, LR, the PC, a control register. -/
inductive Sel where
  | d (i : Fin 16) | p (i : Fin 8) | lr | pc | cr (n : Nat)
  deriving DecidableEq, Repr

/-- The register of a selection, none for any other value (R406). -/
def selOf (v : Nat) : Option Sel :=
  if v < 0x10 then some (.d ⟨v % 16, by omega⟩)
  else if v < 0x18 then some (.p ⟨v % 8, by omega⟩)
  else if v = 0x18 then some .lr
  else if v = 0x19 then some .pc
  else if 0x20 ≤ v ∧ v ≤ 0x29 then some (.cr (v - 0x20))
  else if 0x40 ≤ v ∧ v < 0x60 then some (.cr (v - 0x20))
  else none

/-- RSEL selects a register. -/
def Thread.selOk (t : Thread) : Bool := (selOf t.rsel.toNat).isSome

/-- TROWEL_RRD (R404, R406). -/
def execTrowelRrd (core : Fin 8) (t : Fin 4) (s : State) : Out :=
  .next (s.twHalted core t Thread.selOk true (fun s c =>
    let th := s.thr c t
    let v : Option Nat := (selOf th.rsel.toNat).map (fun x => match x with
      | .d i => th.d[i].toNat | .p i => th.p[i].toNat | .lr => th.lr.toNat | .pc => th.pc.toNat
      | .cr n => s.cores[c].crRead th n)
    match v with
    | some v => s.see (.octets (beOctets 3 v))
    | none => s.twFault twBadArg))

/-- An RWR of this value would change a read-only field: WORLD or a reserved bit of PSW or CAUSE, an outer window (R406). -/
def State.twReadOnly (s : State) (c : Fin 6) (t : Fin 4) (n v : Nat) : Bool :=
  let th := s.thr c t
  if n = 0 then (half v ^^^ th.psw) &&& 0x1000 != 0
  else decide (0x20 ≤ n) && decide (n < 0x30)

/-- TROWEL_RWR (R406): the write lands at once. A PC that is no multiple of 4 takes a free value (DESIGN CHOICE, log entry 55). -/
def execTrowelRwr (core : Fin 8) (t : Fin 4) (v : BitVec 24) (good : Bool) (s : State) : Out :=
  .next (s.twHalted core t Thread.selOk good (fun s c =>
    match selOf (s.thr c t).rsel.toNat with
    | none => s.twFault twBadArg
    | some (.cr n) =>
      if s.twReadOnly c t n v.toNat then s.twFault twDenied
      else s.modCore c (fun k => k.landOne t ⟨0, .cr n, v.toNat⟩)
    | some (.d i) => s.modCore c (fun k => k.landOne t ⟨0, .d i, v.toNat⟩)
    | some (.p i) => s.modCore c (fun k => k.landOne t ⟨0, .p i, v.toNat⟩)
    | some .lr => s.modCore c (fun k => k.landOne t ⟨0, .lr, v.toNat⟩)
    | some .pc =>
      let (pc, s) := s.pcOf v
      s.modThr c t (fun th => { th with pc := pc })))

/-! ## Breakpoints (R404, R406) -/

/-- TROWEL_BKPT (R404): the slot is bits 1-0 of the data. -/
def execTrowelBkpt (core : Fin 8) (t : Fin 4) (v : BitVec 24) (good : Bool) (s : State) : Out :=
  .next (s.twCore core good (fun s c => s.modCore c (fun k =>
    let i := fin4 v.toNat
    { k with bkpt := k.bkpt.set i (BitVec.ofNat 24 (v.toNat / 4 * 4), k.bkpt[i].2), bkthr := k.bkthr.set i t })))

/-- TROWEL_BKCTL (R404): bits 7-4 must be 0. -/
def execTrowelBkctl (core : Fin 8) (v : Byte) (good : Bool) (s : State) : Out :=
  .next (s.twCore core good (fun s c =>
    if v.toNat / 16 ≠ 0 then s.twFault twBadArg
    else s.modCore c (fun k => { k with bkpt := #v[(k.bkpt[0].1, v.getLsbD 0), (k.bkpt[1].1, v.getLsbD 1),
      (k.bkpt[2].1, v.getLsbD 2), (k.bkpt[3].1, v.getLsbD 3)] })))

/-- BREAKPOINT_HIT (R406): the thread that executes next reaches an enabled slot's address; `branch`: the instruction there
is a branch, whose delay slot counts too. -/
def execBreakpointHit (c : Fin 6) (branch : Bool) (s : State) : Out :=
  .next (match s.cpuThread c with
    | some t => match s.bkMatch c t branch with
      | some i => s.bkHalt c t i
      | none => s
    | none => s)

/-! ## The device and the port (R403, R404, R408) -/

/-- TROWEL_RESET (R404). -/
def execTrowelReset (s : State) : Out := .next (s.twCmd 2 true (fun s => s.deviceReset rcTrowel))

/-- TROWEL_SCAN (R408): the controller enters Test-Logic-Reset, which selects BYPASS (R409). -/
def execTrowelScan (s : State) : Out :=
  .next (s.twCmd 2 true (fun s =>
    let old := s.gpioLevels
    (s.modDebug (fun d => { d with scan := true, tap := .testLogicReset, ir := 15 })).gpioSettle old))

/-- TROWEL_BADCMD (R404): commands 0xE and 0xF; a level that admits STATUS only ends them DENIED. -/
def execTrowelBadcmd (s : State) : Out :=
  .next (s.twCmd 0 true (fun s => s.twFault (if s.twLevel = 0 then twDenied else twBadCmd)))

/-- TROWEL_REQUEST_ERROR (R403): no ACK is driven, and nothing is done. -/
def execTrowelRequestError (s : State) : Out := .next s

/-- TROWEL_LINE_RESET (R403): the port returns to idle; a transaction is one command here, so none is under way. Under boundary scan the
clocks are TCK edges with TMS high (R408). -/
def execTrowelLineReset (s : State) : Out :=
  .next (if s.dbg.scan && s.hostIo then s.tapClocks (List.replicate 32 true) else s)

/-! ## Requests on the wire (R403, R404) -/

/-- How many of the bits `lo` to `hi` of a request are 1. -/
def ones (w : BitVec 12) (lo hi : Nat) : Nat := ((List.range (hi + 1 - lo)).map (fun i => bit (w.getLsbD (lo + i)))).foldl (· + ·) 0

/-- A request of 12 clocks, bit 0 the first (R403): CMD, CORE and THREAD; none where the start or stop bit or the parity is wrong. -/
def twRequest (w : BitVec 12) : Option (Nat × Fin 8 × Fin 4) :=
  if w.getLsbD 0 ∨ !w.getLsbD 11 ∨ ones w 1 10 % 2 = 1 then none
  else some (bits w.toNat 4 1, ⟨bits w.toNat 7 5 % 8, by omega⟩, fin4 (bits w.toNat 9 8))

/-- The command that a transaction on the wire is (R403, R404): the request's 12 clocks, and the data phase with whether its parity is
right. A request that is not good is a request error. -/
def twTransaction (w : BitVec 12) (data : BitVec 24) (good : Bool) (s : State) : Out :=
  match twRequest w with
  | none => execTrowelRequestError s
  | some (cmd, core, t) => match cmd with
    | 0x0 => execTrowelStatus core s
    | 0x1 => execTrowelAddr data good s
    | 0x2 => execTrowelRd16 core s
    | 0x3 => execTrowelWr16 core (half data.toNat) good s
    | 0x4 => execTrowelHalt core t s
    | 0x5 => execTrowelResume core t s
    | 0x6 => execTrowelStep core t s
    | 0x7 => execTrowelRsel core t (byte data.toNat) good s
    | 0x8 => execTrowelRrd core t s
    | 0x9 => execTrowelRwr core t data good s
    | 0xA => execTrowelBkpt core t data good s
    | 0xB => execTrowelBkctl core (byte data.toNat) good s
    | 0xC => execTrowelReset s
    | 0xD => execTrowelScan s
    | _ => execTrowelBadcmd s

end Sys2Proof.Machine
end

