-- ==== Sys2Proof/Machine/Dispatch.lean ====
section
/-! DEFINITION. The meaning of each command: one direct call of its definition. -/
namespace Sys2Proof.Machine

/-- The effect of a command on everything but the queue. -/
def exec (i : Instr) (s : State) : Host.Outcome State Fault Refusal :=
  match i with
  | .registerWrite m a w => Sys2Proof.Machine.execRegisterWrite m a w s
  | .rclRead m a => Sys2Proof.Machine.execRclRead m a s
  | .snapshotRead m a => Sys2Proof.Machine.execSnapshotRead m a s
  | .ashlarCounterGroupRead m tenant => Sys2Proof.Machine.execAshlarCounterGroupRead m tenant s
  | .xoHfLoss => Sys2Proof.Machine.execXoHfLoss s
  | .feEnable b w => Sys2Proof.Machine.execFeEnable b w s
  | .loLock b => Sys2Proof.Machine.execLoLock b s
  | .feCorrectionsApply b => Sys2Proof.Machine.execFeCorrectionsApply b s
  | .feReady b => Sys2Proof.Machine.execFeReady b s
  | .lockFail b => Sys2Proof.Machine.execLockFail b s
  | .lockLost b => Sys2Proof.Machine.execLockLost b s
  | .feDisable b w => Sys2Proof.Machine.execFeDisable b w s
  | .feDisableTakesEffect b => Sys2Proof.Machine.execFeDisableTakesEffect b s
  | .rfeSpanWrite b w => Sys2Proof.Machine.execRfeSpanWrite b w s
  | .levelWindow b lvl => Sys2Proof.Machine.execLevelWindow b lvl s
  | .overload x => Sys2Proof.Machine.execOverload x s
  | .gainStep b => Sys2Proof.Machine.execGainStep b s
  | .gainMarker b => Sys2Proof.Machine.execGainMarker b s
  | .calRequestRc b => Sys2Proof.Machine.execCalRequestRc b s
  | .calRequestDc b => Sys2Proof.Machine.execCalRequestDc b s
  | .calRequestIq b => Sys2Proof.Machine.execCalRequestIq b s
  | .calibrationStart b => Sys2Proof.Machine.execCalibrationStart b s
  | .calibrationEnd b m => Sys2Proof.Machine.execCalibrationEnd b m s
  | .xoTrimWrite w => Sys2Proof.Machine.execXoTrimWrite w s
  | .txConfigWrite b r w => Sys2Proof.Machine.execTxConfigWrite b r w s
  | .femRegisterWrite b p k w => Sys2Proof.Machine.execFemRegisterWrite b p k w s
  | .burstSequencingStart b => Sys2Proof.Machine.execBurstSequencingStart b s
  | .femTxEdge b p => Sys2Proof.Machine.execFemTxEdge b p s
  | .driverRampUp b => Sys2Proof.Machine.execDriverRampUp b s
  | .carrierStart b => Sys2Proof.Machine.execCarrierStart b s
  | .carrierEnd b => Sys2Proof.Machine.execCarrierEnd b s
  | .burstEnd b => Sys2Proof.Machine.execBurstEnd b s
  | .driverOff b => Sys2Proof.Machine.execDriverOff b s
  | .femRxEdge b p => Sys2Proof.Machine.execFemRxEdge b p s
  | .burstMuteEnd b => Sys2Proof.Machine.execBurstMuteEnd b s
  | .dgainAdjust n lvl => Sys2Proof.Machine.execDgainAdjust n lvl s
  | .notchEngage x => Sys2Proof.Machine.execNotchEngage x s
  | .preambleDetect n x => Sys2Proof.Machine.execPreambleDetect n x s
  | .preambleLost x => Sys2Proof.Machine.execPreambleLost x s
  | .sfdTimeout n => Sys2Proof.Machine.execSfdTimeout n s
  | .sfdFound n coded errs => Sys2Proof.Machine.execSfdFound n coded errs s
  | .phrValid n phr octets => Sys2Proof.Machine.execPhrValid n phr octets s
  | .phrRejected n phr => Sys2Proof.Machine.execPhrRejected n phr s
  | .laneHandoff n rssi snr err => Sys2Proof.Machine.execLaneHandoff n rssi snr err s
  | .dfeAdaptResume n => Sys2Proof.Machine.execDfeAdaptResume n s
  | .recArm => Sys2Proof.Machine.execRecArm s
  | .recStop => Sys2Proof.Machine.execRecStop s
  | .recSwtrig => Sys2Proof.Machine.execRecSwtrig s
  | .recArmed => Sys2Proof.Machine.execRecArmed s
  | .recGroupComplete data => Sys2Proof.Machine.execRecGroupComplete data s
  | .recDone => Sys2Proof.Machine.execRecDone s
  | .recConfigWrite r w => Sys2Proof.Machine.execRecConfigWrite r w s
  | .courseRun startAt => Sys2Proof.Machine.execCourseRun startAt s
  | .courseRunClear startAt => Sys2Proof.Machine.execCourseRunClear startAt s
  | .courseStopTakesEffect => Sys2Proof.Machine.execCourseStopTakesEffect s
  | .courseTick => Sys2Proof.Machine.execCourseTick s
  | .planLock => Sys2Proof.Machine.execPlanLock s
  | .shadowCopyDone => Sys2Proof.Machine.execShadowCopyDone s
  | .planCommit => Sys2Proof.Machine.execPlanCommit s
  | .planCheckDone => Sys2Proof.Machine.execPlanCheckDone s
  | .shadowWrite x w => Sys2Proof.Machine.execShadowWrite x w s
  | .courseAdjWrite w => Sys2Proof.Machine.execCourseAdjWrite w s
  | .courseWallWrite w => Sys2Proof.Machine.execCourseWallWrite w s
  | .courseCfgWrite r w => Sys2Proof.Machine.execCourseCfgWrite r w s
  | .idleWindowOpen => Sys2Proof.Machine.execIdleWindowOpen s
  | .idleWindowClose => Sys2Proof.Machine.execIdleWindowClose s
  | .txEntryTest e => Sys2Proof.Machine.execTxEntryTest e s
  | .ccaWindowEnd e dbm => Sys2Proof.Machine.execCcaWindowEnd e dbm s
  | .courseTxendRead => Sys2Proof.Machine.execCourseTxendRead s
  | .dutyBucketRoll k => Sys2Proof.Machine.execDutyBucketRoll k s
  | .dutyAccountEnable k w => Sys2Proof.Machine.execDutyAccountEnable k w s
  | .macfDecision n => Sys2Proof.Machine.execMacfDecision n s
  | .hodIngest n => Sys2Proof.Machine.execHodIngest n s
  | .hodSettle n => Sys2Proof.Machine.execHodSettle n s
  | .hodRdWrite d => Sys2Proof.Machine.execHodRdWrite d s
  | .hodEnable w => Sys2Proof.Machine.execHodEnable w s
  | .hodDisable w => Sys2Proof.Machine.execHodDisable w s
  | .ashlarLookup n inTime => Sys2Proof.Machine.execAshlarLookup n inTime s
  | .ashlarMicCheck n => Sys2Proof.Machine.execAshlarMicCheck n s
  | .verdictDeadline n => Sys2Proof.Machine.execVerdictDeadline n s
  | .ashlarCommit n => Sys2Proof.Machine.execAshlarCommit n s
  | .leaseWrite => Sys2Proof.Machine.execLeaseWrite s
  | .leaseCommitted => Sys2Proof.Machine.execLeaseCommitted s
  | .leaseWriteFailed => Sys2Proof.Machine.execLeaseWriteFailed s
  | .leaseSweep => Sys2Proof.Machine.execLeaseSweep s
  | .leaseSegmentReclaim => Sys2Proof.Machine.execLeaseSegmentReclaim s
  | .ashlarEnable => Sys2Proof.Machine.execAshlarEnable s
  | .ashlarDisable => Sys2Proof.Machine.execAshlarDisable s
  | .ashlarCmdRestore => Sys2Proof.Machine.execAshlarCmdRestore s
  | .hkDraw => Sys2Proof.Machine.execHkDraw s
  | .restoreDone => Sys2Proof.Machine.execRestoreDone s
  | .ashlarCmdRebuild => Sys2Proof.Machine.execAshlarCmdRebuild s
  | .rebuildStart => Sys2Proof.Machine.execRebuildStart s
  | .rebuildDone => Sys2Proof.Machine.execRebuildDone s
  | .tenantEpochWrite w => Sys2Proof.Machine.execTenantEpochWrite w s
  | .entryOpRead => Sys2Proof.Machine.execEntryOpRead s
  | .entryOpInsert => Sys2Proof.Machine.execEntryOpInsert s
  | .entryOpDelete => Sys2Proof.Machine.execEntryOpDelete s
  | .entryOpSetPend => Sys2Proof.Machine.execEntryOpSetPend s
  | .entryOpClrPend => Sys2Proof.Machine.execEntryOpClrPend s
  | .entryOpSetQuar => Sys2Proof.Machine.execEntryOpSetQuar s
  | .entryOpClrQuar => Sys2Proof.Machine.execEntryOpClrQuar s
  | .entryOpPurge => Sys2Proof.Machine.execEntryOpPurge s
  | .entryOpBadop op => Sys2Proof.Machine.execEntryOpBadop op s
  | .entryOpDone => Sys2Proof.Machine.execEntryOpDone s
  | .purgeDone => Sys2Proof.Machine.execPurgeDone s
  | .cryptoEnable => Sys2Proof.Machine.execCryptoEnable s
  | .cryptoDisable => Sys2Proof.Machine.execCryptoDisable s
  | .cryptoQueueWrite c w => Sys2Proof.Machine.execCryptoQueueWrite c w s
  | .jobCbcEnc => Sys2Proof.Machine.execJobCbcEnc s
  | .jobCbcDec => Sys2Proof.Machine.execJobCbcDec s
  | .jobCfbEnc => Sys2Proof.Machine.execJobCfbEnc s
  | .jobCfbDec => Sys2Proof.Machine.execJobCfbDec s
  | .jobCtr => Sys2Proof.Machine.execJobCtr s
  | .jobCmac => Sys2Proof.Machine.execJobCmac s
  | .jobCcmEnc => Sys2Proof.Machine.execJobCcmEnc s
  | .jobCcmDec => Sys2Proof.Machine.execJobCcmDec s
  | .cryptoJobDone k => Sys2Proof.Machine.execCryptoJobDone k s
  | .keysLeaseCommit ok => Sys2Proof.Machine.execKeysLeaseCommit ok s
  | .pkeShaInit c => Sys2Proof.Machine.execPkeShaInit c s
  | .pkeShaUpdate c => Sys2Proof.Machine.execPkeShaUpdate c s
  | .pkeShaFinal c => Sys2Proof.Machine.execPkeShaFinal c s
  | .pkeVerify c => Sys2Proof.Machine.execPkeVerify c s
  | .pkeSign c slot ident => Sys2Proof.Machine.execPkeSign c slot ident s
  | .pkeEcdh c slot ident => Sys2Proof.Machine.execPkeEcdh c slot ident s
  | .pkeKeygen c slot => Sys2Proof.Machine.execPkeKeygen c slot s
  | .pkeCheck c => Sys2Proof.Machine.execPkeCheck c s
  | .pkeBadop c op => Sys2Proof.Machine.execPkeBadop c op s
  | .pkeOpDone => Sys2Proof.Machine.execPkeOpDone s
  | .trngReseed => Sys2Proof.Machine.execTrngReseed s
  | .trngRestart => Sys2Proof.Machine.execTrngRestart s
  | .trngStartupDone first rest => Sys2Proof.Machine.execTrngStartupDone first rest s
  | .drbgAutoReseed => Sys2Proof.Machine.execDrbgAutoReseed s
  | .healthTestFail samples => Sys2Proof.Machine.execHealthTestFail samples s
  | .trngOutRead => Sys2Proof.Machine.execTrngOutRead s
  | .keysImport c => Sys2Proof.Machine.execKeysImport c s
  | .keysDerive c => Sys2Proof.Machine.execKeysDerive c s
  | .keysGenerate c => Sys2Proof.Machine.execKeysGenerate c s
  | .keysDestroy c => Sys2Proof.Machine.execKeysDestroy c s
  | .keysTransfer c => Sys2Proof.Machine.execKeysTransfer c s
  | .keysDrop c => Sys2Proof.Machine.execKeysDrop c s
  | .keysLcNonce c => Sys2Proof.Machine.execKeysLcNonce c s
  | .keysLcChange c => Sys2Proof.Machine.execKeysLcChange c s
  | .keysBadop c op => Sys2Proof.Machine.execKeysBadop c op s
  | .keysCmdDone => Sys2Proof.Machine.execKeysCmdDone s
  | .lcTransitionDone => Sys2Proof.Machine.execLcTransitionDone s
  | .accessEnable root => Sys2Proof.Machine.execAccessEnable root s
  | .accessDisable root => Sys2Proof.Machine.execAccessDisable root s
  | .lfTelegramStart => Sys2Proof.Machine.execLfTelegramStart s
  | .challengeEnd => Sys2Proof.Machine.execChallengeEnd s
  | .responseTimeout => Sys2Proof.Machine.execResponseTimeout s
  | .plumbSessionStart calInt => Sys2Proof.Machine.execPlumbSessionStart calInt s
  | .plumbRequestTimeout => Sys2Proof.Machine.execPlumbRequestTimeout s
  | .plumbRound coarse pa1 pa2 b detected => Sys2Proof.Machine.execPlumbRound coarse pa1 pa2 b detected s
  | .plumbPinsRestore => Sys2Proof.Machine.execPlumbPinsRestore s
  | .plumbEnd => Sys2Proof.Machine.execPlumbEnd s
  | .reportTimeout => Sys2Proof.Machine.execReportTimeout s
  | .accessLogCommitted ok => Sys2Proof.Machine.execAccessLogCommitted ok s
  | .releasePulseEnd => Sys2Proof.Machine.execReleasePulseEnd s
  | .lockReadbackFault => Sys2Proof.Machine.execLockReadbackFault s
  | .lockoutEnd => Sys2Proof.Machine.execLockoutEnd s
  | .lockSecTick => Sys2Proof.Machine.execLockSecTick s
  | .lfOvercurrent n => Sys2Proof.Machine.execLfOvercurrent n s
  | .lfOpenCheck n peak => Sys2Proof.Machine.execLfOpenCheck n peak s
  | .lfBurstEnd peakA peakB peakC peakD => Sys2Proof.Machine.execLfBurstEnd peakA peakB peakC peakD s
  | .vlfLowChange low => Sys2Proof.Machine.execVlfLowChange low s
  | .lfTuneRequest mask => Sys2Proof.Machine.execLfTuneRequest mask s
  | .lfTuneStart => Sys2Proof.Machine.execLfTuneStart s
  | .lfTuneDone a b c d => Sys2Proof.Machine.execLfTuneDone a b c d s
  | .pollBurst => Sys2Proof.Machine.execPollBurst s
  | .accessTblLoad => Sys2Proof.Machine.execAccessTblLoad s
  | .accessTblCopyDone => Sys2Proof.Machine.execAccessTblCopyDone s
  | .opAdd c dd da db z => Sys2Proof.Machine.execOpAdd c dd da db z s
  | .opAddc c dd da db z => Sys2Proof.Machine.execOpAddc c dd da db z s
  | .opSub c dd da db z => Sys2Proof.Machine.execOpSub c dd da db z s
  | .opSubc c dd da db z => Sys2Proof.Machine.execOpSubc c dd da db z s
  | .opAnd c dd da db z => Sys2Proof.Machine.execOpAnd c dd da db z s
  | .opOr c dd da db z => Sys2Proof.Machine.execOpOr c dd da db z s
  | .opXor c dd da db z => Sys2Proof.Machine.execOpXor c dd da db z s
  | .opCmp c dd da db z => Sys2Proof.Machine.execOpCmp c dd da db z s
  | .opTst c dd da db z => Sys2Proof.Machine.execOpTst c dd da db z s
  | .opMov c dd da db z => Sys2Proof.Machine.execOpMov c dd da db z s
  | .opNot c dd da db z => Sys2Proof.Machine.execOpNot c dd da db z s
  | .opNeg c dd da db z => Sys2Proof.Machine.execOpNeg c dd da db z s
  | .opShl c dd da db z => Sys2Proof.Machine.execOpShl c dd da db z s
  | .opShr c dd da db z => Sys2Proof.Machine.execOpShr c dd da db z s
  | .opSar c dd da db z => Sys2Proof.Machine.execOpSar c dd da db z s
  | .opRol c dd da db z => Sys2Proof.Machine.execOpRol c dd da db z s
  | .opMul c dd da db z => Sys2Proof.Machine.execOpMul c dd da db z s
  | .opMulhs c dd da db z => Sys2Proof.Machine.execOpMulhs c dd da db z s
  | .opMulhu c dd da db z => Sys2Proof.Machine.execOpMulhu c dd da db z s
  | .opMac c dd da db z => Sys2Proof.Machine.execOpMac c dd da db z s
  | .opMacu c dd da db z => Sys2Proof.Machine.execOpMacu c dd da db z s
  | .opAdds c dd da db z => Sys2Proof.Machine.execOpAdds c dd da db z s
  | .opSubs c dd da db z => Sys2Proof.Machine.execOpSubs c dd da db z s
  | .opCrc c dd da db z => Sys2Proof.Machine.execOpCrc c dd da db z s
  | .opAddi c dd da z imm => Sys2Proof.Machine.execOpAddi c dd da z imm s
  | .opAndi c dd da z imm => Sys2Proof.Machine.execOpAndi c dd da z imm s
  | .opOri c dd da z imm => Sys2Proof.Machine.execOpOri c dd da z imm s
  | .opXori c dd da z imm => Sys2Proof.Machine.execOpXori c dd da z imm s
  | .opCmpi c dd da z imm => Sys2Proof.Machine.execOpCmpi c dd da z imm s
  | .opMovi c dd da z imm => Sys2Proof.Machine.execOpMovi c dd da z imm s
  | .opShi c dd da z imm => Sys2Proof.Machine.execOpShi c dd da z imm s
  | .opExtu c dd da pos lm1 z z2 => Sys2Proof.Machine.execOpExtu c dd da pos lm1 z z2 s
  | .opExts c dd da pos lm1 z z2 => Sys2Proof.Machine.execOpExts c dd da pos lm1 z z2 s
  | .opIns c dd da pos lm1 z z2 => Sys2Proof.Machine.execOpIns c dd da pos lm1 z z2 s
  | .opAddp c pd pa z imm => Sys2Proof.Machine.execOpAddp c pd pa z imm s
  | .opLpl c pd pa z imm => Sys2Proof.Machine.execOpLpl c pd pa z imm s
  | .opLph c pd pa z imm => Sys2Proof.Machine.execOpLph c pd pa z imm s
  | .opAddpd c pd pa pb dx z => Sys2Proof.Machine.execOpAddpd c pd pa pb dx z s
  | .opAddpu c pd pa pb dx z => Sys2Proof.Machine.execOpAddpu c pd pa pb dx z s
  | .opMovp c pd pa pb dx z => Sys2Proof.Machine.execOpMovp c pd pa pb dx z s
  | .opCmpp c pd pa pb dx z => Sys2Proof.Machine.execOpCmpp c pd pa pb dx z s
  | .opDifp c pd pa pb dx z => Sys2Proof.Machine.execOpDifp c pd pa pb dx z s
  | .opMovdp c pd pa pb dx z => Sys2Proof.Machine.execOpMovdp c pd pa pb dx z s
  | .opMovdph c pd pa pb dx z => Sys2Proof.Machine.execOpMovdph c pd pa pb dx z s
  | .opMovpd c pd pa pb dx z => Sys2Proof.Machine.execOpMovpd c pd pa pb dx z s
  | .opLdb c t pb am imm => Sys2Proof.Machine.execOpLdb c t pb am imm s
  | .opLdbs c t pb am imm => Sys2Proof.Machine.execOpLdbs c t pb am imm s
  | .opLdh c t pb am imm => Sys2Proof.Machine.execOpLdh c t pb am imm s
  | .opLdp c t z pb am imm => Sys2Proof.Machine.execOpLdp c t z pb am imm s
  | .opStb c t pb am imm => Sys2Proof.Machine.execOpStb c t pb am imm s
  | .opSth c t pb am imm => Sys2Proof.Machine.execOpSth c t pb am imm s
  | .opStp c t z pb am imm => Sys2Proof.Machine.execOpStp c t z pb am imm s
  | .opBcc c cond ofs => Sys2Proof.Machine.execOpBcc c cond ofs s
  | .opJ c z ofs => Sys2Proof.Machine.execOpJ c z ofs s
  | .opCall c z ofs => Sys2Proof.Machine.execOpCall c z ofs s
  | .opJr c pa z => Sys2Proof.Machine.execOpJr c pa z s
  | .opCallr c pa z => Sys2Proof.Machine.execOpCallr c pa z s
  | .opRet c z => Sys2Proof.Machine.execOpRet c z s
  | .opLoop c lvl src count fin => Sys2Proof.Machine.execOpLoop c lvl src count fin s
  | .opMtc c cr isP r z => Sys2Proof.Machine.execOpMtc c cr isP r z s
  | .opMfc c cr isP r z => Sys2Proof.Machine.execOpMfc c cr isP r z s
  | .opMfs c dd n z => Sys2Proof.Machine.execOpMfs c dd n z s
  | .opNop c z arg => Sys2Proof.Machine.execOpNop c z arg s
  | .opYield c z arg => Sys2Proof.Machine.execOpYield c z arg s
  | .opWait c z arg => Sys2Proof.Machine.execOpWait c z arg s
  | .opSig c z arg => Sys2Proof.Machine.execOpSig c z arg s
  | .opSyscall c z arg => Sys2Proof.Machine.execOpSyscall c z arg s
  | .opBreak c z arg => Sys2Proof.Machine.execOpBreak c z arg s
  | .opEret c z arg => Sys2Proof.Machine.execOpEret c z arg s
  | .opFence c z arg => Sys2Proof.Machine.execOpFence c z arg s
  | .resultLanding c t => Sys2Proof.Machine.execResultLanding c t s
  | .threadStart c mask => Sys2Proof.Machine.execThreadStart c mask s
  | .threadKill c mask => Sys2Proof.Machine.execThreadKill c mask s
  | .eventLinePost c l => Sys2Proof.Machine.execEventLinePost c l s
  | .eventPendClear c w v => Sys2Proof.Machine.execEventPendClear c w v s
  | .stall c => Sys2Proof.Machine.execStall c s
  | .mailboxWrite k c w => Sys2Proof.Machine.execMailboxWrite k c w s
  | .mailboxRead k c => Sys2Proof.Machine.execMailboxRead k c s
  | .doorbell c mask => Sys2Proof.Machine.execDoorbell c mask s
  | .wdtEnable c => Sys2Proof.Machine.execWdtEnable c s
  | .wdtKick c w => Sys2Proof.Machine.execWdtKick c w s
  | .wdtStage1Expiry c => Sys2Proof.Machine.execWdtStage1Expiry c s
  | .wdtStage2Expiry c => Sys2Proof.Machine.execWdtStage2Expiry c s
  | .admitWrite w => Sys2Proof.Machine.execAdmitWrite w s
  | .nvmcCfgWrite => Sys2Proof.Machine.execNvmcCfgWrite s
  | .nvmcCfgRead => Sys2Proof.Machine.execNvmcCfgRead s
  | .nvmcEvtWrite => Sys2Proof.Machine.execNvmcEvtWrite s
  | .nvmcImgWrite => Sys2Proof.Machine.execNvmcImgWrite s
  | .nvmcImgErase => Sys2Proof.Machine.execNvmcImgErase s
  | .nvmcBadop op => Sys2Proof.Machine.execNvmcBadop op s
  | .nvmcCmdDone fails => Sys2Proof.Machine.execNvmcCmdDone fails s
  | .nvmcPortRecord src => Sys2Proof.Machine.execNvmcPortRecord src s
  | .nvmcRecordDone src fails => Sys2Proof.Machine.execNvmcRecordDone src fails s
  | .segmentEraseDone => Sys2Proof.Machine.execSegmentEraseDone s
  | .imgLockSet w => Sys2Proof.Machine.execImgLockSet w s
  | .plRequest target => Sys2Proof.Machine.execPlRequest target s
  | .plChangeStart => Sys2Proof.Machine.execPlChangeStart s
  | .plDividerSwitch => Sys2Proof.Machine.execPlDividerSwitch s
  | .plChangeDone => Sys2Proof.Machine.execPlChangeDone s
  | .sleepNap => Sys2Proof.Machine.execSleepNap s
  | .sleepShelf => Sys2Proof.Machine.execSleepShelf s
  | .sleepPlinth => Sys2Proof.Machine.execSleepPlinth s
  | .sleepEntryDone => Sys2Proof.Machine.execSleepEntryDone s
  | .sleepAbandon => Sys2Proof.Machine.execSleepAbandon s
  | .wakeSourceRise src => Sys2Proof.Machine.execWakeSourceRise src s
  | .sleepTimerExpiry => Sys2Proof.Machine.execSleepTimerExpiry s
  | .napResume => Sys2Proof.Machine.execNapResume s
  | .xoEnable w => Sys2Proof.Machine.execXoEnable w s
  | .xoStable => Sys2Proof.Machine.execXoStable s
  | .pllEnable w => Sys2Proof.Machine.execPllEnable w s
  | .pllLock => Sys2Proof.Machine.execPllLock s
  | .clockSourceSwitch src => Sys2Proof.Machine.execClockSourceSwitch src s
  | .supplySagHalt how => Sys2Proof.Machine.execSupplySagHalt how s
  | .vbakSwitchover => Sys2Proof.Machine.execVbakSwitchover s
  | .powerOnReset => Sys2Proof.Machine.execPowerOnReset s
  | .pinReset => Sys2Proof.Machine.execPinReset s
  | .softwareReset key => Sys2Proof.Machine.execSoftwareReset key s
  | .resetRelease => Sys2Proof.Machine.execResetRelease s
  | .bootRomSequence clkOk nvOk run cal => Sys2Proof.Machine.execBootRomSequence clkOk nvOk run cal s
  | .coreRelease n => Sys2Proof.Machine.execCoreRelease n s
  | .coreReset n => Sys2Proof.Machine.execCoreReset n s
  | .dmaStart k => Sys2Proof.Machine.execDmaStart k s
  | .dmaDone k => Sys2Proof.Machine.execDmaDone k s
  | .dmaStopError k => Sys2Proof.Machine.execDmaStopError k s
  | .tempConversion deg => Sys2Proof.Machine.execTempConversion deg s
  | .plinthPowerUp => Sys2Proof.Machine.execPlinthPowerUp s
  | .rtcTick => Sys2Proof.Machine.execRtcTick s
  | .rtcSetCommit w => Sys2Proof.Machine.execRtcSetCommit w s
  | .hourShiftForward => Sys2Proof.Machine.execHourShiftForward s
  | .hourShiftBack => Sys2Proof.Machine.execHourShiftBack s
  | .xoLfStop => Sys2Proof.Machine.execXoLfStop s
  | .xoLfRestart => Sys2Proof.Machine.execXoLfRestart s
  | .rtcAlarmCommit w => Sys2Proof.Machine.execRtcAlarmCommit w s
  | .trimWindowClose => Sys2Proof.Machine.execTrimWindowClose s
  | .trimWindowVoid => Sys2Proof.Machine.execTrimWindowVoid s
  | .mainsEdge => Sys2Proof.Machine.execMainsEdge s
  | .mainsLoss => Sys2Proof.Machine.execMainsLoss s
  | .plinthMainsWrite w => Sys2Proof.Machine.execPlinthMainsWrite w s
  | .tamperEdge n rising => Sys2Proof.Machine.execTamperEdge n rising s
  | .trickleWrite w => Sys2Proof.Machine.execTrickleWrite w s
  | .timerCompareFire k => Sys2Proof.Machine.execTimerCompareFire k s
  | .timerCntCommit k w => Sys2Proof.Machine.execTimerCntCommit k w s
  | .timerCmpCommit k w => Sys2Proof.Machine.execTimerCmpCommit k w s
  | .timerRun k w => Sys2Proof.Machine.execTimerRun k w s
  | .timerStop k w => Sys2Proof.Machine.execTimerStop k w s
  | .timerCapture k e => Sys2Proof.Machine.execTimerCapture k e s
  | .timerCapRead k => Sys2Proof.Machine.execTimerCapRead k s
  | .spiStatus => Sys2Proof.Machine.execSpiStatus s
  | .spiWrite data frac => Sys2Proof.Machine.execSpiWrite data frac s
  | .spiRead n => Sys2Proof.Machine.execSpiRead n s
  | .spiBadop => Sys2Proof.Machine.execSpiBadop s
  | .hostifInRelease => Sys2Proof.Machine.execHostifInRelease s
  | .hrdyNotch => Sys2Proof.Machine.execHrdyNotch s
  | .hrdyNotchEnd => Sys2Proof.Machine.execHrdyNotchEnd s
  | .hostifQueueWrite w => Sys2Proof.Machine.execHostifQueueWrite w s
  | .hostifEnable w => Sys2Proof.Machine.execHostifEnable w s
  | .hostifDisable w => Sys2Proof.Machine.execHostifDisable w s
  | .uartFrame l => Sys2Proof.Machine.execUartFrame l s
  | .uartGapTimeout => Sys2Proof.Machine.execUartGapTimeout s
  | .uartDataWrite w => Sys2Proof.Machine.execUartDataWrite w s
  | .uartDataRead => Sys2Proof.Machine.execUartDataRead s
  | .channelReset k => Sys2Proof.Machine.execChannelReset k s
  | .sysHello k h p => Sys2Proof.Machine.execSysHello k h p s
  | .sysPing k h p => Sys2Proof.Machine.execSysPing k h p s
  | .sysInfo k h p => Sys2Proof.Machine.execSysInfo k h p s
  | .sysEvtMask k h p => Sys2Proof.Machine.execSysEvtMask k h p s
  | .sysReset k h p => Sys2Proof.Machine.execSysReset k h p s
  | .sysStats k h p => Sys2Proof.Machine.execSysStats k h p s
  | .pwrPlSet k h p => Sys2Proof.Machine.execPwrPlSet k h p s
  | .pwrPlGet k h p => Sys2Proof.Machine.execPwrPlGet k h p s
  | .pwrSleep k h p => Sys2Proof.Machine.execPwrSleep k h p s
  | .pwrMains k h p => Sys2Proof.Machine.execPwrMains k h p s
  | .timeGet k h p => Sys2Proof.Machine.execTimeGet k h p s
  | .timeSet k h p => Sys2Proof.Machine.execTimeSet k h p s
  | .timeShift k h p => Sys2Proof.Machine.execTimeShift k h p s
  | .timeTrim k h p => Sys2Proof.Machine.execTimeTrim k h p s
  | .timeAlarm k h p => Sys2Proof.Machine.execTimeAlarm k h p s
  | .radioFeCfg k h p => Sys2Proof.Machine.execRadioFeCfg k h p s
  | .radioFeEn k h p => Sys2Proof.Machine.execRadioFeEn k h p s
  | .radioCal k h p => Sys2Proof.Machine.execRadioCal k h p s
  | .radioRoute k h p => Sys2Proof.Machine.execRadioRoute k h p s
  | .radioSend k h p => Sys2Proof.Machine.execRadioSend k h p s
  | .radioLaneStats k h p => Sys2Proof.Machine.execRadioLaneStats k h p s
  | .radioRecord k h p => Sys2Proof.Machine.execRadioRecord k h p s
  | .radioRecRead k h p => Sys2Proof.Machine.execRadioRecRead k h p s
  | .courseCfg k h p => Sys2Proof.Machine.execCourseCfg k h p s
  | .courseStart k h p => Sys2Proof.Machine.execCourseStart k h p s
  | .courseStop k h p => Sys2Proof.Machine.execCourseStop k h p s
  | .courseLanes k h p => Sys2Proof.Machine.execCourseLanes k h p s
  | .courseHoplist k h p => Sys2Proof.Machine.execCourseHoplist k h p s
  | .courseDuty k h p => Sys2Proof.Machine.execCourseDuty k h p s
  | .ashlarTenant k h p => Sys2Proof.Machine.execAshlarTenant k h p s
  | .ashlarEpoch k h p => Sys2Proof.Machine.execAshlarEpoch k h p s
  | .ashlarEntry k h p => Sys2Proof.Machine.execAshlarEntry k h p s
  | .ashlarRebuild k h p => Sys2Proof.Machine.execAshlarRebuild k h p s
  | .ashlarCounters k h p => Sys2Proof.Machine.execAshlarCounters k h p s
  | .keyImport k h p => Sys2Proof.Machine.execKeyImport k h p s
  | .keyDerive k h p => Sys2Proof.Machine.execKeyDerive k h p s
  | .keyGenerate k h p => Sys2Proof.Machine.execKeyGenerate k h p s
  | .keyDestroy k h p => Sys2Proof.Machine.execKeyDestroy k h p s
  | .keyTransfer k h p => Sys2Proof.Machine.execKeyTransfer k h p s
  | .keyDrop k h p => Sys2Proof.Machine.execKeyDrop k h p s
  | .keyAttr k h p => Sys2Proof.Machine.execKeyAttr k h p s
  | .keyIdpub k h p => Sys2Proof.Machine.execKeyIdpub k h p s
  | .keyLcNonce k h p => Sys2Proof.Machine.execKeyLcNonce k h p s
  | .keyLcChange k h p => Sys2Proof.Machine.execKeyLcChange k h p s
  | .keyCipher k h p => Sys2Proof.Machine.execKeyCipher k h p s
  | .accessCfg k h p => Sys2Proof.Machine.execAccessCfg k h p s
  | .accessTablePut k h p => Sys2Proof.Machine.execAccessTablePut k h p s
  | .accessTableLoad k h p => Sys2Proof.Machine.execAccessTableLoad k h p s
  | .accessStatus k h p => Sys2Proof.Machine.execAccessStatus k h p s
  | .accessTune k h p => Sys2Proof.Machine.execAccessTune k h p s
  | .accessPlumbCal k h p => Sys2Proof.Machine.execAccessPlumbCal k h p s
  | .fabricCfg k h p => Sys2Proof.Machine.execFabricCfg k h p s
  | .fabricStart k h p => Sys2Proof.Machine.execFabricStart k h p s
  | .fabricStop k h p => Sys2Proof.Machine.execFabricStop k h p s
  | .fabricStatus k h p => Sys2Proof.Machine.execFabricStatus k h p s
  | .fabricNeighbours k h p => Sys2Proof.Machine.execFabricNeighbours k h p s
  | .fabricSend k h p => Sys2Proof.Machine.execFabricSend k h p s
  | .fabricRoutes k h p => Sys2Proof.Machine.execFabricRoutes k h p s
  | .assayRun k h p => Sys2Proof.Machine.execAssayRun k h p s
  | .assaySchedule k h p => Sys2Proof.Machine.execAssaySchedule k h p s
  | .assayResults k h p => Sys2Proof.Machine.execAssayResults k h p s
  | .updateBegin k h p => Sys2Proof.Machine.execUpdateBegin k h p s
  | .updateChunk k h p => Sys2Proof.Machine.execUpdateChunk k h p s
  | .updateVerify k h p => Sys2Proof.Machine.execUpdateVerify k h p s
  | .updateActivate k h p => Sys2Proof.Machine.execUpdateActivate k h p s
  | .updateState k h p => Sys2Proof.Machine.execUpdateState k h p s
  | .updateAbort k h p => Sys2Proof.Machine.execUpdateAbort k h p s
  | .logRead k h p => Sys2Proof.Machine.execLogRead k h p s
  | .logWrite k h p => Sys2Proof.Machine.execLogWrite k h p s
  | .fabricHelloSend => Sys2Proof.Machine.execFabricHelloSend s
  | .fabricHelloReceive => Sys2Proof.Machine.execFabricHelloReceive s
  | .neighbourRemove => Sys2Proof.Machine.execNeighbourRemove s
  | .joinReqSend => Sys2Proof.Machine.execJoinReqSend s
  | .joinReqRelay => Sys2Proof.Machine.execJoinReqRelay s
  | .joinRspReceive => Sys2Proof.Machine.execJoinRspReceive s
  | .joinTimeout => Sys2Proof.Machine.execJoinTimeout s
  | .routeAdvSend => Sys2Proof.Machine.execRouteAdvSend s
  | .routeAdvReceive => Sys2Proof.Machine.execRouteAdvReceive s
  | .routeExpiry => Sys2Proof.Machine.execRouteExpiry s
  | .dataForward => Sys2Proof.Machine.execDataForward s
  | .parentLost => Sys2Proof.Machine.execParentLost s
  | .timeOffsetUpdate => Sys2Proof.Machine.execTimeOffsetUpdate s
  | .sliceLane t => Sys2Proof.Machine.execSliceLane t s
  | .sliceAes t => Sys2Proof.Machine.execSliceAes t s
  | .sliceLf t => Sys2Proof.Machine.execSliceLf t s
  | .sliceAdcRef t => Sys2Proof.Machine.execSliceAdcRef t s
  | .sliceIqLoop t => Sys2Proof.Machine.execSliceIqLoop t s
  | .sliceSramMarch t => Sys2Proof.Machine.execSliceSramMarch t s
  | .sliceLaneModes t => Sys2Proof.Machine.execSliceLaneModes t s
  | .sliceTxLoop t => Sys2Proof.Machine.execSliceTxLoop t s
  | .slicePkeKat t => Sys2Proof.Machine.execSlicePkeKat t s
  | .sliceMramScan t => Sys2Proof.Machine.execSliceMramScan t s
  | .assayRequestCheck => Sys2Proof.Machine.execAssayRequestCheck s
  | .sliceStart => Sys2Proof.Machine.execSliceStart s
  | .supplyCheckEnd mv => Sys2Proof.Machine.execSupplyCheckEnd mv s
  | .sliceReturn m d short => Sys2Proof.Machine.execSliceReturn m d short s
  | .sliceOverrun => Sys2Proof.Machine.execSliceOverrun s
  | .requestExpired => Sys2Proof.Machine.execRequestExpired s
  | .assayDisable => Sys2Proof.Machine.execAssayDisable s
  | .assayScheduleTick slice => Sys2Proof.Machine.execAssayScheduleTick slice s
  | .handoverStandbyReady => Sys2Proof.Machine.execHandoverStandbyReady s
  | .handoverReadyTimeout => Sys2Proof.Machine.execHandoverReadyTimeout s
  | .handoverCutoverStart => Sys2Proof.Machine.execHandoverCutoverStart s
  | .handoverAccept accepts => Sys2Proof.Machine.execHandoverAccept accepts s
  | .handoverDecision => Sys2Proof.Machine.execHandoverDecision s
  | .handoverTakeover _ok => Sys2Proof.Machine.execHandoverTakeover _ok s
  | .recordMigration => Sys2Proof.Machine.execRecordMigration s
  | .trowelStatus core => Sys2Proof.Machine.execTrowelStatus core s
  | .trowelAddr a good => Sys2Proof.Machine.execTrowelAddr a good s
  | .trowelRd16 core => Sys2Proof.Machine.execTrowelRd16 core s
  | .trowelWr16 core w good => Sys2Proof.Machine.execTrowelWr16 core w good s
  | .trowelHalt core t => Sys2Proof.Machine.execTrowelHalt core t s
  | .trowelResume core t => Sys2Proof.Machine.execTrowelResume core t s
  | .trowelStep core t => Sys2Proof.Machine.execTrowelStep core t s
  | .trowelRsel core t sel good => Sys2Proof.Machine.execTrowelRsel core t sel good s
  | .trowelRrd core t => Sys2Proof.Machine.execTrowelRrd core t s
  | .trowelRwr core t v good => Sys2Proof.Machine.execTrowelRwr core t v good s
  | .trowelBkpt core t v good => Sys2Proof.Machine.execTrowelBkpt core t v good s
  | .trowelBkctl core v good => Sys2Proof.Machine.execTrowelBkctl core v good s
  | .trowelReset => Sys2Proof.Machine.execTrowelReset s
  | .trowelScan => Sys2Proof.Machine.execTrowelScan s
  | .trowelBadcmd => Sys2Proof.Machine.execTrowelBadcmd s
  | .trowelRequestError => Sys2Proof.Machine.execTrowelRequestError s
  | .trowelLineReset => Sys2Proof.Machine.execTrowelLineReset s
  | .threadHaltTakesEffect c t => Sys2Proof.Machine.execThreadHaltTakesEffect c t s
  | .breakpointHit c branch => Sys2Proof.Machine.execBreakpointHit c branch s
  | .jtagExtest ext shifted => Sys2Proof.Machine.execJtagExtest ext shifted s
  | .jtagSamplePreload ext shifted => Sys2Proof.Machine.execJtagSamplePreload ext shifted s
  | .jtagBypass => Sys2Proof.Machine.execJtagBypass s
  | .gpioEdge n rising => Sys2Proof.Machine.execGpioEdge n rising s
  | .ppsInEdge => Sys2Proof.Machine.execPpsInEdge s
  | .uartOctetReceived b ferr => Sys2Proof.Machine.execUartOctetReceived b ferr s
  | .uartOctetSent => Sys2Proof.Machine.execUartOctetSent s
  | .vioLoss => Sys2Proof.Machine.execVioLoss s
  | .vioReturn => Sys2Proof.Machine.execVioReturn s
  | .plinthSupplyLoss => Sys2Proof.Machine.execPlinthSupplyLoss s
  | .plinthFeedVmain => Sys2Proof.Machine.execPlinthFeedVmain s

end Sys2Proof.Machine
end

