-- ==== Sys2Proof/Machine/Idle.lean ====
section
/-! DEFINITION. What the machine does when no command waits: one HF tick passes, and Lintel firmware does its work between
commands (DESIGN CHOICE, log entry 1). -/
namespace Sys2Proof.Machine

/-- An HF tick of XO_HF (R90): the recorder's FIFO gives one group to general SRAM (R88), and the captures that time has brought
about land (R322, R323); TRNG_OUT takes fresh bits where it holds none (R166). -/
def State.tick (s : State) : State :=
  if s.sys.xoRun then forEach [0, 1, 2, 3, 4, 5, 6, 7] { s with hft := s.hft + 1 }.recDrain.trngFill (fun s (k : Fin 8) => s.tmrSettle k)
  else s

/-- The step on an empty queue. -/
def State.idle (s : State) : State := s.tick.loopKicks.adsinPump

end Sys2Proof.Machine
end

