-- ==== Sys2Proof/Machine/Fetch.lean ====
section
/-! DEFINITION. The cores execute what stands in memory while no command waits: one instruction a core and idle step (R206, R207,
R211; DESIGN CHOICE, log entry 60). -/
namespace Sys2Proof.Machine

/-- What a core does at its next instruction boundary. -/
inductive Turn where
  /-- No thread executes, or the boot ROM's words, which the spec does not give, stand at its PC. -/
  | rest
  /-- The word at the PC spells an instruction. -/
  | run (i : Instr)
  /-- It spells none, or no fetch is made there. -/
  | bad
  deriving DecidableEq, Repr

/-- The next instruction of a core (R206): the four octets at the PC of the thread that executes, the least significant first. -/
def State.turn (s : State) (c : Fin 6) : Turn :=
  match s.cpuThread c with
  | none => .rest
  | some t =>
    let a := (s.thr c t).pc.toNat
    let of (w : Nat) : Turn := match plynnel c (BitVec.ofNat 32 w) with | some i => .run i | none => .bad
    match placeSpan a 4 with
    | .rom => if c.val < 2 then .rest else .bad
    | .sram => of (leNat (s.sramTake a 4))
    | .mram => of (leNat (s.mramTake a 4))
    | _ => .bad

/-- A word that spells no instruction raises the illegal-instruction exception, and a fetch that is refused its own, in the order
of R241 (R211). -/
def State.noInstr (s : State) (c : Fin 6) : State := s.instr c .plain (fun _ => true) (fun s _ _ => (.done {}, s))

/-- One core takes its turn. -/
def State.coreTurn (s : State) (c : Fin 6) : State :=
  match s.turn c with
  | .rest => s
  | .bad => s.noInstr c
  | .run i => match exec i s with
    | .next t => t
    | _ => s

/-- The step on an empty queue: a tick passes, Lintel firmware works, and every core takes its turn. -/
def State.idleStep (s : State) : State := forEach allCores s.idle State.coreTurn

end Sys2Proof.Machine
end

