-- ==== Sys2Proof/Machine/Step.lean ====
section
/-! DEFINITION. One step: the command at the front of the queue, or the idle step. -/
namespace Sys2Proof.Machine

/-- Take the command at the front of the queue and run it on the rest; with none waiting, the idle step (DESIGN CHOICE, log entries 1
and 60). -/
def step (s : State) : Host.Outcome State Fault Refusal :=
  match s.pending with
  | [] => .next s.idleStep
  | c :: rest => exec c { s with pending := rest }

/-- The command that a word spells goes to the front of the queue; the table gives no row bits, so that no word spells one and
the state stays as it is. -/
def State.withFetchWord (s : State) (nbits w : Nat) : State :=
  match decodeTableWord nbits w with
  | some c => { s with pending := c :: s.pending }
  | none => s

end Sys2Proof.Machine
end

