-- ==== Sys2Proof/Safety.lean ====
section
/-! DEFINITION. The terms that statements use: a safe step, the frame of a command, and the canonical form of the state. -/
namespace Sys2Proof
open Machine

/-- A step that neither faults nor refuses. -/
def Safe (s : State) : Prop := ∃ t, step s = .next t

/-- The canonical form of a memory whose unlisted octets read `d`. -/
def Memory.wf (m : Memory) (d : Byte) : Bool := sparseWf (fun _ => d) m

/-- Every register but those listed reads as before. -/
def SameRegs (s t : State) (l : List Nat) : Prop := ∀ a, a ∉ l → t.reg a = s.reg a

/-- The memories read as before. -/
def SameMemory (s t : State) : Prop := t.sram = s.sram ∧ t.recRam = s.recRam ∧ t.mram = s.mram ∧ t.mramFlip = s.mramFlip

/-- The register files and the memories are in their canonical form: equal contents are equal data. -/
def Canonical (s : State) : Prop :=
  sparseWf regReset s.regs = true ∧ sparseWf regReset s.inForce = true ∧ sparseWf regReset s.snap = true ∧
  Memory.wf s.sram 0 = true ∧ Memory.wf s.recRam 0 = true ∧ Memory.wf s.mram 0xFF = true ∧ sparseWf (fun _ => 0) s.mramFlip = true

/-- Core `c` executes its next instruction on thread `t` with no halt, breakpoint, fetch fault or misplacement (R211, R229, R241,
R406); in `u` its word has been fetched, and with it the line of MRAM that holds it (R264). -/
def Executes (s : State) (c : Fin 6) (t : Fin 4) (shape : Shape) (u : State) : Prop :=
  u = s.fetchLine c (s.thr c t).pc.toNat ∧
  s.cpuThread c = some t ∧ ((s.thr c t).haltReq = false ∨ (s.thr c t).slot ≠ none) ∧ s.bkMatch c t (shape == .branch) = none ∧
  s.fetchFault c t = none ∧ (shape ≠ .plain → (s.thr c t).slot = none ∧ (s.thr c t).atLe = false) ∧
  (shape = .plain → (s.thr c t).slot = none ∨ (s.thr c t).atLe = false) ∧ (s.thr c t).st ≠ .dead ∧ s.sys.inReset = false

/-- The operation code of an entry operation command (R152). -/
def entryCode : Instr → Option Nat
  | .entryOpRead => some 1 | .entryOpInsert => some 2 | .entryOpDelete => some 3 | .entryOpSetPend => some 4
  | .entryOpClrPend => some 5 | .entryOpSetQuar => some 6 | .entryOpClrQuar => some 7 | .entryOpPurge => some 8
  | .entryOpBadop op => if 1 ≤ op.val ∧ op.val ≤ 8 then none else some op.val
  | _ => none

/-- The MODE of a job command (R158). -/
def jobMode : Instr → Option Nat
  | .jobCbcEnc => some 1 | .jobCbcDec => some 2 | .jobCfbEnc => some 3 | .jobCfbDec => some 4 | .jobCtr => some 5
  | .jobCmac => some 6 | .jobCcmEnc => some 7 | .jobCcmDec => some 8 | _ => none

/-- The core and the operation code of a KEYS command (R173). -/
def keysCode : Instr → Option (Fin 2 × Nat)
  | .keysImport c => some (c, 1) | .keysDerive c => some (c, 2) | .keysGenerate c => some (c, 3) | .keysDestroy c => some (c, 4)
  | .keysTransfer c => some (c, 5) | .keysDrop c => some (c, 6) | .keysLcNonce c => some (c, 7) | .keysLcChange c => some (c, 8)
  | .keysBadop c op => if 1 ≤ op.val ∧ op.val ≤ 8 then none else some (c, op.val)
  | _ => none

/-- The core and the command word of a PKE command (R163, R165). -/
def pkeCode : Instr → Option (Fin 2 × Half)
  | .pkeShaInit c => some (c, 1) | .pkeShaUpdate c => some (c, 2) | .pkeShaFinal c => some (c, 3) | .pkeVerify c => some (c, 4)
  | .pkeSign c slot ident => some (c, half (bit ident * 32768 + slot.val * 256 + 5))
  | .pkeEcdh c slot ident => some (c, half (bit ident * 32768 + slot.val * 256 + 6))
  | .pkeKeygen c slot => some (c, half (slot.val * 256 + 7)) | .pkeCheck c => some (c, 8)
  | .pkeBadop c op => if 1 ≤ op.val ∧ op.val ≤ 8 then none else some (c, half op.val)
  | _ => none

/-- KEYS ends a command with a RESULT, `t` being what it has done (R173): the ports and PKE it held are free, BUSY is clear, and the event is
raised. -/
def keysEnded (s t : State) (c : KeysCmd) (r : Nat) : State :=
  let u := if c.stores = true then (t.modKeys (fun k => { k with cmd := none })).keysUnport else t.modKeys (fun k => { k with cmd := none })
  let v := if c.op = 1 then (u.modPke (fun p => { p with held := false })).setFlag F.PKE_STATUS_BUSY false else u
  let w := (((v.setFld F.KEYS_STATUS_RESULT r).setFlag F.KEYS_STATUS_BUSY false).raise 8).accessRootCheck (s.rootUsable s.access.sess.slot)
  if r = kDone then w.complete .keys stOk 0 (if c.op = 7 then w.nonceWords else []) else w.complete .keys stFail r []

/-- The operation code of an NVMC command (R278). -/
def nvmcCode : Instr → Option Nat
  | .nvmcCfgWrite => some 1 | .nvmcCfgRead => some 2 | .nvmcEvtWrite => some 3 | .nvmcImgWrite => some 4 | .nvmcImgErase => some 5
  | .nvmcBadop op => if 1 ≤ op.val ∧ op.val ≤ 5 then none else some op.val
  | _ => none

/-- The work of an NVMC command and its RESULT (R278), `fails` instances of its record not reading back. -/
def nvmcWork (s : State) (op : Nat) (args : List Half) (fails : Nat) : Nat × State :=
  match op with
  | 1 => s.nvRecord 3 args fails
  | 2 => s.nvCfgRead args
  | 3 => s.nvRecord 4 args fails
  | 4 => s.nvImgWrite args (decide (fails < 2))
  | 5 => s.nvImgErase args
  | _ => (nvBadOp, s)

/-- A store of the key and a sleep state to PMU_SLEEP (R286). -/
def sleepState : Instr → Option Nat
  | .sleepNap => some 1 | .sleepShelf => some 2 | .sleepPlinth => some 3 | _ => none

/-- The trim accumulator at a tick boundary: the step, and what is left (R304, R310). -/
def rtcStep (s : State) : Nat × Int :=
  let acc := s.plinth.acc + toSigned 16 (s.regN A.RTC_TRIM)
  if 2 ^ 24 ≤ acc then (2, acc - 2 ^ 24) else if acc ≤ -(2 ^ 24) then (0, acc + 2 ^ 24) else (1, acc)

/-- The state after a tick boundary that puts the RTC at `v` (R304). -/
def rtcAt (s : State) (acc : Int) (v : Nat) : State :=
  (((s.modPlinth (fun p => { p with acc := acc, almLate := false, raw := p.raw + 1 })).setRtc (v % 2 ^ 48)).setFlag
    F.PLINTH_STATUS_SET_PEND false).setFlag F.PLINTH_STATUS_SHIFT_PEND false

/-- A timer channel may capture bit 14 of the RTC becoming 1 (R322); `s` is the state before the tick. -/
def rtcCap (s t : State) : State :=
  if (half s.rtc).getLsbD 14 = false ∧ (t.reg A.RTC_0).getLsbD 14 = true then t.capEdge 0x04 true else t

/-- The slice code of a request command (R362). -/
def sliceCode : Instr → Option (Nat × Fin 128)
  | .sliceLane t => some (slLane, t) | .sliceAes t => some (slAes, t) | .sliceLf t => some (slLf, t)
  | .sliceAdcRef t => some (slAdcRef, t) | .sliceIqLoop t => some (slIqLoop, t) | .sliceSramMarch t => some (slSramMarch, t)
  | .sliceLaneModes t => some (slLaneModes, t) | .sliceTxLoop t => some (slTxLoop, t) | .slicePkeKat t => some (slPkeKat, t)
  | .sliceMramScan t => some (slMramScan, t)
  | _ => none

/-- A request that its channel takes and acts on at once (R335, R336): none waits before it and no cutover is under way (R388). -/
def Taken (s : State) (k : Fin 6) (h : AdsinHdr) (cls cmd : Nat) (p : List Half) : Prop :=
  s.adsinUp k = true ∧ s.adsinCheck k h cls cmd p = none ∧ s.cutover = false ∧ s.adsin.chans[k].outstanding.any (·.held.isSome) = false

/-- The state with one more request counted on a channel. -/
def counted (s : State) (k : Fin 6) : State := s.modChan k (fun c => { c with requests := c.requests + 1 })

/-- The state once a request has its answer: it joins the channel's order, responses that are ready leave, and what follows a response
that the command was taken is done. -/
def answered (s : State) (k : Fin 6) (h : AdsinHdr) (cls cmd : Nat) (p : List Half) (a : Answer) : State :=
  let r : Request := { cls := cls, cmd := cmd, seq := h.seq, after := if cls = 6 ∧ cmd = 10 then some .lc else none }
  let t := (s.modChan k (fun c => { c with outstanding := c.outstanding ++ [r.settle p a] }.flush)).noteReset
  if a.taken = true then t.adsinNext cls cmd p else t

/-- The channel, the header, CLASS, CMD and the payload of an Adsin request command (R341, R360). -/
def adsinRow : Instr → Option (Fin 6 × AdsinHdr × Nat × Nat × List Half)
  | .sysHello k h p => some (k, h, 0, 1, p) | .sysPing k h p => some (k, h, 0, 2, p) | .sysInfo k h p => some (k, h, 0, 3, p)
  | .sysEvtMask k h p => some (k, h, 0, 4, p) | .sysReset k h p => some (k, h, 0, 5, p) | .sysStats k h p => some (k, h, 0, 6, p)
  | .pwrPlSet k h p => some (k, h, 1, 1, p) | .pwrPlGet k h p => some (k, h, 1, 2, p) | .pwrSleep k h p => some (k, h, 1, 3, p)
  | .pwrMains k h p => some (k, h, 1, 4, p)
  | .timeGet k h p => some (k, h, 2, 1, p) | .timeSet k h p => some (k, h, 2, 2, p) | .timeShift k h p => some (k, h, 2, 3, p)
  | .timeTrim k h p => some (k, h, 2, 4, p) | .timeAlarm k h p => some (k, h, 2, 5, p)
  | .radioFeCfg k h p => some (k, h, 3, 1, p) | .radioFeEn k h p => some (k, h, 3, 2, p) | .radioCal k h p => some (k, h, 3, 3, p)
  | .radioRoute k h p => some (k, h, 3, 4, p) | .radioSend k h p => some (k, h, 3, 5, p) | .radioLaneStats k h p => some (k, h, 3, 6, p)
  | .radioRecord k h p => some (k, h, 3, 7, p) | .radioRecRead k h p => some (k, h, 3, 8, p)
  | .courseCfg k h p => some (k, h, 4, 1, p) | .courseStart k h p => some (k, h, 4, 2, p) | .courseStop k h p => some (k, h, 4, 3, p)
  | .courseLanes k h p => some (k, h, 4, 4, p) | .courseHoplist k h p => some (k, h, 4, 5, p)
  | .courseDuty k h p => some (k, h, 4, 6, p)
  | .ashlarTenant k h p => some (k, h, 5, 1, p) | .ashlarEpoch k h p => some (k, h, 5, 2, p)
  | .ashlarEntry k h p => some (k, h, 5, 3, p) | .ashlarRebuild k h p => some (k, h, 5, 4, p)
  | .ashlarCounters k h p => some (k, h, 5, 5, p)
  | .keyImport k h p => some (k, h, 6, 1, p) | .keyDerive k h p => some (k, h, 6, 2, p) | .keyGenerate k h p => some (k, h, 6, 3, p)
  | .keyDestroy k h p => some (k, h, 6, 4, p) | .keyTransfer k h p => some (k, h, 6, 5, p) | .keyDrop k h p => some (k, h, 6, 6, p)
  | .keyAttr k h p => some (k, h, 6, 7, p) | .keyIdpub k h p => some (k, h, 6, 8, p) | .keyLcNonce k h p => some (k, h, 6, 9, p)
  | .keyLcChange k h p => some (k, h, 6, 10, p) | .keyCipher k h p => some (k, h, 6, 11, p)
  | .accessCfg k h p => some (k, h, 7, 1, p) | .accessTablePut k h p => some (k, h, 7, 2, p)
  | .accessTableLoad k h p => some (k, h, 7, 3, p) | .accessStatus k h p => some (k, h, 7, 4, p)
  | .accessTune k h p => some (k, h, 7, 5, p) | .accessPlumbCal k h p => some (k, h, 7, 6, p)
  | .fabricCfg k h p => some (k, h, 8, 1, p) | .fabricStart k h p => some (k, h, 8, 2, p) | .fabricStop k h p => some (k, h, 8, 3, p)
  | .fabricStatus k h p => some (k, h, 8, 4, p) | .fabricNeighbours k h p => some (k, h, 8, 5, p)
  | .fabricSend k h p => some (k, h, 8, 6, p) | .fabricRoutes k h p => some (k, h, 8, 7, p)
  | .assayRun k h p => some (k, h, 9, 1, p) | .assaySchedule k h p => some (k, h, 9, 2, p) | .assayResults k h p => some (k, h, 9, 3, p)
  | .updateBegin k h p => some (k, h, 10, 1, p) | .updateChunk k h p => some (k, h, 10, 2, p)
  | .updateVerify k h p => some (k, h, 10, 3, p) | .updateActivate k h p => some (k, h, 10, 4, p)
  | .updateState k h p => some (k, h, 10, 5, p) | .updateAbort k h p => some (k, h, 10, 6, p)
  | .logRead k h p => some (k, h, 11, 1, p) | .logWrite k h p => some (k, h, 11, 2, p)
  | _ => none

/-- A header that passes the first check of R335. -/
def AdsinHdrOk (h : AdsinHdr) : Prop := h.kind = 0 ∧ h.res0 = 0 ∧ h.res1 = 0 ∧ h.w3.toNat % 256 = 0

/-- A request that passes the checks of R335 up to BADCMD: its command is known, and of a version that the channel has agreed, or HELLO. -/
def AdsinKnown (s : State) (k : Fin 6) (h : AdsinHdr) (cls cmd : Nat) : Prop :=
  AdsinHdrOk h ∧ s.adsin.chans[k].outstanding.length < 8 ∧ cls ≤ 0xB ∧
    ∃ since, adsinSince cls cmd = some since ∧
      ((∃ v, s.adsin.chans[k].version = some v ∧ since ≤ v) ∨ (s.adsin.chans[k].version = none ∧ cls = 0 ∧ cmd = 1))

end Sys2Proof
end

