-- ==== Sys2Proof/Certificates/Slice0/Obligations.lean ====
section
/-! DEFINITION. The statements for the provers: one per group of commands, each clause an equation of `exec` under hypotheses
on the state and the operands alone, and the statements about every command and every step. -/
open Sys2Proof Sys2Proof.Machine

/-- The queue: a step runs the command at the front on the state with the queue's rest; with none waiting it idles: one HF tick,
the kicks of standby loops, firmware's own work, and one instruction of every core that executes, read from the four octets
at its PC (DESIGN CHOICE, log entries 1 and 60). -/
def Obligations.StepRunsFrontCommand : Prop :=
  (∀ (s : State) (c : Instr) (rest : List Instr), s.pending = c :: rest → step s = exec c { s with pending := rest }) ∧
  (∀ s : State, s.pending = [] → step s = .next (forEach allCores s.tick.loopKicks.adsinPump State.coreTurn)) ∧
  (∀ (s : State) c, s.cpuThread c = none → s.coreTurn c = s) ∧
  (∀ (s : State) c t a w i u, s.cpuThread c = some t → a = (s.thr c t).pc.toNat →
    (placeSpan a 4 = .sram ∧ w = leNat (s.sramTake a 4)) ∨ (placeSpan a 4 = .mram ∧ w = leNat (s.mramTake a 4)) →
    plynnel c (BitVec.ofNat 32 w) = some i → exec i s = .next u → s.coreTurn c = u) ∧
  (∀ (s : State) c t a w, s.cpuThread c = some t → a = (s.thr c t).pc.toNat →
    (placeSpan a 4 = .sram ∧ w = leNat (s.sramTake a 4)) ∨ (placeSpan a 4 = .mram ∧ w = leNat (s.mramTake a 4)) →
    plynnel c (BitVec.ofNat 32 w) = none → s.coreTurn c = s.noInstr c) ∧
  (∀ (s : State) c t a, s.cpuThread c = some t → a = (s.thr c t).pc.toNat → (placeSpan a 4 = .rom ∧ c.val < 2 → s.coreTurn c = s) ∧
    ((placeSpan a 4 = .rom → 2 ≤ c.val) → placeSpan a 4 ≠ .sram → placeSpan a 4 ≠ .mram → s.coreTurn c = s.noInstr c))

/-- R9, and the model as a whole: every command answers a next state in every state, and leaves the queue as it stands. -/
def Obligations.EveryCommandCompletes : Prop :=
  ∀ (c : Instr) (s : State), ∃ t, exec c s = .next t ∧ t.pending = s.pending

/-- The register files and memories stay in canonical form over every step, of a command or idle. -/
def Obligations.StepKeepsCanonicalForm : Prop :=
  ∀ s t : State, Canonical s → step s = .next t → Canonical t

/-- After reset (R7, R233, R281, R296): no command waits, the state is canonical, every register reads its reset value (the
model's where the spec gives none: log entry 68), general SRAM reads 0, MRAM reads erased, the life cycle is BLANK, and
thread 0 of Lintel core 0 alone runs. -/
def Obligations.StateAfterReset : Prop :=
  State.reset.pending = [] ∧ Canonical State.reset ∧ (∀ a, State.reset.reg a = regReset a ∧ State.reset.eff a = regReset a) ∧
  (∀ a, memGet 0 State.reset.sram a = 0 ∧ memGet 0xFF State.reset.mram a = 0xFF) ∧ (State.reset.thr 0 0).st = .run ∧
  (∀ (c : Fin 6) (t : Fin 4), ¬(c = 0 ∧ t = 0) → (State.reset.thr c t).st = .dead) ∧ State.reset.storeLc = 0 ∧
  regReset A.SYSCTL_RST = 0 ∧ regReset (A.RFE_LEVEL .sub) = 0xFF

/-- The register commands of a master (R3, R15, R17, R19, R21, R23, R206, R240, R248): an access that the world of its master
or, on a core, the MPU and the privilege of the thread that executes admit reads or writes the register of its address and
its value is seen; any other changes nothing but what is seen, and raises its exception in the thread of the core that made
it. -/
def Obligations.RegisterCommands : Prop :=
  ∀ (s : State) (m : Master) (a : BitVec 24),
    (∀ w e, s.accessFault m a.toNat true = some e → exec (.registerWrite m a w) s = .next (s.busError m e)) ∧
    (∀ e, s.accessFault m a.toNat false = some e →
      exec (.rclRead m a) s = .next (s.busError m e) ∧ exec (.snapshotRead m a) s = .next (s.busError m e)) ∧
    (∀ w, s.accessFault m a.toNat true = none → admitted m a.toNat 2 true = false →
      exec (.registerWrite m a w) s = .next (s.busError m (exDataBus, some a.toNat))) ∧
    (∀ c t store, s.cpuThread c = some t → s.accessFault (.core c) a.toNat store = s.dataFault c t a.toNat 2 store) ∧
    (∀ c store, s.cpuThread c = none → s.accessFault (.core c) a.toNat store =
      if (placeOf a.toNat = .sram ∨ placeOf a.toNat = .mram) ∧ s.mpuAdmits c true a.toNat (if store = true then 1 else 0) = false
      then some (exDataMpu, some a.toNat) else none) ∧
    (∀ store, (∀ c, m ≠ .core c) → s.accessFault m a.toNat store = none) ∧
    (∀ e, (∀ c, m ≠ .core c) → s.busError m e = s.see .refused) ∧
    (∀ e c, s.cpuThread c = none → s.busError (.core c) e = s.see .refused) ∧
    (∀ e c t, s.cpuThread c = some t → s.busError (.core c) e = (s.see .refused).raiseInstr c t e.1 e.2) ∧
    (∀ w k, s.accessFault m a.toNat true = none → admitted m a.toNat 2 true = true →
      placeSpan a.toNat 2 = .periph ∨ placeSpan a.toNat 2 = .plinth ∨ placeSpan a.toNat 2 = .coreLocal → regKey m.coreOr0 a.toNat = some k →
      exec (.registerWrite m a w) s = .next (s.regWrite m k w)) ∧
    (∀ w, s.accessFault m a.toNat true = none → placeSpan a.toNat 2 = .sram →
      exec (.registerWrite m a w) s = .next (s.sramPut a.toNat (leOctets 2 w.toNat))) ∧
    (s.accessFault m a.toNat false = none → admitted m a.toNat 2 false = false →
      exec (.rclRead m a) s = .next (s.busError m (exDataBus, some a.toNat)) ∧
      exec (.snapshotRead m a) s = .next (s.busError m (exDataBus, some a.toNat))) ∧
    (∀ k, s.accessFault m a.toNat false = none → admitted m a.toNat 2 false = true →
      placeSpan a.toNat 2 = .periph ∨ placeSpan a.toNat 2 = .plinth ∨ placeSpan a.toNat 2 = .coreLocal →
      s.timerHidden m a.toNat = false → m.vault = true ∨ a.toNat < 0xE90100 ∨ 0xE90104 ≤ a.toNat → regKey m.coreOr0 a.toNat = some k →
      exec (.rclRead m a) s = .next ((s.regRead m k).2.see (.value (s.regRead m k).1)) ∧
      exec (.snapshotRead m a) s = .next ((s.regRead m k).2.see (.value (s.regRead m k).1))) ∧
    (∀ c : Fin 6, c.val < 2 →
      exec (.ashlarCounterGroupRead (.core c) false) s =
        .next ((s.regRead (.core c) (A.ASHLAR_CNT 0)).2.see (.value (s.reg (A.ASHLAR_CNT 0)))) ∧
      exec (.ashlarCounterGroupRead (.core c) true) s = .next ((s.regRead (.core c) A.ASHLAR_TCNT_ENTRIES).2.see
        (.value (half (min 65535 (s.tenantEntries s.tsel)))))) ∧
    (∀ tenant, m.vault = false → exec (.ashlarCounterGroupRead m tenant) s = .next (s.busError m (exDataBus,
      some (if tenant then A.ASHLAR_TCNT_ENTRIES else A.ASHLAR_CNT 0))))

/-- The OPEN world (R17, R19): outside the blocks it reaches, a register write or read of an OPEN master is refused, an aligned
one with the bus error of its core; an OPEN write to the ID window is refused too. R20: an access of the peripheral region
or the Plinth registers that is not of 16 bits, or not at an even address, is refused with the state as it was, whoever
makes it; an octet load or store of a core raises the bus error there. -/
def Obligations.RefusedAccesses : Prop :=
  (∀ (s : State) (m : Master) (a : BitVec 24), m.vault = false →
      ((0xE00000 ≤ a.toNat ∧ a.toNat < 0xF00000 ∧ openBlock a.toNat true = false) ∨ (0xF00000 ≤ a.toNat ∧ a.toNat < 0xF01000) →
        ∃ e, (a.toNat % 2 = 0 → e = (exDataBus, some a.toNat)) ∧ ∀ w, exec (.registerWrite m a w) s = .next (s.busError m e)) ∧
      ((0xE00000 ≤ a.toNat ∧ a.toNat < 0xF00000 ∧ openBlock a.toNat false = false) ∨ (0xF00000 ≤ a.toNat ∧ a.toNat < 0xF01000) →
        ∃ e, (a.toNat % 2 = 0 → e = (exDataBus, some a.toNat)) ∧ exec (.rclRead m a) s = .next (s.busError m e) ∧
          exec (.snapshotRead m a) s = .next (s.busError m e)) ∧
      (0xE0F000 ≤ a.toNat ∧ a.toNat < 0xE10000 →
        ∃ e, (a.toNat % 2 = 0 → e = (exDataBus, some a.toNat)) ∧ ∀ w, exec (.registerWrite m a w) s = .next (s.busError m e))) ∧
  (∀ (s : State) (m : Master) (c : Fin 6) (t : Fin 4) (a n v : Nat),
      0xE00000 ≤ a → a < 0xF01000 →
      (1 ≤ n → n ≠ 2 ∨ a % 2 = 1 → s.busRead m c a n = (.refused, s) ∧ s.busWrite m c a n v = none) ∧
      s.load c t a 1 = (.inr (exDataBus, some a), s) ∧ s.dataFault c t a 1 true = some (exDataBus, some a))

/-- The access codes over one write (R3, R6), for the fields of every register, which do not overlap: each field takes what its
code gives it, a reserved encoding leaves its field as it was, bits of no field stay, and no other register changes. -/
def Obligations.FieldWrites : Prop :=
  (∀ a, (fieldsAt a).Pairwise (fun d e => d.hi < e.lo ∨ e.hi < d.lo) ∧ ∀ d ∈ fieldsAt a, d.lo ≤ d.hi ∧ d.hi < 16) ∧
  ∀ (s : State) (a : Nat) (w : Half) (d : FieldDesc) (n o v : Nat), d ∈ fieldsAt a →
    n = bits w.toNat d.hi d.lo → o = bits (s.reg a).toNat d.hi d.lo → v = bits ((s.plainWrite a w).reg a).toNat d.hi d.lo →
    (d.acc = .rw → d.admits n = true → v = n) ∧ (d.acc = .rw → d.admits n = false → v = o) ∧
    (d.acc = .w1c → ∀ i, i ≤ d.hi - d.lo → v.testBit i = (o.testBit i && !n.testBit i)) ∧
    (d.acc = .w1s → ∀ i, i ≤ d.hi - d.lo → v.testBit i = (o.testBit i || n.testBit i)) ∧
    (d.acc = .ro ∨ d.acc = .wo ∨ d.acc = .rcl → v = o) ∧
    (∀ i, (∀ e ∈ fieldsAt a, i < e.lo ∨ e.hi < i) → ((s.plainWrite a w).reg a).getLsbD i = (s.reg a).getLsbD i) ∧
    SameRegs s (s.plainWrite a w) [a]

/-- General SRAM (R17, R206): a word written inside it reads back, its low octet at the lower address; every other octet stays,
and a write that leaves the region changes nothing. -/
def Obligations.SramWords : Prop :=
  ∀ (s : State) (a : Nat) (v : Half),
    (inSram a 2 = true → (s.setSramHalf a v).sramHalf a = v ∧ memGet 0 (s.setSramHalf a v).sram a = byte v.toNat ∧
      memGet 0 (s.setSramHalf a v).sram (a + 1) = byte (v.toNat / 256) ∧
      (∀ b, b ≠ a → b ≠ a + 1 → memGet 0 (s.setSramHalf a v).sram b = memGet 0 s.sram b) ∧
      (∀ d, Memory.wf s.sram 0 = true → d = (s.setSramHalf a v).sram → Memory.wf d 0 = true)) ∧
    (inSram a 2 = false → s.setSramHalf a v = s) ∧
    (∀ l, (s.sramPut a l).regs = s.regs ∧ (s.sramPut a l).mram = s.mram ∧ (s.sramPut a l).recRam = s.recRam) ∧
    (∀ l b, inSram a l.length = true → memGet 0 (s.sramPut a l).sram b =
      if a ≤ b ∧ b < a + l.length then octAt l (b - a) else memGet 0 s.sram b)

/-- Event lines (R235, R236): a line raised to Lintel is pending on both its cores, other lines of the word, every other
register, the memories and the blocks stay. -/
def Obligations.EventLines : Prop :=
  ∀ (s : State) (l : Nat), l < 64 →
    (s.raise l).linePending 0 l = true ∧ (s.raise l).linePending 1 l = true ∧
    (∀ m, m < 64 → m ≠ l → (s.raise l).linePending 0 m = s.linePending 0 m ∧ (s.raise l).linePending 1 m = s.linePending 1 m) ∧
    SameRegs s (s.raise l) [A.EVU_PEND 0 (l / 16), A.EVU_PEND 1 (l / 16)] ∧ SameMemory s (s.raise l) ∧
    (s.raise l).radio = s.radio ∧ (s.raise l).keys = s.keys ∧ (s.raise l).nvm = s.nvm ∧ (s.raise l).pending = s.pending ∧
    (∀ (c : Fin 6) (t : Fin 4), 2 ≤ c.val → (s.raise l).thr c t = s.thr c t) ∧
    (∀ (c : Fin 6) (t : Fin 4), (s.thr c t).st = .dead → ((s.raise l).thr c t).st = .dead)

/-- The enable sequence of a band (R32, R36): the write of EN = 1 starts the LO, 2 MHz outside the span, the lock sends the FEM
pins to RX, the corrections are applied at lock + 10 µs, the gain is set and READY rises at lock + 30 µs, and LOCK_FAIL
rises 200 µs after the enable without lock. Disabling a band, and the writes that an enabled band holds (R35, R38, R47, R53,
R59): outside a burst EN = 0 disables at once, in a burst it waits for t_EOT + 72 µs; a held write is read back but is not
in force. What EN = 0 does to a calibration and to carriers whose sequencing has not begun, and until when a burst counts,
are the model's choices (log entry 95). -/
def Obligations.FrontEndEnableAndDisable : Prop :=
  (∀ (s : State) (b : Band),
      (∀ w x, (s.rfe b).phase = .off → (s.rfe b).disablePend = false →
        x = (((s.plainWrite (A.RFE_CTRL b) (w ||| 1)).setFld (F.RFE_CTRL_EN b) (s.fld (F.RFE_CTRL_EN b))).setFlag (F.RFE_CTRL_EN b)).commit
          [A.RFE_SPAN b] →
        exec (.feEnable b w) s = .next (x.modRfe b (fun r => { r with
          phase := .locking, tEn := s.hft, regOn := true, lo := x.loOf b }))) ∧
      (s.loOf .sub = if s.effFld (F.RFE_SPAN_LO_SIDE .sub) = 1 then s.effFld (F.RFE_SPAN_SPAN_LO .sub) + 340
        else s.effFld (F.RFE_SPAN_SPAN_LO .sub) - 20) ∧
      (s.loOf .ism = if s.effFld (F.RFE_SPAN_LO_SIDE .ism) = 1 then 24860 else 23980) ∧
      ((s.rfe b).phase = .locking → (s.rfe b).loLocked = false →
        exec (.loLock b) s = .next (s.modRfe b (fun r => { r with
          phase := .locked, loLocked := true, tLock := s.hft, femPins := s.femAll b 1 }))) ∧
      ((s.rfe b).phase = .locked → (s.rfe b).loLocked = true →
        exec (.feCorrectionsApply b) s = .next ((s.passTo ((s.rfe b).tLock + 480)).modRfe b (fun r => { r with
          phase := .corrected, rcApplied := s.fld (F.RFE_RC_CODE_CODE b), dcApplied := s.fld (F.RFE_GAIN_GAIN_SET b)
          iqApplied := (s.reg (A.RFE_IQ_GAIN b), s.reg (A.RFE_IQ_PHASE b), s.reg (A.RFE_TXIQ_GAIN b),
            s.reg (A.RFE_TXIQ_PHASE b)) }))) ∧
      ((s.rfe b).phase = .corrected → (s.rfe b).loLocked = true →
        ∃ t, t = ((((s.passTo ((s.rfe b).tLock + 1440)).setGain b (s.fld (F.RFE_GAIN_GAIN_SET b))).modRfe b
            (fun r => { r with phase := .ready, lost := false })).setFlag (F.RFE_STATUS_READY b)).syncMute b ∧
          exec (.feReady b) s = .next (t.complete (.feEn b) stOk 0 [t.reg (A.RFE_STATUS b)])) ∧
      ((s.rfe b).phase = .locking →
        ∃ t, t = (s.passTo ((s.rfe b).tEn + 9600)).setFlag (F.RFE_STATUS_LOCK_FAIL b) ∧
          exec (.lockFail b) s = .next (t.complete (.feEn b) stOk 0 [t.reg (A.RFE_STATUS b)]))) ∧
  (∀ (s : State) (b : Band),
      (∀ w x, x = (s.plainWrite (A.RFE_CTRL b) (w &&& 0xFFFE)).setFld (F.RFE_CTRL_EN b) (s.fld (F.RFE_CTRL_EN b)) →
        (s.rfe b).enabled = true →
        exec (.feDisable b w) s = .next (
          if (s.rfe b).burst.isSome then (x.setFlag (F.RFE_CTRL_EN b) false).modRfe b (fun r => { r with disablePend := true })
          else ((x.setFlag (F.RFE_CTRL_EN b) false).abortCarriers b).disableNow b)) ∧
      (∀ k t, (s.rfe b).burst = some k → k.eot = some t → (s.rfe b).disablePend = true →
        exec (.feDisableTakesEffect b) s = .next ((s.passTo (t + 3456)).disableNow b)) ∧
      (∀ w, exec (.rfeSpanWrite b w) s = .next (
        if (s.rfe b).enabled then s.plainWrite (A.RFE_SPAN b) w
        else (s.plainWrite (A.RFE_SPAN b) w).commit [A.RFE_SPAN b])) ∧
      (∀ w, exec (.xoTrimWrite w) s = .next (
        if s.flag F.COURSE_STATUS_RUNNING then s.plainWrite (A.RFE_XO_TRIM .sub) w
        else (s.plainWrite (A.RFE_XO_TRIM .sub) w).commit [A.RFE_XO_TRIM .sub])) ∧
      (∀ r w, s.flag (F.RFE_STATUS_TX_ACTIVE b) = true →
        exec (.txConfigWrite b r w) s = .next (s.plainWrite (txConfigReg b r) w)) ∧
      (∀ r w, s.flag (F.RFE_STATUS_TX_ACTIVE b) = false →
        exec (.txConfigWrite b r w) s = .next ((s.plainWrite (txConfigReg b r) w).applyTx b)) ∧
      (∀ p k w, (s.rfe b).enabled = true → exec (.femRegisterWrite b p k w) s = .next (s.plainWrite (femReg b p k) w)) ∧
      (∀ p k w t, (s.rfe b).enabled = false → t = (s.plainWrite (femReg b p k) w).commit [femReg b p k] →
        exec (.femRegisterWrite b p k w) s = .next (t.modRfe b (fun r => { r with femPins := t.femAll b 0 }))))

/-- Calibrations (R45, R46): requests raise PEND once; the first pending one in the order RC, DC, IQ starts on a READY band with
room for it, outside a Plumb session (R192), and mutes the band; its end keeps the temperature of the run, clears PEND and
stores its results, or sets FAIL and stores nothing. That a request written while the same calibration runs is lost is the
model's choice (log entry 95). -/
def Obligations.CalibrationsRunInOrder : Prop :=
  ∀ (s : State) (b : Band),
    exec (.calRequestRc b) s = .next (s.setFlag (F.RFE_CAL_STATUS_RC_PEND b)) ∧
    exec (.calRequestDc b) s = .next (s.setFlag (F.RFE_CAL_STATUS_DC_PEND b)) ∧
    exec (.calRequestIq b) s = .next (s.setFlag (F.RFE_CAL_STATUS_IQ_PEND b)) ∧
    (∀ k, k = (if s.flag (F.RFE_CAL_STATUS_RC_PEND b) then CalKind.rc else if s.flag (F.RFE_CAL_STATUS_DC_PEND b) then .dc else .iq) →
      s.flag (calPend b k) = true → (s.rfe b).cal = none → s.flag (F.RFE_STATUS_READY b) = true → (s.rfe b).mutePlumb = false →
      s.windowFor (calTime k) = true →
      exec (.calibrationStart b) s = .next (((s.modRfe b (fun r => { r with cal := some k, calLost := false, muteCal := true })).setFlag
        (F.RFE_STATUS_CAL_BUSY b)).syncMute b)) ∧
    (∀ k m x, (s.rfe b).cal = some k →
      x = (if (s.rfe b).calLost = true ∨ calGood k m = false then ((s.setFlag (calPend b k) false).calRan b k).setFlag (calFail b k)
        else ((s.setFlag (calPend b k) false).calRan b k).calStore b k m) →
      ∃ t, t = ((x.modRfe b (fun r => { r with cal := none, calLost := false, muteCal := false })).setFlag (F.RFE_STATUS_CAL_BUSY b)
          false).syncMute b ∧
        exec (.calibrationEnd b m) s = .next (t.event hostChans 3 0x82 [half (bandCode b), t.reg (A.RFE_CAL_STATUS b)]))

/-- Loss of lock and gain (R37, R39, R42 to R44): a lost lock mutes the band, ramps a burst down from this instant and aborts
every carrier; a level window enters the course's statistics unless excluded; an overload waits for its step, the step for
its marker. Which window a gain set at t_CT excludes, and which overload a mute drops, are the model's choices (log entry
95). A burst from its sequencing to the end of its mute (R51 to R58): pins, driver, carriers and mute at the instants that
R56 and R57 give from the start of sequencing and from t_EOT. -/
def Obligations.LossGainAndBursts : Prop :=
  (∀ (s : State) (b : Band),
      (∀ x y, (s.rfe b).loLocked = true →
        x = (s.modRfe b (fun r => { r with
          loLocked := false, calLost := r.cal.isSome, lost := r.phase == .ready, unlocked := r.phase == .ready
          phase := if r.phase = .ready then .ready else .locking
          burst := r.burst.map (fun k => if k.eot.isNone then { k with phase := .rampDown, eot := some s.hft } else k) })).abortCarriers b →
        y = (if (s.rfe b).bursting then x.setFlag (F.RFE_STATUS_TX_ABORT b) else x) →
        ∃ t, t = ((y.setFlag (F.RFE_STATUS_LOCK_LOST b)).syncMute b).raise 12 ∧
          exec (.lockLost b) s = .next (t.event hostChans 3 0x83 [half (bandCode b),
            ((y.setFlag (F.RFE_STATUS_LOCK_LOST b)).syncMute b).reg (A.RFE_STATUS b)])) ∧
      (∀ lvl, s.flag F.COURSE_STATUS_RUNNING = true → s.muted b = false → (s.rfe b).cal = none → (s.rfe b).gainMoved = false →
        (s.rfe b).muteIn = false →
        exec (.levelWindow b lvl) s = .next (s.modRfe b (fun r => { r with
          gainMoved := false, muteIn := false
          levelHi := some (match r.levelHi with
            | some l => max l (lvl - 6 * s.fld (F.RFE_GAIN_GAIN_IDX b))
            | none => lvl - 6 * s.fld (F.RFE_GAIN_GAIN_IDX b)) }))) ∧
      (∀ lvl, s.flag F.COURSE_STATUS_RUNNING = true → (s.muted b = true ∨ (s.rfe b).cal ≠ none ∨ (s.rfe b).gainMoved = true ∨
          (s.rfe b).muteIn = true) →
        exec (.levelWindow b lvl) s = .next (s.modRfe b (fun r => { r with gainMoved := false, muteIn := false }))) ∧
      (∀ clips, s.detects b = true → s.overloads b clips = true → s.fld (F.RFE_GAIN_GAIN_IDX b) = 0 →
        exec (.overload ⟨b, clips⟩) s = .next ((s.count (A.RFE_FLOOR_CNT b) 1).modRfe b (fun r => { r with
          clipFrom := s.hft + 1, clipFull := s.hft + 96 }))) ∧
      (∀ clips, s.detects b = true → s.overloads b clips = true → s.fld (F.RFE_GAIN_GAIN_IDX b) ≠ 0 →
        exec (.overload ⟨b, clips⟩) s = .next (s.modRfe b (fun r => { r with ovl := some s.hft, ovlStepped := false }))) ∧
      (∀ clips, (s.muted b = true ∨ s.overloads b clips = false ∨
          (s.flag F.COURSE_STATUS_RUNNING = true ∧ s.hft = s.course.ct)) → exec (.overload ⟨b, clips⟩) s = .next s) ∧
      (∀ t, (s.rfe b).ovl = some t → (s.rfe b).ovlStepped = false →
        exec (.gainStep b) s = .next ((s.passTo (t + 5)).modRfe b (fun r => { r with ovlStepped := true }))) ∧
      (∀ t, (s.rfe b).ovl = some t → (s.rfe b).ovlStepped = true →
        exec (.gainMarker b) s = .next ((((s.modRfe b (fun r => { r with
          ovl := none, ovlStepped := false, clipFrom := s.hft, clipFull := s.hft + 96 })).setGain b
          (s.fld (F.RFE_GAIN_GAIN_IDX b) - 1)).count (A.RFE_STEP_CNT b) 1).recOverload b))) ∧
  (∀ (s : State) (b : Band),
      (∀ t, (s.rfe b).bursting = false → (s.rfe b).enabled = true → firstStart (s.rfe b).carriers = some t →
        exec (.burstSequencingStart b) s = .next ((((s.passTo (t - 1536)).modRfe b (fun r => { r with
          burst := some ⟨t - 1536, .sequencing, none, r.burst.bind (·.eot)⟩, muteBurst := true, femTx := 0
          femDue := r.femDue ++ (s.passTo (t - 1536)).edgesDue b, fading := [] })).setFlag (F.RFE_STATUS_TX_ACTIVE b)).syncMute b)) ∧
      (∀ (p : Fin 6) k, (s.rfe b).burst = some k → k.eot = none → (s.rfe b).femTx.getLsbD p = false → s.femLevel b p 1 ≠ s.femLevel b p 2 →
        exec (.femTxEdge b p) s = .next (((s.passTo (k.seq + 12 * (s.eff (femTxoff b p)).toNat)).femDrive b p (s.femLevel b p 2)).modRfe b
          (fun r => { r with femTx := r.femTx ||| BitVec.ofNat 6 (2 ^ p.val) }))) ∧
      (∀ k, (s.rfe b).burst = some k → k.phase = .sequencing →
        exec (.driverRampUp b) s = .next ((s.passTo (k.seq + 1152)).modRfe b (fun r => { r with
          burst := some { k with phase := .driving } }))) ∧
      (∀ k t, (s.rfe b).burst = some k → k.phase = .driving → firstStart (s.rfe b).carriers = some t →
        exec (.carrierStart b) s = .next ((s.passTo t).modRfe b (fun r => { r with
          carriers := updFirst (fun c => !c.started && c.start == t) (fun c => { c with started := true }) r.carriers }))) ∧
      (∀ k, (s.rfe b).burst = some k → k.phase = .driving → (s.rfe b).carriers = [] →
        exec (.burstEnd b) s = .next (s.modRfe b (fun r => { r with burst := some { k with phase := .rampDown, eot := some s.hft } }))) ∧
      (∀ k t, (s.rfe b).burst = some k → k.phase = .rampDown → k.eot = some t →
        exec (.driverOff b) s = .next ((((s.passTo (t + 384)).modRfe b (fun r => { r with
          burst := some { k with phase := .driverOff }, fading := [] })).setFlag (F.RFE_STATUS_TX_ACTIVE b) false).applyTx b)) ∧
      (∀ c x, firstStop (s.rfe b).carriers = some c →
        x = ((s.passTo c.stop).modRfe b (fun r => { r with carriers := r.carriers.erase c, fading := r.fading ++ [c] })).carrierResult b c 1 →
        exec (.carrierEnd b) s = .next (match c.entry with | some e => x.fabCarrier c.asn e | none => x)) ∧
      (∀ (p : Fin 6) d, (s.rfe b).femDue.find? (fun d => d.1 = p) = some d →
        exec (.femRxEdge b p) s = .next (((s.passTo d.2).femDrive b p (s.femLevel b p 1)).modRfe b
          (fun r => { r with femDue := r.femDue.erase d }))) ∧
      (∀ (p : Fin 6) k t, (s.rfe b).femDue.find? (fun d => d.1 = p) = none → (s.rfe b).burst = some k → k.eot = some t →
        (s.rfe b).femTx.getLsbD p = true →
        exec (.femRxEdge b p) s = .next (((s.passTo (t + 12 * (s.eff (femRxoff b p)).toNat)).femDrive b p (s.femLevel b p 1)).modRfe b
          (fun r => { r with femTx := r.femTx &&& ~~~ BitVec.ofNat 6 (2 ^ p.val) }))) ∧
      (∀ k t, (s.rfe b).burst = some k → k.phase = .driverOff → k.eot = some t → (s.rfe b).disablePend = false →
        exec (.burstMuteEnd b) s = .next (((s.passTo (t + 3456)).modRfe b (fun r => { r with
          burst := none, muteBurst := false, dcApplied := s.fld (F.RFE_GAIN_GAIN_IDX b) })).syncMute b)) ∧
      (∀ k t, (s.rfe b).burst = some k → k.phase = .driverOff → k.eot = some t → (s.rfe b).disablePend = true →
        exec (.burstMuteEnd b) s = .next ((s.passTo (t + 3456)).disableNow b)) ∧
      (∀ k, (s.rfe b).burst = some k → k.phase = .driving → k.eot = none →
        s.driverAmp b = (s.eff (A.RFE_RAMP b (min 31 ((s.hft - (k.seq + 1152)) / 12)))).toNat) ∧
      (∀ k e, (s.rfe b).burst = some k → k.phase = .rampDown → k.eot = some e → k.seq + 1152 ≤ e → e ≤ s.hft →
        s.driverAmp b = if s.hft < e + 384 then (s.eff (A.RFE_RAMP b (31 - (s.hft - e) / 12))).toNat else 0))

/-- A lane from SEARCH to PAYLOAD and back (R73 to R75, R79, R82): gain and notch in SEARCH, a tone engaging the notch where it
lies in the passband 6 dB over the mean for 16 DFE symbols, and an engaged notch following its tone; a frame record from the
preamble on, TS_SFD at the SFD, the PSDU from a valid PHR on; a preamble lost or an SFD timed out counts CNT_SYNC, a
rejected PHR CNT_HDR; the DFE adapts from the preamble on, and again from the end of a freeze. Where a half of
round(-TARGET_NEG - L) goes (away from zero) and that the taps are counted from 0 are the model's choices (DESIGN CHOICE,
log entries 36 and 97), and so is the command that moves an engaged notch (DESIGN CHOICE, log entry 107). -/
def Obligations.LaneReceptionStates : Prop :=
  ∀ (s : State) (n : Fin 64),
    (∀ lvl d, s.laneState n = laneSearch → d = -100 * (s.fld (F.LANE_DGAIN_TARGET_NEG n) : Int) - lvl →
      exec (.dgainAdjust n lvl) s = .next (
        if d.natAbs > 100 * s.fld (F.LANE_DGAIN_HYST n)
        then s.modLane n (fun l => { l with dgain := clampInt 0 9000 (l.dgain + 100 * divRound d 100) }) else s)) ∧
    (∀ (x : Tone) (k : Mode), x.lane = n → s.laneState n = laneSearch → s.effFld (F.LANE_CTRL_BYP_ACF n) = 0 →
      (s.lane n).notch = none → modeOf (s.laneMode n) = some k →
      exec (.notchEngage x) s = .next (if 2 * x.ofs.natAbs ≤ 10 * k.filter ∧ 600 ≤ x.above ∧ 16 ≤ x.syms
        then s.modLane n (fun l => { l with notch := some x.ofs }) else s)) ∧
    (∀ (x : Tone), x.lane = n → s.laneState n = laneSearch → s.effFld (F.LANE_CTRL_BYP_ACF n) = 0 → (s.lane n).notch.isSome = true →
      exec (.notchEngage x) s = .next (s.modLane n (fun l => { l with notch := some x.ofs }))) ∧
    (∀ (x : Tone), x.lane = n → s.effFld (F.LANE_CTRL_BYP_ACF n) = 1 → exec (.notchEngage x) s = .next s) ∧
    (∀ (x : Preamble) (k : Mode), s.laneState n = laneSearch → modeOf (s.laneMode n) = some k → s.muted (s.laneBand n) = false →
      (if s.laneMode n = 0x10 then max 1 ((s.fld (F.LANE_SYNC_PRE_MIN n) + 7) / 8) else s.fld (F.LANE_SYNC_PRE_MIN n)) ≤ x.syms →
      s.fld (F.LANE_SYNC_CORR_THR n) ≤ x.corr → 4 * (toSigned 16 x.fofs.toNat).natAbs ≤ 10 * k.filter →
      ∃ (t : State) (f : Frame), exec (.preambleDetect n x) s = .next t ∧ t.radio.frames = s.radio.frames ++ [f] ∧ f.fid = s.radio.nextFid ∧
        f.lane = n.val ∧ f.fofs = x.fofs ∧ f.mode = s.laneMode n ∧ t.radio.nextFid = s.radio.nextFid + 1 ∧
        (t.lane n).frame = some f.fid ∧ (t.lane n).nco = -10 * s.laneOfs n - toSigned 16 x.fofs.toNat ∧ (t.lane n).sfdFrom = s.hft ∧
        (t.lane n).frozen = false ∧ (f.dfe = true → (t.lane n).taps = dfeReset ∧ (t.lane n).adapts = some s.hft) ∧
        t.laneState n = lanePreamble ∧ SameMemory s t ∧ SameRegs s t [A.LANE_ST0 n]) ∧
    (∀ syms corr, s.laneState n = lanePreamble → 8 ≤ syms → corr < s.fld (F.LANE_SYNC_CORR_THR n) →
      exec (.preambleLost ⟨n, syms, corr⟩) s = .next ((s.count (A.LANE_CNT_SYNC n) 1).abandon n)) ∧
    (∀ x, s.laneState n = lanePreamble →
      x = s.passTo ((s.lane n).sfdFrom + s.regN (A.LANE_SFD_TO n) * symbolTicks (s.laneMode n)) →
      exec (.sfdTimeout n) s = .next ((x.count (A.LANE_CNT_SYNC n) 1).abandon n)) ∧
    (∀ coded errs f x, s.laneState n = lanePreamble → (s.lane n).frame = some f →
      errs ≤ (if s.laneMode n = 0x10 then 0 else s.fld (F.LANE_SYNC_SFD_ERR n)) → (coded = false ∨ isSun (s.laneMode n) = true) →
      x = s.adaptTaps n ((s.frame? f).any (·.dfe)) →
      exec (.sfdFound n coded errs) s = .next ((((x.modFrame f (fun f => { f with
        coded := coded, fec := s.fld (F.LANE_PHYOPT_FEC_SCHEME n), tsSfd := s.hft, sfdCt := s.course.ct })).modLane n
        (fun l => { l with mu := s.fld (F.LANE_DFE_MU_TRACK n) })).setLaneState n laneHeader).recLane F.REC_TRIG_SFD n)) ∧
    (∀ phr octets f x dw, s.laneState n = laneHeader → (s.lane n).frame = some f →
      phrOk (s.laneMode n) (s.fld (F.LANE_PHYOPT_MAX_LEN n)) phr = true → x = s.adaptTaps n ((s.frame? f).any (·.dfe)) →
      dw = (if isSun (s.laneMode n) then phr.dw else s.laneMode n == 0x18) →
      exec (.phrValid n phr octets) s = .next ((x.modFrame f (fun f => { f with
        len := phr.len.toNat, octets := whiten dw (slice octets 0 phr.len.toNat), dw := dw
        fcs32 := if isSun (s.laneMode n) then phr.fcs32 else s.laneMode n = 0x18 })).setLaneState n lanePayload)) ∧
    (∀ phr f, s.laneState n = laneHeader → (s.lane n).frame = some f →
      phrOk (s.laneMode n) (s.fld (F.LANE_PHYOPT_MAX_LEN n)) phr = false →
      exec (.phrRejected n phr) s = .next (((s.count (A.LANE_CNT_HDR n) 1).dropFrame f).afterFrame n)) ∧
    ((s.lane n).frozen = true → exec (.dfeAdaptResume n) s = .next ((s.passTo (s.lane n).thaw).modLane n (fun l => { l with
      frozen := false, adapts := some (s.lane n).thaw })))

/-- The recorder (R86 to R89): ARM in IDLE, DONE or ARMED starts ARMING with the written configuration, an invalid one sets
CFG_ERR and changes nothing else, in ARMED as well (DEDUCED, log entry 76); ARMED comes 2 µs after ARM; a trigger is counted
in ARMING, latched in ARMED with its instant, PRE_COUNT and FIRST, and ignored elsewhere; STOP goes to IDLE or DONE; a group
goes to the pre-trigger ring, to its index, to the FIFO of the extension, or is lost when that is full; POST groups end in
DONE with the recorder event; a configuration write reads back and waits for ARM. POST_COUNT counts the groups that are not
lost, one that waits in the FIFO included (DESIGN CHOICE, log entry 107). -/
def Obligations.RecorderStates : Prop :=
  ∀ (s : State),
    ((s.fld F.REC_STATUS_STATE = recIdle ∨ s.fld F.REC_STATUS_STATE = recDone ∨ s.fld F.REC_STATUS_STATE = recArmed) →
      s.recConfigOk = true →
      exec .recArm s = .next (((forEach [A.REC_PRE_COUNT, A.REC_POST_COUNT, A.REC_FIRST, A.REC_LOST]
        ((s.commit recConfig).latch [A.REC_EXT_BASE_LO, A.REC_EXT_BASE_HI]) (fun s a => s.setReg a 0)).setFld F.REC_STATUS_STATE
          recArming).modRec (fun _ => { tArm := s.hft }))) ∧
    ((s.fld F.REC_STATUS_STATE = recIdle ∨ s.fld F.REC_STATUS_STATE = recDone ∨ s.fld F.REC_STATUS_STATE = recArmed) →
      s.recConfigOk = false → exec .recArm s = .next (s.setFlag F.REC_STATUS_CFG_ERR)) ∧
    ((s.fld F.REC_STATUS_STATE = recTriggered ∨ s.fld F.REC_STATUS_STATE = recArming) → exec .recArm s = .next s) ∧
    (s.fld F.REC_STATUS_STATE = recArming →
      exec .recArmed s = .next ((s.passTo (s.radio.recd.tArm + 96)).setFld F.REC_STATUS_STATE recArmed)) ∧
    (s.fld F.REC_STATUS_STATE = recArming → exec .recSwtrig s = .next (s.count A.REC_MISSED 1)) ∧
    (s.fld F.REC_STATUS_STATE = recArmed →
      exec .recSwtrig s = .next ((((s.setReg32 A.REC_TRIG_TS_LO s.hft).setReg A.REC_PRE_COUNT
        (half (min s.radio.recd.held (s.eff A.REC_PRE).toNat))).setReg A.REC_FIRST
        (half (if s.radio.recd.held < (s.eff A.REC_PRE).toNat then 0 else s.radio.recd.ring))).setFld F.REC_STATUS_STATE recTriggered)) ∧
    ((s.fld F.REC_STATUS_STATE = recIdle ∨ s.fld F.REC_STATUS_STATE = recTriggered ∨ s.fld F.REC_STATUS_STATE = recDone) →
      exec .recSwtrig s = .next s) ∧
    ((s.fld F.REC_STATUS_STATE = recArming ∨ s.fld F.REC_STATUS_STATE = recArmed) →
      exec .recStop s = .next (s.setFld F.REC_STATUS_STATE recIdle)) ∧
    ((s.fld F.REC_STATUS_STATE = recIdle ∨ s.fld F.REC_STATUS_STATE = recDone) → exec .recStop s = .next s) ∧
    (s.fld F.REC_STATUS_STATE = recTriggered →
      exec .recStop s = .next ((s.setFld F.REC_STATUS_STATE recDone).setReg A.REC_POST_COUNT (half (s.radio.recd.post - s.radio.recd.lost)))) ∧
    (∀ data g, s.fld F.REC_STATUS_STATE = recArmed → (s.eff A.REC_PRE).toNat ≠ 0 → g = (if s.recSilent then 0 else data) →
      exec (.recGroupComplete data) s = .next ((s.recStore s.radio.recd.ring g).modRec (fun r => { r with
        held := min (r.held + 1) (s.eff A.REC_PRE).toNat, ring := (r.ring + 1) % (s.eff A.REC_PRE).toNat }))) ∧
    (∀ data g i t u, s.fld F.REC_STATUS_STATE = recTriggered → s.radio.recd.post < (s.eff A.REC_POST).toNat →
      g = (if s.recSilent then 0 else data) → i = (s.eff A.REC_PRE).toNat + s.radio.recd.post →
      u = s.modRec (fun r => { r with post := r.post + 1 }) →
      t = u.setReg A.REC_POST_COUNT (half (s.radio.recd.post - s.radio.recd.lost + 1)) →
      exec (.recGroupComplete data) s = .next (
        if i < 32768 then t.recStore i g
        else if s.radio.recd.fifo.length < 16 then t.modRec (fun r => { r with fifo := r.fifo ++ [(i, g)] })
        else ((u.modRec (fun r => { r with lost := r.lost + 1 })).count A.REC_LOST 1).setFlag F.REC_STATUS_STARVED)) ∧
    (∀ data, (s.fld F.REC_STATUS_STATE = recIdle ∨ s.fld F.REC_STATUS_STATE = recArming ∨ s.fld F.REC_STATUS_STATE = recDone ∨
        (s.fld F.REC_STATUS_STATE = recArmed ∧ (s.eff A.REC_PRE).toNat = 0) ∨
        (s.fld F.REC_STATUS_STATE = recTriggered ∧ (s.eff A.REC_POST).toNat ≤ s.radio.recd.post)) →
      exec (.recGroupComplete data) s = .next s) ∧
    (s.fld F.REC_STATUS_STATE = recTriggered → (s.eff A.REC_POST).toNat ≤ s.radio.recd.post →
      ∃ t, t = (s.setFld F.REC_STATUS_STATE recDone).raise 11 ∧
        exec .recDone s = .next (t.event hostChans 3 0x84 [t.reg A.REC_STATUS])) ∧
    (∀ r w, exec (.recConfigWrite r w) s = .next (
      if r = 5 then (s.plainWrite A.REC_EXT_BASE_HI w).commit [A.REC_EXT_BASE_LO, A.REC_EXT_BASE_HI]
      else s.plainWrite (recConfigReg r) w))

/-- Start, stop and the plan (R92, R93, R101 to R103): a start refused or begun, a stop pending and taken back, the check of the
shadow plan and its outcome, a shadow write that withdraws a pending commit or waits for the copy, and the lock of the plan. -/
def Obligations.CourseStartAndPlan : Prop :=
  ∀ (s : State),
    (∀ at', s.running = false → s.templateOk = true → s.sys.xoRun = true →
      ∃ t, exec (.courseRun at') s = .next t ∧ t.flag F.COURSE_STATUS_RUNNING = true ∧ t.flag F.COURSE_CTRL_RUN = true ∧
        t.course.first = true ∧ t.course.stopPend = false ∧ (at' = false → t.course.nextCt = s.hft + 2) ∧ SameMemory s t ∧
        SameRegs s t [A.COURSE_CTRL, A.COURSE_STATUS]) ∧
    (∀ at', s.running = false → (s.templateOk = false ∨ s.sys.xoRun = false) →
      exec (.courseRun at') s = .next (((s.setFld F.COURSE_CTRL_START_AT (bit at')).setFlag F.COURSE_CTRL_RUN false).setFlag
        F.COURSE_STATUS_CFG_REFUSED)) ∧
    (∀ at', s.running = true → s.course.stopPend = true → s.course.locked = false →
      exec (.courseRun at') s = .next (((s.setFld F.COURSE_CTRL_START_AT (bit at')).setFlag F.COURSE_CTRL_RUN).modCourse
        (fun c => { c with stopPend := false }))) ∧
    (∀ at', s.running = true → s.course.stopPend = true → s.course.locked = true →
      exec (.courseRun at') s = .next ((s.setFld F.COURSE_CTRL_START_AT (bit at')).modCourse (fun c => { c with restart := true }))) ∧
    (∀ at', s.running = true →
      exec (.courseRunClear at') s = .next (((s.setFld F.COURSE_CTRL_START_AT (bit at')).setFlag F.COURSE_CTRL_RUN false).modCourse
        (fun c => { c with stopPend := true, restart := false }))) ∧
    (s.flag F.COURSE_STATUS_COPY = false →
      exec .planCommit s = .next ((s.setFlag F.COURSE_STATUS_COMMIT_PEND false).modCourse (fun c => { c with checking := true }))) ∧
    (s.flag F.COURSE_STATUS_COPY = true →
      exec .planCommit s = .next (s.modCourse (fun c => { c with stalled := c.stalled ++ [none] }))) ∧
    (s.course.checking = true → s.planFault = none →
      ∃ t, t = (s.modCourse (fun c => { c with checking := false })).setFlag F.COURSE_STATUS_COMMIT_PEND ∧
        exec .planCheckDone s = .next (t.complete .planCheck stOk 0
          [half t.nextPlanAsn, half (t.nextPlanAsn / 65536), half (t.nextPlanAsn / 2 ^ 32)])) ∧
    (∀ code i, s.course.checking = true → s.planFault = some (code, i) →
      ∃ t, t = (((s.modCourse (fun c => { c with checking := false })).setReg A.COURSE_PLAN_ERR (half (code * 4096 + i))).setFlag
          F.COURSE_STATUS_PLAN_ERR).raise 2 ∧
        exec .planCheckDone s = .next ((t.complete .planCheck stFail 0 [half (code * 4096 + i)]).courseEvent 0x81)) ∧
    (∀ (x : Fin 512) w, 176 ≤ x.val → x.val < 256 → exec (.shadowWrite x w) s = .next s) ∧
    (∀ (x : Fin 512) w, (x.val < 176 ∨ 256 ≤ x.val) → s.flag F.COURSE_STATUS_COPY = false →
      exec (.shadowWrite x w) s = .next (((s.setReg (A.COURSE_SHADOW x) w).setFlag F.COURSE_STATUS_COMMIT_PEND false).modCourse
        (fun c => { c with checking := false }))) ∧
    (∀ (x : Fin 512) w, (x.val < 176 ∨ 256 ≤ x.val) → s.flag F.COURSE_STATUS_COPY = true →
      exec (.shadowWrite x w) s = .next (s.modCourse (fun c => { c with stalled := c.stalled ++ [some (x.val, w)] }))) ∧
    (s.course.copying = true →
      exec .shadowCopyDone s = .next (forEach s.course.stalled
        ((s.setFlag F.COURSE_STATUS_COPY false).modCourse (fun c => { c with copying := false, stalled := [] }))
        (fun s x => match x with | some (i, w) => s.shadowPut i w | none => s.planCommit))) ∧
    (s.running = true → s.course.first = false → s.course.locked = false → s.course.stopPend = false →
      exec .planLock s = .next ((((s.passTo (s.course.nextCt - 960)).modCourse (fun c => { c with locked := true })).modCourse
        (fun c => { c with sel := some (s.flag F.COURSE_STATUS_COMMIT_PEND) })).setFlag F.COURSE_STATUS_COPY
          (s.flag F.COURSE_STATUS_COMMIT_PEND))) ∧
    (s.running = true → s.course.first = false → s.course.locked = false → s.course.stopPend = true →
      exec .planLock s = .next ((s.passTo (s.course.nextCt - 960)).modCourse (fun c => { c with locked := true })))

/-- The course clock (R93 to R96, R99, R102): at t_CT the ASN stays for the first course and rises by 1, modulo 2^40, for any
other; the slot follows it by the wall just written; the grants are cleared and the idle window is shut; TXRES is cleared,
each VALID entry of a repeated plan reporting REPEAT, and a repeat counts in COURSE_LATE; a selected plan is swapped in;
COURSE_ADJ moves the end of its course. A stop takes effect at the next t_CT; COURSE_ADJ moves the end of the course in
progress before its midpoint, else of the next (that the midpoint is that of the nominal length is the model's choice:
DESIGN CHOICE, log entry 107); configuration writes are refused while COURSE runs; the idle window opens, where a handover
that is ready may take its cutover (R388), and closes. -/
def Obligations.CourseClock : Prop :=
  ∀ (s : State),
    (s.running = true → s.course.stopPend = false →
      ∃ t, exec .courseTick s = .next t ∧ t.course.ct = s.course.nextCt ∧ t.course.first = false ∧
        t.course.locked = false ∧ t.hft = (s.passTo s.course.nextCt).hft ∧ SameMemory s t ∧
        t.asn = (if s.course.first = true then s.asn else (s.asn + 1) % 2 ^ 40) ∧
        t.fld F.COURSE_SLOT_SLOT = t.asn % max 1 (F.COURSE_WALL_LEN.of (s.reg A.COURSE_WALL)) ∧
        t.reg A.HOD_GRANTS = 0 ∧ t.flag F.COURSE_STATUS_IW_OPEN = false ∧
        (s.course.adj ≠ .following → t.course.nextCt = s.course.nextCt + s.courseLen ∧ t.course.adj = .none) ∧
        (s.course.adj = .current → t.reg A.COURSE_ADJ = 0) ∧
        (s.course.adj = .following → t.course.adj = .current ∧
          t.course.nextCt = ((s.course.nextCt + s.courseLen : Nat) + toSigned 16 (s.regN A.COURSE_ADJ)).toNat)) ∧
    (∀ p, p = s.course.sel.getD (s.flag F.COURSE_STATUS_COMMIT_PEND) → s.running = true → s.course.stopPend = false →
      (p = true ∨ s.course.first = true) →
      ∃ t, exec .courseTick s = .next t ∧ t.reg A.COURSE_TXRES_0 = 0 ∧ t.reg A.COURSE_TXRES_1 = 0 ∧ t.course.repeated = false ∧
        t.reg A.COURSE_LATE = s.reg A.COURSE_LATE ∧
        (p = true → t.flag F.COURSE_STATUS_COMMIT_PEND = false ∧ t.flag F.COURSE_STATUS_COPY = true ∧ t.course.copying = true ∧
          ∀ x : Fin 512, t.planWord false x.val = s.planWord true x.val)) ∧
    (s.course.sel.getD (s.flag F.COURSE_STATUS_COMMIT_PEND) = false → s.running = true → s.course.stopPend = false →
      s.course.first = false →
      ∃ u : State, exec .courseTick s = .next (u.courseEvent 0x80) ∧ u.course.repeated = true ∧ u.flag F.COURSE_STATUS_LATE = true ∧
        u.regN A.COURSE_LATE = min (s.regN A.COURSE_LATE + 1) 65535 ∧
        ∀ e : Fin 8, u.fld (txresFld e.val) = if (s.planWord false (0x90 + 4 * e.val)).getLsbD 15 = true then 6 else 0) ∧
    (s.running = true → s.course.stopPend = true →
      ∃ t, t = (((((forEach (List.range 64) (s.passTo s.course.nextCt).adjSpent.crossCarriers (fun s n => s.laneTick n 0 0)).setFlag
          F.COURSE_STATUS_RUNNING false).iwShut).modCourse (fun c => { c with
            stopPend := false, restart := false, sel := none, locked := false, first := false })).unstall).complete .courseStop stOk 0 [] ∧
        exec .courseStopTakesEffect s = .next (if s.course.restart then t.courseBegin else t)) ∧
    (∀ w t, within w 4800 = true → t = s.setReg A.COURSE_ADJ (writeFields (fieldsAt A.COURSE_ADJ) (s.reg A.COURSE_ADJ) w) →
      exec (.courseAdjWrite w) s = .next (
        if s.running = false ∨ s.course.first = true then t.modCourse (fun c => { c with adj := .following })
        else if s.hft < s.course.ct + s.courseLen / 2 then t.modCourse (fun c => { c with
          adj := .current, nextCt := ((s.course.ct + s.courseLen : Nat) + toSigned 16 (t.reg A.COURSE_ADJ).toNat).toNat })
        else t.modCourse (fun c => { c with adj := .following, nextCt := s.course.ct + s.courseLen }))) ∧
    (∀ w, within w 4800 = false → exec (.courseAdjWrite w) s = .next s) ∧
    (∀ w, exec (.courseWallWrite w) s = .next (s.plainWrite A.COURSE_WALL w)) ∧
    (∀ r w, s.running = true → exec (.courseCfgWrite r w) s = .next (s.setFlag F.COURSE_STATUS_CFG_REFUSED)) ∧
    (∀ (r : Fin 9) w, s.running = false → r ≠ 3 → exec (.courseCfgWrite r w) s = .next (s.plainWrite (courseCfgReg r) w)) ∧
    (∀ w, s.running = false → exec (.courseCfgWrite 3 w) s = .next ((s.plainWrite A.COURSE_ASN_2 w).commit
        [A.COURSE_ASN_0, A.COURSE_ASN_1, A.COURSE_ASN_2])) ∧
    (s.running = true → s.course.first = false → s.flag F.COURSE_STATUS_IW_OPEN = false →
      s.hft < s.course.nextCt - 48 * s.regN A.COURSE_T_GUARD →
      exec .idleWindowOpen s = .next (((s.passTo (s.course.ct + 48 * s.regN A.COURSE_T_IDLE)).setFlag F.COURSE_STATUS_IW_OPEN).raise
        3).handQuiet) ∧
    (s.flag F.COURSE_STATUS_IW_OPEN = true →
      exec .idleWindowClose s = .next ((s.passTo (s.course.nextCt - 48 * s.regN A.COURSE_T_GUARD)).iwShut.modAssay (fun a => { a with queue := a.queue.map (fun q => (q.1, q.2 + 1)) })))

/-- Scheduled transmissions and duty accounts (R104 to R108): the CCA result of a window, the outcome of the tests at t_SEQ, the
oldest record of a read of TXEND_0, and the buckets of an account. -/
def Obligations.CourseTransmissions : Prop :=
  ∀ (s : State),
    (∀ (e : Fin 8) dbm t, s.ccaHolders.find? (fun h => h.1 == e.val) = some (e.val, t) → s.running = true → s.course.repeated = false →
      exec (.ccaWindowEnd e dbm) s = .next ((s.passTo (s.ccaWindow t).2).modCourse (fun c => { c with
        cca := c.cca ++ [(e.val, if s.muted t.band ∨ (s.ccaWindow t).1 < (s.rfe t.band).lastUnmute then none
          else some (s.ccaBusy t.band dbm))] }))) ∧
    (∀ (e : Fin 8) t u code, s.txEntry? e = some t → s.running = true → s.course.first = false → s.course.repeated = false →
      s.course.tested.getLsbD e = false → ((s.passTo (t.tx - 1536)).modCourse (fun c => { c with
        tested := c.tested ||| BitVec.ofNat 8 (2 ^ e.val) })).txTest e t = (.inl code, u) →
      exec (.txEntryTest e) s = .next (u.txResult e code)) ∧
    (∀ (e : Fin 8) t u c, s.txEntry? e = some t → s.running = true → s.course.first = false → s.course.repeated = false →
      s.course.tested.getLsbD e = false → ((s.passTo (t.tx - 1536)).modCourse (fun c => { c with
        tested := c.tested ||| BitVec.ofNat 8 (2 ^ e.val) })).txTest e t = (.inr c, u) →
      exec (.txEntryTest e) s = .next (u.addCarrier t.band c)) ∧
    (∀ (e : Fin 8), s.txEntry? e = none → exec (.txEntryTest e) s = .next s) ∧
    (∀ (t : TxEntry) (e : Nat), s.txReady t.band = false → s.txTest e t = (.inl 8, s)) ∧
    (∀ (t : TxEntry) (e : Nat), s.txReady t.band = true → (s.sramHalf t.addr).toNat = 0 → s.txTest e t = (.inl 7, s)) ∧
    (∀ a b l, s.course.txend = (a, b) :: l →
      exec .courseTxendRead s = .next ((((s.modCourse (fun c => { c with txend := l })).setFld F.COURSE_TXEND_N_COUNT l.length).takeSnap
        [(A.COURSE_TXEND_1, b)]).see (.value a))) ∧
    (s.course.txend = [] → exec .courseTxendRead s = .next ((s.takeSnap [(A.COURSE_TXEND_1, 0)]).see (.value 0))) ∧
    (∀ (k : Fin 8), s.flag (F.COURSE_DC_CTRL_EN k) = true →
      exec (.dutyBucketRoll k) s = .next ((s.passTo (s.course.duty[k]).roll).modCourse (fun c => { c with
        duty := c.duty.set k ⟨(s.course.duty[k]).roll + s.bucketTicks k, (0 :: (s.course.duty[k]).used).take 17⟩ }))) ∧
    (∀ (k : Fin 8) w, s.flag (F.COURSE_DC_CTRL_EN k) = true →
      exec (.dutyAccountEnable k w) s = .next (s.plainWrite (A.COURSE_DC_CTRL k) (w ||| 0x8000))) ∧
    (∀ (k : Fin 8) w t, s.flag (F.COURSE_DC_CTRL_EN k) = false →
      t = (s.plainWrite (A.COURSE_DC_CTRL k) (w ||| 0x8000)).commit [A.COURSE_DC_CTRL k, A.COURSE_DC_LO k, A.COURSE_DC_HI k] →
      exec (.dutyAccountEnable k w) s = .next (t.modCourse (fun c => { c with duty := c.duty.set k ⟨s.hft + t.bucketTicks k, [0]⟩ })))

/-- MACF and the Hod (R109 to R118, R122): the decision on a frame and its counter, its place in order, its settlement once its
verdict is fixed, the release of descriptors and buffers, and the enabling of the Hod. -/
def Obligations.MacfAndHod : Prop :=
  ∀ (s : State) (n : Fin 64),
    (∀ f u c, s.laneFrame n = some f → s.laneState n = lanePayload → f.knock = false → f.macf = .undecided →
      u = (if f.coded = true ∧ f.fec = 1 then s else s.passTo (f.octetAt
        (if f.len - fcsLen f.fcs32 < (mhrOf f.octets).len then 2 else (mhrOf f.octets).len) + 1)) →
      s.macfTest (mhrOf f.octets) (f.len - fcsLen f.fcs32) = .inl c →
      exec (.macfDecision n) s = .next ((u.count c).modFrame f.fid (fun f => { f with macf := .dropped }))) ∧
    (∀ f u d, s.laneFrame n = some f → s.laneState n = lanePayload → f.knock = false → f.macf = .undecided →
      u = (if f.coded = true ∧ f.fec = 1 then s else s.passTo (f.octetAt
        (if f.len - fcsLen f.fcs32 < (mhrOf f.octets).len then 2 else (mhrOf f.octets).len) + 1)) →
      s.macfTest (mhrOf f.octets) (f.len - fcsLen f.fcs32) = .inr d →
      exec (.macfDecision n) s = .next (((u.count A.MACF_CNT_PASS).modFrame f.fid (fun f => { f with macf := .passed d })).hodAlloc f.fid)) ∧
    (∀ f, s.frameOf n (fun f => f.handoff.isSome && !f.placed) = some f →
      exec (.hodIngest n) s = .next ((s.modFrame f.fid (fun f => { f with placed := true })).fixFailed f.fid)) ∧
    (∀ f h, s.frameOf n (fun f => f.placed && !f.settled) = some f → f.handoff = some h → f.verdict ≠ none →
      (∀ g ∈ s.radio.frames, g.handoff ≠ none → g.settled = false → hodBefore g f = false) →
      exec (.hodSettle n) s = .next (s.settle f h)) ∧
    (∀ f h, s.flag F.HOD_CTRL_EN = false → s.settle f h = (s.freeBuf f.buf).settled f) ∧
    (∀ f h, s.flag F.HOD_CTRL_EN = true → s.hodOcc = 256 → f.buf = none →
      s.settle f h = (((s.count A.HOD_CNT_RINGDROP).setFlag F.HOD_STATUS_RING_DROP).freeBuf none).settled f) ∧
    (∀ (d : Fin 512), s.hodOcc < (d.val + 512 - s.regN A.HOD_RD) % 512 →
      exec (.hodRdWrite d) s = .next (s.setFlag F.HOD_STATUS_RD_ERR)) ∧
    (∀ (d : Fin 512), (d.val + 512 - s.regN A.HOD_RD) % 512 ≤ s.hodOcc →
      ∃ t, exec (.hodRdWrite d) s = .next t ∧ t.reg A.HOD_RD = half d.val ∧ SameRegs s t [A.HOD_RD] ∧ SameMemory s t ∧
        t.radio.frames = s.radio.frames ∧
        t.radio.hod.descBuf = s.radio.hod.descBuf.filter (fun p =>
          !decide ((p.1 + 512 - s.regN A.HOD_RD) % 512 < (d.val + 512 - s.regN A.HOD_RD) % 512))) ∧
    (∀ w t, s.flag F.HOD_CTRL_EN = false → t = s.plainWrite A.HOD_CTRL (w ||| 1) → t.flag F.HOD_CTRL_EN = true → t.hodCfgOk = false →
      exec (.hodEnable w) s = .next ((t.setFlag F.HOD_CTRL_EN false).setFlag F.HOD_STATUS_CFG_ERR)) ∧
    (∀ w t, s.flag F.HOD_CTRL_EN = false → t = s.plainWrite A.HOD_CTRL (w ||| 1) → t.flag F.HOD_CTRL_EN = true → t.hodCfgOk = true →
      exec (.hodEnable w) s = .next ((((((t.latch [A.HOD_RING_BASE_LO, A.HOD_RING_BASE_HI, A.HOD_POOL_BASE_LO,
        A.HOD_POOL_BASE_HI]).commit [A.HOD_CTRL]).setReg A.HOD_WR 0).setReg A.HOD_RD 0).modHod (fun h => { h with
          bufs := [], descBuf := [] })).modRadio (fun r => { r with frames := r.frames.map (fun f => { f with buf := none }) }))) ∧
    (∀ w, exec (.hodDisable w) s = .next (s.plainWrite A.HOD_CTRL (w &&& 0xFFFE)))

/-- The fabric's link layer (R345, R348 to R351, R355 to R357): HELLOs made for a course of the period and taken into the table
of 32 neighbours, neighbours removed with the parent's loss, DATA and LAST_GASP delivered, sent on or dropped, the loss of a
parent, and the end of a frame's carrier; a queued frame is dropped where the latest HELLO lets it cross no more. Whether an
acknowledgement came back is a free value (log entry 42); that OPEN is set while joined (DESIGN CHOICE, log entry 41), that
the children are the neighbours that routes lead to and that a detached anchor which has an address goes on sending HELLOs
(DEDUCED, log entry 104), and which of several worst neighbours goes (DESIGN CHOICE, log entry 104) are the model's. The
fabric's joining, routes and time (R352 to R354, R359): JOIN_REQ sent to the best neighbour and relayed, answered by the
root from its assignment, which a configuration record keeps, JOIN_RSP taken by the joiner, forwarded or discarded, the
retry after 10 s, ROUTE_ADV sent in frames of 96 and taken within 1,024 routes, routes expired after 64 periods, and the
correction after 4 HELLOs. The model's own are: the order of the addresses in ROUTE_ADV, the anchor's own first (DEDUCED,
log entry 72); that a route beyond 1,024 is not kept, that after a restart of COURSE no mean of an earlier group counts, and
that P runs from the last HELLO of one group to that of the next (DESIGN CHOICE, log entry 104); and the format of the
record (DESIGN CHOICE, log entry 40). -/
def Obligations.FabricLinksAndTime : Prop :=
  (∀ (s : State),
      (∀ a body, a = s.nextPlanAsn → s.fabric.on = true → s.fabric.addr ≠ 0xFFFF →
        (a + s.deviceEui % 256) % max 1 s.fabric.period = 0 → (∀ h ∈ s.fabric.hellos, h.asn ≠ a) →
        body = [1, 2, 0, 0] ++ beOctets 2 s.fabric.rank ++ beOctets 8 (if s.fabric.isRoot then s.eui else s.fabric.rootEui).toNat ++
          beOctets 5 a ++ [byte ((if s.fabric.st = 3 then 5 else 0) + (if s.fabric.isRoot then 2 else 0)),
            byte (s.fabric.routes.map (·.hop)).eraseDups.length] →
        exec .fabricHelloSend s = .next (s.modFabric (fun f => { f with
          seq := ((f.seq + 1) % 65536 + 1) % 65536
          hellos := f.hellos ++ [{ bb := true, asn := a, payload := fabHeader 1 0 s.fabric.src 0xFFFF 16 0 s.fabric.seq ++ body },
            { bb := false, asn := a, payload := fabHeader 1 0 s.fabric.src 0xFFFF 16 0 ((s.fabric.seq + 1) % 65536) ++ body }] }))) ∧
      (∀ x t, s.fabNext [1] = some (x, t) → (x.body.length ≠ 21 ∨ 8 ≤ (octAt x.body 19).toNat) →
        exec .fabricHelloReceive s = .next t.fabDrop) ∧
      (∀ x t old, s.fabNext [1] = some (x, t) → x.body.length = 21 → (octAt x.body 19).toNat < 8 → t.fabric.nbr x.eui = some old →
        exec .fabricHelloReceive s = .next (((t.modNbr x.eui (fun _ => t.helloNbr x (some old))).fabVersion
          (t.helloNbr x (some old))).helloFollow x (t.helloNbr x (some old)))) ∧
      (∀ x t, s.fabNext [1] = some (x, t) → x.body.length = 21 → (octAt x.body 19).toNat < 8 → t.fabric.nbr x.eui = none →
        t.fabric.nbrs.length < 32 →
        exec .fabricHelloReceive s = .next (((t.modFabric (fun f => { f with nbrs := f.nbrs ++ [t.helloNbr x none] })).fabVersion
          (t.helloNbr x none)).helloFollow x (t.helloNbr x none))) ∧
      (∀ x t w, s.fabNext [1] = some (x, t) → x.body.length = 21 → (octAt x.body 19).toNat < 8 → t.fabric.nbr x.eui = none →
        32 ≤ t.fabric.nbrs.length → t.worstNbr = some w →
        exec .fabricHelloReceive s = .next (if w.missed = 0 then t
          else ((t.modFabric (fun f => { f with nbrs := f.nbrs.filter (fun m => m.eui ≠ w.eui) ++ [t.helloNbr x none] })).fabVersion
            (t.helloNbr x none)).helloFollow x (t.helloNbr x none))) ∧
      (∀ gone t, gone = (fun n => n.gone s.fabric.period (s.nbrAsn n)) →
        t = (if s.fabric.nbrs.any (fun n => gone n && some n.eui == s.fabric.parent) = true ∧ s.fabric.st = 3 then s.parentLost gone else s) →
        exec .neighbourRemove s = .next (t.modFabric (fun g => { g with
          nbrs := g.nbrs.filter (fun n => !(s.fabric.nbrs.any (fun o => o.eui == n.eui && gone o))) }))) ∧
      (∀ n, s.fabric.st = 3 → s.nbrAsn n = s.asn - 1) ∧
      (∀ m n, (∀ p a e, m.stage ≠ .placed p a e) → s.fabric.nbr m.hop = some n →
        (n.usable = false ∨ (n.version = some 1 ∧ (m.typ = 5 ∨ m.typ = 6))) → s.fabFits m = none) ∧
      (∀ x t, s.fabNext [4, 6] = some (x, t) → t.fabric.st ≠ 3 → exec .dataForward s = .next t.fabDrop) ∧
      (∀ x t, s.fabNext [4, 6] = some (x, t) → t.fabric.st = 3 →
        (sparseGet (fun _ => []) t.fabric.seen (x.h 2 2)).contains (x.h 8 2) = true → exec .dataForward s = .next t) ∧
      (∀ x t u, s.fabNext [4, 6] = some (x, t) → t.fabric.st = 3 →
        (sparseGet (fun _ => []) t.fabric.seen (x.h 2 2)).contains (x.h 8 2) = false →
        u = t.modFabric (fun f => { f with
          seen := sparseSet (fun _ => []) f.seen (x.h 2 2) ((x.h 8 2 :: sparseGet (fun _ => []) t.fabric.seen (x.h 2 2)).take 64) }) →
        (x.h 4 2 = t.fabric.addr →
          exec .dataForward s = .next (u.fabDeliver (x.h 0 1) (x.h 2 2) (x.h 6 1) (x.h 7 1) (x.h 8 2) x.body)) ∧
        (x.h 4 2 ≠ t.fabric.addr → x.h 6 1 ≤ 1 → exec .dataForward s = .next u.fabDrop) ∧
        (∀ e, x.h 4 2 ≠ t.fabric.addr → 1 < x.h 6 1 → t.fabric.hopFor (x.h 4 2) = some e →
          exec .dataForward s = .next (u.fabToNbr (x.h 0 1) e (x.h 2 2) (x.h 4 2) (x.h 6 1 - 1) (x.h 7 1) (x.h 8 2) x.body none)) ∧
        (x.h 4 2 ≠ t.fabric.addr → 1 < x.h 6 1 → t.fabric.hopFor (x.h 4 2) = none → exec .dataForward s = .next u.fabDrop)) ∧
      (∀ p, s.fabric.parent.bind s.fabric.nbr = some p → s.fabric.st = 3 → 4 ≤ p.fails →
        exec .parentLost s = .next (match bestParent (s.fabric.nbrs.filter (fun n => decide (some n.eui ≠ s.fabric.parent))) s.fabric.rank with
          | some p => s.fabReparent p
          | none => s.fabDetach 1)) ∧
      (∀ b c, firstStop (s.rfe b).carriers = some c → c.entry = none → exec (.carrierEnd b) s = .next (s.carrierEnd b)) ∧
      (∀ b c e t, firstStop (s.rfe b).carriers = some c → c.entry = some e → t = s.carrierEnd b →
        (t.fabric.queue.find? (fun m => m.inEntry c.asn e) = none → exec (.carrierEnd b) s = .next t) ∧
        (∀ q u v, t.fabric.queue.find? (fun m => m.inEntry c.asn e) = some q → u = (t.draw 2).2 →
          v = u.modFabric (fun f => { f with queue := f.queue.filter (fun m => !m.inEntry c.asn e) }) →
          exec (.carrierEnd b) s = .next (
            if (t.draw 2).1 = 1 then (v.modNbr q.hop (fun n => { n with fails := 0 })).fabSent q.host 0
            else if 3 ≤ q.sends then (v.modNbr q.hop (fun n => { n with fails := n.fails + 1 })).fabSent q.host 1
            else u.modFabric (fun f => { f with queue := f.queue.map (fun m => if m.inEntry c.asn e then m.again else m) }))))) ∧
  (∀ (s : State),
      (∀ p, s.fabric.st = 1 → s.fabric.isRoot = false → s.fabric.asked = none → s.fabric.retryAt ≤ s.asn →
        bestParent s.fabric.nbrs 0x10000 = some p →
        exec .joinReqSend s = .next (((s.modFabric (fun f => { f with parent := some p.eui, st := 2, asked := some s.hft })).modNbr p.eui
          (fun n => { n with fails := 0 })).joinReq p s.fabric.savedAddr)) ∧
      (bestParent s.fabric.nbrs 0x10000 = none → exec .joinReqSend s = .next s) ∧
      (∀ x t, s.fabNext [2] = some (x, t) → (t.fabric.st ≠ 3 ∨ x.body.length ≠ 12) → exec .joinReqRelay s = .next t.fabDrop) ∧
      (∀ x t u, s.fabNext [2] = some (x, t) → t.fabric.st = 3 → x.body.length = 12 →
        u = t.modFabric (fun f => { f with joins := f.joins.filter (fun j => j.1 ≠ BitVec.ofNat 64 (beNat (slice x.body 0 8))) ++
          [(BitVec.ofNat 64 (beNat (slice x.body 0 8)), x.eui, x.h 1 1, t.hft)] }) →
        (u.fabric.isRoot = true → ∀ e st a f w, e = BitVec.ofNat 64 (beNat (slice x.body 0 8)) →
          u.fabric.assign e (beNat (slice x.body 8 2)) = (st, a, f) →
          w = (if st = 0 ∧ u.fabric.assigned.any (fun p => decide (p.1 = e ∧ p.2 = a)) = false
            then (u.modFabric (fun _ => f)).cfgPush ([half (0x100 + f.assigned.findIdx (fun p => p.1 = e))] ++ euiWords e ++ [half a])
            else u.modFabric (fun _ => f)) →
          exec .joinReqRelay s = .next (w.fabSeq.2.joinRsp e st a 0 16 w.fabric.seq)) ∧
        (u.fabric.isRoot = false → x.h 6 1 ≤ 1 → exec .joinReqRelay s = .next u.fabDrop) ∧
        (u.fabric.isRoot = false → u.fabric.parent = none → exec .joinReqRelay s = .next u.fabDrop) ∧
        (u.fabric.isRoot = false → 1 < x.h 6 1 → ∀ p, u.fabric.parent = some p →
          exec .joinReqRelay s = .next (u.fabToNbr 2 p (x.h 2 2) 0 (x.h 6 1 - 1) 0 (x.h 8 2) (slice x.body 0 10 ++
            (if x.eui = BitVec.ofNat 64 (beNat (slice x.body 0 8)) then beOctets 2 u.fabric.addr else slice x.body 10 2)) none))) ∧
      (∀ x t p, s.fabNext [3] = some (x, t) → BitVec.ofNat 64 (beNat (slice x.body 0 8)) = t.eui → t.fabric.st = 2 →
        (octAt x.body 8).toNat = 0 → t.fabric.parent.bind t.fabric.nbr = some p →
        exec .joinRspReceive s = .next (t.joinComplete p (beNat (slice x.body 9 2)))) ∧
      (∀ x t, s.fabNext [3] = some (x, t) → BitVec.ofNat 64 (beNat (slice x.body 0 8)) = t.eui → t.fabric.st = 2 →
        (octAt x.body 8).toNat ≠ 0 → exec .joinRspReceive s = .next t.joinRetry) ∧
      (∀ x t, s.fabNext [3] = some (x, t) → BitVec.ofNat 64 (beNat (slice x.body 0 8)) ≠ t.eui →
        exec .joinRspReceive s = .next (if x.h 6 1 ≤ 1 then t.fabDrop
          else t.joinRsp (BitVec.ofNat 64 (beNat (slice x.body 0 8))) (octAt x.body 8).toNat (beNat (slice x.body 9 2)) (x.h 2 2)
            (x.h 6 1 - 1) (x.h 8 2))) ∧
      (∀ (t : State) e st a src hops seq, (∀ j ∈ t.fabric.joins, j.1 = e → j.2.2.2 + 480000000 < t.hft) →
        t.joinRsp e st a src hops seq = t.fabDrop) ∧
      (∀ t u, s.fabric.asked = some t → u = s.passTo (t + 480000000) → exec .joinTimeout s = .next (u.modFabric (fun f => { f with
        st := 1, asked := none, parent := none, retryAt := u.asn + 64 * f.period }))) ∧
      (∀ p, s.fabric.parent.bind s.fabric.nbr = some p → s.fabric.st = 3 → p.version = some 2 →
        exec .routeAdvSend s = .next (forEach (List.range (((s.fabric.addr :: s.fabric.routes.map (·.dest)).length + 95) / 96)) s
          (fun t i => t.fabSeq.2.fabToNbr 5 p.eui t.fabric.addr p.addr 16 0 t.fabric.seq
            ((((s.fabric.addr :: s.fabric.routes.map (·.dest)).drop (96 * i)).take 96).flatMap (beOctets 2)) none))) ∧
      (∀ x t, s.fabNext [5] = some (x, t) → exec .routeAdvReceive s = .next (forEach (advList x.body) t (fun s a =>
        if a = s.fabric.addr ∨ 1024 ≤ (s.fabric.routes.filter (fun r => r.dest ≠ a)).length then s
        else s.modFabric (fun f => { f with routes := f.routes.filter (fun r => r.dest ≠ a) ++ [⟨a, x.eui, s.asn, false⟩] })))) ∧
      (exec .routeExpiry s = .next (s.modFabric (fun f => { f with
        routes := f.routes.filter (fun r => r.fixed || s.asn < r.seen + 64 * f.period) }))) ∧
      (∀ m asn t, s.fabric.st = 3 → s.fabric.isRoot = false → 4 ≤ s.fabric.offsets.length →
        m = divRound ((s.fabric.offsets.take 4).foldl (fun a e => a + e.1) 0) 4 → asn = (s.fabric.offsets.getD 3 (0, 0)).2 →
        t = (fun o => s.modFabric (fun f => { f with offsets := f.offsets.drop 4, mean := m, prevMean := o })) →
        (∀ p, 4800 < m.natAbs → s.fabric.parent.bind s.fabric.nbr = some p → exec .timeOffsetUpdate s = .next ((t none).fabRestart p)) ∧
        (m.natAbs ≤ 4800 → s.fabric.prevMean = none → exec .timeOffsetUpdate s = .next ((t (some (0, asn))).adjWrite (half (ofSigned 16 m)))) ∧
        (∀ o was u, m.natAbs ≤ 4800 → s.fabric.prevMean = some (o, was) → u = (t (some (0, asn))).adjWrite (half (ofSigned 16 m)) →
          exec .timeOffsetUpdate s = .next (u.trimWrite (half (ofSigned 16 (clampInt (-2000) 2000
            (toSigned 16 (u.regN (A.RFE_XO_TRIM .sub)) + divRound (-(m - o) * 1000000000)
              (max 1 ((asn + 2 ^ 40 - was) % 2 ^ 40 * u.courseLen))))))))))

/-- ASHLAR's checks, verdicts and commits (R133 to R145, R180): the checks of a frame's header, the tag comparison, LATE 40 µs
after the frame's end, and the commit in Hod order; while a life-cycle transition runs every secured frame gets NOTENANT.
Counter leases (R146 to R148): the next record of the deletes or of the dirty queue, the sweep, the end of the lease
writer's request, which clears no entry that was inserted since its own was gone, and the reclamation of the oldest segment
when two are free, one step after the other: a fresh record of each of its senders still in the table, then the freeing of
the segment begins and ends (R276). DELETE records go ahead of the queue, and a reclamation takes its turns as its commands
come (log entry 29); whether a committed record took one instance or two is a free value (log entry 2). -/
def Obligations.AshlarVerdictsAndLeases : Prop :=
  (∀ (s : State) (n : Fin 64),
      (∀ inTime f c t, s.frameOf n (fun f => f.passed && f.check.isNone) = some f → s.ashlarCheck f inTime = (c, t) →
        exec (.ashlarLookup n inTime) s = .next ((t.modFrame f.fid (fun f => { f with check := some c })).fixFailed f.fid)) ∧
      (∀ inTime f, (mhrOf f.octets).sec = true → s.keys.lcPhase ≠ .none →
        (s.ashlarCheck f inTime).1.failed = some 0x03 ∧ (s.ashlarCheck f inTime).2 = s) ∧
      (∀ inTime f, (mhrOf f.octets).sec = true → s.keys.lcPhase = .none → s.flag F.ASHLAR_CTRL_EN = false →
        (s.ashlarCheck f inTime).1.failed = some 0x14 ∧ (s.ashlarCheck f inTime).2 = s) ∧
      (∀ f c x good, s.frameOf n Frame.awaitsMic = some f →
        f.check = some c → x = secOf f.octets (mhrOf f.octets) (f.len - fcsLen f.fcs32) → x.mic + x.micLen ≤ f.octets.length →
        micGood f c = good →
        exec (.ashlarMicCheck n) s = .next ((s.modFrame f.fid (fun f => { f with check := some { c with
          mic := some good, admission := c.admission && good, failed := if good then none else some vMic } })).fixFailed f.fid)) ∧
      (∀ f c x, s.frameOf n Frame.awaitsMic = some f →
        f.check = some c → x = secOf f.octets (mhrOf f.octets) (f.len - fcsLen f.fcs32) → f.octets.length < x.mic + x.micLen →
        exec (.ashlarMicCheck n) s = .next ((s.modFrame f.fid (fun f => { f with check := some { c with
          mic := some false, admission := false, failed := some vMalformed } })).fixFailed f.fid)) ∧
      (∀ f h, s.frameOf n (fun f => f.passed && f.handoff.isSome && f.verdict.isNone) = some f → f.handoff = some h →
        exec (.verdictDeadline n) s = .next ((s.passTo (h.tsEof + 1920)).fixVerdict f vLate)) ∧
      (∀ f h c v e t, s.frameOf n Frame.toCommit = some f → f.handoff = some h → f.check = some c → h.fcsErr = false → h.cut = false →
        s.radio.frames.any (fun g => g.passed && !g.committed && hodBefore g f) = false → s.commitRow c (byte h.asn) = (v, e) →
        s.keys.lcPhase = .none → f.verdict = none →
        t = s.modFrame f.fid (fun f => { f with
          committed := true, check := some { c with admission := false },
          pending := match s.ashlar.find c.eui with | some e => e.pending | none => false }) →
        exec (.ashlarCommit n) s = .next ((match e with | some e => t.commitEntry e | none => t).fixVerdict f v)) ∧
      (∀ f h c, s.frameOf n Frame.toCommit = some f → f.handoff = some h → f.check = some c →
        s.radio.frames.any (fun g => g.passed && !g.committed && hodBefore g f) = true → exec (.ashlarCommit n) s = .next s) ∧
      (∀ (c : Check) e heard, s.ashlar.find c.eui = some e → e.epoch.toNat = c.keyIndex → c.counter ≤ e.hwm.toNat →
        s.commitRow c heard = (vReplay, none)) ∧
      (∀ (c : Check) e heard, s.ashlar.find c.eui = some e → e.epoch.toNat = c.keyIndex → e.hwm.toNat < c.counter → e.dirty = false →
        s.commitRow c heard = (if c.counter < leaseBlock e.hwm.toNat + 512 then vPass else vLeaseWait,
          some { e with hwm := BitVec.ofNat 32 c.counter, heard := heard, dirty := decide (leaseBlock e.hwm.toNat + 256 ≤ c.counter) }))) ∧
  (∀ (s : State),
      (∀ r l, s.leaseFree = true → s.ashlar.deletes = r :: l →
        exec .leaseWrite s = .next ((s.modAshlar (fun a => { a with deletes := l })).leaseHand r)) ∧
      (∀ u l e, s.leaseFree = true → s.ashlar.deletes = [] → s.ashlar.dirtyQ = u :: l → s.ashlar.find u = some e → e.dirty = true →
        exec .leaseWrite s = .next ((s.modAshlar (fun a => { a with dirtyQ := l })).leaseHand e.leaseRec)) ∧
      (s.leaseFree = true → s.ashlar.deletes = [] → s.ashlar.dirtyQ = [] → exec .leaseWrite s = .next s) ∧
      (∀ e, s.leaseFree = true → s.ashlar.deletes = [] → s.ashlar.dirtyQ = [] → s.flag F.ASHLAR_STATUS_LEASE_SWEEP = true →
        s.ashlar.entries.find? (·.dirty) = some e → exec .leaseSweep s = .next (s.leaseHand e.leaseRec)) ∧
      (s.leaseFree = true → s.ashlar.deletes = [] → s.ashlar.dirtyQ = [] → s.flag F.ASHLAR_STATUS_LEASE_SWEEP = true →
        s.ashlar.entries.find? (·.dirty) = none → exec .leaseSweep s = .next (s.setFlag F.ASHLAR_STATUS_LEASE_SWEEP false)) ∧
      (∀ r n u t, (n, u) = s.draw 2 → u.ashlar.leaseOut = some r → u.nvTurn .lease = true →
        u.nvFits .lease (threeCopies (copyWords 2 1 r.payload 0)) = true →
        u.nvRecordWrite .lease (copyWords 2 1 r.payload 0) n = (.committed, t) →
        exec .leaseCommitted s = .next (t.leaseUnport.leaseDone r)) ∧
      (∀ r t, s.ashlar.leaseOut = some r → s.nvTurn .lease = true → s.nvFits .lease (threeCopies (copyWords 2 1 r.payload 0)) = true →
        s.nvRecordWrite .lease (copyWords 2 1 r.payload 0) 2 = (.verify, t) →
        exec .leaseWriteFailed s = .next (t.leaseUnport.leaseBack r s.ashlar.outFresh)) ∧
      (s.ashlar.leaseOut = none → exec .leaseWriteFailed s = .next s) ∧
      (∀ r, s.leaseBack r false = if r.lease then ((s.raiseEvt F.ASHLAR_EVT_LEASE_ERR 5).ashlarEvent 0x83).pushDirty r.eui
        else ((s.raiseEvt F.ASHLAR_EVT_LEASE_ERR 5).ashlarEvent 0x83).modAshlar (fun a => { a with deletes := r :: a.deletes })) ∧
      (∀ r e, s.ashlar.find r.eui = some e → s.ashlar.outGone = true → s.leaseDone r = s) ∧
      (∀ r e, s.ashlar.find r.eui = some e → r.lease = true → e.leaseRec = r → e.dirty = true → s.ashlar.outGone = false →
        s.leaseDone r = s.modAshlar (fun a => a.update r.eui (fun e => { e with dirty := false }))) ∧
      (∀ r, s.ashlar.find r.eui = none → s.leaseDone r = s) ∧
      (∀ b, s.nvm.freeing = some b → exec .leaseSegmentReclaim s = .next ((s.modNvm (fun n => { n with freeing := none })).freeSeg b)) ∧
      (s.nvm.freeing = none → s.leaseFree = false → exec .leaseSegmentReclaim s = .next s) ∧
      (s.nvm.freeing = none → s.leaseFree = true → s.ashlar.reclaim = none → 2 < (s.segsFree .lease).length → exec .leaseSegmentReclaim s = .next s) ∧
      (∀ i b l, s.nvm.freeing = none → s.leaseFree = true → s.ashlar.reclaim = none → (s.segsFree .lease).length ≤ 2 → s.segsInUse .lease = (i, b) :: l →
        exec .leaseSegmentReclaim s = .next ((s.eccNote b (b + 0x10000)).modAshlar (fun a => { a with reclaim := some (b,
          (leaseRecords (s.instances b)).filterMap (fun c =>
            if c.isLease && (s.ashlar.find c.leaseEui).isSome then some c.leaseEui else none)) })).reclaimNext) ∧
      (∀ b u l e, s.nvm.freeing = none → s.leaseFree = true → s.ashlar.reclaim = some (b, u :: l) → s.ashlar.find u = some e →
        exec .leaseSegmentReclaim s = .next ((s.modAshlar (fun a => { a with reclaim := some (b, l) })).leaseHand e.leaseRec true)) ∧
      (∀ b l, s.nvm.freeing = none → s.leaseFree = true → s.ashlar.reclaim = some (b, l) → (∀ u ∈ l, s.ashlar.find u = none) →
        exec .leaseSegmentReclaim s = .next ((s.modAshlar (fun a => { a with reclaim := none })).modNvm (fun n => { n with
          freeing := some b }))))

/-- ASHLAR's enable, restore and rebuild (R149 to R151) and the tenant epoch (R131): EN = 0 empties table, stash and queues,
RESTORE draws a hash key, empties the table, replays the log and sets the sweep (the key is drawn once the DRBG is ready and
no KEYS command waits for it, R167), a rebuild draws a key, moves every entry to its new buckets and drops the old key, a
trigger during either is queued; an epoch write is taken from 0, or one step up, which starts a rebuild. A write of
ASHLAR_CMD without EN = 1 is ignored (log entry 30). Entry operations (R152): an operation sets CMD_BUSY and leaves its
result for ENTRY_OP_DONE; a busy one sets CMD_ERR; only READ runs during a restore; READ, INSERT, DELETE and the changes of
PENDING and QUARANTINE with their results; the end writes E_RES, clears CMD_BUSY, raises CMD_DONE and answers; PURGE deletes
its tenant's entries. The results of INSERT are tested in the order in which R152 lists them (log entry 31). -/
def Obligations.AshlarTableOperations : Prop :=
  (∀ (s : State),
      (s.flag F.ASHLAR_CTRL_EN = false → exec .ashlarEnable s = .next ((s.setFlag F.ASHLAR_CTRL_EN).setFlag F.ASHLAR_STATUS_RUN)) ∧
      (s.flag F.ASHLAR_CTRL_EN = true → exec .ashlarEnable s = .next s) ∧
      (exec .ashlarDisable s = .next (((s.setFlag F.ASHLAR_CTRL_EN false).setReg A.ASHLAR_STATUS (s.reg A.ASHLAR_STATUS &&& 0x102)).modAshlar
        (fun a => { a with
          ways := [], stash := [], oldHk := none, dirtyQ := [], deletes := [], wantHk := false, replaced := false, reclaim := none
          outGone := true }))) ∧
      (s.flag F.ASHLAR_CTRL_EN = false → exec .ashlarCmdRestore s = .next s ∧ exec .ashlarCmdRebuild s = .next s) ∧
      (s.flag F.ASHLAR_STATUS_RESTORE = true → exec .ashlarCmdRestore s = .next s) ∧
      (s.flag F.ASHLAR_CTRL_EN = true → s.flag F.ASHLAR_STATUS_RESTORE = false →
        exec .ashlarCmdRestore s = .next ((((s.setFlag F.ASHLAR_STATUS_REBUILD false).setFlag F.ASHLAR_STATUS_RESTORE).setFlag
          F.ASHLAR_STATUS_HK_WAIT (!s.drbgReady)).modAshlar (fun a => { a with oldHk := none, wantHk := true, replaced := false, reclaim := none }))) ∧
      (s.flag F.ASHLAR_CTRL_EN = true → (s.flag F.ASHLAR_STATUS_REBUILD = true ∨ s.flag F.ASHLAR_STATUS_RESTORE = true) →
        exec .ashlarCmdRebuild s = .next (s.setFlag F.ASHLAR_STATUS_REBUILD_QUEUED)) ∧
      (s.flag F.ASHLAR_CTRL_EN = true → s.flag F.ASHLAR_STATUS_REBUILD = false → s.flag F.ASHLAR_STATUS_RESTORE = false →
        exec .ashlarCmdRebuild s = .next (((s.setFlag F.ASHLAR_STATUS_REBUILD).setFlag F.ASHLAR_STATUS_HK_WAIT (!s.drbgReady)).modAshlar
          (fun a => { a with wantHk := true, replaced := false }))) ∧
      (s.ashlar.wantHk = true → s.drbgReady = false → exec .hkDraw s = .next (s.setFlag F.ASHLAR_STATUS_HK_WAIT)) ∧
      (s.ashlar.wantHk = true → s.drbgReady = true → s.keysWantsDrbg = true →
        exec .hkDraw s = .next (s.setFlag F.ASHLAR_STATUS_HK_WAIT false)) ∧
      (∀ k t, s.ashlar.wantHk = true → s.drbgReady = true → s.keysWantsDrbg = false → s.drbg 16 = (k, t) →
        t.flag F.ASHLAR_STATUS_RESTORE = true →
        exec .hkDraw s = .next (((t.setFlag F.ASHLAR_STATUS_HK_WAIT false).modAshlar (fun a => { a with
          hk := k, wantHk := false, ways := [], stash := [], dirtyQ := [], outGone := true })).setFlag F.ASHLAR_STATUS_LEASE_SWEEP false)) ∧
      (∀ k t, s.ashlar.wantHk = true → s.drbgReady = true → s.keysWantsDrbg = false → s.drbg 16 = (k, t) →
        t.flag F.ASHLAR_STATUS_RESTORE = false →
        exec .hkDraw s = .next ((t.setFlag F.ASHLAR_STATUS_HK_WAIT false).modAshlar (fun a => { a with
          hk := k, oldHk := some s.ashlar.hk, wantHk := false }))) ∧
      (s.flag F.ASHLAR_STATUS_RESTORE = true → s.ashlar.wantHk = false →
        exec .restoreDone s = .next (((((((forEach (leaseRecords (s.regionLog .lease)) (forEach ((s.regionLog .lease).filter (· == .unusable))
          (s.regionRead .lease) (fun s _ => s.nvSplit)) State.restoreOne).setFlag F.ASHLAR_STATUS_RESTORE false).setFlag
            F.ASHLAR_STATUS_RESTORED).setFlag F.ASHLAR_STATUS_LEASE_SWEEP).raiseEvt F.ASHLAR_EVT_RESTORE_DONE 5).ashlarEvent 0x82).nextRebuild)) ∧
      (∀ t, s.flag F.ASHLAR_STATUS_REBUILD = true → s.ashlar.wantHk = false → s.ashlar.replaced = false →
        t = s.rebuildTable →
        exec .rebuildStart s = .next ((forEach t.ashlar.stash t State.rebuildStash).modAshlar (fun a => { a with replaced := true }))) ∧
      (s.flag F.ASHLAR_STATUS_REBUILD = true → s.ashlar.replaced = true →
        exec .rebuildDone s = .next ((((((s.modAshlar (fun a => { a with oldHk := none, replaced := false })).setFlag F.ASHLAR_STATUS_REBUILD
          false).count (A.ASHLAR_CNT 10)).raiseEvt F.ASHLAR_EVT_REBUILD_DONE 5).ashlarEvent 0x81).nextRebuild)) ∧
      (∀ (w : Half) e, (s.tenant s.tsel).epoch = e → e = 0 → w.toNat % 256 ≠ 0 →
        exec (.tenantEpochWrite w) s = .next (s.modTenant s.tsel (fun t => { t with epoch := w.toNat % 256 }))) ∧
      (∀ (w : Half) e, (s.tenant s.tsel).epoch = e → e ≠ 0 → e ≤ 254 → w.toNat % 256 = e + 1 →
        exec (.tenantEpochWrite w) s = .next ((s.modTenant s.tsel (fun t => { t with epoch := e + 1 })).rebuildTrigger)) ∧
      (∀ (w : Half) e, (s.tenant s.tsel).epoch = e → e ≠ 0 → (255 ≤ e ∨ w.toNat % 256 ≠ e + 1) →
        exec (.tenantEpochWrite w) s = .next (s.raiseEvt F.ASHLAR_EVT_TEPOCH_ERR 5))) ∧
  (∀ (s : State),
      (∀ i k, entryCode i = some k → s.flag F.ASHLAR_STATUS_CMD_BUSY = true → exec i s = .next (s.setFlag F.ASHLAR_STATUS_CMD_ERR)) ∧
      (∀ i k t r u, entryCode i = some k → s.flag F.ASHLAR_STATUS_CMD_BUSY = false →
        t = (s.setFlag F.ASHLAR_STATUS_CMD_BUSY).ensureHk → (t.flag F.ASHLAR_STATUS_RESTORE = false ∨ k = 1) → t.entryAct k = (r, u) →
        exec i s = .next (u.modAshlar (fun a => { a with op := some (if r = eBusy then 0 else k, r) }))) ∧
      (∀ i k t, entryCode i = some k → s.flag F.ASHLAR_STATUS_CMD_BUSY = false → t = (s.setFlag F.ASHLAR_STATUS_CMD_BUSY).ensureHk →
        t.flag F.ASHLAR_STATUS_RESTORE = true → k ≠ 1 →
        exec i s = .next (t.modAshlar (fun a => { a with op := some (0, eBusy) }))) ∧
      (∀ e, s.ashlar.find s.opEui = some e → s.entryAct 1 = (eDone, forEach (e.words.zipIdx) s
        (fun s p => s.setReg (A.ASHLAR_E_W p.2) p.1))) ∧
      (∀ k, s.ashlar.find s.opEui = none → (k = 1 ∨ k = 3 ∨ k = 4 ∨ k = 5 ∨ k = 6 ∨ k = 7) → s.entryAct k = (eNotFound, s)) ∧
      (∀ e, s.ashlar.find s.opEui = some e → s.entryAct 2 = (eExists, s)) ∧
      (s.ashlar.find s.opEui = none → 64 ≤ s.ashlar.stash.length → s.entryAct 2 = (eFull, s.ashlarFull)) ∧
      (∀ t e, s.ashlar.find s.opEui = none → s.ashlar.stash.length < 64 → t = s.regN (A.ASHLAR_E_W 2) % 4096 →
        e = s.regN (A.ASHLAR_E_W 3) % 256 →
        ((s.tenant t).usable = false → s.entryAct 2 = (eNoTenant, s)) ∧
        ((s.tenant t).usable = true → e = 0 → s.entryAct 2 = (eBadArg, s)) ∧
        ((s.tenant t).usable = true → e ≠ 0 → s.entryAct 2 = (eDone, (s.insertEntry { eui := s.opEui
                                                                                      hwm := BitVec.ofNat 32 (s.regN (A.ASHLAR_E_W 0) + 65536 * s.regN (A.ASHLAR_E_W 1))
                                                                                      valid := true, dirty := true, tenant := BitVec.ofNat 12 t
                                                                                      epoch := byte e, heard := byte s.asn }).pushDirty s.opEui))) ∧
      (∀ e pend, s.ashlar.find s.opEui = some e →
        s.entryAct (if pend then 4 else 5) = (eDone, s.modAshlar (fun a => a.update s.opEui (fun e => { e with pending := pend })))) ∧
      (∀ e quar t, s.ashlar.find s.opEui = some e →
        t = s.modAshlar (fun a => a.update s.opEui (fun e => { e with quarantine := quar, dirty := true })) →
        s.entryAct (if quar then 6 else 7) = (eDone, if e.dirty then t else t.pushDirty s.opEui)) ∧
      (∀ e, s.ashlar.find s.opEui = some e → s.entryAct 3 = (eDone, (s.entryGone s.opEui).modAshlar (fun a => { (a.remove s.opEui) with
        deletes := a.deletes ++ [e.deleteRec] }))) ∧
      (∀ op : Fin 16, (op.val = 0 ∨ 8 < op.val) → s.entryAct op = (eBadOp, s)) ∧
      (∀ op r t, s.ashlar.op = some (op, r) → op ≠ 8 →
        t = (((s.modAshlar (fun a => { a with op := none })).setReg A.ASHLAR_E_RES (half r)).setFlag F.ASHLAR_STATUS_CMD_BUSY false).raiseEvt
          F.ASHLAR_EVT_CMD_DONE 5 →
        exec .entryOpDone s = .next (if r = 0 then t.complete .entryOp stOk 0 ((List.range 4).map (fun i => t.reg (A.ASHLAR_E_W i)))
          else t.complete .entryOp stFail r [])) ∧
      (∀ r, s.ashlar.op = some (8, r) →
        exec .purgeDone s = .next ((forEach (s.ashlar.entries.filter (fun e => e.tenant.toNat = s.regN (A.ASHLAR_E_W 2) % 4096)) s
          (fun s e => (s.entryDelete e.eui).2)).entryFinish r)))

/-- CRYPTO (R157 to R162): the next descriptor ends with the STATUS of the first failed check, waits for its lease, or starts:
the job holds the mode's result over its operands, and its slot has given a use and a counter value. The end of a job stores
the result and word 18; the ring is enabled, stopped and filled; a lease commit ends in its turn at NVMC: committed, at the
first writing or the second (a free value, log entry 2), the floor falls and the counter lease rises to what was asked for,
neither ever going back; not committed, LEASE_ERR is set and the request stays. A job reads its operands as it starts, and
EN reads 1 until a stop takes effect (log entry 32). The modes and the counters of a job (R158, R159, R161): what each mode
makes of its operands, what makes a descriptor bad, the checks in their order, the lease that a use or a counter value needs
first, and the use that a job takes. -/
def Obligations.CryptoJobsAndModes : Prop :=
  (∀ (s : State),
      (∀ i m core d sub, jobMode i = some m → s.ringWaits = true → s.keys.commit = none → d = s.nextDesc → d.mode = m →
        s.freeCore = some core → sub = s.crypto.submitter.getD (s.crypto.next % 16) 0 →
        (∀ st, s.jobCheck d sub = some st →
          exec i s = .next (((s.modCrypto (fun c => { c with next := (c.next + 1) % 32 })).jobWrite s.crypto.next st none
            (bits (d.w 0) 10 10 = 1)).skipReserved 16)) ∧
        (∀ f l, s.jobCheck d sub = none → (s.slot d.slot).leaseNeed true d.nctr = some (f, l) →
          exec i s = .next ((s.modKeys (fun q => { q with commit := some (d.slot, f, l) })).skipReserved 16)) ∧
        (s.jobCheck d sub = none → (s.slot d.slot).leaseNeed true d.nctr = none →
          exec i s = .next (((s.modCrypto (fun c => { c with next := (c.next + 1) % 32 })).jobRun d core s.crypto.next).skipReserved 16))) ∧
      (∀ i m, jobMode i = some m → (s.ringWaits = false ∨ s.keys.commit ≠ none ∨ s.nextDesc.mode ≠ m) → exec i s = .next s) ∧
      (∀ (d : Desc) core idx ns nd k r, d.sizes = (ns, nd) → inSram d.src ns = true → inSram d.dst nd = true → k = s.slot d.slot →
        r = d.run k.key (s.sramTake d.src ns) (if d.nctr then k.c else 0) →
        (s.jobRun d core idx).crypto.jobs = s.crypto.jobs ++ [{ core := core, idx := idx, slot := d.slot
                                                                irq := bits (d.w 0) 10 10 = 1
                                                                status := if r.2 then jMicFail else jOk, dst := d.dst, out := r.1
                                                                issued := if d.nctr then some k.c else none }] ∧
        (s.jobRun d core idx).slot d.slot = { k with c := if d.nctr then k.c + 1 else k.c, u := if k.counted then k.u - 1 else k.u }) ∧
      (∀ k j t, s.crypto.jobs.find? (fun j => j.core = k.val) = some j →
        t = ((((s.modCrypto (fun c => { c with jobs := c.jobs.filter (fun i => i.core != k.val) })).cryptoBusy.sramPut j.dst j.out).jobWrite
          j.idx j.status j.issued j.irq).lastUseDestroy) →
        exec (.cryptoJobDone k) s = .next ((if t.crypto.stopPend && t.crypto.jobs.isEmpty
          then (t.setFlag F.CRYPTO_CTRL_EN false).modCrypto (fun c => { c with stopPend := false }) else t).skipReserved 16)) ∧
      (s.flag F.CRYPTO_CTRL_EN = false →
        exec .cryptoEnable s = .next (((((s.setFlag F.CRYPTO_CTRL_EN).latch [A.CRYPTO_Q_BASE_LO, A.CRYPTO_Q_BASE_HI]).setReg A.CRYPTO_Q_WR
          0).setReg A.CRYPTO_Q_RD 0).modCrypto (fun c => { c with next := 0, written := [], stopPend := false }))) ∧
      (s.flag F.CRYPTO_CTRL_EN = false → exec .cryptoDisable s = .next s) ∧
      (s.flag F.CRYPTO_CTRL_EN = true → s.crypto.jobs = [] → exec .cryptoDisable s = .next (s.setFlag F.CRYPTO_CTRL_EN false)) ∧
      (s.flag F.CRYPTO_CTRL_EN = true → s.crypto.jobs ≠ [] →
        exec .cryptoDisable s = .next (s.modCrypto (fun c => { c with stopPend := true }))) ∧
      (∀ (c : Fin 2) (w : Half), 16 < (w.toNat % 32 + 32 - s.regN A.CRYPTO_Q_RD) % 32 →
        exec (.cryptoQueueWrite c w) s = .next (s.setFlag F.CRYPTO_STATUS_Q_ERR)) ∧
      (∀ (c : Fin 2) (w : Half) rd held new, rd = s.regN A.CRYPTO_Q_RD → held = (s.regN A.CRYPTO_Q_WR + 32 - rd) % 32 →
        new = (w.toNat % 32 + 32 - rd) % 32 → new ≤ 16 →
        exec (.cryptoQueueWrite c w) s = .next (((s.setReg A.CRYPTO_Q_WR (half (w.toNat % 32))).modCrypto (fun k => { k with
          submitter := k.submitter.zipIdx.map (fun p =>
            if ((List.range (new - held)).map (fun i => (rd + held + i) % 16)).contains p.2 then c.val else p.1) })).skipReserved 16)) ∧
      (∀ n f l again t, s.keys.commit = some (n, f, l) → s.keysMayWrite = true → s.draw 2 = (again, t) →
        exec (.keysLeaseCommit true) s = .next (((t.leasePut n f l again).2.modKeys (fun q => { q with commit := none })).unport .keys)) ∧
      (∀ n f l, s.keys.commit = some (n, f, l) → s.keysMayWrite = true → (f < (s.slot n).f ∨ (s.slot n).l < l) →
        exec (.keysLeaseCommit false) s = .next ((s.leasePut n f l 2).2.unport .keys)) ∧
      (∀ ok, s.keys.commit = none ∨ s.keysMayWrite = false → ∃ t, exec (.keysLeaseCommit ok) s = .next t ∧ t.keys = s.keys ∧ t.mram = s.mram) ∧
      (∀ n f l fails, fails < 2 → (s.leasePut n f l fails).1 = true ∧
        (s.leasePut n f l fails).2.slot n = { s.slot n with f := min f (s.slot n).f, l := max l (s.slot n).l }) ∧
      (∀ n f l, f < (s.slot n).f ∨ (s.slot n).l < l →
        (s.leasePut n f l 2).1 = false ∧ (s.leasePut n f l 2).2.flag F.KEYS_STATUS_LEASE_ERR = true) ∧
      (s.keysMayWrite = true ↔ (s.nvm.cur = none ∨ s.nvTurn .keys = true))) ∧
  ((∀ (d : Desc) key src issued x, x = segments (src.take d.len) →
      (d.mode = 1 → d.run key src issued = (cbcEnc key d.iv x, false)) ∧
      (d.mode = 2 → d.run key src issued = (cbcDec key d.iv x, false)) ∧
      (d.mode = 3 → d.run key src issued = (cfbEnc key d.iv x, false)) ∧
      (d.mode = 4 → d.run key src issued = (cfbDec key d.iv x, false)) ∧
      (d.mode = 5 → d.run key src issued = (ctrRun key (beNat d.iv) x, false)) ∧
      (d.mode = 6 → d.run key src issued = (cmac key (src.take d.len), false))) ∧
    (∀ (d : Desc) key src issued nonce a m, d.mode = 7 → m = slice src d.alen d.len →
      nonce = (if d.nctr then putAt (slice d.iv 0 13) 8 (beOctets 4 issued) else slice d.iv 0 13) →
      a = (if d.nctr && d.ctrofs != 0xFF then putAt (slice src 0 d.alen) d.ctrofs (leOctets 4 issued) else slice src 0 d.alen) →
      d.run key src issued = (a ++ ccmCrypt key nonce m ++ ccmTag key nonce a m d.m, false)) ∧
    (∀ (d : Desc) key src issued nonce a m, d.mode = 8 → nonce = slice d.iv 0 13 → a = slice src 0 d.alen →
      m = ccmCrypt key nonce (slice src d.alen d.len) →
      d.run key src issued = (if ccmTag key nonce a m d.m == slice src (d.alen + d.len) d.m then (a ++ m, false)
        else (a ++ List.replicate d.len 0, true))) ∧
    (∀ (d : Desc) sub, d.bad sub = true ↔ (d.mode = 0 ∨ 8 < d.mode ∨ bits (d.w 0) 6 6 ≠ 0 ∨ 256 ≤ d.w 2 ∨ 256 ≤ d.w 4 ∨
      bits (d.w 7) 7 5 ≠ 0 ∨ d.req = 7 ∨ (d.req < 2 ∧ d.req ≠ sub) ∨ ((d.mode = 1 ∨ d.mode = 2) ∧ d.len % 16 ≠ 0) ∨
      (d.m ≠ 0 ∧ d.m ≠ 4 ∧ d.m ≠ 8 ∧ d.m ≠ 16) ∨ (d.nctr = true ∧ d.mode ≠ 7) ∨ (d.ctrofs ≠ 0xFF ∧ d.alen < d.ctrofs + 4))) ∧
    (∀ (s : State) (d : Desc) sub k, k = s.slot d.slot → s.jobCheck d sub =
      (if d.bad sub then some jBadDesc
      else if k.kind = 0 ∨ k.kind = 3 then some jNoSlot
      else if k.attr1.getLsbD d.req = false ∨ k.attr0.getLsbD (if d.req < 2 ∨ 7 ≤ d.req then 6 else 7) = false ∨
        k.attr0.getLsbD s.lcState = false ∨ k.attr0.getLsbD (if d.mode ≤ 5 then 8 else 9) = false then some jDenied
      else if d.nctr = true ∧ k.nctr = false then some jNoCtr
      else if k.counted = true ∧ k.u = 0 then some jUsesOut
      else if d.nctr = true ∧ k.c = 0xFFFFFFFF then some jExhausted
      else none)) ∧
    (∀ (k : Slot) ctr, k.leaseNeed true ctr =
      (if (k.counted = true ∧ k.u ≤ k.f) ∨ (ctr = true ∧ k.l ≤ k.c) then
        some (if k.counted = true ∧ k.u ≤ k.f then k.f - 256 else k.f,
          if ctr = true ∧ k.l ≤ k.c then min (k.l + 65536) 0xFFFFFFFF else k.l)
      else none)) ∧
    (∀ (s : State) (n : Nat), (s.slot n).counted = true → ((s.takeUse n).slot n).u = (s.slot n).u - 1) ∧
    (∀ (s : State) (n : Nat), (s.slot n).counted = false → s.takeUse n = s))

/-- KEYS commands (R169, R173, R174, R178): a write while BUSY sets CMD_ERR; else BUSY is set and the command waits with the
four arguments; LC_CHANGE is judged once KEYS holds PKE, and the change to DEPLOYED once the DRBG is ready: it consumes the
nonce, and the transition begins or the command is refused; the end gives RESULT, clears BUSY, raises its line and answers.
A command that may write the stores ends in its turn at NVMC (R277), and one whose lease is not committed waits for a retry
(DESIGN CHOICE, log entry 107). -/
def Obligations.KeysCommands : Prop :=
  ∀ (s : State),
    (∀ i c op, keysCode i = some (c, op) → s.flag F.KEYS_STATUS_BUSY = true → exec i s = .next (s.setFlag F.KEYS_STATUS_CMD_ERR)) ∧
    (∀ i (c : Fin 2) op, keysCode i = some (c, op) → s.flag F.KEYS_STATUS_BUSY = false →
      exec i s = .next ((((s.setFlag F.KEYS_STATUS_BUSY).modKeys (fun k => { k with
        cmd := some {
          op := op, core := c.val
          args := [s.reg (A.KEYS_ARG 0), s.reg (A.KEYS_ARG 1), s.reg (A.KEYS_ARG 2), s.reg (A.KEYS_ARG 3)] } })).keysHold).keysJudge)) ∧
    (∀ c : KeysCmd, s.keys.cmd = some c → c.op ≠ 1 → c.op ≠ 8 → s.keysHold = s) ∧
    (∀ c : KeysCmd, s.keys.cmd = some c → c.op ≠ 8 → s.keysJudge = s) ∧
    (∀ c : KeysCmd, s.keys.cmd = some c → (c.op = 1 ∨ (c.op = 8 ∧ c.refused = false)) → s.pke.cmd = none →
      s.keysHold = (s.modPke (fun p => { p with held := true })).setFlag F.PKE_STATUS_BUSY) ∧
    (∀ c : KeysCmd, s.keys.cmd = some c → s.pke.cmd ≠ none → s.keysHold = s) ∧
    (∀ c : KeysCmd, s.keys.cmd = some c → c.op = 8 → c.refused = false →
      (s.pke.held = false ∨ (s.lcAllowed c.args (bits (wordAt c.args 0) 2 0) = true ∧ bits (wordAt c.args 0) 2 0 = 2 ∧ s.drbgReady = false)) →
      s.keysJudge = s ∧ exec .keysCmdDone s = .next s) ∧
    (∀ (c : KeysCmd) target, s.keys.cmd = some c → c.op = 8 → c.refused = false → target = bits (wordAt c.args 0) 2 0 →
      s.pke.held = true → (target ≠ 2 ∨ s.drbgReady = true) → s.lcAllowed c.args target = true →
      s.keysJudge = (s.modKeys (fun k => { k with nonce := none })).lcBegin target ∧
      ∃ cert, s.keysJudge.keys.lcPhase = .running target cert) ∧
    (∀ (c : KeysCmd), s.keys.cmd = some c → c.op = 8 → c.refused = false → s.pke.held = true →
      s.lcAllowed c.args (bits (wordAt c.args 0) 2 0) = false →
      s.keysJudge = (((s.modKeys (fun k => { k with nonce := none })).modPke (fun p => { p with held := false })).setFlag
        F.PKE_STATUS_BUSY false).modKeys (fun k => { k with cmd := some { c with refused := true } })) ∧
    (∀ (c : KeysCmd), c.op = 8 → s.keysAct c = (kDenied, s)) ∧
    (∀ c, s.keys.cmd = some c → s.keysWaits c = true → exec .keysCmdDone s = .next s) ∧
    (∀ c : KeysCmd, s.keys.cmd = some c → c.stores = true → s.keysMayWrite = false → exec .keysCmdDone s = .next s) ∧
    (∀ c x t, s.keys.cmd = some c → s.keysWaits c = false → (c.stores = false ∨ s.keysMayWrite = true) → s.keysRun c = (x, t) →
      exec .keysCmdDone s = .next (match x with | some r => keysEnded s t c r | none => t.keysUnport)) ∧
    (∀ (c : KeysCmd) r t, s.keysNeeds c = none → s.keysAct c = (r, t) → s.keysRun c = (some r, t)) ∧
    (∀ (c : KeysCmd) n f l ok t, s.keysNeeds c = some (n, f, l) → s.leaseTake n f l = (ok, t) →
      s.keysRun c = if ok = true then (some (t.keysAct c).1, (t.keysAct c).2) else (none, t)) ∧
    (∀ c : KeysCmd, c.stores = true ↔ 1 ≤ c.op ∧ c.op ≤ 6) ∧
    (∀ (c : KeysCmd), s.flag F.KEYS_STATUS_KS_LOST = true → 1 ≤ c.op → c.op ≤ 6 → s.keysAct c = (kDenied, s)) ∧
    (∀ (c : KeysCmd), c.op = 0 ∨ 8 < c.op → s.keysAct c = (kBadOp, s))

/-- PKE commands (R163, R165, R167): a write while BUSY sets CMD_ERR; else BUSY is set and the operation waits with its
operands; the end gives RESULT, clears BUSY and raises its line, SIGN and KEYGEN once the DRBG is ready and neither KEYS nor
ASHLAR wants it, and KEYGEN, which writes a slot's entries, in its turn at NVMC (R277); KEYS then takes PKE where it waits
for it. Reserved codes end in BADOP. The TRNG (R166, R167): a restart releases no output until the start-up tests pass over
1,024 samples, a failed health test zeroises the DRBG and raises line 9, a reseed is requested, 65,536 requests reseed, and
a read without output underruns; TRNG_OUT takes fresh bits once KEYS, ASHLAR and PKE want none. Which samples fail the two
tests is the model's reading of their names (PRESUMED, log entry 101), and that fresh bits take the place of those read at
once its choice, where no other consumer waits (DESIGN CHOICE, log entry 34). -/
def Obligations.PkeAndRandomNumbers : Prop :=
  (∀ (s : State),
      (∀ i c w, pkeCode i = some (c, w) → s.flag F.PKE_STATUS_BUSY = true → exec i s = .next (s.setFlag F.PKE_STATUS_CMD_ERR)) ∧
      (∀ i (c : Fin 2) (w : Half), pkeCode i = some (c, w) → s.flag F.PKE_STATUS_BUSY = false →
        exec i s = .next ((s.setFlag F.PKE_STATUS_BUSY).modPke (fun p => { p with cmd := some {
          op := bits w.toNat 3 0, slot := bits w.toNat 13 8, ident := w.getLsbD 15, core := c.val
          arg := s.effAddr A.PKE_ARG_LO, dslot := s.fld F.PKE_ARG_HI_DSLOT, len := s.regN A.PKE_LEN } }))) ∧
      (∀ c, s.pke.cmd = some c → (c.op = 5 ∨ c.op = 7) →
        (s.drbgReady = false ∨ s.keysWantsDrbg = true ∨ s.ashlar.wantHk = true) → exec .pkeOpDone s = .next s) ∧
      (∀ c : PkeCmd, s.pke.cmd = some c → c.op = 7 → s.keysMayWrite = false → exec .pkeOpDone s = .next s) ∧
      (∀ c r t u, s.pke.cmd = some c → ((c.op ≠ 5 ∧ c.op ≠ 7) ∨
        (s.drbgReady = true ∧ s.keysWantsDrbg = false ∧ s.ashlar.wantHk = false ∧ (c.op = 7 → s.keysMayWrite = true))) →
        s.pkeAct c = (r, t) →
        u = (if c.op = 7 then (t.modPke (fun p => { p with cmd := none })).keysUnport else t.modPke (fun p => { p with cmd := none })) →
        exec .pkeOpDone s = .next (((u.setFld F.PKE_STATUS_RESULT r).setFlag F.PKE_STATUS_BUSY false).keysHold.keysJudge.raise 7)) ∧
      (∀ c : PkeCmd, c.op = 0 ∨ 8 < c.op → s.pkeAct c = (pBadOp, s)) ∧
      (∀ c : PkeCmd, c.op = 8 → s.pkeAct c = (if onCurve (s.pkeOp A.PKE_QX) (s.pkeOp A.PKE_QY) then pValid else pBadPoint, s)) ∧
      (∀ c : PkeCmd, c.op = 4 → onCurve (s.pkeOp A.PKE_QX) (s.pkeOp A.PKE_QY) = false → s.pkeAct c = (pBadPoint, s)) ∧
      (∀ c : PkeCmd, c.op = 3 → s.pke.sha = none → s.pkeAct c = (pOrder, s)) ∧
      (∀ c : PkeCmd, c.op = 6 → (c.ident = true ∨ s.flag F.KEYS_STATUS_KS_LOST = true) → s.pkeAct c = (pDenied, s))) ∧
  (∀ (s : State),
      (exec .trngReseed s = .next (s.modTrng (fun t => { t with reseed := true }))) ∧
      (exec .trngRestart s = .next (((s.setFlag F.TRNG_STATUS_STARTUP).setFlag F.TRNG_STATUS_READY false).setFlag
        F.TRNG_STATUS_OUT_VALID false)) ∧
      (∀ first rest, (first :: rest).length = 1024 →
        (s.flag F.TRNG_STATUS_STARTUP = true ∨ (s.flag F.TRNG_STATUS_READY = false ∧ s.flag F.TRNG_STATUS_HEALTH_FAIL = false)) →
        exec (.trngStartupDone first rest) s = .next (
          if rctFails 0 0 (first :: rest) = 0 ∧ aptFails 1 (first :: rest) = 0 then
            ((s.setReg A.TRNG_STATUS (s.reg A.TRNG_STATUS &&& 0x10 ||| 0x02)).modTrng (fun t => { t with
              requests := 0, reseed := false })).keysJudge.trngFill
          else s.healthFail (rctFails 0 0 (first :: rest)) (aptFails 1 (first :: rest)))) ∧
      (∀ first rest, (first :: rest).length ≠ 1024 ∨ (s.flag F.TRNG_STATUS_STARTUP = false ∧
        (s.flag F.TRNG_STATUS_READY = true ∨ s.flag F.TRNG_STATUS_HEALTH_FAIL = true)) → exec (.trngStartupDone first rest) s = .next s) ∧
      (∀ l : List Nat, l.length = 41 → rctFails 0 0 l ≠ 0 → exec (.healthTestFail l) s = .next (s.healthFail (rctFails 0 0 l) 0)) ∧
      (∀ l : List Nat, l.length = 1024 → aptFails 1 l ≠ 0 → exec (.healthTestFail l) s = .next (s.healthFail 0 (aptFails 1 l))) ∧
      (∀ x, rctFails 0 0 (List.replicate 41 x) = 1) ∧ (∀ l : List Nat, l.length < 41 → rctFails 0 0 l = 0) ∧
      (∀ (l : List Nat) x, l.length = 1024 → l.head? = some x →
        aptFails 1 l = if 624 ≤ (l.filter (· = x)).length then 1 else 0) ∧
      (∀ rct apt, ∃ t, s.healthFail rct apt = t.raise 9 ∧ t.flag F.TRNG_STATUS_HEALTH_FAIL = true ∧ t.flag F.TRNG_STATUS_READY = false ∧
        t.flag F.TRNG_STATUS_OUT_VALID = false ∧ SameMemory s t ∧
        SameRegs s t [A.TRNG_CNT_RCT, A.TRNG_CNT_APT, A.TRNG_STATUS]) ∧
      (s.drbgReady = true → 65536 ≤ s.trng.requests →
        exec .drbgAutoReseed s = .next (s.modTrng (fun t => { t with requests := 0, reseed := false }))) ∧
      (s.drbgReady = true → s.trng.requests < 65536 → exec .drbgAutoReseed s = .next s) ∧
      (s.flag F.TRNG_STATUS_OUT_VALID = false → exec .trngOutRead s = .next ((s.setFlag F.TRNG_STATUS_UNDERRUN).see (.value 0))) ∧
      (s.flag F.TRNG_STATUS_OUT_VALID = true →
        exec .trngOutRead s = .next ((s.setFlag F.TRNG_STATUS_OUT_VALID false).trngFill.see (.value s.trng.out))) ∧
      (s.drbgReady = false ∨ s.flag F.TRNG_STATUS_OUT_VALID = true ∨ s.keysWantsDrbg = true ∨ s.ashlar.wantHk = true ∨ s.pkeWantsDrbg = true →
        s.trngFill = s) ∧
      (∀ o t, s.drbgReady = true → s.flag F.TRNG_STATUS_OUT_VALID = false → s.keysWantsDrbg = false → s.ashlar.wantHk = false →
        s.pkeWantsDrbg = false → s.drbg 2 = (o, t) →
        s.trngFill = (t.setFlag F.TRNG_STATUS_OUT_VALID).modTrng (fun t => { t with out := half (beNat o) })))

/-- An access session from enabling to release (R76, R84, R182, R187, R199, R201): the states, the deadlines, the telegram on
the antenna of DATA_ANT, the frame that a lane hands to ACCESS, the record's outcome in its turn, and the lock balls, the
pulse as long as PULSE was at its start. What a Plumb session cut short restores, and that PULSE is sampled at the start,
are the model's choices (DESIGN CHOICE, log entry 35). -/
def Obligations.AccessSessionStates : Prop :=
  ∀ (s : State),
    (∀ root : Fin 64, s.flag F.ACCESS_CTRL_EN = false →
      exec (.accessEnable root) s = .next (((s.plainWrite A.ACCESS_CTRL (half (root.val * 256 + 1))).setAc acIdle).scheduleReset)) ∧
    (∀ root : Fin 64, s.flag F.ACCESS_CTRL_EN = true →
      exec (.accessEnable root) s = .next (s.plainWrite A.ACCESS_CTRL (half (root.val * 256 + 1)))) ∧
    (∀ (root : Fin 64) t u, s.flag F.ACCESS_CTRL_EN = true → t = (s.plainWrite A.ACCESS_CTRL (half (root.val * 256))).cutPulse →
      u = (if t.acState = acPlumb then (t.plumbRestore.modRfe .ism (fun r => { r with mutePlumb := false })).syncMute .ism else t) →
      exec (.accessDisable root) s = .next (((u.modAccess (fun a => { a with
        sess := {}, waitKnock := [], rounds := [], records := a.records.map (fun r => (r.1, false)) })).setAc acOff).lastUseDestroy)) ∧
    (∀ root : Fin 64, s.flag F.ACCESS_CTRL_EN = false →
      exec (.accessDisable root) s = .next (s.plainWrite A.ACCESS_CTRL (half (root.val * 256)))) ∧
    (∀ t ant, s.acState = acChallenge → s.access.burst = none → t = s.passTo (s.access.tK + 48000) → ant = t.fld F.LF_CTRL_DATA_ANT →
      exec .lfTelegramStart s = .next ((t.modAccess (fun a => { a with
        burst := some true, offDrv := 0
        lfSent := if t.lfExcluded ant = true then none else some (ant, s.access.telegram) })).setFlag F.LF_STATUS_BUSY)) ∧
    (∀ t, s.acState = acChallenge → t = s.access.tK + 48000 + (48 * (if s.access.sess.cls = 1 then 92160 else 124928) + 192000) →
      exec .challengeEnd s = .next (((s.passTo t).modAccess (fun a => { a with tL := t })).setAc acWaitResp)) ∧
    (s.acState = acWaitResp → exec .responseTimeout s = .next ((s.passTo (s.access.tL + 960000)).enterLog avNoResp)) ∧
    (s.acState = acWaitReport →
      exec .reportTimeout s = .next ((s.passTo (s.access.tPs + 8064 + 960000)).plumbDecide none)) ∧
    (∀ (n : Fin 64) rssi snr err f, s.laneFrame n = some f → s.laneState n = lanePayload → f.octets.length = f.len →
      exec (.laneHandoff n rssi snr err) s = .next (if s.knockFrame f then (s.handoffWhole n f rssi snr err).accessFrame f.octets
        else s.handoffWhole n f rssi snr err)) ∧
    (s.access.records = [] → ∀ ok, exec (.accessLogCommitted ok) s = .next s) ∧
    (∀ k ok, s.nvm.cur = some k → s.nvTurn .access = false → exec (.accessLogCommitted ok) s = .next s) ∧
    (∀ w l t, s.nvm.cur = none ∨ s.nvTurn .access = true → s.access.records = (w, true) :: l → bits (wordAt w 4) 15 12 = 1 →
      s.acState = acLog → s.access.sess.verdict = some avRelease →
      t = (((s.modAccess (fun a => { a with records := l })).evtAppend (threeCopies (copyWords 5 1 w 0))).unport .access).event hostChans 7
        0x80 w →
      exec (.accessLogCommitted true) s = .next ((((((t.modAccess (fun a => { a with
        lockA := true, lockB := false, relEnd := t.hft + 48 * (1000 * t.fld F.ACCESS_REL_PULSE) })).setFlag
        F.ACCESS_STATUS_RELEASE).raiseEvt F.ACCESS_EVT_RELEASE 14).count A.ACCESS_CNT_RELEASE).setAc acRelease).lastUseDestroy)) ∧
    (∀ w l t, s.nvm.cur = none ∨ s.nvTurn .access = true → s.access.records = (w, true) :: l → bits (wordAt w 4) 15 12 = 1 →
      t = ((((s.modAccess (fun a => { a with records := l })).nvRecordWrite .evt (copyWords 5 1 w 0) 2).2.unport .access).setFlag
        F.ACCESS_STATUS_LOG_ERR).event hostChans 7 0x80 w →
      t.acState = acLog → t.access.sess.verdict = some avRelease →
      exec (.accessLogCommitted false) s = .next ((((t.modSess (fun x => { x with verdict := some avLogFail })).setFld
        F.ACCESS_LAST_VERDICT_VERDICT avLogFail).setAc acIdle).sessionOver)) ∧
    (s.flag F.ACCESS_STATUS_RELEASE = true →
      exec .releasePulseEnd s = .next (s.passTo s.access.relEnd).lockBalls.releaseEnd) ∧
    (s.flag F.ACCESS_STATUS_RELEASE = false → exec .releasePulseEnd s = .next s) ∧
    (∀ t, t = s.setFlag F.ACCESS_STATUS_LOCK_FAULT → t.flag F.ACCESS_STATUS_RELEASE = true →
      exec .lockReadbackFault s = .next ((t.lockBalls.setFlag F.ACCESS_STATUS_REL_CUT).releaseEnd)) ∧
    (∀ t, t = s.setFlag F.ACCESS_STATUS_LOCK_FAULT → t.flag F.ACCESS_STATUS_RELEASE = false →
      exec .lockReadbackFault s = .next t.lockBalls)

/-- Plumb sessions and the lock-out clock (R192 to R196): start with its commits, its mute and the internal path, the rounds at
their instants with the pins at PTX for the pulse and at PRX by 0.75 µs, pins, gain and mute given back, the request's
deadline, and LOCK_SEC that counts and ends a lock-out at LO_END. That c_k is bit 31 − k of the challenge is read from R190
(DEDUCED, log entry 35); that COLD is cleared as a lock-out ends is the model's choice (DESIGN CHOICE, log entry 69). LF
drive, tuning, polling and token tables (R184 to R186, R200); the poll schedule stands still where the device sleeps (R288).
That a copy of the token tables reads them as they stand at its end is the model's choice (DESIGN CHOICE, log entry 44). -/
def Obligations.PlumbLockoutAndLf : Prop :=
  (∀ (s : State),
      (∀ calInt c t u, s.plumbMayStart = true → (s.commit [A.PLUMB_LIMIT, A.PLUMB_CAL_BOARD, A.PLUMB_FEM, A.PLUMB_TXLVL]).drbg 4 = (c, t) →
        u = (t.modAccess (fun a => { a with
          tPs := t.hft, chal := BitVec.ofNat 32 (beNat c), rounds := [], loopBack := true, pulse := none
          savedGain := t.fld (F.RFE_GAIN_GAIN_IDX .ism) })).modRfe .ism (fun r => { r with
            mutePlumb := true, femPins := BitVec.ofNat 6 (t.effFld F.PLUMB_FEM_PRX) }) →
        exec (.plumbSessionStart calInt) s = .next ((((u.syncMute .ism).setReg A.PLUMB_CAL_INT calInt).count A.PLUMB_CNT_SESS).setAc acPlumb)) ∧
      (∀ calInt, s.plumbMayStart = false → exec (.plumbSessionStart calInt) s = .next s) ∧
      (s.acState = acWaitPlumb → exec .plumbRequestTimeout s = .next ((s.passTo (s.access.tReq + 24000000)).enterLog avNoPlumb)) ∧
      (∀ coarse pa1 pa2 b detected t p u v, s.acState = acPlumb → s.access.rounds.length < 32 →
        t = s.access.tPs + 1920 + 192 * s.access.rounds.length → p = s.plumbPulse s.access.rounds.length →
        u = ((s.passTo t).modRfe .ism (fun r => { r with femPins := BitVec.ofNat 6 p.pins.toNat })).modAccess (fun a => { a with
          loopBack := false, pulse := some p }) →
        v = (u.passTo (t + 36)).modRfe .ism (fun r => { r with femPins := BitVec.ofNat 6 ((u.passTo (t + 36)).effFld F.PLUMB_FEM_PRX) }) →
        exec (.plumbRound coarse pa1 pa2 b detected) s = .next ((v.passTo (t + 120)).modAccess
          (fun a => { a with rounds := a.rounds ++ [⟨coarse, pa1.val, pa2.val, b, detected⟩] }))) ∧
      (∀ k p, p = s.plumbPulse k → p.pins = BitVec.ofNat 6 (s.effFld F.PLUMB_FEM_PTX) ∧
        p.f1 = 2400 + s.fld F.ACCESS_PCH_PCH - 8 ∧ p.f2 = 2400 + s.fld F.ACCESS_PCH_PCH + 8 ∧
        p.level = s.effFld F.PLUMB_TXLVL_TOTAL ∧ p.invert = s.access.chal.getLsbD (31 - k)) ∧
      (∀ t, s.acState = acPlumb → t = (s.passTo (s.access.tPs + 8064)).modAccess (fun a => { a with loopBack := false }) →
        exec .plumbPinsRestore s = .next (if t.flag (F.RFE_STATUS_READY .ism) = true then
          (t.modRfe .ism (fun r => { r with femPins := t.femAll .ism 1 })).setGain .ism t.access.savedGain else t)) ∧
      (s.acState = acPlumb →
        exec .plumbEnd s = .next ((((s.passTo (s.access.tPs + 11520)).modRfe .ism (fun r => { r with mutePlumb := false })).syncMute
          .ism).setAc acWaitReport)) ∧
      (s.flag F.PLINTH_LO_STATE_LOCKED = true → s.lockSec = s.reg32 A.PLINTH_LO_END_LO →
        exec .lockoutEnd s = .next ((s.setFlag F.PLINTH_LO_STATE_LOCKED false).setFlag F.PLINTH_LO_STATE_COLD false)) ∧
      ((s.flag F.PLINTH_LO_STATE_LOCKED = false ∨ s.lockSec ≠ s.reg32 A.PLINTH_LO_END_LO) → exec .lockoutEnd s = .next s) ∧
      (s.plinth.powered = true → ∃ t, t = (s.setReg A.PLINTH_LOCK_SEC_LO (half ((s.lockSec + 1) % 2 ^ 32))).setReg A.PLINTH_LOCK_SEC_HI
          (half ((s.lockSec + 1) % 2 ^ 32 / 65536)) ∧
        exec .lockSecTick s = .next (if t.flag F.PLINTH_LO_STATE_LOCKED ∧ t.lockSec = t.reg32 A.PLINTH_LO_END_LO
          then (t.setFlag F.PLINTH_LO_STATE_LOCKED false).setFlag F.PLINTH_LO_STATE_COLD false else t))) ∧
  (∀ (s : State),
      (∀ (n : Fin 4), s.driverIn n = true → exec (.lfOvercurrent n) s = .next ((s.modAccess (fun a => { a with
        offDrv := a.offDrv ||| BitVec.ofNat 4 (2 ^ n.val) })).lfFault F.LF_STATUS_SHORT n)) ∧
      (∀ (n : Fin 4) (peak : Byte), s.driverIn n = true → exec (.lfOpenCheck n peak) s = .next (
        if 4 * peak.toNat < s.fld (F.LF_ISET_ISET n) then s.lfFault F.LF_STATUS_OPEN n else s)) ∧
      (∀ f n, s.lfFault f n = (s.setFld f (s.fld f ||| 2 ^ n)).event hostChans 7 0x82 [(s.setFld f (s.fld f ||| 2 ^ n)).reg A.LF_STATUS]) ∧
      (∀ (a b c d : Byte), s.access.burst ≠ none → exec (.lfBurstEnd a b c d) s = .next ((((((s.setFld (F.LF_IPK_PEAK 0) a.toNat).setFld
        (F.LF_IPK_PEAK 1) b.toNat).setFld (F.LF_IPK_PEAK 2) c.toNat).setFld (F.LF_IPK_PEAK 3) d.toNat).modAccess (fun a => { a with
          burst := none, offDrv := 0 })).setFlag F.LF_STATUS_BUSY false)) ∧
      (∀ low, exec (.vlfLowChange low) s = .next (s.setFlag F.LF_STATUS_VLF_LOW low)) ∧
      (∀ mask, exec (.lfTuneRequest mask) s = .next (s.modAccess (fun a => { a with tuneReq := a.tuneReq ||| mask }))) ∧
      (s.access.tuneReq ≠ 0 → s.access.tuning = 0 → s.access.burst = none → s.acState ≠ acChallenge → (∀ n < 4, s.lfSlice n = false) →
        exec .lfTuneStart s = .next ((s.modAccess (fun a => { a with tuning := a.tuneReq, tuneReq := 0 })).setFlag F.LF_STATUS_TUNE_BUSY)) ∧
      (∀ a b c d t, s.access.tuning ≠ 0 →
        t = ((((((s.tuneOne 0 a.1.val a.2.toNat).tuneOne 1 b.1.val b.2.toNat).tuneOne 2 c.1.val c.2.toNat).tuneOne 3 d.1.val d.2.toNat).modAccess
          (fun a => { a with tuning := 0 })).setFlag F.LF_STATUS_TUNE_BUSY false) →
        exec (.lfTuneDone a b c d) s = .next ((t.complete .tune stOk 0 [t.reg A.LF_STATUS, t.reg (A.LF_TUNE 0), t.reg (A.LF_TUNE 1),
          t.reg (A.LF_TUNE 2), t.reg (A.LF_TUNE 3)]).takeWaiting)) ∧
      (∀ n code peak, s.access.tuning.getLsbD n = true → s.fld (F.LF_ISET_ISET n) ≤ 4 * peak →
        s.tuneOne n code peak = s.setFld (F.LF_TUNE_CODE n) code) ∧
      (s.access.tuning ≠ 0 ∨ s.alive = false → exec .pollBurst s = .next s) ∧
      (∀ e, s.alive = true → s.access.tuning = 0 → e = s.access.since + s.access.toBurst → s.acState = acIdle → s.sys.xoRun = true → s.access.burst = none →
        exec .pollBurst s = .next ((s.modAccess (fun a => { a with
          since := e, burst := some false, offDrv := 0
          toBurst := if e < 120000 then 250 else if e < 1800000 then 1000 else if e < 86400000 then 4000 else 16000 })).setFlag F.LF_STATUS_BUSY)) ∧
      (∀ e, s.alive = true → s.access.tuning = 0 → e = s.access.since + s.access.toBurst → (s.acState ≠ acIdle ∨ s.sys.xoRun = false) →
        exec .pollBurst s = .next (s.modAccess (fun a => { a with since := e, toBurst := pollPeriod e }))) ∧
      (exec .accessTblLoad s = .next (((s.latch [A.ACCESS_TOK_BASE_LO, A.ACCESS_TOK_BASE_HI, A.ACCESS_REV_BASE_LO, A.ACCESS_REV_BASE_HI]).commit
        [A.ACCESS_TOK_N, A.ACCESS_REV_N]).setFlag F.ACCESS_STATUS_TBL_BUSY)) ∧
      (∀ e r t, s.flag F.ACCESS_STATUS_TBL_BUSY = true → t = s.setFlag F.ACCESS_STATUS_TBL_BUSY false → t.tokenTables = some (e, r) →
        exec .accessTblCopyDone s = .next (((t.modAccess (fun a => { a with enrol := e, revoked := r })).setFlag
          F.ACCESS_STATUS_TBL_OK).complete .tblLoad stOk 0 [])) ∧
      (∀ t, s.flag F.ACCESS_STATUS_TBL_BUSY = true → t = s.setFlag F.ACCESS_STATUS_TBL_BUSY false → t.tokenTables = none →
        exec .accessTblCopyDone s = .next ((t.setFlag F.ACCESS_STATUS_TBL_ERR).complete .tblLoad stFail 1 [])))

/-- Arithmetic of the register and immediate ALU (R212 to R214): the sums and differences of a, b, the immediate and C, their
flags, and the saturating forms, at distance 0. The flags that R212 gives: add16 is the sum modulo 2^16 with C its carry, V
the signed overflow, N and Z of the result; sub16 is the difference with C = 1 for no borrow; setnz keeps C and clears V;
saturate clamps and sets V where it did. -/
def Obligations.CpuArithmetic : Prop :=
  (∀ (s s' : State) (c : Fin 6) (t : Fin 4) (dd da db : Fin 16) (a b : Half) (g : Flags) (imm : Half),
      Executes s c t .plain s' → a = (s.thr c t).d[da] → b = (s.thr c t).d[db] → g = (s.thr c t).flags →
        exec (.opAdd c dd da db 0) s = .next (s'.completeInstr c t (toD dd (add16 a b false).1 (some (add16 a b false).2))) ∧
        exec (.opAddc c dd da db 0) s = .next (s'.completeInstr c t (toD dd (add16 a b g.c).1 (some (add16 a b g.c).2))) ∧
        exec (.opSub c dd da db 0) s = .next (s'.completeInstr c t (toD dd (add16 a (~~~b) true).1 (some (add16 a (~~~b) true).2))) ∧
        exec (.opSubc c dd da db 0) s = .next (s'.completeInstr c t (toD dd (add16 a (~~~b) g.c).1 (some (add16 a (~~~b) g.c).2))) ∧
        exec (.opCmp c 0 da db 0) s = .next (s'.completeInstr c t { flags := some (add16 a (~~~b) true).2 }) ∧
        exec (.opNeg c dd da 0 0) s = .next (s'.completeInstr c t (toD dd (add16 0 (~~~a) true).1 (some (add16 0 (~~~a) true).2))) ∧
        exec (.opAdds c dd da db 0) s = .next (s'.completeInstr c t (toD dd (saturate (a.toInt + b.toInt) g).1
          (some (saturate (a.toInt + b.toInt) g).2))) ∧
        exec (.opSubs c dd da db 0) s = .next (s'.completeInstr c t (toD dd (saturate (a.toInt - b.toInt) g).1
          (some (saturate (a.toInt - b.toInt) g).2))) ∧
        exec (.opAddi c dd da 0 imm) s = .next (s'.completeInstr c t (toD dd (add16 a imm false).1 (some (add16 a imm false).2))) ∧
        exec (.opCmpi c 0 da 0 imm) s = .next (s'.completeInstr c t { flags := some (add16 a (~~~imm) true).2 })) ∧
  ((∀ (x y : Half) (ci : Bool),
      (add16 x y ci).1.toNat = (x.toNat + y.toNat + bit ci) % 65536 ∧ (add16 x y ci).2.n = (add16 x y ci).1.msb ∧
      (add16 x y ci).2.z = decide ((add16 x y ci).1 = 0) ∧ (add16 x y ci).2.c = decide (65536 ≤ x.toNat + y.toNat + bit ci) ∧
      (add16 x y ci).2.v = decide ((add16 x y ci).1.toInt ≠ x.toInt + y.toInt + (bit ci : Nat))) ∧
    (∀ (x y : Half), (sub16 x y true).1 = x - y ∧ (sub16 x y true).2.c = decide (y.toNat ≤ x.toNat) ∧
      (sub16 x y true).2.v = decide ((sub16 x y true).1.toInt ≠ x.toInt - y.toInt)) ∧
    (∀ (r : Half) (g : Flags), setnz r g = ⟨r.msb, decide (r = 0), g.c, false⟩) ∧
    (∀ (x : Int) (g : Flags), -32768 ≤ x → x ≤ 32767 → (saturate x g).1.toInt = x ∧ (saturate x g).2.v = false ∧ (saturate x g).2.c = g.c) ∧
    (∀ (x : Int) (g : Flags), 32767 < x → (saturate x g).1.toInt = 32767 ∧ (saturate x g).2.v = true) ∧
    (∀ (x : Int) (g : Flags), x < -32768 → (saturate x g).1.toInt = -32768 ∧ (saturate x g).2.v = true))

/-- Logic and moves of the ALU (R212 to R214): AND, OR, XOR, TST, NOT and their immediates set N and Z, clear V and keep C;
moves leave the flags. Shifts (R212 to R214): a shift counts modulo 16, sets N and Z, clears V, and takes C from the last
bit shifted out, a count of 0 keeping C. -/
def Obligations.CpuLogicAndShifts : Prop :=
  (∀ (s s' : State) (c : Fin 6) (t : Fin 4) (dd da db : Fin 16) (a b : Half) (g : Flags) (imm : Half),
      Executes s c t .plain s' → a = (s.thr c t).d[da] → b = (s.thr c t).d[db] → g = (s.thr c t).flags →
        exec (.opAnd c dd da db 0) s = .next (s'.completeInstr c t (toD dd (a &&& b) (some (setnz (a &&& b) g)))) ∧
        exec (.opOr c dd da db 0) s = .next (s'.completeInstr c t (toD dd (a ||| b) (some (setnz (a ||| b) g)))) ∧
        exec (.opXor c dd da db 0) s = .next (s'.completeInstr c t (toD dd (a ^^^ b) (some (setnz (a ^^^ b) g)))) ∧
        exec (.opTst c 0 da db 0) s = .next (s'.completeInstr c t { flags := some (setnz (a &&& b) g) }) ∧
        exec (.opMov c dd da 0 0) s = .next (s'.completeInstr c t (toD dd a)) ∧
        exec (.opNot c dd da 0 0) s = .next (s'.completeInstr c t (toD dd (~~~a) (some (setnz (~~~a) g)))) ∧
        exec (.opAndi c dd da 0 imm) s = .next (s'.completeInstr c t (toD dd (a &&& imm) (some (setnz (a &&& imm) g)))) ∧
        exec (.opOri c dd da 0 imm) s = .next (s'.completeInstr c t (toD dd (a ||| imm) (some (setnz (a ||| imm) g)))) ∧
        exec (.opXori c dd da 0 imm) s = .next (s'.completeInstr c t (toD dd (a ^^^ imm) (some (setnz (a ^^^ imm) g)))) ∧
        exec (.opMovi c dd 0 0 imm) s = .next (s'.completeInstr c t (toD dd imm))) ∧
  (∀ (s s' : State) (c : Fin 6) (t : Fin 4) (dd da db : Fin 16) (a b : Half) (g : Flags) (imm : Half),
      Executes s c t .plain s' → a = (s.thr c t).d[da] → b = (s.thr c t).d[db] → g = (s.thr c t).flags →
        exec (.opShl c dd da db 0) s = .next (s'.completeInstr c t (toD dd (a <<< (b.toNat % 16)) (some (if b.toNat % 16 = 0 then setnz a g
          else ⟨(a <<< (b.toNat % 16)).msb, decide (a <<< (b.toNat % 16) = 0), a.getLsbD (16 - b.toNat % 16), false⟩)))) ∧
        exec (.opShr c dd da db 0) s = .next (s'.completeInstr c t (toD dd (a >>> (b.toNat % 16)) (some (if b.toNat % 16 = 0 then setnz a g
          else ⟨(a >>> (b.toNat % 16)).msb, decide (a >>> (b.toNat % 16) = 0), a.getLsbD (b.toNat % 16 - 1), false⟩)))) ∧
        exec (.opSar c dd da db 0) s = .next (s'.completeInstr c t (toD dd (a.sshiftRight (b.toNat % 16)) (some (if b.toNat % 16 = 0
          then setnz a g
          else ⟨(a.sshiftRight (b.toNat % 16)).msb, decide (a.sshiftRight (b.toNat % 16) = 0), a.getLsbD (b.toNat % 16 - 1), false⟩)))) ∧
        exec (.opRol c dd da db 0) s = .next (s'.completeInstr c t (toD dd (a.rotateLeft (b.toNat % 16)) (some (if b.toNat % 16 = 0
          then setnz a g
          else ⟨(a.rotateLeft (b.toNat % 16)).msb, decide (a.rotateLeft (b.toNat % 16) = 0), (a.rotateLeft (b.toNat % 16)).getLsbD 0, false⟩)))) ∧
        (imm.toNat / 64 = 0 → ∀ k, k = (if bits imm.toNat 5 4 = 0 then ShiftKind.shl else if bits imm.toNat 5 4 = 1 then .shr
            else if bits imm.toNat 5 4 = 2 then .sar else .rol) →
          exec (.opShi c dd da 0 imm) s = .next (s'.completeInstr c t (toD dd (shift k a (imm.toNat % 16) g).1
            (some (shift k a (imm.toNat % 16) g).2)))))

/-- Products and the CRC step (R213): MUL, MULHS and MULHU take the low or high half of the product at distance 3, MAC and MACU
add it to the pair D[dd+1], D[dd] modulo 2^32, CRC steps dd by the low octet of a; an odd pair is illegal. Bit fields and
pointers (R215, R216): fields extracted and inserted, pointer sums modulo 2^24 at distance 1, the halves of a pointer moved,
and the flags of a pointer comparison; a field past bit 15 is illegal. -/
def Obligations.CpuProductsFieldsPointers : Prop :=
  (∀ (s s' : State) (c : Fin 6) (t : Fin 4) (dd da db : Fin 16) (a b : Half) (acc : Nat),
      Executes s c t .plain s' → a = (s.thr c t).d[da] → b = (s.thr c t).d[db] →
      acc = (s.thr c t).d[dd].toNat + 65536 * (s.thr c t).d[dd + 1].toNat →
        exec (.opMul c dd da db 0) s = .next (s'.completeInstr c t { late := [(3, .d dd, (a * b).toNat)] }) ∧
        exec (.opMulhu c dd da db 0) s = .next (s'.completeInstr c t { late := [(3, .d dd, a.toNat * b.toNat / 65536)] }) ∧
        exec (.opMulhs c dd da db 0) s = .next (s'.completeInstr c t { late := [(3, .d dd, (a.toInt * b.toInt / 65536 % 65536).toNat)] }) ∧
        (dd.val % 2 = 0 → exec (.opMac c dd da db 0) s = .next (s'.completeInstr c t { late :=
          [(3, .d dd, (((acc : Int) + a.toInt * b.toInt) % 2 ^ 32).toNat % 65536),
           (3, .d (dd + 1), (((acc : Int) + a.toInt * b.toInt) % 2 ^ 32).toNat / 65536)] })) ∧
        (dd.val % 2 = 0 → exec (.opMacu c dd da db 0) s = .next (s'.completeInstr c t { late :=
          [(3, .d dd, (acc + a.toNat * b.toNat) % 2 ^ 32 % 65536), (3, .d (dd + 1), (acc + a.toNat * b.toNat) % 2 ^ 32 / 65536)] })) ∧
        (dd.val % 2 = 1 → exec (.opMac c dd da db 0) s = .next (s'.raiseInstr c t exIllegal none)) ∧
        (dd.val % 2 = 1 → exec (.opMacu c dd da db 0) s = .next (s'.raiseInstr c t exIllegal none)) ∧
        exec (.opCrc c dd da 0 0) s = .next (s'.completeInstr c t (toD dd (half (crc16Octet (s.thr c t).d[dd].toNat (byte a.toNat)))))) ∧
  (∀ (s s' : State) (c : Fin 6) (t : Fin 4) (dd da pos lm1 dx : Fin 16) (pd pa pb : Fin 8) (imm : Half) (th : Thread),
      Executes s c t .plain s' → th = s.thr c t →
        (pos.val + lm1.val < 16 →
          exec (.opExtu c dd da pos lm1 0 0) s = .next (s'.completeInstr c t (toD dd (half (bits th.d[da].toNat (pos.val + lm1.val) pos.val)))) ∧
          exec (.opExts c dd da pos lm1 0 0) s = .next (s'.completeInstr c t (toD dd (half (ofSigned 16 (toSigned (lm1.val + 1)
            (bits th.d[da].toNat (pos.val + lm1.val) pos.val)))))) ∧
          exec (.opIns c dd da pos lm1 0 0) s = .next (s'.completeInstr c t (toD dd (half (putBits th.d[dd].toNat (pos.val + lm1.val) pos.val
            th.d[da].toNat))))) ∧
        (16 ≤ pos.val + lm1.val →
          exec (.opExtu c dd da pos lm1 0 0) s = .next (s'.raiseInstr c t exIllegal none) ∧
          exec (.opExts c dd da pos lm1 0 0) s = .next (s'.raiseInstr c t exIllegal none) ∧
          exec (.opIns c dd da pos lm1 0 0) s = .next (s'.raiseInstr c t exIllegal none)) ∧
        exec (.opAddp c pd pa 0 imm) s = .next (s'.completeInstr c t (toP pd (th.p[pa] + imm.signExtend 24))) ∧
        exec (.opLpl c pd 0 0 imm) s = .next (s'.completeInstr c t (toP pd (imm.zeroExtend 24))) ∧
        (imm.toNat < 256 → exec (.opLph c pd 0 0 imm) s = .next (s'.completeInstr c t { late := [(1, .pHi pd, imm.toNat)] })) ∧
        exec (.opAddpd c pd pa 0 dx 0) s = .next (s'.completeInstr c t (toP pd (th.p[pa] + th.d[dx].signExtend 24))) ∧
        exec (.opAddpu c pd pa 0 dx 0) s = .next (s'.completeInstr c t (toP pd (th.p[pa] + th.d[dx].zeroExtend 24))) ∧
        exec (.opMovp c pd pa 0 0 0) s = .next (s'.completeInstr c t (toP pd th.p[pa])) ∧
        exec (.opCmpp c 0 pa pb 0 0) s = .next (s'.completeInstr c t { flags := some (cmp24 th.p[pa] th.p[pb]) }) ∧
        exec (.opDifp c 0 pa pb dx 0) s = .next (s'.completeInstr c t (toD dx (half (th.p[pa] - th.p[pb]).toNat))) ∧
        exec (.opMovdp c 0 pa 0 dx 0) s = .next (s'.completeInstr c t (toD dx (half th.p[pa].toNat))) ∧
        exec (.opMovdph c 0 pa 0 dx 0) s = .next (s'.completeInstr c t (toD dx (half (th.p[pa].toNat / 65536)))) ∧
        exec (.opMovpd c pd 0 0 dx 0) s = .next (s'.completeInstr c t (toP pd (th.d[dx].zeroExtend 24))) ∧
        (∀ x y : Ptr, cmp24 x y = ⟨(x - y).msb, decide (x = y), decide (y.toNat ≤ x.toNat), decide ((x - y).toInt ≠ x.toInt - y.toInt)⟩))

/-- Loads (R217, R222): the address and the write-back of each mode, the octets read with their extension at distance 2, the
write-back at distance 1, the exception of an access that is refused, and the illegal forms: a mode or an unused bit that is
not listed, bit 25 of LDP, and an LDP with a write-back into its own base. Stores (R206, R217): the low octets of the
register at the address of the mode, little-endian in general SRAM, the write-back at distance 1, an access that is refused
raising its exception with its address, in the order of R241, and the illegal forms. -/
def Obligations.CpuLoadsAndStores : Prop :=
  (∀ (s s' : State) (c : Fin 6) (t : Fin 4) (r : Fin 16) (pd pb am : Fin 8) (imm : Half) (th : Thread) (a : Ptr) (wb : Option Ptr),
      Executes s c t .plain s' → th = s.thr c t → th.ea pb am imm = (a, wb) →
        (amLegal am imm = true ↔ am.val < 3 ∨ (am = 3 ∧ bits imm.toNat 11 3 = 0)) ∧
        (amLegal am imm = false → ∀ z,
          exec (.opLdb c r pb am imm) s = .next (s'.raiseInstr c t exIllegal none) ∧
          exec (.opLdbs c r pb am imm) s = .next (s'.raiseInstr c t exIllegal none) ∧
          exec (.opLdh c r pb am imm) s = .next (s'.raiseInstr c t exIllegal none) ∧
          exec (.opLdp c pd z pb am imm) s = .next (s'.raiseInstr c t exIllegal none)) ∧
        exec (.opLdp c pd true pb am imm) s = .next (s'.raiseInstr c t exIllegal none) ∧
        (amLegal am imm = true →
        (∀ v u, s'.load c t a.toNat 1 = (.inl v, u) → (u.thr c t).st ≠ .dead → u.sys.inReset = false →
          exec (.opLdb c r pb am imm) s = .next (u.completeInstr c t { late :=
            (2, .d r, v) :: (wb.map (fun w => (1, Target.p pb, w.toNat))).toList }) ∧
          exec (.opLdbs c r pb am imm) s = .next (u.completeInstr c t { late :=
            (2, .d r, ofSigned 16 (toSigned 8 v)) :: (wb.map (fun w => (1, Target.p pb, w.toNat))).toList })) ∧
        (∀ v u, s'.load c t a.toNat 2 = (.inl v, u) → (u.thr c t).st ≠ .dead → u.sys.inReset = false →
          exec (.opLdh c r pb am imm) s = .next (u.completeInstr c t { late :=
            (2, .d r, v) :: (wb.map (fun w => (1, Target.p pb, w.toNat))).toList })) ∧
        (∀ v u, s'.load c t a.toNat 4 = (.inl v, u) → (u.thr c t).st ≠ .dead → u.sys.inReset = false →
          (pd ≠ pb ∨ (am ≠ 1 ∧ am ≠ 2)) →
          exec (.opLdp c pd false pb am imm) s = .next (u.completeInstr c t { late :=
            (2, .p pd, v % 2 ^ 24) :: (wb.map (fun w => (1, Target.p pb, w.toNat))).toList })) ∧
        ((am = 1 ∨ am = 2) → exec (.opLdp c pb false pb am imm) s = .next (s'.raiseInstr c t exIllegal none)) ∧
        (∀ code x u, s'.load c t a.toNat 1 = (.inr (code, x), u) →
          exec (.opLdb c r pb am imm) s = .next (u.raiseInstr c t code x) ∧
          exec (.opLdbs c r pb am imm) s = .next (u.raiseInstr c t code x)) ∧
        (∀ code x u, s'.load c t a.toNat 2 = (.inr (code, x), u) →
          exec (.opLdh c r pb am imm) s = .next (u.raiseInstr c t code x)) ∧
        (∀ code x u, s'.load c t a.toNat 4 = (.inr (code, x), u) → (pd ≠ pb ∨ (am ≠ 1 ∧ am ≠ 2)) →
          exec (.opLdp c pd false pb am imm) s = .next (u.raiseInstr c t code x)) ∧
        (∀ n, inSram a.toNat n = true → 1 ≤ n → n ≤ 4 → s'.dataFault c t a.toNat n false = none →
          s'.load c t a.toNat n = (.inl (leNat (s'.sramTake a.toNat n)), s')))) ∧
  (∀ (s s' : State) (c : Fin 6) (t : Fin 4) (r : Fin 16) (p pb am : Fin 8) (imm : Half) (th : Thread) (a : Ptr) (wb : Option Ptr),
      Executes s c t .plain s' → th = s.thr c t → th.ea pb am imm = (a, wb) →
        (amLegal am imm = false → ∀ z,
          exec (.opStb c r pb am imm) s = .next (s'.raiseInstr c t exIllegal none) ∧
          exec (.opSth c r pb am imm) s = .next (s'.raiseInstr c t exIllegal none) ∧
          exec (.opStp c p z pb am imm) s = .next (s'.raiseInstr c t exIllegal none)) ∧
        exec (.opStp c p true pb am imm) s = .next (s'.raiseInstr c t exIllegal none) ∧
        (amLegal am imm = true →
        (∀ u, s'.dataFault c t a.toNat 1 true = none → s'.busWrite (.core c) c a.toNat 1 (th.d[r].toNat % 256) = some u →
          (u.thr c t).st ≠ .dead → u.sys.inReset = false →
          exec (.opStb c r pb am imm) s = .next (u.completeInstr c t { late := (wb.map (fun w => (1, Target.p pb, w.toNat))).toList })) ∧
        (∀ u, s'.dataFault c t a.toNat 2 true = none → s'.busWrite (.core c) c a.toNat 2 th.d[r].toNat = some u →
          (u.thr c t).st ≠ .dead → u.sys.inReset = false →
          exec (.opSth c r pb am imm) s = .next (u.completeInstr c t { late := (wb.map (fun w => (1, Target.p pb, w.toNat))).toList })) ∧
        (∀ u, s'.dataFault c t a.toNat 4 true = none → s'.busWrite (.core c) c a.toNat 4 th.p[p].toNat = some u →
          (u.thr c t).st ≠ .dead → u.sys.inReset = false →
          exec (.opStp c p false pb am imm) s = .next (u.completeInstr c t { late := (wb.map (fun w => (1, Target.p pb, w.toNat))).toList })) ∧
        (∀ code x, s'.dataFault c t a.toNat 1 true = some (code, x) → exec (.opStb c r pb am imm) s = .next (s'.raiseInstr c t code x)) ∧
        (∀ code x, s'.dataFault c t a.toNat 2 true = some (code, x) → exec (.opSth c r pb am imm) s = .next (s'.raiseInstr c t code x)) ∧
        (∀ code x, s'.dataFault c t a.toNat 4 true = some (code, x) →
          exec (.opStp c p false pb am imm) s = .next (s'.raiseInstr c t code x)) ∧
        (∀ n v, inSram a.toNat n = true → 1 ≤ n → s'.busWrite (.core c) c a.toNat n v = some { s' with sram := memPut 0 s'.sram a.toNat (leOctets n v) }) ∧
        (∀ n w, inSram a.toNat n = true → 2 ≤ n → a.toNat % n ≠ 0 → s'.dataFault c t a.toNat n w = some (exAlign, some a.toNat))))

/-- Branches and loops (R219, R227 to R229): the branch's delay slot executes at the next address before the target, CALL leaves
the address after the slot in LR, a register target that is no multiple of 4 raises ALIGN, and LOOP sets its level or skips
its body. -/
def Obligations.CpuBranchesAndLoops : Prop :=
  ∀ (s s' : State) (c : Fin 6) (t : Fin 4) (th : Thread), th = s.thr c t →
    (Executes s c t .branch s' →
      (∀ (k : Fin 16) ofs, k ≠ 15 → exec (.opBcc c k ofs) s = .next (s'.completeInstr c t {
        branch := some (if condHolds k th.flags then th.pc + 4 * ofs.signExtend 24 else th.pc + 8) })) ∧
      (∀ ofs, exec (.opBcc c 15 ofs) s = .next (s'.raiseInstr c t exIllegal none)) ∧
      (∀ ofs, exec (.opJ c 0 ofs) s = .next (s'.completeInstr c t { branch := some (4 * ofs.zeroExtend 24) })) ∧
      (∀ ofs, exec (.opCall c 0 ofs) s = .next (s'.completeInstr c t { branch := some (4 * ofs.zeroExtend 24), now := [(.lr, (th.pc + 8).toNat)] })) ∧
      (∀ p : Fin 8, th.p[p].toNat % 4 = 0 → exec (.opJr c p 0) s = .next (s'.completeInstr c t { branch := some th.p[p] }) ∧
        exec (.opCallr c p 0) s = .next (s'.completeInstr c t { branch := some th.p[p], now := [(.lr, (th.pc + 8).toNat)] })) ∧
      (∀ p : Fin 8, th.p[p].toNat % 4 ≠ 0 → exec (.opJr c p 0) s = .next (s'.raiseInstr c t exAlign none) ∧
        exec (.opCallr c p 0) s = .next (s'.raiseInstr c t exAlign none)) ∧
      (th.lr.toNat % 4 = 0 → exec (.opRet c 0) s = .next (s'.completeInstr c t { branch := some th.lr })) ∧
      (th.lr.toNat % 4 ≠ 0 → exec (.opRet c 0) s = .next (s'.raiseInstr c t exAlign none))) ∧
    (Executes s c t .ctl s' → ∀ (lvl : Fin 2) (count fin : BitVec 12) (le : Ptr), le = th.pc + 4 * fin.zeroExtend 24 →
      (∀ n, n = count.toNat → th.loopBad lvl true count fin = false →
        exec (.opLoop c lvl true count fin) s = .next (s'.completeInstr c t {
          now := [(.cr (5 + 3 * lvl.val), (th.pc + 4).toNat), (.cr (6 + 3 * lvl.val), le.toNat), (.cr (4 + 3 * lvl.val), n)]
          next := if n = 0 then some (le + 4) else none })) ∧
      (∀ (d : Fin 16) n, n = th.d[d].toNat → count = BitVec.ofNat 12 (d.val * 256) → th.loopBad lvl false count fin = false →
        exec (.opLoop c lvl false count fin) s = .next (s'.completeInstr c t {
          now := [(.cr (5 + 3 * lvl.val), (th.pc + 4).toNat), (.cr (6 + 3 * lvl.val), le.toNat), (.cr (4 + 3 * lvl.val), n)]
          next := if n = 0 then some (le + 4) else none })) ∧
      (∀ src, th.loopBad lvl src count fin = true → exec (.opLoop c lvl src count fin) s = .next (s'.raiseInstr c t exIllegal none)))

/-- Control registers and system instructions (R220, R221, R234, R237, R238, R240, R244): MTC and MFC with their widths,
privilege and distances, the features, YIELD, WAIT and SIG, SYSCALL and BREAK that raise, ERET that goes back to EPC, FENCE
and NOP. An MTC to CR 0x23 + 4w has no effect (R247). That an MFC into a pointer register lands at distance 1 and that a SIG
is illegal by the whole of its ARG are the model's choices (DESIGN CHOICE, log entries 57 and 58). -/
def Obligations.CpuSystem : Prop :=
  ∀ (s s' : State) (c : Fin 6) (t : Fin 4) (th : Thread), th = s.thr c t →
    (Executes s c t .plain s' →
      (∀ cr isP r n v, n = cr.toNat → v = th.regOf isP r → crBad cr isP r 0 = false →
        (th.mtcPriv n = true → exec (.opMtc c cr isP r 0) s = .next (s'.raiseInstr c t exPriv none)) ∧
        (th.mtcPriv n = false → n = 3 → exec (.opMtc c cr isP r 0) s = .next (s'.completeInstr c t { late := [(1, .lr, v)] })) ∧
        (n = 0 → th.priv = false → exec (.opMtc c cr isP r 0) s = .next (s'.completeInstr c t { late := [(3, .flags, v)] })) ∧
        (32 ≤ n → n % 4 = 3 → exec (.opMtc c cr isP r 0) s = .next (s'.completeInstr c t {})) ∧
        (th.mtcPriv n = false → n ≠ 3 → (n ≠ 0 ∨ th.priv = true) → (n < 32 ∨ n % 4 ≠ 3) →
          exec (.opMtc c cr isP r 0) s = .next (s'.completeInstr c t { late := [(3, .cr n, v)] }))) ∧
      (∀ cr r, crBad cr false r 0 = false → exec (.opMfc c cr false r 0) s = .next (s'.completeInstr c t
        { now := [(.d r, s'.cores[c].crRead th cr.toNat)] })) ∧
      (∀ cr (r : Fin 8), crBad cr true ⟨r.val, by omega⟩ 0 = false → exec (.opMfc c cr true ⟨r.val, by omega⟩ 0) s = .next (s'.completeInstr c t
        { late := [(1, .p r, s'.cores[c].crRead th cr.toNat)] })) ∧
      (∀ cr isP r z, crBad cr isP r z = true → exec (.opMtc c cr isP r z) s = .next (s'.raiseInstr c t exIllegal none) ∧
        exec (.opMfc c cr isP r z) s = .next (s'.raiseInstr c t exIllegal none)) ∧
      (∀ dd (n : Fin 8), exec (.opMfs c dd n 0) s = .next (s'.completeInstr c t (toD dd ([0x0203, 0x000F, 0x0124, 0x3132].getD n 0)))) ∧
      exec (.opNop c 0 0) s = .next (s'.completeInstr c t {}) ∧ exec (.opFence c 0 0) s = .next (s'.completeInstr c t {}) ∧
      exec (.opYield c 0 0) s = .next (s'.completeInstr c t { andThen := .yield }) ∧
      exec (.opWait c 0 0) s = .next (s'.completeInstr c t { andThen := .wait }) ∧
      (∀ arg : Half, arg.toNat < 32 ∨ 47 < arg.toNat → exec (.opSig c 0 arg) s = .next (s'.raiseInstr c t exIllegal none)) ∧
      (∀ arg : Half, 32 ≤ arg.toNat → arg.toNat ≤ 47 → ((s'.post c arg.toNat).thr c t).st ≠ .dead →
        exec (.opSig c 0 arg) s = .next ((s'.post c arg.toNat).completeInstr c t {}))) ∧
    (Executes s c t .ctl s' →
      (∀ arg, exec (.opSyscall c 0 arg) s = .next (s'.raiseInstr c t exSyscall none)) ∧
      (∀ arg, exec (.opBreak c 0 arg) s = .next (s'.raiseInstr c t exBreak none)) ∧
      (th.priv = true → exec (.opEret c 0 0) s = .next (s'.completeInstr c t { next := some th.epc, eret := true })) ∧
      (th.priv = false → exec (.opEret c 0 0) s = .next (s'.raiseInstr c t exPriv none))) ∧
    exec (.resultLanding c t) s = .next (s.modCore c (fun k => k.landAt t k.thr[t].pos))

/-- Completion (R222, R225, R228): on a thread with no pending result, delay slot, loop end or held exception, an instruction's
result of distance 0 and its flags are in place, the PC moves on by 4 or to the branch's delay slot, and a result of
distance k waits for the k-th instruction after it; nothing else changes. -/
def Obligations.CpuCompletion : Prop :=
  ∀ (s : State) (c : Fin 6) (t : Fin 4) (th : Thread), th = s.thr c t → th.pend = [] → th.slot = none → th.atLe = false →
    th.holdStall = false → th.holdWdog = false → th.stepping = false → th.pc.toNat % 4 = 0 →
    (∀ (i : Fin 16) v, s.completeInstr c t { now := [(.d i, v)] } = s.modThr c t (fun k => { k with
      d := k.d.set i (half v), pos := k.pos + 1, pc := k.pc + 4, waitAt := none, passed := none })) ∧
    (∀ (i : Fin 16) v f, s.completeInstr c t { now := [(.d i, v)], flags := some f } = s.modThr c t (fun k => { k with
      d := k.d.set i (half v), psw := f.put k.psw, pos := k.pos + 1, pc := k.pc + 4, waitAt := none, passed := none })) ∧
    (∀ f, s.completeInstr c t { flags := some f } = s.modThr c t (fun k => { k with
      psw := f.put k.psw, pos := k.pos + 1, pc := k.pc + 4, waitAt := none, passed := none })) ∧
    (∀ (i : Fin 8) k v, 1 ≤ k → s.completeInstr c t { late := [(k, .p i, v)] } = s.modThr c t (fun x => { x with
      pend := [⟨x.pos + k + 1, .p i, v⟩], pos := x.pos + 1, pc := x.pc + 4, waitAt := none, passed := none })) ∧
    (∀ (i : Fin 16) k v, 1 ≤ k → s.completeInstr c t { late := [(k, .d i, v)] } = s.modThr c t (fun x => { x with
      pend := [⟨x.pos + k + 1, .d i, v⟩], pos := x.pos + 1, pc := x.pc + 4, waitAt := none, passed := none })) ∧
    (∀ tgt, s.completeInstr c t { branch := some tgt } = s.modThr c t (fun k => { k with
      slot := some (k.pc, tgt), pos := k.pos + 1, pc := k.pc + 4, waitAt := none, passed := none })) ∧
    (∀ e : Ptr, e.toNat % 4 = 0 → s.completeInstr c t { next := some e, eret := true } = s.modThr c t (fun k => { k with
      psw := pswMode k.psw k.ppriv k.ppriv false, pos := k.pos + 1, pc := e, waitAt := none, passed := none })) ∧
    (s.completeInstr c t {} = s.modThr c t (fun k => { k with
      pos := k.pos + 1, pc := k.pc + 4, waitAt := none, passed := none }))

/-- Exceptions (R241 to R245): an instruction that may not be fetched or is illegal raises its exception, EPC is the
instruction, the one after a SYSCALL or BREAK, or the branch of a delay slot with DS set, a data fault's address goes to
FADDR, the mode becomes privileged with EXL set, the PC the thread's vector; an exception at EXL = 1 kills the thread. -/
def Obligations.CpuExceptions : Prop :=
  ∀ (s : State) (c : Fin 6) (t : Fin 4) (th : Thread), th = s.thr c t →
    (∀ s' shape bad f, Executes s c t shape s' → bad th = true →
      s.instr c shape bad f = (s'.trap c t exIllegal none).modThr c t (fun th => { th with stepping := false, passed := none })) ∧
    (∀ shape bad f code, s.cpuThread c = some t → th.haltReq = false → s.bkMatch c t (shape == .branch) = none →
      s.fetchFault c t = some code → code ≠ exEcc →
      s.instr c shape bad f = (s.trap c t code none).modThr c t (fun th => { th with stepping := false, passed := none })) ∧
    (∀ code fault, th.exl = true → s.trap c t code fault = s.doubleFault c t) ∧
    (∀ code, th.exl = false → th.slot = none → code ≠ exSyscall → code ≠ exBreak → s.trap c t code none = s.enter c t code th.pc false) ∧
    (∀ code, th.exl = false → th.slot = none → (code = exSyscall ∨ code = exBreak) →
      s.trap c t code none = s.enter c t code (th.pc + 4) false) ∧
    (∀ code br tgt, th.exl = false → th.slot = some (br, tgt) → s.trap c t code none = s.enter c t code br true) ∧
    (∀ code a, th.exl = false → th.slot = none → code ≠ exSyscall → code ≠ exBreak →
      s.trap c t code (some a) = ((s.setReg (A.THR_FADDR_LO c t) (half a)).setReg (A.THR_FADDR_HI c t) (half (a / 65536 % 256))).enter c t
        code th.pc false) ∧
    (∀ code epc ds, th.pend = [] → ∃ k : Core, k = { s.cores[c] with thr := s.cores[c].thr.set t { th with
        epc := epc, cause := half (bit ds * 0x8000 + code), psw := pswMode th.psw true th.priv true, pc := s.vector c t, slot := none
        waitAt := none, st := if th.st = .wait then .ready else th.st } } ∧
      s.enter c t code epc ds = s.modCore c (fun _ => if th.st = .run then k.switch else k.wakeup)) ∧
    (s.doubleFault c t = ((s.modCore c (fun k => k.kill t)).setReg (A.THR_FAULT c) (s.reg (A.THR_FAULT c) ||| half (2 ^ t.val))).threadHalted c)

/-- R245: a synchronous exception at EXL = 1 makes the thread DEAD without entry, EPC and CAUSE as they were, sets its bit of
THR_FAULT and posts line 31 on the core; on an application core line 30 goes to both Lintel cores. -/
def Obligations.DoubleFault : Prop :=
  ∀ (s u : State) (c : Fin 6) (t : Fin 4) (code : Nat) (fault : Option Nat), (s.thr c t).exl = true → u = s.trap c t code fault →
    (u.thr c t).st = .dead ∧ (u.thr c t).epc = (s.thr c t).epc ∧ (u.thr c t).cause = (s.thr c t).cause ∧
    (u.thr c t).pc = (s.thr c t).pc ∧ u.reg (A.THR_FAULT c) = s.reg (A.THR_FAULT c) ||| half (2 ^ t.val) ∧ u.linePending c 31 = true ∧
    (2 ≤ c.val → u.linePending 0 30 = true ∧ u.linePending 1 30 = true) ∧
    (c.val < 2 → ∀ d : Fin 6, d ≠ c → ∀ m, m < 64 → u.linePending d m = s.linePending d m)

/-- Threads, events and watchdogs (R232 to R239, R250 to R252): start and kill by mask, a line posted to the cores that R235
names, pending bits that come back while held, STALL, mailboxes with their 32 words, doorbells, and the watchdog's stages. -/
def Obligations.ThreadsAndEvents : Prop :=
  ∀ (s : State) (c : Fin 6),
    (∀ mask : BitVec 4, exec (.threadStart c mask) s = .next (forEach ([(0 : Fin 4), 1, 2, 3].filter (fun t : Fin 4 => mask.getLsbD t)) s
      (fun s t => s.startThread c t))) ∧
    (∀ t : Fin 4, (s.thr c t).st = .dead → s.cores[c].lowestLive ≠ none → s.startThread c t = (s.modThr c t (fun th => { th with
      st := .ready, psw := pswMode th.psw true false false
      pc := BitVec.ofNat 24 ((s.eff (A.THR_PC_LO c t)).toNat + 65536 * (s.eff (A.THR_PC_HI c t)).toNat) })).modCore c Core.wakeup) ∧
    (∀ t : Fin 4, ((s.thr c t).st ≠ .dead ∨ s.cores[c].lowestLive = none) → s.startThread c t = s) ∧
    (∀ mask : BitVec 4, exec (.threadKill c mask) s = .next (forEach ([(0 : Fin 4), 1, 2, 3].filter (fun t : Fin 4 => mask.getLsbD t)) s
      (fun s t => s.modCore c (fun k => k.kill t)))) ∧
    (∀ l : Fin 32, exec (.eventLinePost c l) s = .next ((forEach (s.lineCores c l) s (fun s d => s.post d l)).faultEvent l)) ∧
    (∀ (w : Fin 4) v, exec (.eventPendClear c w v) s = .next (forEach (List.range 16)
      (s.setReg (A.EVU_PEND c w) (s.reg (A.EVU_PEND c w) &&& ~~~ v)) (fun s b =>
        if v.getLsbD b && s.lineHeld c (16 * w + b) then s.post c (16 * w + b) else s))) ∧
    (∀ t, s.cores[c].lowestLive = some t → s.stalled c = true → (s.thr c t).holdStall = false →
      exec (.stall c) s = .next ((s.count (A.EVU_STALL_CNT c)).async c t exStall)) ∧
    (s.stalled c = false → exec (.stall c) s = .next s) ∧
    (∀ (k : Fin 8) w, mbWriter k c = false → exec (.mailboxWrite k c w) s = .next s) ∧
    (∀ (k : Fin 8) w, mbWriter k c = true → 32 ≤ (s.mbox[k]).length →
      exec (.mailboxWrite k c w) s = .next (s.setFlag (F.MB_STATUS_OVF k))) ∧
    (∀ (k : Fin 8) w, mbWriter k c = true → (s.mbox[k]).length < 32 →
      exec (.mailboxWrite k c w) s = .next ({ s with mbox := s.mbox.set k (s.mbox[k] ++ [w]) }.postAll
        (allCores.filter (mbReader k)) (48 + k.val))) ∧
    (∀ (k : Fin 8) w l, mbReader k c = true → s.mbox[k] = w :: l →
      exec (.mailboxRead k c) s = .next ({ s with mbox := s.mbox.set k l }.see (.value w))) ∧
    (∀ (k : Fin 8), mbReader k c = true → s.mbox[k] = [] →
      exec (.mailboxRead k c) s = .next ((s.setFlag (F.MB_STATUS_UNDER k)).see (.value 0))) ∧
    (∀ mask : BitVec 6, exec (.doorbell c mask) s = .next (forEach (allCores.filter (fun g : Fin 6 => mask.getLsbD g)) s
      (fun s g => s.post g (56 + c.val)))) ∧
    (s.flag (F.WDT_CTRL_EN c) = false → exec (.wdtEnable c) s = .next ((s.setFlag (F.WDT_CTRL_EN c)).wdStart c)) ∧
    (s.flag (F.WDT_CTRL_EN c) = true → exec (.wdtEnable c) s = .next s) ∧
    (∀ w, exec (.wdtKick c w) s = .next (if w = 0xA5C3 ∧ s.flag (F.WDT_CTRL_EN c) then s.wdStart c else s)) ∧
    (∀ u, s.alive = true → s.cores[c].wdStage = 1 → s.cores[c].anyHalted = false → u = (s.modCore c (fun k => { k with wdStage := 2 })).setFld
        F.WDT_STATUS_STAGE2 (s.fld F.WDT_STATUS_STAGE2 ||| 2 ^ c.val) →
      exec (.wdtStage1Expiry c) s = .next (match u.cores[c].lowestLive with | some t => u.async c t exWdog | none => u))

/-- NVMC (R261, R275, R277, R278): commands wait with their arguments, a busy one sets CMD_ERR; NVMC serves in the order KEYS,
ASSAY, ACCESS, lease writer, firmware, and records also between the chunks of an image command; a command ends in its turn,
gives RESULT and answers, or firmware goes on with what waited for its record; no source is served while KEYS carries out a
life-cycle transition (R180); a record is handed to its free port and ends in its turn, committed or failed; erases complete
in order; ADMIT is refused above its cap. That a command reads its source and writes MRAM when it ends is the model's choice
(DESIGN CHOICE, log entry 59). -/
def Obligations.NvmcCommands : Prop :=
  ∀ (s : State),
    (∀ i k, nvmcCode i = some k → s.flag F.NVMC_STATUS_BUSY = true → exec i s = .next (s.setFlag F.NVMC_STATUS_CMD_ERR)) ∧
    (∀ i k, nvmcCode i = some k → s.flag F.NVMC_STATUS_BUSY = false →
      exec i s = .next (((s.setFlag F.NVMC_STATUS_BUSY).modNvm (fun n => { n with
        cmd := some (k, [s.reg (A.NVMC_ARG 0), s.reg (A.NVMC_ARG 1), s.reg (A.NVMC_ARG 2), s.reg (A.NVMC_ARG 3), s.reg (A.NVMC_ARG 4)]) })).nvServe)) ∧
    (∀ k, s.nvm.cur = some k → s.nvServe = s) ∧
    (s.keys.lcPhase ≠ .none → s.nvServe = s) ∧
    (s.nvm.cur = none → s.keys.lcPhase = .none → s.nvServe = s.modNvm (fun n => { n with
      cur := [NvSource.keys, .assay, .access, .lease, .firmware].find? (fun k =>
        s.nvm.reqs.any (fun r => r.src == k) || (k == .firmware && s.nvm.cmd.isSome)) })) ∧
    (∀ (fails : Fin 3) op args r t u, s.nvm.cur = some .firmware → s.nvm.cmd = some (op, args) →
        nvmcWork s op args fails = (r, t) →
      u = ((((t.modNvm (fun n => { n with cmd := none })).unport .firmware).setFld F.NVMC_STATUS_RESULT r).setFlag
        F.NVMC_STATUS_BUSY false).raiseEvt F.NVMC_EVT_DONE 15 →
      (u.update.inCfg = none →
        exec (.nvmcCmdDone fails) s = .next (u.complete .nvmc (if u.fld F.NVMC_STATUS_RESULT = nvDone then stOk else stFail)
          (u.fld F.NVMC_STATUS_RESULT) [])) ∧
      (∀ n, u.update.inCfg = some n →
        exec (.nvmcCmdDone fails) s = .next ((u.modUpdate (fun x => { x with inCfg := none })).cfgNext (u.fld F.NVMC_STATUS_RESULT) n))) ∧
    (∀ fails, s.nvm.cur ≠ some .firmware → exec (.nvmcCmdDone fails) s = .next s) ∧
    (∀ src fails, s.nvm.cur ≠ some (sourceOf src) → s.nvm.cur ≠ some .firmware → exec (.nvmcRecordDone src fails) s = .next s) ∧
    (∀ src fails op args, s.nvm.cur = some .firmware → s.nvm.cmd = some (op, args) → op ≠ 4 → op ≠ 5 →
      exec (.nvmcRecordDone src fails) s = .next s) ∧
    (∀ op args k, s.nvm.cur = some .firmware → s.nvm.cmd = some (op, args) → (op = 4 ∨ op = 5) → k ≠ .firmware → s.keys.lcPhase = .none →
      (s.nvTurn k = true ↔ [NvSource.keys, .assay, .access, .lease].find? (fun k => s.nvm.reqs.any (fun r => r.src == k)) = some k)) ∧
    (∀ r copy fails t, fails = 0 → s.nvPlace r (threeCopies copy) = some t → s.nvRecordWrite r copy fails = (.committed, t)) ∧
    (∀ r copy fails, fails = 0 → s.nvPlace r (threeCopies copy) = none →
      s.nvRecordWrite r copy fails = (.full, s.raiseEvt F.NVMC_EVT_FAIL 15)) ∧
    (∀ r copy fails u v t l, 2 ≤ fails → s.drawOctets (6 * copy.length) = (l, u) → u.nvPlace r (packWords l) = some v →
      ∀ l2 u2, v.drawOctets (6 * copy.length) = (l2, u2) → u2.nvPlace r (packWords l2) = some t →
      s.nvRecordWrite r copy fails = (.verify, t.raiseEvt F.NVMC_EVT_FAIL 15)) ∧
    (∀ args, s.slotLocked (wordAt args 0 % 2) = true → s.nvImgErase args = (nvLocked, s)) ∧
    (∀ args i, wordAt args 0 % 2 = i → s.slotLocked i = false →
      s.nvImgErase args = (nvDone, s.nvErase (0x800000 + i * 0x140000) (0x800000 + i * 0x140000 + 0x140000))) ∧
    (∀ (src : Fin 4) r, s.nvm.reqs.any (fun r => r.src == sourceOf src) = false → s.sourceRecord (sourceOf src) = some r →
      exec (.nvmcPortRecord src) s = .next (s.modNvm (fun n => { n with reqs := n.reqs ++ [r] })).nvServe) ∧
    (∀ (src : Fin 4), s.nvm.reqs.any (fun r => r.src == sourceOf src) = true ∨ s.sourceRecord (sourceOf src) = none →
      exec (.nvmcPortRecord src) s = .next s) ∧
    (∀ (fails : Fin 3), s.nvTurn .keys = true → exec (.nvmcRecordDone 0 fails) s = .next (s.keysLease fails)) ∧
    (∀ (fails : Fin 3), s.nvTurn .assay = true → exec (.nvmcRecordDone 1 fails) s = .next (s.repairDone fails)) ∧
    (∀ (fails : Fin 3), s.nvTurn .access = true → exec (.nvmcRecordDone 2 fails) s = .next (s.accessLogged fails)) ∧
    (∀ (fails : Fin 3), s.nvTurn .lease = true → exec (.nvmcRecordDone 3 fails) s = .next (s.leaseEnd fails)) ∧
    (∀ (src : Fin 4), s.nvm.cur = some (sourceOf src) → s.nvTurn (sourceOf src) = true) ∧
    (∀ b l, s.nvm.erasing = b :: l →
      exec .segmentEraseDone s = .next ((s.nvClear b (b + 0x10000)).modNvm (fun n => { n with erasing := l }))) ∧
    (∀ w, exec (.imgLockSet w) s = .next (s.plainWrite A.NVMC_IMG_LOCK w)) ∧
    (∀ (w : Half) t, t = (if w.getLsbD 15 then s.setFlag F.SYSCTL_ADMIT_ERR false else s) →
      exec (.admitWrite w) s = .next (if t.fld F.SYSCTL_ADMIT_CAP_BYTES < w.toNat % 4096 then t.setFlag F.SYSCTL_ADMIT_ERR
        else t.setFld F.SYSCTL_ADMIT_BYTES (w.toNat % 4096)))

/-- Resets (R252, R281, R293 to R296, R299): what a device reset keeps of the Plinth domain and MRAM and leaves of the rest, the
causes, the release of core 0 into the boot ROM, the release of a core, its pending bits cleared, an application core with
the windows of its fence, its watchdog, where enabled, at stage 1, the reset of a core, and stage 2 of a watchdog. A device
that a sag has halted restarts by RESET_N or a power-on reset alone, and a reset source out of PLINTH is its wake; a cut of
what NVMC and KEYS write changes MRAM alone. A slot whose staging a loss of power cuts is FAILED (DEDUCED, log entry 74). -/
def Obligations.Resets : Prop :=
  ∀ (s : State),
    (∀ key : Half, exec (.softwareReset key) s = .next (if key = 0x5A3C then s.deviceReset rcSoft else s)) ∧
    (s.sys.sleep ≠ .asleep 3 → (∀ b, s.sys.sleep ≠ .entering 3 b) →
      exec .powerOnReset s = .next ((s.setFlag F.PLINTH_STATUS_PWR_VBAK false).deviceReset rcPor) ∧
      exec .pinReset s = .next (s.deviceReset rcPin)) ∧
    (s.sys.sleep = .asleep 3 → exec .powerOnReset s = .next ((s.setFlag F.PLINTH_STATUS_PWR_VBAK false).deviceReset rcPlinth) ∧
      exec .pinReset s = .next (s.deviceReset rcPlinth)) ∧
    (∀ b, s.sys.sleep = .entering 3 b → exec .pinReset s = .next (s.modSys (fun y => { y with sleep := .entering 3 true })) ∧
      exec .powerOnReset s = .next ((s.setFlag F.PLINTH_STATUS_PWR_VBAK false).modSys (fun y => { y with sleep := .entering 3 true }))) ∧
    (∀ cause k, s.sys.halted = true → cause ≠ rcPor → cause ≠ rcPin → s.deviceReset cause k = s) ∧
    (∀ how, ∃ m f n, s.nvCut how = { s with mram := m, mramFlip := f, free := n }) ∧
    (∀ how, s.nvWriting = false → s.nvCut how = s) ∧
    (s.nvWriting = false ↔ s.nvm.cur = none ∧ s.keys.cmd = none ∧ s.pke.cmd = none ∧ s.keys.lcPhase = .none ∧ s.nvm.freeing = none ∧
      s.nvm.erasing = []) ∧
    (∀ cause k, (s.sys.halted = false ∨ cause = rcPor ∨ cause = rcPin) → s.nvWriting = false → cause ≠ rcShelf → ∃ t, t = s.deviceReset cause k ∧ t.sram = [] ∧ t.mram = s.mram ∧
      t.mramFlip = s.mramFlip ∧ t.plinth = s.plinth ∧ t.pending = s.pending ∧ t.sys.inReset = true ∧ t.sys.cause = cause ∧
      (∀ c : Fin 6, ∀ h : Fin 4, (t.thr c h).st = .dead) ∧ t.radio = State.reset.radio ∧
      t.update.slots = (if cause = rcPor ∨ s.sys.halted = true then s.update.slots.map (fun x => if x = 1 then 7 else x) else s.update.slots) ∧
      (∀ a, 0xF00000 ≤ a → a < 0xF01000 → t.reg a = s.reg a)) ∧
    (∀ how, s.sys.sleep = .asleep 3 → exec (.supplySagHalt how) s = .next s) ∧
    (∀ how, s.sys.sleep ≠ .asleep 3 → exec (.supplySagHalt how) s = .next (((((s.radioIoOff.nvCut how).modNvm (fun n => { n with
      cur := none, reqs := [], cmd := none, freeing := none, erasing := [] })).modKeys (fun k => { k with
      cmd := none, lcPhase := .none })).modPke (fun p => { p with cmd := none })).modSys (fun y => { y with
      halted := true, xoRun := false, sleep := .awake }))) ∧
    (exec .vbakSwitchover s = .next (s.setFlag F.PLINTH_STATUS_PWR_VBAK)) ∧
    (s.sys.inReset = true → exec .resetRelease s = .next (((((((s.modSys (fun y => { y with inReset := false })).setFld
      F.PMU_WAKE_SRC_SRC s.sys.risen.toNat).modThr 0 0 (fun t => { t with st := .run, pc := 0, psw := 0x8000 })).setFlag
      F.TRNG_STATUS_STARTUP).keysStart).nvStart).repost 0)) ∧
    (∀ t cert, s.keys.lcPhase = .running t cert → exec .lcTransitionDone s = .next (s.lcFinish t cert)) ∧
    (s.keys.lcPhase = .written → s.lcAnswering = false → exec .lcTransitionDone s = .next (s.deviceReset rcLc)) ∧
    (s.keys.lcPhase = .written → s.lcAnswering = true → exec .lcTransitionDone s = .next s) ∧
    (s.keys.lcPhase = .none → exec .lcTransitionDone s = .next s) ∧
    (∀ (n : Fin 6), 1 ≤ n.val → (s.reg A.SYSCTL_CORE_CTRL).getLsbD n = true →
      exec (.coreReset n) s = .next ((s.setReg A.SYSCTL_CORE_CTRL (half (putBits (s.regN A.SYSCTL_CORE_CTRL) n n 0))).coreReset n)) ∧
    (∀ (n : Fin 6), (s.reg A.SYSCTL_CORE_CTRL).getLsbD n = true → exec (.coreRelease n) s = .next s) ∧
    (∀ (n : Fin 6) t u v, 1 ≤ n.val → (s.reg A.SYSCTL_CORE_CTRL).getLsbD n = false →
      t = forEach [0, 1, 2, 3] (s.setReg A.SYSCTL_CORE_CTRL (half (putBits (s.regN A.SYSCTL_CORE_CTRL) n n 1)))
        (fun s w => s.setReg (A.EVU_PEND n w) 0) →
      u = (if 2 ≤ n.val then forEach [(0 : Fin 8), 1, 2, 3] t (fun s w => s.modCore n (fun k => { k with
        win := k.win.set w {
          base := BitVec.ofNat 24 (s.effAddr (A.SYSCTL_FENCE_BASE_LO (4 * (n.val - 2) + w.val)))
          limit := BitVec.ofNat 24 (s.effAddr (A.SYSCTL_FENCE_LIMIT_LO (4 * (n.val - 2) + w.val)))
          attr := s.reg (A.SYSCTL_FENCE_ATTR (4 * (n.val - 2) + w.val)) } })) else t) →
      (u.modThr n 0 (fun th => { th with
        st := .run, pc := BitVec.ofNat 24 (u.effAddr (A.SYSCTL_CORE_START_LO (n.val - 1)))
        psw := pswMode th.psw true false false })).repost n = v →
      exec (.coreRelease n) s = .next (if v.flag (F.WDT_CTRL_EN n) = true then v.wdStart n else v)) ∧
    (∀ n : Fin 6, (s.wdStart n).cores[n].wdStage = 1 ∧ SameMemory s (s.wdStart n)) ∧
    (∀ c : Fin 6, c.val < 2 → s.alive = true → s.cores[c].wdStage = 2 → s.cores[c].anyHalted = false →
      exec (.wdtStage2Expiry c) s = .next (s.deviceReset rcWdt c)) ∧
    (∀ c : Fin 6, 2 ≤ c.val → s.alive = true → s.cores[c].wdStage = 2 → s.cores[c].anyHalted = false →
      exec (.wdtStage2Expiry c) s = .next (((s.setFld F.WDT_STATUS_APP_RST (s.fld F.WDT_STATUS_APP_RST ||| 2 ^ (c.val - 2))).coreReset c).raise 30))

/-- Performance levels (R282 to R285): a request is answered at once or waits; the checks run in order when a change may start;
a change limits ADMIT to the smaller level, powers lanes at and above a lower level's maximum down at its start, each
leaving to OUT as if its band were muted, and up after the dividers switch, and ends with PL_DONE. That a request for the
level in force withdraws one that waits is the model's choice (DESIGN CHOICE, log entry 47). -/
def Obligations.PerformanceLevels : Prop :=
  ∀ (s : State),
    (∀ t : Fin 4, s.sys.plChange.isSome = true → exec (.plRequest t) s = .next (s.setFld F.PMU_PL_STAT_RESULT plBusy)) ∧
    (∀ t : Fin 4, s.sys.plChange = none → t.val = s.fld F.PMU_PL_CUR →
      exec (.plRequest t) s = .next (((s.modSys (fun y => { y with plPend := none })).setFlag F.PMU_PL_STAT_WAITING false).setFld
        F.PMU_PL_STAT_RESULT plSame)) ∧
    (∀ t : Fin 4, s.sys.plChange = none → t.val ≠ s.fld F.PMU_PL_CUR →
      exec (.plRequest t) s = .next ((s.modSys (fun y => { y with plPend := some t.val })).setFlag F.PMU_PL_STAT_WAITING)) ∧
    (∀ t u, s.sys.plPend = some t → s.plWindow = true → s.plumbMayStart = false →
      u = (s.modSys (fun y => { y with plPend := none })).setFlag F.PMU_PL_STAT_WAITING false →
      (admissible t < u.fld F.SYSCTL_ADMIT_BYTES → exec .plChangeStart s = .next (((u.setFld F.PMU_PL_STAT_RESULT
        plRefAdmit).raiseEvt F.PMU_EVT_PL_REFUSED 19).complete .plSet stFail plRefAdmit [])) ∧
      (u.fld F.SYSCTL_ADMIT_BYTES ≤ admissible t → u.lanesAbove (plLanes t) = true →
        exec .plChangeStart s = .next (((u.setFld F.PMU_PL_STAT_RESULT plRefLanes).raiseEvt F.PMU_EVT_PL_REFUSED 19).complete
          .plSet stFail plRefLanes [])) ∧
      (u.fld F.SYSCTL_ADMIT_BYTES ≤ admissible t → u.lanesAbove (plLanes t) = false → exec .plChangeStart s = .next (u.plBegin t))) ∧
    (∀ t, s.plWindow = true → s.plumbMayStart = true → s.sys.plPend = some t → exec .plChangeStart s = .next s) ∧
    (∀ t, s.fld F.PMU_PL_CUR ≤ t → t ≤ 3 → ∃ u, s.plBegin t = u ∧ u.sys.plChange = some (t, false) ∧ u.flag F.PMU_PL_STAT_BUSY = true ∧
      u.fld F.SYSCTL_ADMIT_CAP_BYTES = min (admissible (s.fld F.PMU_PL_CUR)) (admissible t) ∧ SameMemory s u ∧
      SameRegs s u [A.PMU_PL_STAT, A.SYSCTL_ADMIT_CAP]) ∧
    (∀ t, t < s.fld F.PMU_PL_CUR → s.fld F.PMU_PL_CUR ≤ 3 → ∃ u, u.sys.plChange = some (t, false) ∧ u.flag F.PMU_PL_STAT_BUSY = true ∧
      u.fld F.SYSCTL_ADMIT_CAP_BYTES = min (admissible (s.fld F.PMU_PL_CUR)) (admissible t) ∧ SameMemory s u ∧
      SameRegs s u [A.PMU_PL_STAT, A.SYSCTL_ADMIT_CAP] ∧
      s.plBegin t = forEach ((List.range 64).drop (plLanes t)) u (fun v n => v.laneLeave n laneOut)) ∧
    (∀ n < 64, (s.laneLeave n laneOut).laneState n = laneOut ∧
      (s.laneState n = laneOut → s.laneLeave n laneOut = s) ∧
      (s.laneState n ≠ laneOut → s.laneLeave n laneOut = ((s.laneCut n).setLaneState n laneOut).modLane n (fun l => { l with
        deferred := none }))) ∧
    (plLanes 0 = 0 ∧ plLanes 1 = 16 ∧ plLanes 2 = 40 ∧ plLanes 3 = 64) ∧
    (∀ t u, s.sys.plChange = some (t, false) →
      u = (s.modSys (fun y => { y with plChange := some (t, true) })).setFld F.PMU_PL_CUR t →
      exec .plDividerSwitch s = .next (forEach ((List.range (plLanes t)).drop (plLanes (s.fld F.PMU_PL_CUR))) u (fun s n =>
        if s.laneState n = laneOut ∧ s.flag (F.LANE_PHYS_WITHDRAWN n) = false then s.setLaneState n laneIdle else s))) ∧
    (∀ t u, s.sys.plChange = some (t, true) →
      u = (((s.modSys (fun y => { y with plChange := none })).setFlag F.PMU_PL_STAT_BUSY false).setFld F.PMU_PL_STAT_RESULT
        plDone).setFld F.SYSCTL_ADMIT_CAP_BYTES (admissible t) →
      exec .plChangeDone s = .next ((u.raiseEvt F.PMU_EVT_PL_DONE 19).complete .plSet stOk plDone [u.reg A.PMU_PL]))

/-- Sleep (R286 to R290): an entry starts where every precondition holds, with the sources enabled then, and SLP_WHY names the
first that fails; from its start no core runs; an entry ends asleep or, where a source rose first, abandoned; a source that
wakes ends NAP at its resume and SHELF and PLINTH in a reset, and one that rises in the reset of that wake is noted too; the
host's balls, sources 4 to 7, wake only with VIO present (R399). That XO_HF starts again at the resume from NAP where XO_EN
= 1 is read from R289 (DEDUCED, log entry 73). -/
def Obligations.SleepStates : Prop :=
  ∀ (s : State),
    (∀ i st, sleepState i = some st → s.sys.sleep = .awake → s.sleepWhy = none →
      exec i s = .next (s.modSys (fun y => { y with
        sleep := .entering st false, risen := 0
        wakeEn := if st = 3 then 7 else BitVec.ofNat 9 (s.fld F.PMU_WAKE_EN_EN) }))) ∧
    (s.sys.sleep ≠ .awake → s.coresRun = false) ∧
    (∀ (src : Fin 9), s.sys.wakeEn.getLsbD src = false ∨ (4 ≤ src.val ∧ src.val ≤ 7 ∧ s.sys.vio = false) →
      exec (.wakeSourceRise src) s = .next s) ∧
    (∀ i st y, sleepState i = some st → s.sys.sleep = .awake → s.sleepWhy = some y →
      exec i s = .next ((s.setFlag F.PMU_STATUS_SLP_ERR).setFld F.PMU_STATUS_SLP_WHY y)) ∧
    (∀ (src : Fin 9) st w, s.sys.sleep = .entering st w → s.sys.wakeEn.getLsbD src = true → (4 ≤ src.val → src.val ≤ 7 → s.sys.vio = true) →
      exec (.wakeSourceRise src) s = .next (s.modSys (fun y => { y with
        risen := y.risen ||| BitVec.ofNat 9 (2 ^ src.val), sleep := .entering st true }))) ∧
    (∀ (src : Fin 9) u, s.sys.sleep = .asleep 1 → s.sys.wakeEn.getLsbD src = true → (4 ≤ src.val → src.val ≤ 7 → s.sys.vio = true) →
      u = s.modSys (fun y => { y with risen := y.risen ||| BitVec.ofNat 9 (2 ^ src.val) }) → exec (.wakeSourceRise src) s = .next u) ∧
    (∀ (src : Fin 9) u, s.sys.sleep = .asleep 2 → s.sys.wakeEn.getLsbD src = true → (4 ≤ src.val → src.val ≤ 7 → s.sys.vio = true) →
      u = s.modSys (fun y => { y with risen := y.risen ||| BitVec.ofNat 9 (2 ^ src.val) }) →
      exec (.wakeSourceRise src) s = .next (u.deviceReset rcShelf)) ∧
    (∀ (src : Fin 9) u, s.sys.sleep = .asleep 3 → s.sys.wakeEn.getLsbD src = true → (4 ≤ src.val → src.val ≤ 7 → s.sys.vio = true) →
      u = s.modSys (fun y => { y with risen := y.risen ||| BitVec.ofNat 9 (2 ^ src.val) }) →
      exec (.wakeSourceRise src) s = .next (u.deviceReset rcPlinth)) ∧
    (∀ (src : Fin 9), s.sys.sleep = .awake → s.sys.inReset = false → exec (.wakeSourceRise src) s = .next s) ∧
    (∀ (src : Fin 9), s.sys.sleep = .awake → s.sys.inReset = true → (s.sys.cause = rcShelf ∨ s.sys.cause = rcPlinth) →
      s.sys.wakeEn.getLsbD src = true → (4 ≤ src.val → src.val ≤ 7 → s.sys.vio = true) →
      exec (.wakeSourceRise src) s = .next (s.modSys (fun y => { y with risen := y.risen ||| BitVec.ofNat 9 (2 ^ src.val) }))) ∧
    (∀ st, s.sys.sleep = .asleep st → exec .sleepTimerExpiry s = .next (s.wakeRise 8)) ∧
    (∀ st w u v, s.sys.sleep = .entering st w → u = s.radioIoOff.modSys (fun y => { y with
          sleep := .asleep st, xoRun := false, pllOn := false }) →
      v = (u.setFlag F.SYSCTL_CLK_SRC false).setReg A.SYSCTL_CLK_STATUS (u.reg A.SYSCTL_CLK_STATUS &&& 0xC) →
      exec .sleepEntryDone s = .next (if w = false ∨ st = 1 then v else v.deviceReset (if st = 2 then rcShelf else rcPlinth))) ∧
    (∀ st, st ≠ 3 → s.sys.sleep = .entering st true →
      exec .sleepAbandon s = .next (((s.modSys (fun y => { y with sleep := .awake, risen := 0 })).count A.PMU_ABANDONED).event
        hostChans 1 0x82 [0])) ∧
    (∀ w, s.sys.sleep = .entering 3 w → exec .sleepAbandon s = .next s) ∧
    (s.sys.sleep = .asleep 1 → s.sys.risen = 0 → exec .napResume s = .next s) ∧
    (∀ u v, s.sys.sleep = .asleep 1 → s.sys.risen ≠ 0 →
      u = (((((s.setReg A.PMU_WAKE_SRC (half s.sys.risen.toNat)).modSys (fun y => { y with
        sleep := .awake, risen := 0, xoRun := s.flag F.SYSCTL_CLK_XO_EN })).setFld F.PMU_STATUS_LAST 1).setFld F.PMU_PL_CUR 0).setFlag
          F.SYSCTL_TEMP_VALID false).setFld F.SYSCTL_ADMIT_CAP_BYTES (admissible 0) →
      v = (forEach (List.range 64) u (fun s n => s.laneLeave n laneOut)).raiseEvt F.PMU_EVT_WOKE 19 →
      exec .napResume s = .next (v.event hostChans 1 0x82 [v.reg A.PMU_WAKE_SRC]))

/-- Clocks (R27, R291), DMA (R300) and the die temperature (R301): the enables, the stages becoming ready, a switch of source
with and without a locked PLL, loss of XO_HF, a copy from start to end or to its bad access, its corrected words of MRAM
counted (log entry 102), and a conversion, held to the range of R420, after which firmware may ask for calibrations again
(R45). A copy reads its source when it ends (DESIGN CHOICE, log entry 59). -/
def Obligations.ClocksAndDma : Prop :=
  ∀ (s : State),
    (∀ w, exec (.xoEnable w) s = .next (s.clkWrite (w ||| 4))) ∧
    (∀ w, exec (.pllEnable w) s = .next (s.clkWrite (w ||| 2))) ∧
    (∀ src, exec (.clockSourceSwitch src) s = .next (s.clkWrite ((s.reg A.SYSCTL_CLK &&& 6) ||| half (bit src)))) ∧
    (∀ w u, w.getLsbD 2 = true → w.getLsbD 1 = true → s.flag F.SYSCTL_CLK_STATUS_XO_OK = true →
      u = (((s.setFlag F.SYSCTL_CLK_XO_EN).modSys (fun y => { y with xoRun := true })).setFlag F.SYSCTL_CLK_PLL_EN).modSys
        (fun y => { y with pllOn := true }) →
      s.clkWrite w = (if w.getLsbD 0 = false then u.setFlag F.SYSCTL_CLK_SRC false
        else if s.flag F.SYSCTL_CLK_STATUS_PLL_LOCK = true then u.setFlag F.SYSCTL_CLK_SRC else u.setFlag F.SYSCTL_CLK_STATUS_CLK_ERR)) ∧
    (s.sys.xoRun = true → exec .xoStable s = .next (s.setFlag F.SYSCTL_CLK_STATUS_XO_OK)) ∧
    (s.sys.pllOn = true → exec .pllLock s = .next (s.setFlag F.SYSCTL_CLK_STATUS_PLL_LOCK)) ∧
    (∀ u, s.sys.sleep = .awake → s.sys.inReset = false →
      u = ((s.modSys (fun y => { y with xoRun := false, pllOn := false })).setFlag F.SYSCTL_CLK_SRC false).setReg A.SYSCTL_CLK_STATUS
        (s.reg A.SYSCTL_CLK_STATUS &&& 0xC) →
      exec .xoHfLoss s = .next (((((u.feXoLoss .sub).feXoLoss .ism).courseXoLoss.accessAbort.sliceAbort).setFlag
        F.SYSCTL_CLK_STATUS_XO_LOSS).raise 13)) ∧
    (∀ (k : Fin 4), s.flag (F.DMA_CTRL_EN k) = false →
      ∃ t, exec (.dmaStart k) s = .next t ∧ t.flag (F.DMA_CTRL_EN k) = true ∧ SameRegs s t [A.DMA_CTRL k] ∧ SameMemory s t ∧
        t.sys.dma = s.sys.dma.set k.val (s.effAddr (A.DMA_SRC_LO k), s.effAddr (A.DMA_DST_LO k), s.regN (A.DMA_LEN k))) ∧
    (∀ (k : Fin 4) src dst n, s.flag (F.DMA_CTRL_EN k) = true → s.dmaBad k = none → s.dmaChan k = (src, dst, n) →
      exec (.dmaDone k) s = .next (((forEach (List.range n) (if 0x800000 ≤ src ∧ src < 0xC00000 then s.eccCount src (src + 2 * n)
        else s) (fun s i => s.setSramHalf (dst + 2 * i) (s.memHalf (src + 2 * i)))).setFlag
        (F.DMA_CTRL_EN k) false).setFlag (F.DMA_CTRL_DONE k))) ∧
    (∀ (k : Fin 4) src dst n i u, s.flag (F.DMA_CTRL_EN k) = true → s.dmaBad k = some i → s.dmaChan k = (src, dst, n) →
      u = forEach (List.range i) (if 0x800000 ≤ src ∧ src < 0xC00000 then s.eccCount src (src + 2 * i) else s) (fun s i => s.setSramHalf (dst + 2 * i) (s.memHalf (src + 2 * i))) →
      exec (.dmaStopError k) s = .next (((u.eccNote ((u.dmaChan k).1 + 2 * i) ((u.dmaChan k).1 + 2 * i + 1)).setFlag (F.DMA_CTRL_EN k)
        false).setFlag (F.DMA_CTRL_ERR k))) ∧
    (∀ deg t, s.alive = true → t = s.setReg A.SYSCTL_TEMP (half (0x8000 + ofSigned 11 (clampInt (-160) 600 (toSigned 11 deg.toNat)))) →
      exec (.tempConversion deg) s = .next (if s.sys.fwRun = true then (t.recalibrate .sub).recalibrate .ism else t)) ∧
    (∀ deg, s.alive = false → exec (.tempConversion deg) s = .next s)

/-- The Plinth domain's supply (R302), mains detection (R310, R311, R313), tamper inputs (R314) and trickle charger (R316): what
each event and each keyed write does, after the timer channels that capture the edge (R322), and that a write of
PLINTH_TRICKLE without its key does nothing. An interval out of limits voids the trim window whatever TSRC selects. After a
power-up every Plinth register holds its reset value (R197, R302). -/
def Obligations.PlinthInputs : Prop :=
  ∀ (s : State),
    (∃ t : State, exec .plinthPowerUp s = .next (t.deviceReset rcPor) ∧ t.plinth = {} ∧ t.sram = s.sram ∧ t.mram = s.mram ∧
      (∀ a, 0xF00000 ≤ a → a < 0xF01000 → t.reg a = regReset a)) ∧
    (∀ how u, s.draw 3 = (how, u) → ∃ t, exec .plinthSupplyLoss s = .next t ∧
      t = ((u.sag how).resetRegs 0xF00000 0xF01000).modPlinth (fun _ => { powered := false }) ∧
      (s.sys.sleep ≠ .asleep 3 → t.sys.halted = true ∧ t.sys.xoRun = false) ∧
      (∀ a, 0xF00000 ≤ a → a < 0xF01000 → t.reg a = regReset a)) ∧
    (exec .plinthFeedVmain s = .next (s.setFlag F.PLINTH_STATUS_PWR_VBAK false)) ∧
    (∀ c m, c = s.capEdge 0x01 true → c.plinth.powered = false ∨
        (c.plinth.lastMains = some m ∧ 4 * c.mainsHz * (c.plinth.raw - m) < 32768) →
      exec .mainsEdge s = .next c) ∧
    (∀ c m d u v, c = s.capEdge 0x01 true → c.plinth.powered = true → c.plinth.lastMains = some m → d = c.plinth.raw - m →
      32768 ≤ 4 * c.mainsHz * d → 9 * 32768 ≤ 10 * c.mainsHz * d → 10 * c.mainsHz * d ≤ 11 * 32768 →
      u = c.modPlinth (fun p => { p with lastMains := some p.raw, detect := true, good := p.good + 1 }) →
      v = (if u.flag F.PLINTH_STATUS_LOM = true ∧ 8 ≤ u.plinth.good then u.mainsBack else u) →
      (v.fld F.PLINTH_CTRL_TSRC ≠ 2 → exec .mainsEdge s = .next v) ∧
      (v.fld F.PLINTH_CTRL_TSRC = 2 → exec .mainsEdge s = .next ((v.modPlinth (fun p => { p with
        cycles := p.cycles + 1 })).refEdge (c.mainsHz ≤ v.plinth.cycles + 1)))) ∧
    (∀ c m d u, c = s.capEdge 0x01 true → c.plinth.powered = true → c.plinth.lastMains = some m → d = c.plinth.raw - m →
      32768 ≤ 4 * c.mainsHz * d → 10 * c.mainsHz * d < 9 * 32768 ∨ 11 * 32768 < 10 * c.mainsHz * d →
      u = c.modPlinth (fun p => { p with lastMains := some p.raw, detect := true, good := 0 }) →
      exec .mainsEdge s = .next u.trimVoid) ∧
    (∀ c u, c = s.capEdge 0x01 true → c.plinth.powered = true → c.plinth.lastMains = none →
      u = c.modPlinth (fun p => { p with lastMains := some p.raw, detect := true, good := 0 }) →
      (u.fld F.PLINTH_CTRL_TSRC ≠ 2 → exec .mainsEdge s = .next u) ∧
      (u.fld F.PLINTH_CTRL_TSRC = 2 → exec .mainsEdge s = .next ((u.modPlinth (fun p => { p with
        cycles := p.cycles + 1 })).refEdge (c.mainsHz ≤ u.plinth.cycles + 1)))) ∧
    (∀ u v, s.plinth.powered = true → s.fld F.PLINTH_MAINS_LOM_CYC ≠ 0 → s.flag F.PLINTH_STATUS_LOM = false →
      s.plinth.detect = true →
      u = (((s.setFlag F.PLINTH_STATUS_LOM).modPlinth (fun p => { p with good := 0 })).trimVoid).plinthEvt F.PLINTH_EVT_MAINS_LOSS →
      v = u.event allChans 1 0x80 s.rtcLow →
      (v.sys.fwRun = false → exec .mainsLoss s = .next (v.wakeRise 3)) ∧
      (v.sys.fwRun = true → v.fabGasp.sys.fwRun = true →
        exec .mainsLoss s = .next ((if v.fabGasp.coresRun = true then v.fabGasp.pumpSpi else v.fabGasp).wakeRise 3))) ∧
    (∀ w, exec (.plinthMainsWrite w) s = .next (((s.plainWrite A.PLINTH_MAINS w).setFlag F.PLINTH_STATUS_LOM false).modPlinth
      (fun p => { p with detect := false, good := 0 }))) ∧
    (∀ rising u v, s.plinth.powered = true → s.flag F.PLINTH_TAMP_EN0 = true →
      (s.fld F.PLINTH_TAMP_EDGE0).testBit (if rising = true then 0 else 1) = true →
      u = (if s.flag F.PLINTH_EVT_TAMP0 = true then s else ((s.setReg (A.TAMP_0_TS 0) (s.reg A.RTC_0)).setReg (A.TAMP_0_TS 1)
        (s.reg A.RTC_1)).setReg (A.TAMP_0_TS 2) (s.reg A.RTC_2)) →
      v = ((u.plinthEvt F.PLINTH_EVT_TAMP0).countFld F.TAMP_CNT_CNT0).scheduleReset →
      exec (.tamperEdge 0 rising) s = .next ((v.event hostChans 2 0x82 [half 0, v.reg (A.TAMP_0_TS 0), v.reg (A.TAMP_0_TS 1),
        v.reg (A.TAMP_0_TS 2), v.reg A.TAMP_CNT]).wakeRise 1)) ∧
    (∀ rising u v, s.plinth.powered = true → s.flag F.PLINTH_TAMP_EN1 = true →
      (s.fld F.PLINTH_TAMP_EDGE1).testBit (if rising = true then 0 else 1) = true →
      u = (if s.flag F.PLINTH_EVT_TAMP1 = true then s else ((s.setReg (A.TAMP_1_TS 0) (s.reg A.RTC_0)).setReg (A.TAMP_1_TS 1)
        (s.reg A.RTC_1)).setReg (A.TAMP_1_TS 2) (s.reg A.RTC_2)) →
      v = ((u.plinthEvt F.PLINTH_EVT_TAMP1).countFld F.TAMP_CNT_CNT1).scheduleReset →
      exec (.tamperEdge 1 rising) s = .next ((v.event hostChans 2 0x82 [half 1, v.reg (A.TAMP_1_TS 0), v.reg (A.TAMP_1_TS 1),
        v.reg (A.TAMP_1_TS 2), v.reg A.TAMP_CNT]).wakeRise 2)) ∧
    (∀ w : Half, w.toNat / 256 = 0x96 → exec (.trickleWrite w) s = .next (s.plainWrite A.PLINTH_TRICKLE w)) ∧
    (∀ w : Half, w.toNat / 256 ≠ 0x96 → exec (.trickleWrite w) s = .next s)

/-- The hour shift (R307): a write of RTC_CMD with the key and a shift sets SHIFT_PEND, one while it is set sets CMD_ERR alone,
any other is ignored; the next tick boundary applies the shift with its step or the set value, or refuses one below 0. -/
def Obligations.HourShift : Prop :=
  ∀ (s : State),
    (s.flag F.PLINTH_STATUS_SHIFT_PEND = false → exec .hourShiftForward s = .next ((s.setFlag F.PLINTH_STATUS_SHIFT_PEND).modPlinth
      (fun p => { p with shiftFwd := true }))) ∧
    (s.flag F.PLINTH_STATUS_SHIFT_PEND = false → exec .hourShiftBack s = .next ((s.setFlag F.PLINTH_STATUS_SHIFT_PEND).modPlinth
      (fun p => { p with shiftFwd := false }))) ∧
    (s.flag F.PLINTH_STATUS_SHIFT_PEND = true →
      exec .hourShiftForward s = .next (s.plinthEvt F.PLINTH_EVT_CMD_ERR) ∧ exec .hourShiftBack s = .next (s.plinthEvt F.PLINTH_EVT_CMD_ERR)) ∧
    (∀ (m : Master) (w : Half), m.vault = true → reachesRegs m = true → w.toNat / 256 ≠ 0xB4 ∨ w.toNat % 4 = 0 ∨ w.toNat % 4 = 3 →
      exec (.registerWrite m (BitVec.ofNat 24 A.RTC_CMD) w) s = .next s) ∧
    (∀ (m : Master) (w : Half), m.vault = true → reachesRegs m = true → w.toNat / 256 = 0xB4 → w.toNat % 4 = 1 →
      exec (.registerWrite m (BitVec.ofNat 24 A.RTC_CMD) w) s = exec .hourShiftForward s) ∧
    (∀ (m : Master) (w : Half), m.vault = true → reachesRegs m = true → w.toNat / 256 = 0xB4 → w.toNat % 4 = 2 →
      exec (.registerWrite m (BitVec.ofNat 24 A.RTC_CMD) w) s = exec .hourShiftBack s) ∧
    (∀ st v alm u, s.lfRuns = true → st = rtcStep s → s.flag F.PLINTH_STATUS_SHIFT_PEND = true → alm = s.eff48 A.RTC_ALM_0 →
      v = (if s.flag F.PLINTH_STATUS_SET_PEND = true then s.eff48 A.RTC_SET_0 else s.rtc + st.1) →
      (s.plinth.shiftFwd = false → v < hourTicks →
        u = (rtcCap s ((rtcAt s st.2 v).plinthEvt F.PLINTH_EVT_CMD_ERR)).complete .timeShift stFail 0 []) →
      (s.plinth.shiftFwd = false → hourTicks ≤ v → u = (rtcCap s (rtcAt s st.2 (v - hourTicks))).complete .timeShift stOk 0 []) →
      (s.plinth.shiftFwd = true → u = (rtcCap s (rtcAt s st.2 (v + hourTicks))).complete .timeShift stOk 0 []) →
      exec .rtcTick s = .next (if s.flag F.PLINTH_CTRL_ALM_EN = true ∧ ((s.rtc < alm ∧ alm ≤ u.rtc) ∨ s.plinth.almLate = true)
        then u.alarmFire else u)) ∧
    (∀ acc v, (rtcAt s acc v).rtc = v % 2 ^ 48)

/-- The RTC and its trim (R304 to R312): a tick adds 0, 1 or 2 by the trim, or takes a value set or shifted; keyed hour shifts;
commits on the high word; a stop of XO_LF; edges of PPS_IN, windows of reference seconds and the trim their measurement
gives. That TRIM_DONE carries TRIM_MEAS alone, its two words, is the model's choice (DESIGN CHOICE, log entry 85). -/
def Obligations.RealTimeClock : Prop :=
  ∀ (s : State),
    (∀ st v alm u, s.lfRuns = true → st = rtcStep s → s.flag F.PLINTH_STATUS_SHIFT_PEND = false →
      v = (if s.flag F.PLINTH_STATUS_SET_PEND = true then s.eff48 A.RTC_SET_0 else s.rtc + st.1) → alm = s.eff48 A.RTC_ALM_0 →
      u = rtcCap s (rtcAt s st.2 v) →
      exec .rtcTick s = .next (if s.flag F.PLINTH_CTRL_ALM_EN = true ∧ ((s.rtc < alm ∧ alm ≤ u.rtc) ∨ s.plinth.almLate = true)
        then u.alarmFire else u)) ∧
    (s.lfRuns = false → exec .rtcTick s = .next s) ∧
    (∀ w, exec (.rtcSetCommit w) s = .next (((s.plainWrite A.RTC_SET_2 w).commit [A.RTC_SET_0, A.RTC_SET_1, A.RTC_SET_2]).setFlag
      F.PLINTH_STATUS_SET_PEND)) ∧
    (∀ w, exec (.rtcAlarmCommit w) s = .next (((s.plainWrite A.RTC_ALM_2 w).commit [A.RTC_ALM_0, A.RTC_ALM_1, A.RTC_ALM_2]).almTest)) ∧
    (s.plinth.powered = true →
      exec .xoLfStop s = .next (((s.setFlag F.PLINTH_STATUS_XO_LF_RUN false).plinthEvt F.PLINTH_EVT_OSC_STOP).trimVoid) ∧
      exec .xoLfRestart s = .next (s.setFlag F.PLINTH_STATUS_XO_LF_RUN)) ∧
    (s.plinth.winOpen ≠ none → exec .trimWindowVoid s = .next ((s.modPlinth (fun p => { p with
      winOpen := none, closeAt := none, refs := 0, cycles := 0 })).plinthEvt F.PLINTH_EVT_TRIM_VOID)) ∧
    (∀ c u, c = s.capEdge 0x02 true → c.plinth.powered = true → u = c.modPlinth (fun p => { p with lastPps := some p.raw }) →
      (∀ r, c.plinth.lastPps = some r → c.plinth.raw - r < 32440 ∨ 33096 < c.plinth.raw - r → exec .ppsInEdge s = .next u.trimVoid) ∧
      (∀ r, c.plinth.lastPps = none ∨ (c.plinth.lastPps = some r ∧ 32440 ≤ c.plinth.raw - r ∧ c.plinth.raw - r ≤ 33096) →
        exec .ppsInEdge s = .next (if u.fld F.PLINTH_CTRL_TSRC = 1 then u.refEdge true else u))) ∧
    (∀ second t, s.trimClose = t →
      (t.plinth.winOpen = none → s.refEdge second = t.modPlinth (fun p => { p with
        winOpen := some t.plinth.raw, closeAt := none, refs := 0, cycles := 0 })) ∧
      (t.plinth.winOpen ≠ none → second = false → s.refEdge second = t) ∧
      (t.plinth.winOpen ≠ none → second = true → t.plinth.refs + 1 < 2 ^ t.fld F.PLINTH_CTRL_WIN →
        s.refEdge second = t.modPlinth (fun p => { p with refs := p.refs + 1, cycles := 0 })) ∧
      (t.plinth.winOpen ≠ none → second = true → 2 ^ t.fld F.PLINTH_CTRL_WIN ≤ t.plinth.refs + 1 →
        s.refEdge second = t.modPlinth (fun p => { p with refs := 0, cycles := 0, closeAt := some t.plinth.raw }))) ∧
    (s.plinth.winOpen = none ∨ s.plinth.closeAt = none → exec .trimWindowClose s = .next s) ∧
    (∀ w r u v, s.plinth.winOpen = some w → s.plinth.closeAt = some r →
      u = (s.setReg32 A.TRIM_MEAS_LO (r - w)).modPlinth (fun p => { p with winOpen := some r, closeAt := none }) →
      v = (if s.flag F.PLINTH_CTRL_AUTO = true then u.setReg A.RTC_TRIM (half (ofSigned 16 (clampInt (-32768) 32767 (divRound
        (-(((r - w : Nat) : Int) - (32768 * 2 ^ s.fld F.PLINTH_CTRL_WIN : Nat)) * 512) (2 ^ s.fld F.PLINTH_CTRL_WIN))))) else u) →
      exec .trimWindowClose s = .next ((v.plinthEvt F.PLINTH_EVT_TRIM_DONE).event hostChans 2 0x81
        [(v.plinthEvt F.PLINTH_EVT_TRIM_DONE).reg A.TRIM_MEAS_LO, (v.plinthEvt F.PLINTH_EVT_TRIM_DONE).reg A.TRIM_MEAS_HI]))

/-- TIMER (R318 to R323): a compare fires at its tick, repeats by its addend or stops the channel; counts, compares and enables
are written; a low word that a write holds is not overwritten by a latch or an auto-add; a stop latches the count; a capture
of the edge that EDGE selects takes the time to ±1 tick, a pulse shorter than 3 HF ticks is not captured, one that comes in
the cycle of a read is held for a cycle, and its read clears CAP_NEW. That COURSE_TICK and RTC_TICK capture in their own
commands is the model's choice (log entry 60), and so are the instant at which a pulse counts as 3 ticks long and the tick
in which a write discards an auto-add (log entry 107). -/
def Obligations.TimerCommands : Prop :=
  ∀ (s : State) (k : Fin 8),
    (∀ c at_ u v, s.flag (F.TMR_CTRL_RUN k) = true → s.flag (F.TMR_CTRL_CMP_EN k) = true → s.sys.xoRun = true →
      c = (if s.timers[k].late = true then (s.timers[k].base + 1) % 2 ^ 32 else s.tmrCmp k) →
      at_ = (s.timers[k].since / s.tmrStep k + (c + 2 ^ 32 - s.timers[k].base) % 2 ^ 32) * s.tmrStep k →
      u = ((s.passTo at_).tmrRaise k (F.TMR_STATUS_FIRE k)).count (A.TMR_FIRES k) →
      v = (if s.timers[k].late = true then u.setFlag (F.TMR_STATUS_LATE k) else u) →
      (v.tmrAdd k = 0 → exec (.timerCompareFire k) s = .next ((v.tmrLatch k c).modTimer k (fun t => { t with late := false }))) ∧
      (v.tmrAdd k ≠ 0 → exec (.timerCompareFire k) s = .next ((v.putPair (A.TMR_CMP_LO k) ((v.tmrCmp k + v.tmrAdd k) % 2 ^ 32)
        v.timers[k].cmpHeld).modTimer k (fun t => { t with
          base := c, since := at_, late := !ahead ((v.tmrCmp k + v.tmrAdd k) % 2 ^ 32) c
          added := some (v.hft, v.eff (A.TMR_CMP_LO k)) })))) ∧
    (∀ lo x, (s.putPair lo x true).reg lo = s.reg lo ∧ (s.putPair lo x false).reg lo = half x ∧
      (∀ held, (s.putPair lo x held).reg (lo + 2) = half (x / 65536))) ∧
    (∀ w u, u = s.modTimer k (fun x => { x with cntHeld := false }) → s.flag (F.TMR_CTRL_RUN k) = true →
      exec (.timerCntCommit k w) s = .next ((u.setReg (A.TMR_CNT_LO k) (s.eff (A.TMR_CNT_LO k))).setFlag (F.TMR_STATUS_WERR k))) ∧
    (∀ w u t, u = s.modTimer k (fun x => { x with cntHeld := false }) → s.flag (F.TMR_CTRL_RUN k) = false →
      t = (u.setReg (A.TMR_CNT_HI k) w).commit [A.TMR_CNT_LO k, A.TMR_CNT_HI k] →
      exec (.timerCntCommit k w) s = .next (t.modTimer k (fun x => { x with
        base := t.reg32 (A.TMR_CNT_LO k) % 2 ^ 32, since := t.hft }))) ∧
    (∀ w t, (∀ lo, s.timers[k].cmpHeld = true ∨ s.timers[k].added ≠ some (s.hft, lo)) →
      t = ((s.modTimer k (fun x => { x with cmpHeld := false })).setReg (A.TMR_CMP_HI k) w).commit [A.TMR_CMP_LO k, A.TMR_CMP_HI k] →
      exec (.timerCmpCommit k w) s = .next (t.tmrTest k)) ∧
    (∀ w lo t, s.timers[k].cmpHeld = false → s.timers[k].added = some (s.hft, lo) →
      t = (((s.setReg (A.TMR_CMP_LO k) lo).modTimer k (fun x => { x with cmpHeld := false })).setReg (A.TMR_CMP_HI k) w).commit
        [A.TMR_CMP_LO k, A.TMR_CMP_HI k] →
      exec (.timerCmpCommit k w) s = .next (t.tmrTest k)) ∧
    (s.tmrTest k = (s.modTimer k (fun x => { x with base := s.tmrCnt k % 2 ^ 32, since := s.hft })).modTimer k (fun x => { x with
      late := !ahead (s.tmrCmp k) (s.tmrCnt k) })) ∧
    (∀ (w : Half) t, s.flag (F.TMR_CTRL_RUN k) = false →
      t = (s.plainWrite (A.TMR_CTRL k) (w ||| 0x8000)).modTimer k (fun x => { x with
        base := s.tmrCnt k % 2 ^ 32, since := s.hft, edgeAt := none, due := none }) →
      exec (.timerRun k w) s = .next (t.tmrTest k)) ∧
    (∀ (w : Half) t, s.flag (F.TMR_CTRL_RUN k) = true → t = s.plainWrite (A.TMR_CTRL k) (w &&& 0x7FFF) →
      t.flag (F.TMR_CTRL_RUN k) = false → exec (.timerStop k w) s = .next (t.tmrLatch k (s.tmrCnt k))) ∧
    (∀ (w : Half), (s.plainWrite (A.TMR_CTRL k) (w &&& 0x7FFF)).flag (F.TMR_CTRL_RUN k) = false) ∧
    (∀ rising e t, s.flag (F.TMR_CTRL_CAP_EN k) = true → s.fld (F.TMR_CTRL_CAPSEL k) ≠ 0 → s.fld (F.TMR_CTRL_CAPSEL k) ≠ 3 →
      s.fld (F.TMR_CTRL_CAPSEL k) ≠ 4 → s.sys.xoRun = true → (s.fld (F.TMR_CTRL_EDGE k)).testBit (if rising = true then 0 else 1) = true →
      s.draw 3 = (e, t) →
      (∀ u, u = t.tmrSettle k → u.timers[k].held = none →
        exec (.timerCapture k ⟨rising, false⟩) s = .next (u.tmrLand k ((s.hft + 2 ^ 32 - 1 + e) % 2 ^ 32)) ∧
        exec (.timerCapture k ⟨rising, true⟩) s = .next (u.modTimer k (fun x => { x with
          held := some ((s.hft + 2 ^ 32 - 1 + e) % 2 ^ 32), heldAt := u.hft }))) ∧
      (∀ c u, u = t.tmrSettle k → u.timers[k].held ≠ none →
        exec (.timerCapture k ⟨rising, c⟩) s = .next (u.setFlag (F.TMR_STATUS_CAP_OVR k)))) ∧
    (s.timers[k].heldAt < s.hft → s.timers[k].due = none → s.tmrSettle k = s.tmrHeld k) ∧
    (s.timers[k].due = none → s.hft ≤ s.timers[k].heldAt → s.tmrSettle k = s) ∧
    (∀ v e, s.timers[k].held = none → s.timers[k].due = some v → s.timers[k].edgeAt = some e → e + 3 ≤ s.hft →
      s.tmrSettle k = (s.modTimer k (fun x => { x with due := none })).tmrLand k v) ∧
    (∀ e takes, s.timers[k].edgeAt = some e → s.hft < e + 3 →
      s.capPulse k takes = s.modTimer k (fun x => { x with edgeAt := none, due := none })) ∧
    (∀ takes d t, (∀ e, s.timers[k].edgeAt = some e → e + 3 ≤ s.hft) → s.draw 3 = (d, t) →
      s.capPulse k takes = t.modTimer k (fun x => { x with
        edgeAt := some s.hft, due := if takes = true then some ((s.hft + 2 ^ 32 - 1 + d) % 2 ^ 32) else none })) ∧
    (∀ (x : CaptureEdge), s.flag (F.TMR_CTRL_CAP_EN k) = false ∨
      (s.fld (F.TMR_CTRL_EDGE k)).testBit (if x.rising = true then 0 else 1) = false → exec (.timerCapture k x) s = .next s) ∧
    (∀ src rising, (s.capTakes k src rising = true ↔ s.flag (F.TMR_CTRL_CAP_EN k) = true ∧ s.fld (F.TMR_CTRL_CAPSEL k) = src ∧ src ≠ 0 ∧
      s.sys.xoRun = true ∧ (src = 3 ∨ src = 4 ∨ (s.fld (F.TMR_CTRL_EDGE k)).testBit (if rising = true then 0 else 1) = true))) ∧
    (∀ t, (s.tmrHeld k).tmrSettle k = t → exec (.timerCapRead k) s = .next (((((t.modTimer k (fun x => { x with
        readAt := some t.hft })).setReg (A.TMR_CAP_HI k) (half (t.timers[k].cap / 65536)))).setFlag
      (F.TMR_STATUS_CAP_NEW k) false).see (.value (half t.timers[k].cap))))

/-- Quad-SPI (R325 to R331, R343): what each transaction shows, drives on HIO0 to HIO3 and does while HOSTIF answers, a message
written whole or discarded, the head message read out, the queue written within its bounds, and enabling with both areas in
SRAM. -/
def Obligations.QuadSpi : Prop :=
  ∀ (s u : State), u = (if s.sys.vio = true then s.wakeRise 4 else s).drive [] →
    (∀ data frac n, u.hostifLive = false → exec .spiStatus s = .next u ∧ exec (.spiWrite data frac) s = .next u ∧
      exec (.spiRead n) s = .next u ∧ exec .spiBadop s = .next u) ∧
    (∀ n v ws, u.hostifLive = true → u.draw 65536 = (n, v) → ws = List.replicate (n + 1) v.spiWord →
      exec .spiStatus s = .next ((v.spiShow.drive (sent v.quad ws)).see (.octets (wordOctets ws)))) ∧
    (∀ ws, sent false ws = List.replicate 8 none ++ ws.flatMap (fun w => (List.range 16).map (fun i => some (bit (w.getLsbD (15 - i))))) ∧
      sent true ws = List.replicate 10 none ++ ws.flatMap (fun w => [3, 2, 1, 0].map (fun i => some (bits w.toNat (4 * i + 3) (4 * i))))) ∧
    (∀ n, taken false n = List.replicate (16 * n) (some 0) ∧ taken true n = List.replicate (2 + 4 * n) none) ∧
    (∀ data frac v, u.hostifLive = true → u.flag F.HOSTIF_STATUS_IN_FULL = true →
      v = (u.spiShow.drive (sent u.quad [u.spiWord] ++ taken u.quad data.length)).see (.value u.spiWord) →
      exec (.spiWrite data frac) s = .next (v.spiBad F.HOSTIF_STATUS_WRBUSY)) ∧
    (∀ data frac v len, u.hostifLive = true → u.flag F.HOSTIF_STATUS_IN_FULL = false →
      v = (u.spiShow.drive (sent u.quad [u.spiWord] ++ taken u.quad data.length)).see (.value u.spiWord) →
      len = wordAt data 0 % 2048 → len < 4 ∨ 1088 < len ∨ data.length ≠ len ∨ frac = true →
      exec (.spiWrite data frac) s = .next ((v.spiBad F.HOSTIF_STATUS_BADFRM).modChan 0 (fun c => { c with
        discarded := c.discarded + 1 }))) ∧
    (∀ data v len, u.hostifLive = true → u.flag F.HOSTIF_STATUS_IN_FULL = false →
      v = (u.spiShow.drive (sent u.quad [u.spiWord] ++ taken u.quad data.length)).see (.value u.spiWord) →
      len = wordAt data 0 % 2048 → 4 ≤ len → len ≤ 1088 → data.length = len →
      exec (.spiWrite data false) s = .next (((((v.setSramWords (v.latAddr A.HOSTIF_IN_BASE_LO) data).setFld F.HOSTIF_IN_LEN_LEN
        len).raiseEvt F.HOSTIF_STATUS_IN_FULL 16).count A.HOSTIF_CNT_WRITE).adsinDeliver 0 data)) ∧
    (∀ n ws out v, u.hostifLive = true → ws = u.sramWords u.oqHead u.outLen →
      out = u.spiWord :: (ws.take n ++ List.replicate (n - u.outLen) 0) →
      v = (u.spiShow.drive (sent u.quad out)).see (.octets (wordOctets out)) →
      exec (.spiRead n) s = .next (if u.outLen ≠ 0 ∧ u.outLen ≤ n then v.oqDone ws else v)) ∧
    (u.hostifLive = true → exec .spiBadop s = .next ((u.spiBad F.HOSTIF_STATUS_BADOP).drive (List.replicate 8 none))) ∧
    (∃ t, exec .hostifInRelease s = .next t ∧ t.flag F.HOSTIF_STATUS_IN_FULL = false ∧ SameRegs s t [A.HOSTIF_STATUS] ∧ SameMemory s t ∧
      ∀ i, i ≠ 0 → (t.reg A.HOSTIF_STATUS).getLsbD i = (s.reg A.HOSTIF_STATUS).getLsbD i) ∧
    (s.hrdy = true → s.oqCount ≠ 0 → s.sys.shown = false →
      exec .hrdyNotch s = .next (s.modSys (fun y => { y with notch := true, shown := true }))) ∧
    (exec .hrdyNotchEnd s = .next (s.modSys (fun y => { y with notch := false }))) ∧
    (∀ (w : Half) d, d = (w.toNat % 32 + 32 - s.fld F.HOSTIF_OQ_RD_INDEX) % 32 → 16 < d →
      exec (.hostifQueueWrite w) s = .next (s.raiseEvt F.HOSTIF_STATUS_Q_ERR 16)) ∧
    (∀ (w : Half) d v, d = (w.toNat % 32 + 32 - s.fld F.HOSTIF_OQ_RD_INDEX) % 32 → d ≤ 16 →
      v = (if s.oqCount = 0 then (s.setFld F.HOSTIF_OQ_WR_INDEX (w.toNat % 32)).modSys (fun y => { y with shown := false })
        else s.setFld F.HOSTIF_OQ_WR_INDEX (w.toNat % 32)) →
      exec (.hostifQueueWrite w) s = .next (if v.flag F.HOSTIF_CTRL_EN = true then State.oqClean 32 v else v)) ∧
    (∀ (w : Half) v, v = s.plainWrite A.HOSTIF_CTRL (w ||| 1) → s.flag F.HOSTIF_CTRL_EN = false → v.hostifCfgOk = true →
      exec (.hostifEnable w) s = .next ((((((v.latch [A.HOSTIF_IN_BASE_LO, A.HOSTIF_IN_BASE_HI, A.HOSTIF_OQ_BASE_LO,
        A.HOSTIF_OQ_BASE_HI]).commit [A.HOSTIF_CTRL]).setReg A.HOSTIF_OQ_WR 0).setReg A.HOSTIF_OQ_RD 0).setFlag
          F.HOSTIF_STATUS_IN_FULL false).modSys (fun y => { y with shown := false }))) ∧
    (∀ (w : Half) v, v = s.plainWrite A.HOSTIF_CTRL (w ||| 1) → s.flag F.HOSTIF_CTRL_EN = false → v.hostifCfgOk = false →
      exec (.hostifEnable w) s = .next ((v.setFlag F.HOSTIF_CTRL_EN false).raiseEvt F.HOSTIF_STATUS_CFG_ERR 16)) ∧
    (∀ w, exec (.hostifDisable w) s = .next (s.plainWrite A.HOSTIF_CTRL (w &&& 0xFFFE)))

/-- UART0 (R288, R332), the reset of a mailbox channel (R333) and the host I/O supply (R280): a frame delivered when its CRC
passes, else discarded, the receiver that searches for 0xA5 0x5A and then takes the length of word 0, octets queued up to
64, a channel reset where OVF or a length shows that its framing is lost, and what each loss leaves. That an octet without a
stop bit is not kept is the model's choice (DESIGN CHOICE, log entry 52), and so is that a 0xA5 alone, dropped for a gap or
an overrun, counts as a frame discarded (DESIGN CHOICE, log entry 107). -/
def Obligations.UartAndChannels : Prop :=
  ∀ (s : State),
    (∀ l len v, s.uartLive = true → len = beNat (slice l 0 2) % 2048 → v = s.modUart (fun u => { u with
        a5 := false, inFrame := false, frame := [] }) →
      4 ≤ len → len ≤ 1088 → l.length = 2 * len + 2 → beNat (l.drop (2 * len)) = crc16 0xFFFF (l.take (2 * len)) →
      exec (.uartFrame l) s = .next (v.adsinDeliver 1 (packWords (l.take (2 * len))))) ∧
    (∀ l len v, s.uartLive = true → len = beNat (slice l 0 2) % 2048 → v = s.modUart (fun u => { u with
        a5 := false, inFrame := false, frame := [] }) →
      ¬(4 ≤ len ∧ len ≤ 1088 ∧ l.length = 2 * len + 2 ∧ beNat (l.drop (2 * len)) = crc16 0xFFFF (l.take (2 * len))) →
      exec (.uartFrame l) s = .next (v.modChan 1 (fun c => { c with discarded := c.discarded + 1 }))) ∧
    (s.uart.inFrame = true ∨ s.uart.a5 = true → exec .uartGapTimeout s = .next ((s.modUart (fun u => { u with
        a5 := false, inFrame := false, frame := [] })).modChan 1 (fun c => { c with discarded := c.discarded + 1 }))) ∧
    (s.uart.inFrame = false → s.uart.a5 = false → exec .uartGapTimeout s = .next s) ∧
    (∀ b, s.uart.inFrame = false → s.uartTake b = s.modUart (fun u => { u with
      inFrame := u.a5 && b == 0x5A, a5 := b == 0xA5, frame := [] })) ∧
    (∀ b l n, s.uart.inFrame = true → l = s.uart.frame ++ [b] → n = beNat (slice l 0 2) % 2048 →
      (l.length = 2 → n < 4 ∨ 1088 < n → s.uartTake b = s.uartDiscard) ∧
      (2 < l.length → l.length = 2 * n + 2 → s.uartTake b = s.uartWhole l) ∧
      (l.length = 1 ∨ (l.length = 2 ∧ 4 ≤ n ∧ n ≤ 1088) ∨ (2 < l.length ∧ l.length ≠ 2 * n + 2) →
        s.uartTake b = s.modUart (fun u => { u with frame := l, a5 := false }))) ∧
    (∀ (w : Half), s.uart.tx.length < 64 → exec (.uartDataWrite w) s = .next (s.modUart (fun u => { u with
      tx := u.tx ++ [byte w.toNat] }))) ∧
    (∀ (w : Half), 64 ≤ s.uart.tx.length → exec (.uartDataWrite w) s = .next s) ∧
    (∀ b l, s.uart.rx = b :: l →
      exec .uartDataRead s = .next (((s.modUart (fun u => { u with rx := l })).uartBaud).see (.value (half b.toNat)))) ∧
    (s.uart.rx = [] → exec .uartDataRead s = .next (s.see (.value 0))) ∧
    (∀ b ferr, s.uartLive = false → exec (.uartOctetReceived b ferr) s = .next (s.wakeRise 5)) ∧
    (∀ b v, s.uartLive = true → v = s.wakeRise 5 →
      exec (.uartOctetReceived b true) s = .next (v.raiseEvt F.UART0_STATUS_FERR 17) ∧
      (64 ≤ v.uart.rx.length →
        exec (.uartOctetReceived b false) s = .next ((v.raiseEvt F.UART0_STATUS_OVR 17).uartDiscard)) ∧
      (v.uart.rx.length < 64 → v.uart.rx ≠ [] → exec (.uartOctetReceived b false) s = .next ((v.modUart (fun u => { u with
        rx := u.rx ++ [b] })).uartTake b)) ∧
      (v.uart.rx = [] → v.flag F.UART0_CTRL_RXIE = true → exec (.uartOctetReceived b false) s = .next (((v.modUart (fun u => { u with
        rx := u.rx ++ [b] })).raise 17).uartTake b))) ∧
    (s.uartLive = true → exec .uartOctetSent s = .next (s.modUart (fun u => { u with tx := u.tx.drop 1 })).uartBaud) ∧
    (∀ (k : Fin 4) w l, s.flag (F.MB_STATUS_OVF k.val) = true ∨ (s.adsin.chans[(⟨2 + k.val, by omega⟩ : Fin 6)].part = [] ∧
        s.mbox.toList.getD k.val [] = w :: l ∧ (w.toNat % 2048 < 4 ∨ 1088 < w.toNat % 2048)) →
      s.chanBad ⟨2 + k.val, by omega⟩ = true) ∧
    (∀ (k : Fin 4), s.chanBad ⟨2 + k.val, by omega⟩ = false → exec (.channelReset k) s = .next s) ∧
    (∀ (k : Fin 4) t, s.sys.fwRun = true → s.coresRun = true → s.chanBad ⟨2 + k.val, by omega⟩ = true →
      t = ({ s with mbox := vset s.mbox k.val [] }.setFlag (F.MB_STATUS_OVF k.val) false).modChan ⟨2 + k.val, by omega⟩ (fun c => { c with
        version := none, outstanding := [], outq := c.dropEvents, part := [] }) →
      exec (.channelReset k) s = .next (t.event [⟨2 + k.val, by omega⟩] 0 0x82 [])) ∧
    (exec .vioLoss s = .next ((s.modSys (fun y => { y with vio := false })).modUart (fun u => { u with
      a5 := false, inFrame := false, frame := [] }))) ∧
    (exec .vioReturn s = .next (s.modSys (fun y => { y with vio := true })))

/-- Adsin requests (R335, R336, R340): the class and command of each row; where nothing answers a request is lost; the first
check that fails gives the status, from BADHDR to BADLEN; one behind a request that waits for a block waits too (DESIGN
CHOICE, log entry 62), and so does one within a cutover (R388); any other gets the answer of its command. -/
def Obligations.AdsinRequestOrder : Prop :=
  ∀ (s : State) (k : Fin 6) (h : AdsinHdr) (cls cmd : Nat) (p : List Half) (act : State → Answer × State),
    (∀ i, adsinRow i = some (k, h, cls, cmd, p) → ∃ f, ∀ t, exec i t = .next (t.adsinReq k h cls cmd p f)) ∧
    (s.adsinUp k = false → s.adsinReq k h cls cmd p act = s) ∧
    (∀ st, s.adsinUp k = true → s.adsinCheck k h cls cmd p = some st → st ≠ stBusy →
      s.adsinReq k h cls cmd p act = answered (counted s k) k h cls cmd p (.no st)) ∧
    (s.adsinUp k = true → s.adsinCheck k h cls cmd p = some stBusy →
      s.adsinReq k h cls cmd p act = answered ((counted s k).modChan k (fun c => { c with busy := c.busy + 1 })) k h cls cmd p (.no stBusy)) ∧
    (s.adsinUp k = true → s.adsinCheck k h cls cmd p = none →
      s.cutover = true ∨ s.adsin.chans[k].outstanding.any (·.held.isSome) = true →
      s.adsinReq k h cls cmd p act = answered (counted s k) k h cls cmd p .held) ∧
    (Taken s k h cls cmd p → s.adsinReq k h cls cmd p act = answered (act (counted s k)).2 k h cls cmd p (act (counted s k)).1) ∧
    (¬AdsinHdrOk h → s.adsinCheck k h cls cmd p = some stBadHdr) ∧
    (AdsinHdrOk h → 8 ≤ s.adsin.chans[k].outstanding.length → s.adsinCheck k h cls cmd p = some stBusy) ∧
    (AdsinHdrOk h → s.adsin.chans[k].outstanding.length < 8 →
      (s.adsin.chans[k].version = none → ¬(cls = 0 ∧ cmd = 1) → s.adsinCheck k h cls cmd p = some stNoHello) ∧
      (∀ v, s.adsin.chans[k].version = some v →
        (0xB < cls → s.adsinCheck k h cls cmd p = some stBadClass) ∧
        (cls ≤ 0xB → adsinSince cls cmd = none → s.adsinCheck k h cls cmd p = some stBadCmd) ∧
        (∀ since, cls ≤ 0xB → adsinSince cls cmd = some since → v < since → s.adsinCheck k h cls cmd p = some stBadCmd))) ∧
    (AdsinKnown s k h cls cmd →
      (2 ≤ k.val → appMay cls cmd = false → s.adsinCheck k h cls cmd p = some stDenied) ∧
      (k.val < 2 ∨ appMay cls cmd = true →
        (s.adsinState cls cmd = false ∨ s.cmdState cls cmd = false → s.adsinCheck k h cls cmd p = some stState) ∧
        (s.adsinState cls cmd = true → s.cmdState cls cmd = true →
          s.adsinCheck k h cls cmd p = if adsinLen cls cmd p = true then none else some stBadLen))) ∧
    (appMay cls cmd = true ↔ (cls = 0 ∧ 1 ≤ cmd ∧ cmd ≤ 4) ∨ (cls = 2 ∧ cmd = 1) ∨ (cls = 3 ∧ cmd = 5) ∨ (cls = 6 ∧ cmd = 11) ∨
      (cls = 11 ∧ cmd = 2)) ∧
    (adsinSince cls cmd ≠ none →
      (s.sys.romSys = true → (s.adsinState cls cmd = true ↔ cls = 0 ∧ cmd ∈ [1, 2, 3])) ∧
      (s.sys.romSys = false → s.sys.recovery = true →
        (s.adsinState cls cmd = true ↔ (cls = 0 ∧ cmd ∈ [1, 2, 3, 5]) ∨ (cls = 10 ∧ cmd ∈ [1, 2, 3, 5]))) ∧
      (s.sys.romSys = false → s.sys.recovery = false → s.storeLc = 3 ∨ s.flag F.KEYS_STATUS_KS_LOST = true →
        (s.adsinState cls cmd = true ↔ ¬(cls = 6 ∧ cmd ∈ [1, 2, 3, 5, 11])))) ∧
    (s.sys.romSys = false → s.sys.recovery = false → s.storeLc ≠ 3 → s.flag F.KEYS_STATUS_KS_LOST = false → s.adsinState cls cmd = true) ∧
    (∀ v st d w, ∃ r : Request, r = { cls := cls, cmd := cmd, seq := h.seq } ∧
      r.settle p (.done st d w) = { r with resp := some (half (4 + w.length) :: half (cls * 4096 + 1024 + cmd) :: h.seq ::
        half (d * 256 + st) :: w) } ∧ r.settle p (.wait v w) = { r with wait := v, first := w } ∧
      r.settle p .held = { r with held := some p })

/-- SYS, PWR and TIME (R260, R339, R341): what each request answers and what it does, for a request that its channel takes and
whose words are in range. The model's own choices: the rounding of the sum that `State.noteAdmitted` writes (DESIGN CHOICE,
log entry 103); the low word first in the set version of SYS INFO, the timer of PWR SLEEP and every count of more than one
word, and the EUI in the order of its registers (DESIGN CHOICE, log entry 14); that the counts of SYS STATS wrap at 16 bits
(DESIGN CHOICE, log entry 86). -/
def Obligations.AdsinSystemClasses : Prop :=
  ∀ (s u : State) (k : Fin 6) (h : AdsinHdr) (p : List Half), u = counted s k →
    (∀ v, Taken s k h 0 1 p → v = min (wordAt p 1) 0x0204 → max (wordAt p 0) 0x0200 ≤ v → wordAt p 0 ≤ wordAt p 1 →
      ∃ fw : List Half, fw.length = 2 ∧
      exec (.sysHello k h p) s = .next (answered ((if k = 0 then u.spiTakeBack else u).modChan k (fun c => { c with
        version := some v, mask := evtAllowed (isHost k), evtSeq := 0, outq := c.dropEvents })) k h 0 1 p
          (.ok ([half v, 0x0200, 0x0204, u.reg A.ID_PART, u.reg A.ID_STEP, u.reg A.ID_LIFECYCLE, 1088, half k.val] ++ fw)))) ∧
    (∀ v, Taken s k h 0 1 p → v = min (wordAt p 1) 0x0204 → ¬(max (wordAt p 0) 0x0200 ≤ v ∧ wordAt p 0 ≤ wordAt p 1) →
      exec (.sysHello k h p) s = .next (answered (u.modChan k (fun c => { c with version := none })) k h 0 1 p
        (.done stVersion 0 [0x0200, 0x0204]))) ∧
    (Taken s k h 0 2 p → exec (.sysPing k h p) s = .next (answered u k h 0 2 p (.ok p))) ∧
    (∀ v, Taken s k h 0 3 p → u.bootRec.conf ≠ 0 → v = (u.manifest (u.bootRec.conf - 1)).version →
      exec (.sysInfo k h p) s = .next (answered u k h 0 3 p (.ok ((List.range 4).map (fun i => u.reg (A.ID_EUI i)) ++
        [u.reg A.ID_CAPS0, u.reg A.ID_CAPS1, u.reg A.ID_ROMVER, u.reg A.ID_GRADE, half v, half (v / 65536)])))) ∧
    (∀ m, Taken s k h 0 4 p → m = List.zipWith (· &&& ·) p (evtAllowed (isHost k)) →
      exec (.sysEvtMask k h p) s = .next (answered (u.modChan k (fun c => { c with mask := m })) k h 0 4 p (.ok m))) ∧
    (Taken s k h 0 5 p → wordAt p 0 = 0x5A3C → exec (.sysReset k h p) s = .next (answered u k h 0 5 p (.leave .reset))) ∧
    (Taken s k h 0 5 p → wordAt p 0 ≠ 0x5A3C → exec (.sysReset k h p) s = .next (answered u k h 0 5 p (.no stBadArg))) ∧
    (∀ c, Taken s k h 0 6 p → c = u.adsin.chans[k] → exec (.sysStats k h p) s = .next (answered u k h 0 6 p
      (.ok [half c.requests, half c.busy, half c.dropped, half c.discarded]))) ∧
    (∀ t r, Taken s k h 1 1 p → wordAt p 0 ≤ 3 → t = u.noteAdmitted.plReqWrite (wordAt p 0) → r = t.fld F.PMU_PL_STAT_RESULT →
      exec (.pwrPlSet k h p) s = .next (
        if t.sys.plChange.isSome = true then answered t k h 1 1 p (.no stFail r)
        else if t.sys.plPend.isNone = true then answered (t.complete .plSet stFail r []) k h 1 1 p (.no stFail r)
        else answered t k h 1 1 p (.until .plSet))) ∧
    (∀ t, Taken s k h 1 2 p → t = u.noteAdmitted → exec (.pwrPlGet k h p) s = .next (answered t k h 1 2 p
      (.ok [t.reg A.PMU_PL, t.reg A.SYSCTL_ADMIT, t.reg A.SYSCTL_ADMIT_CAP]))) ∧
    (Taken s k h 1 3 p → 1 ≤ wordAt p 0 → wordAt p 0 ≤ 3 → regFits A.PMU_WAKE_EN (p.getD 1 0) = true → u.sleepWhy = none →
      exec (.pwrSleep k h p) s = .next (answered u k h 1 3 p (.leave (.sleep (p.getD 1 0) (wordAt p 2 + 65536 * wordAt p 3) (wordAt p 0))))) ∧
    (Taken s k h 1 4 p → regFits A.PLINTH_MAINS (p.getD 0 0) = true →
      exec (.pwrMains k h p) s = .next (answered (u.fwWrite [(A.PLINTH_MAINS, p.getD 0 0)]) k h 1 4 p .ok)) ∧
    (Taken s k h 2 1 p → exec (.timeGet k h p) s = .next (answered u k h 2 1 p
      (.ok (u.rtcLow ++ [half (u.fld F.PLINTH_EVT_OSC_STOP)] ++ asnWords u.asn ++ [u.reg A.COURSE_SLOT])))) ∧
    (Taken s k h 2 2 p → exec (.timeSet k h p) s = .next (answered (u.fwWrite ([A.RTC_SET_0, A.RTC_SET_1, A.RTC_SET_2].zip p)) k h 2 2 p .ok)) ∧
    (Taken s k h 2 3 p → wordAt p 0 = 1 ∨ wordAt p 0 = 2 → exec (.timeShift k h p) s = .next (answered
      (u.fwWrite [(A.RTC_CMD, half (0xB400 + wordAt p 0))]) k h 2 3 p
        (if u.flag F.PLINTH_STATUS_SHIFT_PEND = true then .no stFail else .until .timeShift))) ∧
    (∀ w t v x, Taken s k h 2 4 p → w = p.getD 0 0 → w &&& 0x80FF = 0 → regFits A.PLINTH_CTRL w = true →
      t = u.fwWrite [(A.PLINTH_CTRL, (u.reg A.PLINTH_CTRL &&& 0x8000) ||| w), (A.RTC_TRIM, p.getD 1 0)] →
      t.fwRead [A.TRIM_MEAS_LO, A.TRIM_MEAS_HI] = (v, x) → exec (.timeTrim k h p) s = .next (answered x k h 2 4 p (.ok v))) ∧
    (∀ t, Taken s k h 2 5 p → wordAt p 3 ≤ 1 → t = u.fwWrite ([A.RTC_ALM_0, A.RTC_ALM_1, A.RTC_ALM_2].zip p) →
      exec (.timeAlarm k h p) s = .next (answered (t.fwWrite [(A.PLINTH_CTRL, (t.reg A.PLINTH_CTRL &&& 0x7FFF) |||
        half (wordAt p 3 * 32768))]) k h 2 5 p .ok))

/-- RADIO, COURSE and ASHLAR (R341): what each request answers and what it does, for a request that its channel takes and whose
words are in range. A recording, and a plan, that would take the guaranteed requesters over the admissible sum is refused
(R260); the status FULL and the rounding are the model's choice (log entry 103), and so are that a SEND waits until the plan
of its course is made (log entry 63), which four words of a group REC_READ gives (log entry 64), the low word first in the
ASN of SEND and the first group of REC_READ (DESIGN CHOICE, log entry 14), and DC_CTRL last of what DUTY writes (DESIGN
CHOICE, log entry 13). -/
def Obligations.AdsinRadioClasses : Prop :=
  ∀ (s u : State) (k : Fin 6) (h : AdsinHdr) (p : List Half), u = counted s k →
    (∀ b ctrl l, Taken s k h 3 1 p → bandAt p = some b → ctrl = (F.RFE_CTRL_AGC_MODE b).put (u.reg (A.RFE_CTRL b)) (wordAt p 2) →
      (F.RFE_CTRL_AGC_MODE b).of ctrl = wordAt p 2 →
      l = [(A.RFE_CTRL b, ctrl), (A.RFE_SPAN b, p.getD 1 0), (A.RFE_GAIN b, p.getD 3 0), (A.RFE_AGC_TOP b, p.getD 4 0),
        (A.RFE_TX_TOTAL b, p.getD 5 0), (A.RFE_TX_NMAX b, p.getD 6 0)] → allFit l = true →
      exec (.radioFeCfg k h p) s = .next (answered (u.fwWrite l) k h 3 1 p (.ok [(u.fwWrite l).reg (A.RFE_TX_CARRIER b)]))) ∧
    (∀ b w t, Taken s k h 3 2 p → bandAt p = some b → w = p.getD 1 0 → wordAt p 1 < 4 →
      t = u.fwWrite [(A.RFE_CTRL b, (F.RFE_CTRL_EN b).put ((F.RFE_CTRL_TX_EN b).put (u.reg (A.RFE_CTRL b)) (bit (w.getLsbD 1)))
        (bit (w.getLsbD 0)))] →
      exec (.radioFeEn k h p) s = .next (
        if w.getLsbD 0 = false then answered (t.complete (.feEn b) stOk 0 [t.reg (A.RFE_STATUS b)]) k h 3 2 p (.ok [t.reg (A.RFE_STATUS b)])
        else if t.flag (F.RFE_STATUS_READY b) = true then answered t k h 3 2 p (.ok [t.reg (A.RFE_STATUS b)])
        else answered t k h 3 2 p (.until (.feEn b)))) ∧
    (∀ b, Taken s k h 3 3 p → bandAt p = some b → regFits (A.RFE_CAL_CMD b) (p.getD 1 0) = true →
      exec (.radioCal k h p) s = .next (answered (u.fwWrite [(A.RFE_CAL_CMD b, p.getD 1 0)]) k h 3 3 p (.no stAccepted))) ∧
    (Taken s k h 3 4 p → wordAt p 0 ≤ 4095 ∨ wordAt p 0 = 0xFFFF → wordAt p 1 ≤ 7 → wordAt p 2 ≤ 1 →
      exec (.radioRoute k h p) s = .next (answered (u.modAdsin (fun a => { a with
        routes := sparseSet (fun _ => (0, false)) a.routes (wordAt p 0) (wordAt p 1, wordAt p 2 == 1) })) k h 3 4 p .ok)) ∧
    (∀ asn a e, Taken s k h 3 5 p → asn = wordAt p 3 + 65536 * wordAt p 4 + 2 ^ 32 * wordAt p 5 → asn < 2 ^ 40 → wordAt p 6 ≠ 0 →
      wordAt p 6 + fcsLen (txFcs32 (p.getD 0 0)) ≤ maxPsdu (bits (wordAt p 0) 12 8) → u.sendBad 0 (p.take 3) = false →
      u.sendPlace asn = some (a, e) → exec (.radioSend k h p) s = .next (answered (u.modAdsin (fun q => { q with
        later := q.later ++ [(a, e, p.take 3, (wordOctets (p.drop 7)).take (wordAt p 6))], sent := q.sent ++ [⟨a, e, k.val⟩] })) k h 3 5 p
          (.done stAccepted 0 (asnWords a ++ [half e])))) ∧
    (∀ n v t, Taken s k h 3 6 p → n = wordAt p 0 → n ≤ 63 → u.fwRead [A.LANE_PHYS n, A.LANE_ST0 n, A.LANE_CNT_OK n, A.LANE_CNT_FCS n,
      A.LANE_CNT_HDR n, A.LANE_CNT_SYNC n, A.LANE_CNT_DEFER n] = (v, t) →
      exec (.radioLaneStats k h p) s = .next (answered t k h 3 6 p (.ok v))) ∧
    (∀ l bad t, Taken s k h 3 7 p → l = [A.REC_SRC, A.REC_TRIG, A.REC_PRE, A.REC_POST].zip p → allFit l = true →
      u.errs F.REC_STATUS_CFG_ERR (fun s => s.fwWrite (l ++ [(A.REC_CMD, 1)])) = (bad, t) →
      exec (.radioRecord k h p) s = .next (
        if t.fld F.SYSCTL_ADMIT_CAP_BYTES < t.guaranteed t.planAhead then answered u k h 3 7 p (.no stFull)
        else answered t.noteAdmitted k h 3 7 p (if bad = true then .no stFail 1 else .no stAccepted))) ∧
    (∀ n, Taken s k h 3 8 p → 1 ≤ wordAt p 2 → wordAt p 2 ≤ 256 → n = wordAt p 0 + 65536 * wordAt p 1 →
      n + wordAt p 2 ≤ 32768 + (if u.effFld F.REC_SRC_EXT = 1 then (u.eff A.REC_EXT_LEN).toNat else 0) →
      exec (.radioRecRead k h p) s = .next (answered u k h 3 8 p (.ok ([u.reg A.REC_STATUS, u.reg A.REC_PRE_COUNT, u.reg A.REC_FIRST] ++
        (List.range (wordAt p 2)).flatMap (fun i => (List.range 4).map (fun j =>
          (u.recHeld (n + i)).getD (Config.recWord j % 8) 0)))))) ∧
    (∀ l, Taken s k h 4 1 p → l = [A.COURSE_CFG, A.COURSE_WALL, A.COURSE_T_CCAOFS, A.COURSE_T_CCA, A.COURSE_T_TXOFS, A.COURSE_T_IDLE,
      A.COURSE_T_GUARD, A.COURSE_CCA_THR].zip p → allFit l = true →
      exec (.courseCfg k h p) s = .next (answered (u.fwWrite l) k h 4 1 p .ok)) ∧
    (∀ l bad t, Taken s k h 4 2 p → wordAt p 0 ≤ 1 →
      l = [A.COURSE_START_LO, A.COURSE_START_HI, A.COURSE_ASN_0, A.COURSE_ASN_1, A.COURSE_ASN_2].zip (p.drop 1) → allFit l = true →
      u.errs F.COURSE_STATUS_CFG_REFUSED (fun s => s.fwWrite (l ++ [(A.COURSE_CTRL, half (2 * wordAt p 0 + 1))])) = (bad, t) →
      exec (.courseStart k h p) s = .next (answered t k h 4 2 p (if bad = true then .no stFail else .ok))) ∧
    (∀ t, Taken s k h 4 3 p → t = u.fwWrite [(A.COURSE_CTRL, u.reg A.COURSE_CTRL &&& 0xFFFE)] →
      exec (.courseStop k h p) s = .next (answered t k h 4 3 p (if t.running = true then .until .courseStop else .ok))) ∧
    (∀ l t, Taken s k h 4 4 p → 1 ≤ wordAt p 0 → wordAt p 0 ≤ 64 → l = (List.range (wordAt p 0)).map (laneAt p) → (∀ x ∈ l, x.1 < 64) →
      t = (forEach l u (fun s x => (s.shadowWrite (2 * x.1) x.2.1).shadowWrite (2 * x.1 + 1) x.2.2)).planCommit →
      exec (.courseLanes k h p) s = .next (
        if u.awaited .planCheck = true then answered u k h 4 4 p .held
        else if t.fld F.SYSCTL_ADMIT_CAP_BYTES < t.guaranteed t.planAhead then answered u k h 4 4 p (.no stFull)
        else answered t.noteAdmitted k h 4 4 p (.until .planCheck))) ∧
    (∀ l len t, Taken s k h 4 5 p → l = wordAt p 0 → len = wordAt p 1 % 256 → l ≤ 3 → 1 ≤ len → wordAt p 1 / 256 % 128 = 0 →
      len ≤ 128 → wordAt p 3 < 4 → t = forEach (List.range 4) u (fun s j => s.shadowWrite (0x80 + 4 * l + j) (p.getD (1 + j) 0)) →
      exec (.courseHoplist k h p) s = .next (answered (forEach (List.range ((len + 1) / 2)) t (fun s j =>
        s.shadowWrite (0x100 + 0x40 * l + j) (p.getD (5 + j) 0))) k h 4 5 p .ok)) ∧
    (∀ a l v t, Taken s k h 4 6 p → a = wordAt p 0 → a ≤ 7 → l = [(A.COURSE_DC_LO a, p.getD 2 0), (A.COURSE_DC_HI a, p.getD 3 0),
      (A.COURSE_DC_LIM a, p.getD 4 0), (A.COURSE_DC_CTRL a, p.getD 1 0)] → allFit l = true →
      (u.fwWrite l).fwRead [A.COURSE_DC_USED a] = (v, t) → exec (.courseDuty k h p) s = .next (answered t k h 4 6 p (.ok v))) ∧
    (∀ l, Taken s k h 5 1 p → l = [A.ASHLAR_TSEL, A.ASHLAR_TCFG, A.ASHLAR_TQUOTA, A.ASHLAR_TRATE].zip p → allFit l = true →
      exec (.ashlarTenant k h p) s = .next (answered (u.fwWrite l) k h 5 1 p .ok)) ∧
    (∀ l bad t, Taken s k h 5 2 p → l = [A.ASHLAR_TSEL, A.ASHLAR_TEPOCH].zip p → allFit l = true →
      u.errs F.ASHLAR_EVT_TEPOCH_ERR (fun s => s.fwWrite l) = (bad, t) →
      exec (.ashlarEpoch k h p) s = .next (answered t k h 5 2 p (if bad = true then .no stFail 1 else .ok))) ∧
    (Taken s k h 5 3 p → wordAt p 0 ≤ 15 → exec (.ashlarEntry k h p) s = .next (
      if u.flag F.ASHLAR_STATUS_CMD_BUSY = true then answered u k h 5 3 p .held
      else answered (u.fwWrite (([A.ASHLAR_E_EUI 0, A.ASHLAR_E_EUI 1, A.ASHLAR_E_EUI 2, A.ASHLAR_E_EUI 3, A.ASHLAR_E_W 0,
        A.ASHLAR_E_W 1, A.ASHLAR_E_W 2, A.ASHLAR_E_W 3].zip (p.drop 1)) ++ [(A.ASHLAR_E_CMD, p.getD 0 0)])) k h 5 3 p (.until .entryOp))) ∧
    (Taken s k h 5 4 p → exec (.ashlarRebuild k h p) s = .next (answered (u.fwWrite [(A.ASHLAR_CMD, 1)]) k h 5 4 p (.no stAccepted))) ∧
    (∀ v t, Taken s k h 5 5 p → wordAt p 0 = 0xFFFF → u.fwRead (regRange (A.ASHLAR_CNT 0) 12) = (v, t) →
      exec (.ashlarCounters k h p) s = .next (answered t k h 5 5 p (.ok v))) ∧
    (∀ v t, Taken s k h 5 5 p → wordAt p 0 ≤ 4095 →
      (u.fwWrite [(A.ASHLAR_TSEL, half (wordAt p 0))]).fwRead (regRange A.ASHLAR_TCNT_ENTRIES 5) = (v, t) →
      exec (.ashlarCounters k h p) s = .next (answered t k h 5 5 p (.ok v)))

/-- KEY (R341, R173): what each request asks of KEYS or CRYPTO, for a request that its channel takes and whose words are in
range; one that finds KEYS busy waits, and so does a CIPHER that finds no room in the ring. -/
def Obligations.AdsinKeyClass : Prop :=
  ∀ (s u : State) (k : Fin 6) (h : AdsinHdr) (p : List Half), u = counted s k →
    (∀ a t, Taken s k h 6 1 p → u.keysAsk 1 0 0 (wordOctets p) = (a, t) → exec (.keyImport k h p) s = .next (answered t k h 6 1 p a)) ∧
    (∀ a t, Taken s k h 6 2 p → p.getD 0 0 &&& 0xC0C0 = 0 → u.keysAsk 2 (wordAt p 0) 0 (wordOctets (p.drop 1)) = (a, t) →
      exec (.keyDerive k h p) s = .next (answered t k h 6 2 p a)) ∧
    (∀ a t, Taken s k h 6 3 p → wordAt p 0 ≤ 63 → u.keysAsk 3 (wordAt p 0 * 256) 0 (wordOctets (p.drop 1)) = (a, t) →
      exec (.keyGenerate k h p) s = .next (answered t k h 6 3 p a)) ∧
    (∀ a t, Taken s k h 6 4 p → wordAt p 0 ≤ 63 → u.keysAsk 4 (wordAt p 0) 0 [] = (a, t) →
      exec (.keyDestroy k h p) s = .next (answered t k h 6 4 p a)) ∧
    (∀ a t, Taken s k h 6 5 p → wordAt p 0 ≤ 63 → wordAt p 1 ≤ 4095 → u.keysAsk 5 (wordAt p 0) (wordAt p 1) [] = (a, t) →
      exec (.keyTransfer k h p) s = .next (answered t k h 6 5 p a)) ∧
    (∀ a t, Taken s k h 6 6 p → wordAt p 0 ≤ 4095 → u.keysAsk 6 0 (wordAt p 0) [] = (a, t) →
      exec (.keyDrop k h p) s = .next (answered t k h 6 6 p a)) ∧
    (∀ v t, Taken s k h 6 7 p → wordAt p 0 ≤ 63 →
      (u.fwWrite [(A.KEYS_SEL, p.getD 0 0)]).fwRead (regRange A.KEYS_ATTR0 6) = (v, t) →
      exec (.keyAttr k h p) s = .next (answered t k h 6 7 p (.ok v))) ∧
    (∀ v t, Taken s k h 6 8 p → u.fwRead (regRange (A.KEYS_IDPUB 0) 32 ++ regRange (A.KEYS_LCCERT 0) 32) = (v, t) →
      exec (.keyIdpub k h p) s = .next (answered t k h 6 8 p (.ok v))) ∧
    (∀ a t, Taken s k h 6 9 p → u.keysAsk 7 0 0 [] = (a, t) → exec (.keyLcNonce k h p) s = .next (answered t k h 6 9 p a)) ∧
    (∀ a t, Taken s k h 6 10 p → wordAt p 0 ≤ 7 → u.keysAsk 8 (wordAt p 0) 0 (wordOctets (p.drop 1)) = (a, t) →
      exec (.keyLcChange k h p) s = .next (answered t k h 6 10 p a)) ∧
    (∀ ns nd, Taken s k h 6 11 p → (cipherDesc p).sizes = (ns, nd) → (cipherDesc p).req = 0 →
      (cipherDesc p).len + (cipherDesc p).alen + 16 ≤ 2048 → u.ringRoom = false →
      exec (.keyCipher k h p) s = .next (answered u k h 6 11 p .held)) ∧
    (∀ ns nd src dst t t1 t2 idx t3 t4 r, Taken s k h 6 11 p → (cipherDesc p).sizes = (ns, nd) → (cipherDesc p).req = 0 →
      (cipherDesc p).len + (cipherDesc p).alen + 16 ≤ 2048 → u.ringRoom = true → u.scratch 2080 = (src, t) → t.scratch 2080 = (dst, t1) →
      t2 = t1.sramPut src (slice (wordOctets (p.drop 12)) 0 ns) → idx = t2.regN A.CRYPTO_Q_WR →
      t3 = t2.setSramWords (t2.descAddr idx) ([half ((cipherDesc p).w 0 + 128 * masterOf k), half src, half (src / 65536), half dst,
        half (dst / 65536)] ++ (p.drop 1).take 11 ++ List.replicate 8 0) →
      t4 = t3.fwWrite [(A.CRYPTO_Q_WR, half ((idx + 1) % 32))] → r = t4.sramHalf (t4.descAddr idx + 36) →
      exec (.keyCipher k h p) s = .next (answered t4 k h 6 11 p
        (if r.getLsbD 15 = true then .no stFail (r.toNat % 16) else .until (.crypto idx dst nd)))) ∧
    (∀ op a0 a3 l, u.flag F.KEYS_STATUS_BUSY = true → u.keysAsk op a0 a3 l = (.held, u)) ∧
    (∀ op a0 a3 l a t v, u.flag F.KEYS_STATUS_BUSY = false → u.scratch 256 = (a, t) →
      v = (t.sramPut a l).fwWrite [(A.KEYS_ARG 0, half a0), (A.KEYS_ARG 1, half a), (A.KEYS_ARG 2, half (a / 65536)), (A.KEYS_ARG 3, half a3),
        (A.KEYS_CMD, half op)] → u.keysAsk op a0 a3 l = (if v.keys.lcPhase = .none then .until .keys else .ok, v))

/-- ACCESS, FABRIC and ASSAY (R341, R360, R374): what each request answers and what it does, for a request that its channel
takes and whose words are in range. FABRIC START whose lanes would take the guaranteed requesters over the admissible sum is
refused (R260; FULL is the model's choice, log entry 103); the LQI of a neighbour of which no HELLO was heard is a free
value (log entries 2, 94). The model's own choices beside these: TUNE with a mask of 0 answers at once (DESIGN CHOICE, log
entry 19), and ACCESS_CTRL is the last register that CFG writes (DESIGN CHOICE, log entry 13). -/
def Obligations.AdsinServiceClasses : Prop :=
  ∀ (s u : State) (k : Fin 6) (h : AdsinHdr) (p : List Half), u = counted s k →
    (∀ l, Taken s k h 7 1 p → l = given p 1 ([A.ACCESS_REL, A.ACCESS_LO_CFG, A.ACCESS_PCH] ++ (List.range 4).map (fun i => A.ACCESS_ZONE i) ++
      [A.LF_CTRL] ++ (List.range 4).map (fun i => A.LF_ISET i) ++ [A.PLUMB_LIMIT]) ++ [(A.ACCESS_CTRL, p.getD 0 0)] → allFit l = true →
      exec (.accessCfg k h p) s = .next (answered (u.fwWrite l) k h 7 1 p .ok)) ∧
    (Taken s k h 7 2 p → wordAt p 0 = 0 → wordAt p 1 + wordAt p 2 ≤ 256 →
      exec (.accessTablePut k h p) s = .next (answered (u.setSramWords (tableAddr 0 + 12 * wordAt p 1) (p.drop 3)) k h 7 2 p .ok)) ∧
    (Taken s k h 7 2 p → wordAt p 0 = 1 → wordAt p 1 + wordAt p 2 ≤ 1024 →
      exec (.accessTablePut k h p) s = .next (answered (u.setSramWords (tableAddr 1 + 8 * wordAt p 1) (p.drop 3)) k h 7 2 p .ok)) ∧
    (∀ l, Taken s k h 7 3 p → l = [(A.ACCESS_TOK_N, p.getD 0 0), (A.ACCESS_REV_N, p.getD 1 0)] → allFit l = true →
      u.flag F.ACCESS_STATUS_TBL_BUSY = false → exec (.accessTableLoad k h p) s = .next (answered (u.fwWrite (l ++
        [(A.ACCESS_TOK_BASE_LO, half (tableAddr 0)), (A.ACCESS_TOK_BASE_HI, half (tableAddr 0 / 65536)),
          (A.ACCESS_REV_BASE_LO, half (tableAddr 1)), (A.ACCESS_REV_BASE_HI, half (tableAddr 1 / 65536)), (A.ACCESS_TBL_CMD, 1)]))
            k h 7 3 p (.until .tblLoad))) ∧
    (∀ v t, Taken s k h 7 4 p → u.fwRead (A.ACCESS_STATUS :: (regRange A.PLINTH_LO_STATE 7 ++ regRange A.ACCESS_LAST_VERDICT 7)) = (v, t) →
      exec (.accessStatus k h p) s = .next (answered t k h 7 4 p (.ok v))) ∧
    (Taken s k h 7 5 p → regFits A.LF_CMD (p.getD 0 0) = true → u.access.tuning = 0 → u.access.tuneReq = 0 →
      (p.getD 0 0 = 0 → exec (.accessTune k h p) s = .next (answered u k h 7 5 p
        (.ok (u.reg A.LF_STATUS :: (List.range 4).map (fun n => u.reg (A.LF_TUNE n)))))) ∧
      (p.getD 0 0 ≠ 0 → exec (.accessTune k h p) s = .next (answered (u.fwWrite [(A.LF_CMD, p.getD 0 0)]) k h 7 5 p (.until .tune)))) ∧
    (Taken s k h 7 6 p → regFits A.PLUMB_CAL_BOARD (p.getD 0 0) = true →
      exec (.accessPlumbCal k h p) s = .next (answered (u.fwWrite [(A.PLUMB_CAL_BOARD, p.getD 0 0)]) k h 7 6 p .ok)) ∧
    (Taken s k h 8 1 p → fabricFits p = true →
      exec (.fabricCfg k h p) s = .next (answered (u.modFabric (fun f => { f with cfg := p })) k h 8 1 p .ok)) ∧
    (Taken s k h 8 2 p → exec (.fabricStart k h p) s = .next (answered u k h 8 2 p
      (.no (if u.fabAdmits = true then stAccepted else stFull)))) ∧
    (Taken s k h 8 3 p → exec (.fabricStop k h p) s = .next (answered u k h 8 3 p .ok)) ∧
    (∀ v t, Taken s k h 8 4 p → u.fabStatus = (v, t) → exec (.fabricStatus k h p) s = .next (answered t k h 8 4 p (.ok v))) ∧
    (∀ l o t, Taken s k h 8 5 p → 1 ≤ wordAt p 1 → wordAt p 1 ≤ 32 → l = (u.nbrsNow.drop (wordAt p 0)).take (wordAt p 1) →
      u.drawOctets l.length = (o, t) → exec (.fabricNeighbours k h p) s =
        .next (answered t k h 8 5 p (.ok (half l.length :: (l.zip o).flatMap (fun x => x.1.words x.2))))) ∧
    (∀ q t, Taken s k h 8 6 p → u.fabric.queue.length < 64 → u.fabSeq = (q, t) →
      exec (.fabricSend k h p) s = .next (answered t k h 8 6 p (.done stAccepted 0 [half q]))) ∧
    (Taken s k h 8 6 p → 64 ≤ u.fabric.queue.length → exec (.fabricSend k h p) s = .next (answered u k h 8 6 p (.no stFull))) ∧
    (∀ l, Taken s k h 8 7 p → 1 ≤ wordAt p 1 → wordAt p 1 ≤ 256 → l = (u.fabric.routes.drop (wordAt p 0)).take (wordAt p 1) →
      exec (.fabricRoutes k h p) s = .next (answered u k h 8 7 p
        (.ok (half l.length :: l.flatMap (fun r => [half r.dest, half (u.fabric.addrOf r.hop)]))))) ∧
    (Taken s k h 9 1 p → wordAt p 0 ≤ 255 → wordAt p 1 ≤ 127 → u.assay.queue.length < 8 →
      exec (.assayRun k h p) s = .next (answered (u.fwWrite [(A.ASSAY_CMD, assayWord (wordAt p 0) (wordAt p 1))]) k h 9 1 p (.no stAccepted))) ∧
    (∀ c : Sched, Taken s k h 9 2 p → sliceBudget (wordAt p 0) ≠ none →
      (wordAt p 6 = 0 → c = {}) → (wordAt p 6 ≠ 0 → c = { mask := (p.drop 1).take 5, period := wordAt p 6 }) →
      exec (.assaySchedule k h p) s = .next (answered (u.modAdsin (fun a => { a with
        schedules := sparseSet (fun _ => {}) a.schedules (wordAt p 0) c })) k h 9 2 p .ok)) ∧
    (∀ n f o t, Taken s k h 9 3 p → sliceBudget (wordAt p 0) ≠ none →
      sparseGet (fun _ => (0, 0, 0, 0)) u.adsin.sliceStats (wordAt p 0) = (n, f, o, t) →
      exec (.assayResults k h p) s = .next (answered u k h 9 3 p (.ok [half n, half f, half o, half t])))

/-- UPDATE and LOG (R341, R269, R381, R382): what each request answers and what it does, for a request that its channel takes
while NVMC has nothing of firmware's to do and whose words are in range. BEGIN clears PREV first where it names the slot,
and ABORT clears PEND; each goes on when NVMC has ended that write. How many records LOG READ gives (log entry 67), what
ABORT does beside R381 (log entry 66), the low word first in an image length, an offset, a version and a segment sequence
(DESIGN CHOICE, log entry 14), the version words of a slot without a verified image (DESIGN CHOICE, log entry 17) and where
firmware puts its words (a free value, log entry 2) are the model's choices. -/
def Obligations.AdsinUpdateClasses : Prop :=
  (∀ (v w x : State) (fails : Fin 3) (i : Fin 2) (r : Nat), v.nvTurn .firmware = true → v.nvm.cmd.isSome = true → w = v.nvmcDone fails →
    x = w.modUpdate (fun u => { u with inCfg := none }) → r = w.fld F.NVMC_STATUS_RESULT →
    (w.update.inCfg = some (.erase i) → exec (.nvmcCmdDone fails) v = .next (if r = nvDone then (x.setSlotState (i.val + 1)
      ssStaging).fwWrite [(A.NVMC_ARG 0, half i.val), (A.NVMC_CMD, 5)] else x.complete .nvmc stFail r [])) ∧
    (w.update.inCfg = some (.pending i) → exec (.nvmcCmdDone fails) v = .next (if r = nvDone then (x.setSlotState (i.val + 1)
      ssPending).activated upOk else x.activated upRecord)) ∧
    (w.update.inCfg = some (.withdrawn i) → exec (.nvmcCmdDone fails) v = .next (if r = nvDone then (x.setSlotState (i.val + 1)
      ssVerified).complete .nvmc stOk 0 [] else x.complete .nvmc stFail r []))) ∧
  ∀ (s u : State) (k : Fin 6) (h : AdsinHdr) (p : List Half), u = counted s k → u.nvmcTaken = false →
    (∀ n (i : Fin 2) t, Taken s k h 10 1 p → n = wordAt p 0 + 65536 * wordAt p 1 → n ≤ 655360 →
      i = (if u.bootRec.conf = 1 then 1 else 0) → t = u.modUpdate (fun u => { u with imgWords := n, staging := i }) →
      (u.bootRec.prev ≠ i.val + 1 → exec (.updateBegin k h p) s = .next (answered ((t.setSlotState (i.val + 1) ssStaging).fwWrite
        [(A.NVMC_ARG 0, half i.val), (A.NVMC_CMD, 5)]) k h 10 1 p (.until .nvmc [half i.val, 1024]))) ∧
      (u.bootRec.prev = i.val + 1 → exec (.updateBegin k h p) s = .next (answered ((t.cfgPush ({ u.bootRec with
        prev := 0 } : BootRec).payload (.erase i)).cfgPump) k h 10 1 p (.until .nvmc [half i.val, 1024])))) ∧
    (Taken s k h 10 1 p → 655360 < wordAt p 0 + 65536 * wordAt p 1 →
      exec (.updateBegin k h p) s = .next (answered u k h 10 1 p (.no stBadArg))) ∧
    (∀ off d, Taken s k h 10 2 p → off = wordAt p 0 + 65536 * wordAt p 1 → off + (p.drop 2).length ≤ u.update.imgWords →
      d = (slotPlace u.update.staging).1 + 2 * off →
      exec (.updateChunk k h p) s = .next (answered ((u.setSlotState (u.update.staging.val + 1) ssStaging).nvmcAsk 4 d (d / 65536)
        (p.drop 2)) k h 10 2 p (.until .nvmc))) ∧
    (Taken s k h 10 3 p → exec (.updateVerify k h p) s = .next (answered u k h 10 3 p (.no stAccepted))) ∧
    (Taken s k h 10 4 p → wordAt p 0 ≤ 1 → exec (.updateActivate k h p) s = .next (answered u k h 10 4 p (.no stAccepted))) ∧
    (∀ v w, Taken s k h 10 5 p → v = (u.manifest 0).version → w = (u.manifest 1).version →
      exec (.updateState k h p) s = .next (answered u k h 10 5 p (.ok [half (u.slotState 0), half v, half (v / 65536), half (u.slotState 1),
        half w, half (w / 65536)]))) ∧
    (∀ i, Taken s k h 10 6 p → u.update.hand = .none → (∀ j ∈ [0, 1], u.slotState j ≠ ssPending ∧ u.slotState j ≠ ssRunning) →
      [0, 1].find? (fun i => u.slotState i = ssStaging ∨ u.slotState i = ssVerified) = some i →
      exec (.updateAbort k h p) s = .next (answered (u.setSlotState (i + 1) ssEmpty) k h 10 6 p .ok)) ∧
    (∀ i : Fin 2, Taken s k h 10 6 p → u.update.hand = .none → [0, 1].find? (fun i : Fin 2 => u.slotState i = ssPending ∨
      u.slotState i = ssRunning) = some i → exec (.updateAbort k h p) s = .next (answered ((u.cfgPush ({ u.bootRec with
        pend := 0, handover := false } : BootRec).payload (.withdrawn i)).cfgPump) k h 10 6 p (.until .nvmc))) ∧
    (Taken s k h 11 1 p → 1 ≤ wordAt p 3 → wordAt p 3 ≤ 32 → wordAt p 0 = 0 → wordAt p 1 = 0 → wordAt p 2 = 0 →
      ∃ l nq no, l = fitLog 1080 ((u.regionRead .evt).evtLog.take (wordAt p 3)) ∧ (l = [] → nq = 0 ∧ no = 0) ∧
        (∀ r, l.getLast? = some r → nq = r.1 ∧ no = r.2.2.1) ∧
        exec (.logRead k h p) s = .next (answered (u.regionRead .evt) k h 11 1 p (.done stOk 0 ([half nq, half (nq / 65536), half no,
          half l.length] ++ l.flatMap (fun r => r.2.2.2.words.take (1 + r.2.2.2.payload.length)))))) ∧
    (∀ v, Taken s k h 11 2 p → 0x8000 ≤ wordAt p 0 → v = recVer u.update.writes 0x10000 →
      exec (.logWrite k h p) s = .next (answered (u.nvmcAsk 3 (v * 4096 + (2 + (p.drop 1).length)) 0
        (p.getD 0 0 :: half k.val :: p.drop 1)) k h 11 2 p (.until .nvmc)))

/-- ASSAY requests (R362 to R365, R369, R370, R374): a request joins the queue of eight, its checks run at the head, one that
cannot start in time, or is an out-of-service one while COURSE runs, expires, EN = 0 empties the queue, and a schedule
requests its next target once its PERIOD of courses has gone by. That the areas of a block that is not enabled lie nowhere
is the model's choice (DESIGN CHOICE, log entry 46). -/
def Obligations.AssayRequests : Prop :=
  ∀ (s : State),
    (∀ i k t u, sliceCode i = some (k, t) → s.flag F.ASSAY_CTRL_EN = true → s.assay.queue.length < 8 →
      u = s.modAssay (fun a => { a with queue := a.queue ++ [(⟨k, t.val⟩, 0)] }) →
      exec i s = .next (u.setFld F.ASSAY_STATUS_QUEUED u.assay.queue.length)) ∧
    (∀ i k t, sliceCode i = some (k, t) → s.flag F.ASSAY_CTRL_EN = true → 8 ≤ s.assay.queue.length →
      exec i s = .next (s.setFlag F.ASSAY_STATUS_CMD_ERR)) ∧
    (∀ q n l, s.assay.queue = (q, n) :: l → s.assay.running = none → s.assay.checked = false →
      (∀ o, s.sliceChecks q = some o → exec .assayRequestCheck s = .next (s.assayPop.sliceResult q o 0 0)) ∧
      (s.sliceChecks q = none → exec .assayRequestCheck s = .next (s.modAssay (fun a => { a with checked := true })))) ∧
    (∀ q, sliceAdmitted s.lcState q.slice = false → s.sliceChecks q = some soLcState) ∧
    (∀ q, sliceAdmitted s.lcState q.slice = true → s.fld F.PMU_PL_CUR < 2 ∨ s.flag F.SYSCTL_CLK_SRC = false →
      s.sliceChecks q = some soPLevel) ∧
    (∀ q, sliceAdmitted s.lcState q.slice = true → 2 ≤ s.fld F.PMU_PL_CUR → s.flag F.SYSCTL_CLK_SRC = true → s.badTarget q = true →
      s.sliceChecks q = some soNoTarget) ∧
    (∀ q, sliceAdmitted s.lcState q.slice = true → 2 ≤ s.fld F.PMU_PL_CUR → s.flag F.SYSCTL_CLK_SRC = true → s.badTarget q = false →
      s.sliceChecks q = if q.slice = slSramMarch ∧ s.badRegion = true then some soBadRegion else none) ∧
    (∀ q n l, s.assay.queue = (q, n) :: l → s.assay.running = none → s.assay.checked = true →
      256 ≤ n ∨ (0x10 ≤ q.slice ∧ s.running = true) → exec .requestExpired s = .next (s.assayPop.sliceResult q soExpired 0 0)) ∧
    (∀ q n l, s.assay.queue = (q, n) :: l → n < 256 → q.slice < 0x10 ∨ s.running = false → exec .requestExpired s = .next s) ∧
    (∀ t, t = (s.plainWrite A.ASSAY_CTRL 0).modAssay (fun a => { a with queue := [], checked := false }) →
      exec .assayDisable s = .next (t.setFld F.ASSAY_STATUS_QUEUED 0).sliceAbort) ∧
    (∀ q, s.assay.running = some q →
      s.sliceAbort = (if s.assay.isolated = true then s.giveBack q true else s).sliceEnd q soAborted 0 0) ∧
    (∀ (slice : Byte) c t d, c = sparseGet (fun _ => {}) s.adsin.schedules slice.toNat → s.sys.fwRun = true → c.period ≠ 0 →
      c.period ≤ c.gone → Sched.next { c with gone := 0 } = some (t, d) → exec (.assayScheduleTick slice) s = .next ((s.modAdsin (fun a => { a with
        schedules := sparseSet (fun _ => {}) a.schedules slice.toNat d })).assayCmdWrite (assayWord slice.toNat t))) ∧
    (∀ (slice : Byte) c, c = sparseGet (fun _ => {}) s.adsin.schedules slice.toNat → s.sys.fwRun = false ∨ c.period = 0 ∨
      c.gone < c.period → exec (.assayScheduleTick slice) s = .next s)

/-- A slice (R362, R365 to R368, R371 to R373): it starts, checks the supply after 20 µs and isolates its target, passes where
its patterns match and its measurements lie within the limits, unmutes a band 30 µs before it gives the target back, ends
with its outcome, repairs what failed (a lane, a spare, an AES core, an LF driver, a band by a calibration; SRAM, PKE and
MRAM by nothing), and is cut off at its budget less 10 µs. That SLICE_RETURN unmutes a band and returns it 30 µs on, or at
the end of the budget where that comes first, is the model's choice (DESIGN CHOICE, log entry 107). -/
def Obligations.SliceRuns : Prop :=
  ∀ (s : State) (q : Slice),
    (∀ n l u, s.assay.queue = (q, n) :: l → s.assay.running = none → s.assay.checked = true → s.sliceMayStart q = true →
      u = s.assayPop.modAssay (fun a => { a with running := some q, tAs := s.hft, isolated := false }) →
      exec .sliceStart s = .next ((u.setFlag F.ASSAY_STATUS_RUNNING).count A.ASSAY_CNT_RUN)) ∧
    (∀ (mv : Fin 4096) u, s.assay.running = some q → s.assay.isolated = false →
      u = (s.passTo (s.assay.tAs + 960)).setReg A.ASSAY_VMAIN (half mv.val) →
      exec (.supplyCheckEnd mv) s = .next (if mv.val < 3100 ∨ 3500 < mv.val then u.sliceEnd q soSupply 0 0 else u.isolate q)) ∧
    (∀ t, isBandSlice q.slice = false → s.returnAt q t = s.passTo t) ∧
    (∀ t b v w, isBandSlice q.slice = true → b = bandOf (q.target == 1) → v = s.passTo (t - 1440) →
      w = (v.modRfe b (fun r => { r with muteAssay := false, dcApplied := v.fld (F.RFE_GAIN_GAIN_IDX b) })).syncMute b →
      s.returnAt q t = (if w.muted b = true then w
        else w.modRfe b (fun r => { r with lastUnmute := t - 1440, clipFrom := t - 1440 })).passTo t) ∧
    (∀ m d short b r w, s.assay.running = some q → s.assay.isolated = true → sliceBudget q.slice = some b → s.hft ≤ s.assay.tAs + 48 * b →
      r = (if isBandSlice q.slice = true then min (s.hft + 1440) (s.assay.tAs + 48 * b) else s.hft) →
      w = ((s.returnAt q r).giveBack q true).scanNotes q → s.slicePass q m.ok m.levels = true →
      exec (.sliceReturn m d short) s = .next (w.sliceEnd q soPass 0 (s.sliceDetail q true d.toNat))) ∧
    (∀ m d short b a t r w, s.assay.running = some q → s.assay.isolated = true → sliceBudget q.slice = some b →
      s.hft ≤ s.assay.tAs + 48 * b → r = (if isBandSlice q.slice = true then min (s.hft + 1440) (s.assay.tAs + 48 * b) else s.hft) →
      w = ((s.returnAt q r).giveBack q true).scanNotes q → s.slicePass q m.ok m.levels = false → w.sliceRepair q short = (a, t) →
      exec (.sliceReturn m d short) s = .next ((t.count A.ASSAY_CNT_FAIL).sliceEnd q soFail a (s.sliceDetail q false d.toNat))) ∧
    (∀ m d short b, s.assay.running = some q → sliceBudget q.slice = some b → s.assay.tAs + 48 * b < s.hft →
      exec (.sliceReturn m d short) s = .next s) ∧
    (∀ m, s.slicePass q false m = false) ∧
    (∀ m, q.slice = slLf → (s.slicePass q true m = true ↔ ∀ x ∈ m, x.natAbs ≤ 100)) ∧
    (∀ m, q.slice = slAdcRef → (s.slicePass q true m = true ↔ ∀ x ∈ m, x.natAbs ≤ 50)) ∧
    (∀ m, q.slice = slIqLoop → (s.slicePass q true m = true ↔ ∀ x ∈ m, 5800 ≤ x)) ∧
    (∀ m, q.slice = slTxLoop → (s.slicePass q true m = true ↔ m.length = 16 ∧ ∀ x ∈ m,
      (x - 25 * toSigned 9 (s.fld (F.RFE_TX_CARRIER_LEVEL (bandOf (q.target == 1))))).natAbs ≤ 100)) ∧
    (∀ m, q.slice ≠ slLf → q.slice ≠ slAdcRef → q.slice ≠ slIqLoop → q.slice ≠ slTxLoop → s.slicePass q true m = true) ∧
    (∀ b, s.assay.running = some q → s.assay.isolated = true → sliceBudget q.slice = some b →
      exec .sliceOverrun s = .next (((s.returnAt q (s.assay.tAs + 48 * (b - 10))).giveBack q false).sliceEnd q soOverrun 0 0)) ∧
    (∀ short p u, isLaneSlice q.slice = true → q.target < 64 → u = s.markFailed (s.fld (F.LANE_PHYS_PHYS q.target)) →
      u.freeSpare = some p → s.sliceRepair q short = (1, (u.laneRemap q.target p).repairRecord)) ∧
    (∀ short u, isLaneSlice q.slice = true → q.target < 64 → u = s.markFailed (s.fld (F.LANE_PHYS_PHYS q.target)) →
      u.freeSpare = none → s.sliceRepair q short = (2, (u.laneWithdraw q.target).repairRecord)) ∧
    (∀ short, isLaneSlice q.slice = true → 64 ≤ q.target → s.sliceRepair q short = (3, (s.markFailed q.target).repairRecord)) ∧
    (∀ short, q.slice = slAes → s.fld F.ID_CAPS1_AES_ACTIVE ≤ 1 → s.sliceRepair q short = (0, s)) ∧
    (∀ short u, q.slice = slAes → 2 ≤ s.fld F.ID_CAPS1_AES_ACTIVE →
      u = s.setFld F.CRYPTO_STATUS_FENCED (s.fld F.CRYPTO_STATUS_FENCED ||| 2 ^ q.target) →
      s.sliceRepair q short = (4, (u.setFld F.ID_CAPS1_AES_ACTIVE (u.fld F.ID_CAPS1_AES_ACTIVE - 1)).repairRecord)) ∧
    (∀ short, q.slice = slLf → s.sliceRepair q short = (5, s.lfFault (if short = true then F.LF_STATUS_SHORT else F.LF_STATUS_OPEN) q.target)) ∧
    (∀ short, q.slice = slAdcRef → s.sliceRepair q short = (6, s.calRequest (bandOf (q.target == 1)) .dc)) ∧
    (∀ short, q.slice = slIqLoop ∨ q.slice = slTxLoop → s.sliceRepair q short = (6, s.calRequest (bandOf (q.target == 1)) .iq)) ∧
    (∀ short, q.slice = slSramMarch ∨ q.slice = slPkeKat ∨ q.slice = slMramScan → s.sliceRepair q short = (0, s))

/-- A handover (R386 to R391): the standby's READY within its 500 ms or its timeout; the window that is long enough, with the
next plan committed, from which firmware takes no more work; the block at the cut-over with its t_D, once the old firmware's
commands have ended; the new firmware's answer before t_D; the single read of ACCEPT; no request taken within the cut-over;
the takeover with the boot record's slot pending, and what follows the end of its write: the lock, ACTIVATED, the
application parts switched. The end of the 500 ms and t_D are kept as HF ticks (DESIGN CHOICE, log entry 105). The model's
own choices beside these: a declined block ends the handover at once with REFUSED and DECISION = ABANDON (DESIGN CHOICE, log
entry 79); ACCEPT is read from the memory as it stands, whoever wrote it (DESIGN CHOICE, log entry 80); what the threads of
a core in its standby loop are (DESIGN CHOICE, log entry 107). -/
def Obligations.Handover : Prop :=
  ∀ (s : State) (k due tD : Nat),
    (s.update.hand = .starting k due → s.hft ≤ due → exec .handoverStandbyReady s = .next ((s.ring s.standby s.oldCore).setHand (.ready k))) ∧
    (s.update.hand = .starting k due → due < s.hft → exec .handoverStandbyReady s = .next s) ∧
    (s.update.hand = .starting k due → exec .handoverReadyTimeout s = .next (((s.passTo due).standbyPark.setHand .none).activated upRefused)) ∧
    (s.update.hand = .ready k → 600 ≤ s.iwRemain → s.flag F.COURSE_STATUS_COMMIT_PEND = true → s.handQuiet = s.setHand (.quiet k)) ∧
    (s.iwRemain < 600 ∨ s.flag F.COURSE_STATUS_COMMIT_PEND = false → s.handQuiet = s) ∧
    (s.update.hand = .quiet k → s.nvmcTaken = false → s.flag F.KEYS_STATUS_BUSY = false → s.flag F.PKE_STATUS_BUSY = false →
      exec .handoverCutoverStart s = .next ((s.writeBlock.ring s.oldCore s.standby).setHand
        (.block k (s.course.nextCt - 48 * s.regN A.COURSE_T_GUARD - 2400)))) ∧
    ((∀ i, s.update.hand ≠ .quiet i) ∨ s.nvmcTaken = true ∨ s.flag F.KEYS_STATUS_BUSY = true ∨ s.flag F.PKE_STATUS_BUSY = true →
      exec .handoverCutoverStart s = .next s) ∧
    (s.update.hand = .block k tD → tD < s.hft → ∀ b, exec (.handoverAccept b) s = .next s) ∧
    (∀ x, s.update.hand = .block k tD → s.hft ≤ tD → x = (s.setSramHalf 0x2FF008 2).standbyLoop (if s.update.active = 0 then 1 else 0) →
      exec (.handoverAccept true) s = .next (((s.setSramHalf 0x2FF006 1).ring s.standby s.oldCore).setHand (.accepted k)) ∧
      exec (.handoverAccept false) s = .next ((x.setHand .none).activated upRefused)) ∧
    (∀ u, (s.update.hand = .block k tD ∧ u = s.passTo tD) ∨ (s.update.hand = .accepted k ∧ u = s) → u.sramHalf 0x2FF006 = 1 →
      exec .handoverDecision s =
        .next ((((u.setSramHalf 0x2FF008 1).ring u.oldCore u.standby).standbyLoop u.update.active).setHand (.go k))) ∧
    (∀ u x, (s.update.hand = .block k tD ∧ u = s.passTo tD) ∨ (s.update.hand = .accepted k ∧ u = s) → u.sramHalf 0x2FF006 ≠ 1 →
      x = (u.setSramHalf 0x2FF008 2).standbyLoop (if u.update.active = 0 then 1 else 0) →
      exec .handoverDecision s = .next ((x.setHand .none).activated upOverrun)) ∧
    (s.cutover = true ↔ (∃ i, s.update.hand = .quiet i) ∨ (∃ i x, s.update.hand = .block i x) ∨ (∃ i, s.update.hand = .accepted i) ∨
      (∃ i, s.update.hand = .go i)) ∧
    (s.cutover = true → s.adsinPump = s) ∧
    (∀ ok u, s.update.hand = .go k →
      u = ((s.wdtCtrlWrite s.standby 1).modUpdate (fun u => { u with
        active := if u.active = 0 then 1 else 0, runs := k, hand := .none })).planCommit.setSlotState k ssRunning →
      exec (.handoverTakeover ok) s =
        .next ((u.cfgPush ({ u.bootRec with pend := k, handover := true } : BootRec).payload (.tookOver k s.update.runs)).cfgPump)) ∧
    (∀ (fails : Fin 3) old u v w, s.nvTurn .firmware = true → s.nvm.cmd.isSome = true → u = s.nvmcDone fails → u.update.inCfg = some (.tookOver k old) →
      v = u.modUpdate (fun u => { u with inCfg := none }) → w = v.setReg A.NVMC_IMG_LOCK (v.reg A.NVMC_IMG_LOCK ||| half k) →
      exec (.nvmcCmdDone fails) s =
        .next ((w.activated (if u.fld F.NVMC_STATUS_RESULT = nvDone then upOk else upRecord)).appsSwitch old k)) ∧
    (∀ old new, (s.manifest (old - 1)).appHashes = (s.manifest (new - 1)).appHashes → s.appsSwitch old new = s)

/-- Boot (R180, R297, R298, R383, R384, R392, R393): the boot ROM completes a transition whose intent stands, or takes one of
its paths by the life cycle and the cause; it loads the repair and calibration records, locks the confirmed slot again
before it reads the resume record, selects a slot that passes its checks, with the boot record it writes, or enters
recovery; a set that runs as CONFIRMED rewrites the records of an older VER. Which records are calibration records, and
their formats, are the model's choice (DESIGN CHOICE, log entry 51), and so is that a set PENDING or RUNNING with no boot
record to say so is VERIFIED again (DEDUCED, log entry 74). -/
def Obligations.BootAndMigration : Prop :=
  ∀ (s : State) (clkOk nvOk : Bool) (sub ism : CalResult) (cal : Option CalRecord),
    (s.alive = false ∨ s.sys.fwRun = true ∨ s.sys.recovery = true ∨ s.flag F.NVMC_STATUS_BUSY = true →
      exec (.bootRomSequence clkOk nvOk (sub, ism) cal) s = .next s) ∧
    (∀ u v w, s.alive = true → s.sys.fwRun = false → s.sys.recovery = false → s.flag F.NVMC_STATUS_BUSY = false →
      u = (if s.flag F.KEYS_STATUS_READY = true then s else s.keysStart.nvStart) → v = ((u.regionRead .cfg).loadRepair).loadCal cal →
      w = v.setReg A.NVMC_IMG_LOCK (v.reg A.NVMC_IMG_LOCK ||| half v.bootRec.conf) →
      (∀ t, u.storeIntent = some t → t ≠ u.storeLc → t ≠ 2 →
        exec (.bootRomSequence clkOk nvOk (sub, ism) cal) s = .next (u.lcFinish t [])) ∧
      (∀ cert x, u.storeIntent = some 2 → u.storeLc ≠ 2 → u.drbgReady = true → u.transitionCert = (cert, x) →
        exec (.bootRomSequence clkOk nvOk (sub, ism) cal) s = .next (x.lcFinish 2 cert)) ∧
      (u.storeIntent = some 2 → u.storeLc ≠ 2 → u.drbgReady = false →
        exec (.bootRomSequence clkOk nvOk (sub, ism) cal) s = .next u) ∧
      (u.storeIntent = none ∨ u.storeIntent = some u.storeLc →
        (u.storeLc = 4 → exec (.bootRomSequence clkOk nvOk (sub, ism) cal) s = .next u.serveSys) ∧
        (u.storeLc = 0 → exec (.bootRomSequence clkOk nvOk (sub, ism) cal) s = .next u.bootBlank) ∧
        (u.storeLc ≠ 4 → u.storeLc ≠ 0 → v.sys.cause ≠ rcShelf →
          exec (.bootRomSequence clkOk nvOk (sub, ism) cal) s = .next (v.bootRest clkOk nvOk sub ism)) ∧
        (u.storeLc ≠ 4 → u.storeLc ≠ 0 → v.sys.cause = rcShelf → w.resumePoint = none →
          exec (.bootRomSequence clkOk nvOk (sub, ism) cal) s = .next (w.bootRest clkOk nvOk sub ism)) ∧
        (∀ k a x, u.storeLc ≠ 4 → u.storeLc ≠ 0 → v.sys.cause = rcShelf → w.resumePoint = some (k, a) →
          x = (((w.modThr 0 0 (fun t => { t with st := .run, pc := BitVec.ofNat 24 a, pos := 0, pend := [] })).eccNote
            (slotPlace (k - 1)).1 ((slotPlace (k - 1)).1 + 216)).fwStarts k).modSys (fun y => { y with fwRun := true }) →
          exec (.bootRomSequence clkOk nvOk (sub, ism) cal) s =
            .next (x.event hostChans 0 0x80 [x.reg A.SYSCTL_RST_CAUSE, x.reg A.ID_LIFECYCLE])))) ∧
    (s.loadCal none = s) ∧ (∀ c, s.ownerRecord = false → s.loadCal (some c) = s) ∧
    (∀ c, s.ownerRecord = true → (s.loadCal (some c)).reg (A.RFE_XO_TRIM .sub) = c.trim ∧
      (s.loadCal (some c)).eff (A.RFE_XO_TRIM .sub) = c.trim) ∧
    (s.bootRest clkOk nvOk sub ism = (if clkOk = true then s.bootClocks sub ism else s).bootSelect nvOk) ∧
    (∀ n r p, n = s.bootRecNote → r = n.bootRec → p = n.candRead r.pend true →
      (r.pend = 0 → s.bootSelect nvOk = n.unpend.bootConf r nvOk) ∧
      (r.pend ≠ 0 → p.setCheck (r.pend - 1) true = upOk → s.bootSelect nvOk = (p.setSlotState r.conf ssPrevious).bootWith { r with
        prev := r.conf, conf := r.pend, floor := p.setVer r.pend, own := p.setOwn r.pend, pend := 0, handover := false } r.pend nvOk) ∧
      (r.pend ≠ 0 → p.setCheck (r.pend - 1) true ≠ upOk →
        let x := (p.setSlotState r.pend ssFailed).cfgAsk 1 ({ r with pend := 0, handover := false } : BootRec).payload (r.seq + 1)
        s.bootSelect true = (x.nvmcDone 0).bootConf { r with pend := 0, handover := false, seq := r.seq + 1 } true ∧
        s.bootSelect false = x.modUpdate (fun u => { u with inCfg := some .select }))) ∧
    (∀ r c f d, c = s.candRead r.conf false → f = c.setSlotState r.conf ssFailed → d = f.candRead r.prev false →
      (r.conf ≠ 0 → c.setCheck (r.conf - 1) false = upOk → s.bootConf r nvOk = c.bootSet r.conf) ∧
      (c.cand r.conf false = false → r.prev ≠ 0 → d.setCheck (r.prev - 1) false = upOk →
        s.bootConf r nvOk = d.bootWith { r with conf := r.prev, prev := 0 } r.prev nvOk) ∧
      (c.cand r.conf false = false → d.cand r.prev false = false → r.conf ≠ 0 → s.bootConf r nvOk = d.enterRecovery)) ∧
    (∀ r order d k, r.conf = 0 → r.prev = 0 → order = (if s.setVer 1 < s.setVer 2 then [2, 1] else [1, 2]) →
      d = forEach order s (fun s k => s.candRead k false) → order.find? (fun k => d.cand k false) = k →
      s.bootConf r nvOk = (match k with
        | some k => d.bootWith { r with conf := k, floor := d.setVer k, own := d.setOwn k } k nvOk
        | none => d.enterRecovery)) ∧
    (∀ r k, s.bootWith r k true = ((s.cfgAsk 1 r.payload (r.seq + 1)).nvmcDone 0).bootSet k ∧
      s.bootWith r k false = (s.cfgAsk 1 r.payload (r.seq + 1)).modUpdate (fun u => { u with inCfg := some (.boot k) })) ∧
    (∀ k p w, w = (s.setSlotState k ssConfirmed).setReg A.NVMC_IMG_LOCK (s.reg A.NVMC_IMG_LOCK ||| half k) →
      (w.manifest (k - 1)).part 1 = some p → s.bootSet k = ((w.calDefaults k).bootJump k p.entry).appsRelease k) ∧
    (∀ old, s.sys.fwRun = true → s.slotState (s.update.runs - 1) = ssConfirmed → s.nvmcTaken = false →
      old = s.cfgAll.filter (fun p => p.1 ≠ 1 ∧ p.1 ≠ 2 ∧ p.2.ver < recVer s.update.writes p.1) →
      exec .recordMigration s = .next (forEach old s (fun s p => (s.migrated p).2.cfgPush (s.migrated p).1)).cfgPump) ∧
    (∀ p ∈ s.cfgAll, p.2.ver ≤ recVer (s.setVer s.update.runs) p.1) ∧
    (∀ w next, (s.cfgPush w next).update.jobs = s.update.jobs ++ [⟨recVer s.update.writes (wordAt w 0), w, next⟩]) ∧
    (s.sys.fwRun = false ∨ s.slotState (s.update.runs - 1) ≠ ssConfirmed ∨ s.nvmcTaken = true → exec .recordMigration s = .next s)

/-- TROWEL (R403 to R408): the request's 12 clocks and the command that each CMD is, levels and faults first, STATUS that
reports and clears, ADDR, memory transfers of 16 bits with their WAITs and the repeat that makes no second access, and the
device's reset, scan, request errors and line resets. The model's own choices (DESIGN CHOICE, log entry 106): which refusals
end DENIED and which BUSERR, an access that memory has within the command with the WAITs as free values, and that a port
which is off does nothing. -/
def Obligations.TrowelPort : Prop :=
  ∀ (s : State),
    (∀ need good f, s.twOn = true → s.twLevel < need → s.twCmd need good f = s.twFault twDenied) ∧
    (∀ need f, s.twOn = true → need ≤ s.twLevel → s.twCmd need false f = s.modDebug (fun d => { d with reason := twParity }) ∧
      s.twCmd need true f = f s) ∧
    (∀ (core : Fin 8), s.twOn = true → exec (.trowelStatus core) s = .next ((if h : core.val < 6 then (s.modDebug (fun d => { d with
      reason := 0 })).modCore ⟨core.val, h⟩ (fun k => { k with bkhit := false }) else s.modDebug (fun d => { d with
      reason := 0 })).see (.value (s.twStatus core)))) ∧
    (∀ core, s.twOn = false → exec (.trowelStatus core) s = .next s) ∧
    (∀ a : BitVec 24, s.twOn = true → 1 ≤ s.twLevel → a.toNat % 2 = 0 →
      exec (.trowelAddr a true) s = .next (s.modDebug (fun d => { d with addr := a, held := if d.addr = a then d.held else none }))) ∧
    (∀ a : BitVec 24, s.twOn = true → 1 ≤ s.twLevel → a.toNat % 2 = 1 → exec (.trowelAddr a true) s = .next (s.twFault twBadArg)) ∧
    (∀ core (w : Half) good n u x, s.twOn = true → 1 ≤ s.twLevel → s.dbg.writing = true → s.draw 2 = (n, u) →
      x = u.modDebug (fun d => { d with writing := false }) →
      exec (.trowelRd16 core) s = (if n = 0 then .next (u.see .wait) else exec (.trowelRd16 core) x) ∧
      exec (.trowelWr16 core w good) s = (if n = 0 then .next (u.see .wait) else exec (.trowelWr16 core w good) x)) ∧
    (∀ core c a v t, s.twOn = true → 1 ≤ s.twLevel → s.dbg.writing = false → s.dbg.held = none → a = s.dbg.addr.toNat →
      s.twWindow a = true → s.twLocal core a = some c → s.busRead (.trowel (s.twLevel = 2)) c a 2 = (.value v, t) →
      (placeOf a ≠ .sram → placeOf a ≠ .mram → exec (.trowelRd16 core) s = .next ((t.modDebug (fun d => { d with
        held := none, addr := d.addr + 2 })).see (.value (half v)))) ∧
      (∀ n u, placeOf a = .sram ∨ placeOf a = .mram → t.draw 2 = (n, u) →
        exec (.trowelRd16 core) s = .next (
          if n = 0 then (u.modDebug (fun d => { d with held := some (u.dbg.addr, half v) })).see .wait
          else (u.modDebug (fun d => { d with held := none, addr := d.addr + 2 })).see (.value (half v))))) ∧
    (∀ core c v n u, s.twOn = true → 1 ≤ s.twLevel → s.dbg.writing = false → s.dbg.held = some (s.dbg.addr, v) →
      s.twWindow s.dbg.addr.toNat = true → s.twLocal core s.dbg.addr.toNat = some c → s.draw 2 = (n, u) →
      exec (.trowelRd16 core) s = .next (
        if n = 0 then (u.modDebug (fun d => { d with held := some (u.dbg.addr, v) })).see .wait
        else (u.modDebug (fun d => { d with held := none, addr := d.addr + 2 })).see (.value v))) ∧
    (∀ core c t, s.twOn = true → 1 ≤ s.twLevel → s.dbg.writing = false → s.dbg.held = none → s.twWindow s.dbg.addr.toNat = true →
      s.twLocal core s.dbg.addr.toNat = some c → s.busRead (.trowel (s.twLevel = 2)) c s.dbg.addr.toNat 2 = (.refused, t) →
      exec (.trowelRd16 core) s = .next (t.twFault twBusErr)) ∧
    (∀ core (w : Half) good, s.twOn = true → 1 ≤ s.twLevel → s.dbg.writing = false → s.twWindow s.dbg.addr.toNat = false →
      exec (.trowelRd16 core) s = .next (s.twFault twDenied) ∧ exec (.trowelWr16 core w good) s = .next (s.twFault twDenied)) ∧
    (∀ core c a (w : Half) t n u, s.twOn = true → 1 ≤ s.twLevel → s.dbg.writing = false → a = s.dbg.addr.toNat → s.twWindow a = true →
      s.twLocal core a = some c → admitted (.trowel (s.twLevel = 2)) a 2 true = true →
      s.busWrite (.trowel (s.twLevel = 2)) c a 2 w.toNat = some t →
      (n, u) = (if placeOf a = .sram ∨ placeOf a = .mram then t.draw 2 else (1, t)) →
      exec (.trowelWr16 core w true) s = .next (u.modDebug (fun d => { d with held := none, writing := n = 0, addr := d.addr + 2 }))) ∧
    (∀ core c (w : Half) good, s.twOn = true → 1 ≤ s.twLevel → s.dbg.writing = false → s.twWindow s.dbg.addr.toNat = true →
      s.twLocal core s.dbg.addr.toNat = some c → admitted (.trowel (s.twLevel = 2)) s.dbg.addr.toNat 2 true = false →
      exec (.trowelWr16 core w good) s = .next (s.twFault twBusErr)) ∧
    (s.twOn = true → s.twLevel = 2 → exec .trowelReset s = .next (s.deviceReset rcTrowel)) ∧
    (s.twOn = true → s.twLevel = 2 → exec .trowelScan s = .next ((s.modDebug (fun d => { d with
      scan := true, tap := .testLogicReset, ir := 15 })).gpioSettle s.gpioLevels)) ∧
    (s.twOn = true → s.twLevel < 2 → exec .trowelReset s = .next (s.twFault twDenied) ∧ exec .trowelScan s = .next (s.twFault twDenied)) ∧
    (s.twOn = true → exec .trowelBadcmd s = .next (s.twFault (if s.twLevel = 0 then twDenied else twBadCmd))) ∧
    (exec .trowelRequestError s = .next s) ∧ (s.dbg.scan = false ∨ s.hostIo = false → exec .trowelLineReset s = .next s) ∧
    (s.dbg.scan = true → s.hostIo = true → exec .trowelLineReset s = .next (s.tapClocks (List.replicate 32 true))) ∧
    (∀ w : BitVec 12, twRequest w = if w.getLsbD 0 = true ∨ w.getLsbD 11 = false ∨ ones w 1 10 % 2 = 1 then none
      else some (bits w.toNat 4 1, (⟨bits w.toNat 7 5 % 8, by omega⟩ : Fin 8), fin4 (bits w.toNat 9 8))) ∧
    (∀ w (d : BitVec 24) good, twRequest w = none → twTransaction w d good s = exec .trowelRequestError s) ∧
    (∀ w (d : BitVec 24) good cmd core t, twRequest w = some (cmd, core, t) →
      (cmd = 0 → twTransaction w d good s = exec (.trowelStatus core) s) ∧ (cmd = 1 → twTransaction w d good s = exec (.trowelAddr d good) s) ∧
      (cmd = 2 → twTransaction w d good s = exec (.trowelRd16 core) s) ∧
      (cmd = 3 → twTransaction w d good s = exec (.trowelWr16 core (half d.toNat) good) s) ∧
      (cmd = 4 → twTransaction w d good s = exec (.trowelHalt core t) s) ∧ (cmd = 5 → twTransaction w d good s = exec (.trowelResume core t) s) ∧
      (cmd = 6 → twTransaction w d good s = exec (.trowelStep core t) s) ∧
      (cmd = 7 → twTransaction w d good s = exec (.trowelRsel core t (byte d.toNat) good) s) ∧
      (cmd = 8 → twTransaction w d good s = exec (.trowelRrd core t) s) ∧ (cmd = 9 → twTransaction w d good s = exec (.trowelRwr core t d good) s) ∧
      (cmd = 10 → twTransaction w d good s = exec (.trowelBkpt core t d good) s) ∧
      (cmd = 11 → twTransaction w d good s = exec (.trowelBkctl core (byte d.toNat) good) s) ∧
      (cmd = 12 → twTransaction w d good s = exec .trowelReset s) ∧ (cmd = 13 → twTransaction w d good s = exec .trowelScan s) ∧
      (cmd = 14 ∨ cmd = 15 → twTransaction w d good s = exec .trowelBadcmd s))

/-- TROWEL's control of threads (R404, R406): halting now or at a boundary, resuming, stepping, selecting, reading and writing a
halted thread's registers, and breakpoints; a thread that is not halted, a bad selection and a read-only field end in a
fault. The model's own choices: STEP is a permission for the thread's next instruction, which is a command of its own
(DESIGN CHOICE, log entry 89), and HALT marks a DEAD thread as halted (DESIGN CHOICE, log entry 90). -/
def Obligations.TrowelThreads : Prop :=
  ∀ (s : State) (core : Fin 8) (c : Fin 6) (t : Fin 4), core.val = c.val → s.twOn = true → (s.twLevel = 2 ∨ (s.twLevel = 1 ∧ 2 ≤ c.val)) →
    ((s.thr c t).halted = false → (s.thr c t).st = .run →
      exec (.trowelHalt core t) s = .next (s.modThr c t (fun th => { th with haltReq := true }))) ∧
    ((s.thr c t).halted = false → (s.thr c t).st ≠ .run → exec (.trowelHalt core t) s = .next (s.haltThread c t)) ∧
    ((s.thr c t).halted = true → exec (.trowelHalt core t) s = .next s) ∧
    ((s.thr c t).haltReq = true → (s.thr c t).slot = none → exec (.threadHaltTakesEffect c t) s = .next (s.haltThread c t)) ∧
    ((s.thr c t).halted = true → exec (.trowelResume core t) s = .next ((s.modCore c (fun k =>
      ({ k with thr := k.thr.set t { k.thr[t] with halted := false } } : Core).wakeup)).takeHeld c t)) ∧
    ((s.thr c t).halted = true → (s.thr c t).st ≠ .wait → (s.thr c t).st ≠ .dead →
      exec (.trowelStep core t) s = .next (s.modThr c t (fun th => { th with stepping := true }))) ∧
    (∀ v, (s.thr c t).halted = false → exec (.trowelResume core t) s = .next (s.twFault twNotHalted) ∧
      exec (.trowelStep core t) s = .next (s.twFault twNotHalted) ∧ exec (.trowelRrd core t) s = .next (s.twFault twNotHalted) ∧
      exec (.trowelRwr core t v true) s = .next (s.twFault twNotHalted)) ∧
    (∀ sel, exec (.trowelRsel core t sel true) s = .next (s.modThr c t (fun th => { th with rsel := sel }))) ∧
    (∀ x n, (s.thr c t).halted = true → selOf (s.thr c t).rsel.toNat = some x →
      n = (match x with
        | .d i => ((s.thr c t).d[i] : Half).toNat | .p i => ((s.thr c t).p[i] : Ptr).toNat | .lr => (s.thr c t).lr.toNat
        | .pc => (s.thr c t).pc.toNat | .cr n => s.cores[c].crRead (s.thr c t) n) →
      exec (.trowelRrd core t) s = .next (s.see (.octets (beOctets 3 n)))) ∧
    (∀ v, (s.thr c t).halted = true → selOf (s.thr c t).rsel.toNat = none →
      exec (.trowelRrd core t) s = .next (s.twFault twBadArg) ∧ exec (.trowelRwr core t v true) s = .next (s.twFault twBadArg)) ∧
    (∀ v i, (s.thr c t).halted = true → selOf (s.thr c t).rsel.toNat = some (.d i) →
      exec (.trowelRwr core t v true) s = .next (s.modCore c (fun k => k.landOne t ⟨0, .d i, v.toNat⟩))) ∧
    (∀ v i, (s.thr c t).halted = true → selOf (s.thr c t).rsel.toNat = some (.p i) →
      exec (.trowelRwr core t v true) s = .next (s.modCore c (fun k => k.landOne t ⟨0, .p i, v.toNat⟩))) ∧
    (∀ v n, (s.thr c t).halted = true → selOf (s.thr c t).rsel.toNat = some (.cr n) → s.twReadOnly c t n v.toNat = false →
      exec (.trowelRwr core t v true) s = .next (s.modCore c (fun k => k.landOne t ⟨0, .cr n, v.toNat⟩))) ∧
    (∀ v n, (s.thr c t).halted = true → selOf (s.thr c t).rsel.toNat = some (.cr n) → s.twReadOnly c t n v.toNat = true →
      exec (.trowelRwr core t v true) s = .next (s.twFault twDenied)) ∧
    (∀ v : BitVec 24, (s.thr c t).halted = true → selOf (s.thr c t).rsel.toNat = some .pc → v.toNat % 4 = 0 →
      exec (.trowelRwr core t v true) s = .next (s.modThr c t (fun th => { th with pc := v }))) ∧
    (∀ v : BitVec 24, exec (.trowelBkpt core t v true) s = .next (s.modCore c (fun k => { k with
      bkpt := k.bkpt.set (fin4 v.toNat) (BitVec.ofNat 24 (v.toNat / 4 * 4), k.bkpt[fin4 v.toNat].2), bkthr := k.bkthr.set (fin4 v.toNat) t }))) ∧
    (∀ v : Byte, v.toNat < 16 → exec (.trowelBkctl core v true) s = .next (s.modCore c (fun k => { k with
      bkpt := #v[(k.bkpt[0].1, v.getLsbD 0), (k.bkpt[1].1, v.getLsbD 1), (k.bkpt[2].1, v.getLsbD 2), (k.bkpt[3].1, v.getLsbD 3)] }))) ∧
    (∀ v : Byte, 16 ≤ v.toNat → exec (.trowelBkctl core v true) s = .next (s.twFault twBadArg)) ∧
    (∀ u branch i, s.cpuThread c = some u → s.bkMatch c u branch = some i →
      exec (.breakpointHit c branch) s = .next (s.bkHalt c u i)) ∧
    (∀ u branch, s.cpuThread c = some u → s.bkMatch c u branch = none → exec (.breakpointHit c branch) s = .next s)

/-- GPIO and the boundary scan (R401, R402, R408 to R410): a level changed from outside is tested against the edge selections,
and a scan pass shows the captured cells and holds those shifted in; a group whose pins show no selected edge keeps its
state, and no change of a level is anything to the rest but the edge that a timer channel captures (R322). An instruction
comes into force before its cells are captured and those shifted in held, any code but those of EXTEST and SAMPLE/PRELOAD
selects BYPASS, the instruction register captures 0b0001, and five TCK edges with TMS high lead to Test-Logic-Reset, in
which BYPASS is selected. That a command is one such pass, which ends in Run-Test/Idle, is the model's choice (DESIGN
CHOICE, log entry 92), and the other states of the controller are those of IEEE 1149.1 (PRESUMED, log entry 92). -/
def Obligations.PinsAndBoundaryScan : Prop :=
  ∀ (s : State),
    (∀ (n : Fin 32) rising, exec (.gpioEdge n rising) s = .next ((s.modDebug (fun d => { d with
      balls := if rising = true then d.balls ||| BitVec.ofNat 32 (2 ^ n.val) else d.balls &&& ~~~ BitVec.ofNat 32 (2 ^ n.val) })).gpioSettle
        s.gpioLevels)) ∧
    (∀ old, s.sys.vio = true → s.sys.inReset = false → s.sys.halted = false →
      (∀ (k : Fin 8) src, s.capOn k src = false ∧ s.tmrSettle k = s) →
      (∀ g : Fin 2, (half (s.gpioLevels.toNat / 65536 ^ g.val) &&& ~~~ half (old.toNat / 65536 ^ g.val) &&& s.reg (A.GPIO_EDGE_R g)) |||
        (half (old.toNat / 65536 ^ g.val) &&& ~~~ half (s.gpioLevels.toNat / 65536 ^ g.val) &&& s.reg (A.GPIO_EDGE_F g)) = 0) →
      s.gpioSettle old = s) ∧
    (∀ (old : BitVec 32) (e : Half) u, s.sys.vio = true → s.sys.inReset = false → s.sys.halted = false →
      s.sys.sleep = .awake → e ≠ 0 →
      u = forEach (List.range 32) s (fun s' n => if old.getLsbD n = s.gpioLevels.getLsbD n then s'
        else s'.capEdge (0x20 + n) (s.gpioLevels.getLsbD n)) →
      e = (half s.gpioLevels.toNat &&& ~~~ half old.toNat &&& u.reg (A.GPIO_EDGE_R 0)) |||
        (half old.toNat &&& ~~~ half s.gpioLevels.toNat &&& u.reg (A.GPIO_EDGE_F 0)) →
      (s.gpioSettle old).reg (A.GPIO_EVT 0) = u.reg (A.GPIO_EVT 0) ||| e ∧
      (e &&& u.reg (A.GPIO_WORLD 0) ≠ 0 → ∀ c : Fin 6, 2 ≤ c.val → (s.gpioSettle old).linePending c 28 = true) ∧
      (e &&& ~~~ u.reg (A.GPIO_WORLD 0) ≠ 0 → ∀ c : Fin 6, c.val < 2 → (s.gpioSettle old).linePending c 28 = true)) ∧
    (∀ code : BitVec 4, s.irScan code = (s.modDebug (fun d => { d with
      tap := .runTestIdle, ir := if code = 0 ∨ code = 2 then code else 15 })).gpioSettle s.gpioLevels) ∧
    (∀ ext shifted u, s.dbg.scan = true → u = s.irScan 0 →
      exec (.jtagExtest ext shifted) s = .next (((u.modDebug (fun d => { d with cells := shifted })).gpioSettle u.gpioLevels).see
        (.octets (byte 1 :: leOctets 20 (u.capture ext).toNat)))) ∧
    (∀ ext shifted u, s.dbg.scan = true → u = s.irScan 2 →
      exec (.jtagSamplePreload ext shifted) s = .next (((u.modDebug (fun d => { d with cells := shifted })).gpioSettle u.gpioLevels).see
        (.octets (byte 1 :: leOctets 20 (u.capture ext).toNat)))) ∧
    (s.dbg.scan = true → exec .jtagBypass s = .next ((s.irScan 15).see (.octets [byte 1]))) ∧
    (∀ t : Tap, [true, true, true, true, true].foldl Tap.next t = .testLogicReset) ∧
    (∀ tms t, tms.foldl Tap.next s.dbg.tap = t → s.tapClocks tms = (s.modDebug (fun d => { d with
      tap := t, ir := if t = .testLogicReset then 15 else d.ir })).gpioSettle s.gpioLevels) ∧
    (∀ ext shifted, s.dbg.scan = false → exec (.jtagExtest ext shifted) s = .next s ∧
      exec (.jtagSamplePreload ext shifted) s = .next s ∧ exec .jtagBypass s = .next s)
end

