-- ==== Sys2Proof/Laws/State.lean ====
section
/-! SUPPORT. What each update of State leaves in each field: one rule per update, whose parts are the rewrite rules of the
single fields. -/
namespace Sys2Proof.Machine

variable (s : State)

/-- The fields after `setReg`. -/
@[simp] theorem State.setReg_fields (a : Nat) (v : Half) :
    (s.setReg a v).regs = sparseSet regReset s.regs a v ∧ (s.setReg a v).inForce = s.inForce ∧
    (s.setReg a v).snap = s.snap ∧ (s.setReg a v).sram = s.sram ∧ (s.setReg a v).recRam = s.recRam ∧
    (s.setReg a v).mram = s.mram ∧ (s.setReg a v).mramFlip = s.mramFlip ∧ (s.setReg a v).lines = s.lines ∧
    (s.setReg a v).radio = s.radio ∧ (s.setReg a v).crypto = s.crypto ∧ (s.setReg a v).keys = s.keys ∧
    (s.setReg a v).pke = s.pke ∧ (s.setReg a v).trng = s.trng ∧ (s.setReg a v).access = s.access ∧
    (s.setReg a v).cores = s.cores ∧ (s.setReg a v).nvm = s.nvm ∧ (s.setReg a v).sys = s.sys ∧
    (s.setReg a v).plinth = s.plinth ∧ (s.setReg a v).timers = s.timers ∧ (s.setReg a v).uart = s.uart ∧
    (s.setReg a v).mbox = s.mbox ∧ (s.setReg a v).adsin = s.adsin ∧ (s.setReg a v).fabric = s.fabric ∧
    (s.setReg a v).assay = s.assay ∧ (s.setReg a v).update = s.update ∧ (s.setReg a v).dbg = s.dbg ∧
    (s.setReg a v).hft = s.hft ∧ (s.setReg a v).free = s.free ∧ (s.setReg a v).seen = s.seen ∧
    (s.setReg a v).pending = s.pending ∧ (∀ r, (s.setReg a v).eff r = s.eff r) ∧ (∀ d, (s.setReg a v).rfe d = s.rfe d) ∧
    (∀ m, (s.setReg a v).lane m = s.lane m) ∧ (∀ m, (s.setReg a v).frame? m = s.frame? m) :=
  by repeat' apply And.intro
     all_goals first | rfl | (intro _; rfl) | (intro d; cases d <;> rfl)

/-- The fields after `setFld`. -/
@[simp] theorem State.setFld_fields (x : Fld) (n : Nat) :
    (s.setFld x n).regs = sparseSet regReset s.regs x.reg (x.put (s.reg x.reg) n) ∧ (s.setFld x n).inForce = s.inForce ∧
    (s.setFld x n).snap = s.snap ∧ (s.setFld x n).sram = s.sram ∧ (s.setFld x n).recRam = s.recRam ∧
    (s.setFld x n).mram = s.mram ∧ (s.setFld x n).mramFlip = s.mramFlip ∧ (s.setFld x n).lines = s.lines ∧
    (s.setFld x n).radio = s.radio ∧ (s.setFld x n).crypto = s.crypto ∧ (s.setFld x n).keys = s.keys ∧
    (s.setFld x n).pke = s.pke ∧ (s.setFld x n).trng = s.trng ∧ (s.setFld x n).access = s.access ∧
    (s.setFld x n).cores = s.cores ∧ (s.setFld x n).nvm = s.nvm ∧ (s.setFld x n).sys = s.sys ∧
    (s.setFld x n).plinth = s.plinth ∧ (s.setFld x n).timers = s.timers ∧ (s.setFld x n).uart = s.uart ∧
    (s.setFld x n).mbox = s.mbox ∧ (s.setFld x n).adsin = s.adsin ∧ (s.setFld x n).fabric = s.fabric ∧
    (s.setFld x n).assay = s.assay ∧ (s.setFld x n).update = s.update ∧ (s.setFld x n).dbg = s.dbg ∧
    (s.setFld x n).hft = s.hft ∧ (s.setFld x n).free = s.free ∧ (s.setFld x n).seen = s.seen ∧
    (s.setFld x n).pending = s.pending ∧ (∀ r, (s.setFld x n).eff r = s.eff r) ∧ (∀ d, (s.setFld x n).rfe d = s.rfe d) ∧
    (∀ m, (s.setFld x n).lane m = s.lane m) ∧ (∀ m, (s.setFld x n).frame? m = s.frame? m) :=
  by repeat' apply And.intro
     all_goals first | rfl | (intro _; rfl) | (intro d; cases d <;> rfl)

/-- The fields after `setFlag`. -/
@[simp] theorem State.setFlag_fields (x : Fld) (b : Bool) :
    (s.setFlag x b).regs = sparseSet regReset s.regs x.reg (x.put (s.reg x.reg) (bit b)) ∧
    (s.setFlag x b).inForce = s.inForce ∧ (s.setFlag x b).snap = s.snap ∧ (s.setFlag x b).sram = s.sram ∧
    (s.setFlag x b).recRam = s.recRam ∧ (s.setFlag x b).mram = s.mram ∧ (s.setFlag x b).mramFlip = s.mramFlip ∧
    (s.setFlag x b).lines = s.lines ∧ (s.setFlag x b).radio = s.radio ∧ (s.setFlag x b).crypto = s.crypto ∧
    (s.setFlag x b).keys = s.keys ∧ (s.setFlag x b).pke = s.pke ∧ (s.setFlag x b).trng = s.trng ∧
    (s.setFlag x b).access = s.access ∧ (s.setFlag x b).cores = s.cores ∧ (s.setFlag x b).nvm = s.nvm ∧
    (s.setFlag x b).sys = s.sys ∧ (s.setFlag x b).plinth = s.plinth ∧ (s.setFlag x b).timers = s.timers ∧
    (s.setFlag x b).uart = s.uart ∧ (s.setFlag x b).mbox = s.mbox ∧ (s.setFlag x b).adsin = s.adsin ∧
    (s.setFlag x b).fabric = s.fabric ∧ (s.setFlag x b).assay = s.assay ∧ (s.setFlag x b).update = s.update ∧
    (s.setFlag x b).dbg = s.dbg ∧ (s.setFlag x b).hft = s.hft ∧ (s.setFlag x b).free = s.free ∧
    (s.setFlag x b).seen = s.seen ∧ (s.setFlag x b).pending = s.pending ∧ (∀ r, (s.setFlag x b).eff r = s.eff r) ∧
    (∀ d, (s.setFlag x b).rfe d = s.rfe d) ∧ (∀ m, (s.setFlag x b).lane m = s.lane m) ∧
    (∀ m, (s.setFlag x b).frame? m = s.frame? m) :=
  by repeat' apply And.intro
     all_goals first | rfl | (intro _; rfl) | (intro d; cases d <;> rfl)

/-- The fields after `plainWrite`. -/
@[simp] theorem State.plainWrite_fields (a : Nat) (w : Half) :
    (s.plainWrite a w).inForce = s.inForce ∧ (s.plainWrite a w).snap = s.snap ∧ (s.plainWrite a w).sram = s.sram ∧
    (s.plainWrite a w).recRam = s.recRam ∧ (s.plainWrite a w).mram = s.mram ∧ (s.plainWrite a w).mramFlip = s.mramFlip ∧
    (s.plainWrite a w).lines = s.lines ∧ (s.plainWrite a w).radio = s.radio ∧ (s.plainWrite a w).crypto = s.crypto ∧
    (s.plainWrite a w).keys = s.keys ∧ (s.plainWrite a w).pke = s.pke ∧ (s.plainWrite a w).trng = s.trng ∧
    (s.plainWrite a w).access = s.access ∧ (s.plainWrite a w).cores = s.cores ∧ (s.plainWrite a w).nvm = s.nvm ∧
    (s.plainWrite a w).sys = s.sys ∧ (s.plainWrite a w).plinth = s.plinth ∧ (s.plainWrite a w).timers = s.timers ∧
    (s.plainWrite a w).uart = s.uart ∧ (s.plainWrite a w).mbox = s.mbox ∧ (s.plainWrite a w).adsin = s.adsin ∧
    (s.plainWrite a w).fabric = s.fabric ∧ (s.plainWrite a w).assay = s.assay ∧ (s.plainWrite a w).update = s.update ∧
    (s.plainWrite a w).dbg = s.dbg ∧ (s.plainWrite a w).hft = s.hft ∧ (s.plainWrite a w).free = s.free ∧
    (s.plainWrite a w).seen = s.seen ∧ (s.plainWrite a w).pending = s.pending ∧ (∀ r, (s.plainWrite a w).eff r = s.eff r) ∧
    (∀ d, (s.plainWrite a w).rfe d = s.rfe d) ∧ (∀ m, (s.plainWrite a w).lane m = s.lane m) ∧
    (∀ m, (s.plainWrite a w).frame? m = s.frame? m) :=
  by repeat' apply And.intro
     all_goals first | rfl | (intro _; rfl) | (intro d; cases d <;> rfl)

/-- The fields after `count`. -/
@[simp] theorem State.count_fields (a n : Nat) :
    (s.count a n).inForce = s.inForce ∧ (s.count a n).snap = s.snap ∧ (s.count a n).sram = s.sram ∧
    (s.count a n).recRam = s.recRam ∧ (s.count a n).mram = s.mram ∧ (s.count a n).mramFlip = s.mramFlip ∧
    (s.count a n).lines = s.lines ∧ (s.count a n).radio = s.radio ∧ (s.count a n).crypto = s.crypto ∧
    (s.count a n).keys = s.keys ∧ (s.count a n).pke = s.pke ∧ (s.count a n).trng = s.trng ∧
    (s.count a n).access = s.access ∧ (s.count a n).cores = s.cores ∧ (s.count a n).nvm = s.nvm ∧
    (s.count a n).sys = s.sys ∧ (s.count a n).plinth = s.plinth ∧ (s.count a n).timers = s.timers ∧
    (s.count a n).uart = s.uart ∧ (s.count a n).mbox = s.mbox ∧ (s.count a n).adsin = s.adsin ∧
    (s.count a n).fabric = s.fabric ∧ (s.count a n).assay = s.assay ∧ (s.count a n).update = s.update ∧
    (s.count a n).dbg = s.dbg ∧ (s.count a n).hft = s.hft ∧ (s.count a n).free = s.free ∧ (s.count a n).seen = s.seen ∧
    (s.count a n).pending = s.pending ∧ (∀ r, (s.count a n).eff r = s.eff r) ∧ (∀ d, (s.count a n).rfe d = s.rfe d) ∧
    (∀ m, (s.count a n).lane m = s.lane m) ∧ (∀ m, (s.count a n).frame? m = s.frame? m) :=
  by repeat' apply And.intro
     all_goals first | rfl | (intro _; rfl) | (intro d; cases d <;> rfl)

/-- The fields after `countFld`. -/
@[simp] theorem State.countFld_fields (x : Fld) (n : Nat) :
    (s.countFld x n).inForce = s.inForce ∧ (s.countFld x n).snap = s.snap ∧ (s.countFld x n).sram = s.sram ∧
    (s.countFld x n).recRam = s.recRam ∧ (s.countFld x n).mram = s.mram ∧ (s.countFld x n).mramFlip = s.mramFlip ∧
    (s.countFld x n).lines = s.lines ∧ (s.countFld x n).radio = s.radio ∧ (s.countFld x n).crypto = s.crypto ∧
    (s.countFld x n).keys = s.keys ∧ (s.countFld x n).pke = s.pke ∧ (s.countFld x n).trng = s.trng ∧
    (s.countFld x n).access = s.access ∧ (s.countFld x n).cores = s.cores ∧ (s.countFld x n).nvm = s.nvm ∧
    (s.countFld x n).sys = s.sys ∧ (s.countFld x n).plinth = s.plinth ∧ (s.countFld x n).timers = s.timers ∧
    (s.countFld x n).uart = s.uart ∧ (s.countFld x n).mbox = s.mbox ∧ (s.countFld x n).adsin = s.adsin ∧
    (s.countFld x n).fabric = s.fabric ∧ (s.countFld x n).assay = s.assay ∧ (s.countFld x n).update = s.update ∧
    (s.countFld x n).dbg = s.dbg ∧ (s.countFld x n).hft = s.hft ∧ (s.countFld x n).free = s.free ∧
    (s.countFld x n).seen = s.seen ∧ (s.countFld x n).pending = s.pending ∧ (∀ r, (s.countFld x n).eff r = s.eff r) ∧
    (∀ d, (s.countFld x n).rfe d = s.rfe d) ∧ (∀ m, (s.countFld x n).lane m = s.lane m) ∧
    (∀ m, (s.countFld x n).frame? m = s.frame? m) :=
  by repeat' apply And.intro
     all_goals first | rfl | (intro _; rfl) | (intro d; cases d <;> rfl)

/-- The fields after `setEff`. -/
@[simp] theorem State.setEff_fields (a : Nat) (v : Half) :
    (s.setEff a v).regs = s.regs ∧ (s.setEff a v).inForce = sparseSet regReset s.inForce a v ∧
    (s.setEff a v).snap = s.snap ∧ (s.setEff a v).sram = s.sram ∧ (s.setEff a v).recRam = s.recRam ∧
    (s.setEff a v).mram = s.mram ∧ (s.setEff a v).mramFlip = s.mramFlip ∧ (s.setEff a v).lines = s.lines ∧
    (s.setEff a v).radio = s.radio ∧ (s.setEff a v).crypto = s.crypto ∧ (s.setEff a v).keys = s.keys ∧
    (s.setEff a v).pke = s.pke ∧ (s.setEff a v).trng = s.trng ∧ (s.setEff a v).access = s.access ∧
    (s.setEff a v).cores = s.cores ∧ (s.setEff a v).nvm = s.nvm ∧ (s.setEff a v).sys = s.sys ∧
    (s.setEff a v).plinth = s.plinth ∧ (s.setEff a v).timers = s.timers ∧ (s.setEff a v).uart = s.uart ∧
    (s.setEff a v).mbox = s.mbox ∧ (s.setEff a v).adsin = s.adsin ∧ (s.setEff a v).fabric = s.fabric ∧
    (s.setEff a v).assay = s.assay ∧ (s.setEff a v).update = s.update ∧ (s.setEff a v).dbg = s.dbg ∧
    (s.setEff a v).hft = s.hft ∧ (s.setEff a v).free = s.free ∧ (s.setEff a v).seen = s.seen ∧
    (s.setEff a v).pending = s.pending ∧ (∀ r, (s.setEff a v).reg r = s.reg r) ∧ (∀ y, (s.setEff a v).fld y = s.fld y) ∧
    (∀ y, (s.setEff a v).flag y = s.flag y) ∧ (∀ d, (s.setEff a v).rfe d = s.rfe d) ∧
    (∀ m, (s.setEff a v).lane m = s.lane m) ∧ (∀ m, (s.setEff a v).frame? m = s.frame? m) :=
  by repeat' apply And.intro
     all_goals first | rfl | (intro _; rfl) | (intro d; cases d <;> rfl)

/-- The fields after `resetRegs`. -/
@[simp] theorem State.resetRegs_fields (lo hi : Nat) :
    (s.resetRegs lo hi).regs = sparseClear s.regs lo hi ∧ (s.resetRegs lo hi).inForce = sparseClear s.inForce lo hi ∧
    (s.resetRegs lo hi).snap = sparseClear s.snap lo hi ∧ (s.resetRegs lo hi).sram = s.sram ∧
    (s.resetRegs lo hi).recRam = s.recRam ∧ (s.resetRegs lo hi).mram = s.mram ∧ (s.resetRegs lo hi).mramFlip = s.mramFlip ∧
    (s.resetRegs lo hi).lines = s.lines ∧ (s.resetRegs lo hi).radio = s.radio ∧ (s.resetRegs lo hi).crypto = s.crypto ∧
    (s.resetRegs lo hi).keys = s.keys ∧ (s.resetRegs lo hi).pke = s.pke ∧ (s.resetRegs lo hi).trng = s.trng ∧
    (s.resetRegs lo hi).access = s.access ∧ (s.resetRegs lo hi).cores = s.cores ∧ (s.resetRegs lo hi).nvm = s.nvm ∧
    (s.resetRegs lo hi).sys = s.sys ∧ (s.resetRegs lo hi).plinth = s.plinth ∧ (s.resetRegs lo hi).timers = s.timers ∧
    (s.resetRegs lo hi).uart = s.uart ∧ (s.resetRegs lo hi).mbox = s.mbox ∧ (s.resetRegs lo hi).adsin = s.adsin ∧
    (s.resetRegs lo hi).fabric = s.fabric ∧ (s.resetRegs lo hi).assay = s.assay ∧ (s.resetRegs lo hi).update = s.update ∧
    (s.resetRegs lo hi).dbg = s.dbg ∧ (s.resetRegs lo hi).hft = s.hft ∧ (s.resetRegs lo hi).free = s.free ∧
    (s.resetRegs lo hi).seen = s.seen ∧ (s.resetRegs lo hi).pending = s.pending ∧
    (∀ d, (s.resetRegs lo hi).rfe d = s.rfe d) ∧ (∀ m, (s.resetRegs lo hi).lane m = s.lane m) ∧
    (∀ m, (s.resetRegs lo hi).frame? m = s.frame? m) :=
  by repeat' apply And.intro
     all_goals first | rfl | (intro _; rfl) | (intro d; cases d <;> rfl)

/-- The fields after `takeSnap`. -/
@[simp] theorem State.takeSnap_fields (l : List (Nat × Half)) :
    (s.takeSnap l).regs = s.regs ∧ (s.takeSnap l).inForce = s.inForce ∧
    (s.takeSnap l).snap = l.foldl (fun m p => sparseSet regReset m p.1 p.2) s.snap ∧ (s.takeSnap l).sram = s.sram ∧
    (s.takeSnap l).recRam = s.recRam ∧ (s.takeSnap l).mram = s.mram ∧ (s.takeSnap l).mramFlip = s.mramFlip ∧
    (s.takeSnap l).lines = s.lines ∧ (s.takeSnap l).radio = s.radio ∧ (s.takeSnap l).crypto = s.crypto ∧
    (s.takeSnap l).keys = s.keys ∧ (s.takeSnap l).pke = s.pke ∧ (s.takeSnap l).trng = s.trng ∧
    (s.takeSnap l).access = s.access ∧ (s.takeSnap l).cores = s.cores ∧ (s.takeSnap l).nvm = s.nvm ∧
    (s.takeSnap l).sys = s.sys ∧ (s.takeSnap l).plinth = s.plinth ∧ (s.takeSnap l).timers = s.timers ∧
    (s.takeSnap l).uart = s.uart ∧ (s.takeSnap l).mbox = s.mbox ∧ (s.takeSnap l).adsin = s.adsin ∧
    (s.takeSnap l).fabric = s.fabric ∧ (s.takeSnap l).assay = s.assay ∧ (s.takeSnap l).update = s.update ∧
    (s.takeSnap l).dbg = s.dbg ∧ (s.takeSnap l).hft = s.hft ∧ (s.takeSnap l).free = s.free ∧ (s.takeSnap l).seen = s.seen ∧
    (s.takeSnap l).pending = s.pending ∧ (∀ r, (s.takeSnap l).reg r = s.reg r) ∧ (∀ y, (s.takeSnap l).fld y = s.fld y) ∧
    (∀ y, (s.takeSnap l).flag y = s.flag y) ∧ (∀ r, (s.takeSnap l).eff r = s.eff r) ∧
    (∀ d, (s.takeSnap l).rfe d = s.rfe d) ∧ (∀ m, (s.takeSnap l).lane m = s.lane m) ∧
    (∀ m, (s.takeSnap l).frame? m = s.frame? m) :=
  by repeat' apply And.intro
     all_goals first | rfl | (intro _; rfl) | (intro d; cases d <;> rfl)

/-- The fields after `passTo`. -/
@[simp] theorem State.passTo_fields (t : Nat) :
    (s.passTo t).regs = s.regs ∧ (s.passTo t).inForce = s.inForce ∧ (s.passTo t).snap = s.snap ∧
    (s.passTo t).sram = s.sram ∧ (s.passTo t).recRam = s.recRam ∧ (s.passTo t).mram = s.mram ∧
    (s.passTo t).mramFlip = s.mramFlip ∧ (s.passTo t).lines = s.lines ∧ (s.passTo t).radio = s.radio ∧
    (s.passTo t).crypto = s.crypto ∧ (s.passTo t).keys = s.keys ∧ (s.passTo t).pke = s.pke ∧ (s.passTo t).trng = s.trng ∧
    (s.passTo t).access = s.access ∧ (s.passTo t).cores = s.cores ∧ (s.passTo t).nvm = s.nvm ∧ (s.passTo t).sys = s.sys ∧
    (s.passTo t).plinth = s.plinth ∧ (s.passTo t).timers = s.timers ∧ (s.passTo t).uart = s.uart ∧
    (s.passTo t).mbox = s.mbox ∧ (s.passTo t).adsin = s.adsin ∧ (s.passTo t).fabric = s.fabric ∧
    (s.passTo t).assay = s.assay ∧ (s.passTo t).update = s.update ∧ (s.passTo t).dbg = s.dbg ∧
    (s.passTo t).hft = (if s.sys.xoRun then max s.hft t else s.hft) ∧ (s.passTo t).free = s.free ∧
    (s.passTo t).seen = s.seen ∧ (s.passTo t).pending = s.pending ∧ (∀ r, (s.passTo t).reg r = s.reg r) ∧
    (∀ y, (s.passTo t).fld y = s.fld y) ∧ (∀ y, (s.passTo t).flag y = s.flag y) ∧ (∀ r, (s.passTo t).eff r = s.eff r) ∧
    (∀ d, (s.passTo t).rfe d = s.rfe d) ∧ (∀ m, (s.passTo t).lane m = s.lane m) ∧ (∀ m, (s.passTo t).frame? m = s.frame? m) :=
  by repeat' apply And.intro
     all_goals first | rfl | (intro _; rfl) | (intro d; cases d <;> rfl)

/-- The fields after `see`. -/
@[simp] theorem State.see_fields (x : Seen) :
    (s.see x).regs = s.regs ∧ (s.see x).inForce = s.inForce ∧ (s.see x).snap = s.snap ∧ (s.see x).sram = s.sram ∧
    (s.see x).recRam = s.recRam ∧ (s.see x).mram = s.mram ∧ (s.see x).mramFlip = s.mramFlip ∧ (s.see x).lines = s.lines ∧
    (s.see x).radio = s.radio ∧ (s.see x).crypto = s.crypto ∧ (s.see x).keys = s.keys ∧ (s.see x).pke = s.pke ∧
    (s.see x).trng = s.trng ∧ (s.see x).access = s.access ∧ (s.see x).cores = s.cores ∧ (s.see x).nvm = s.nvm ∧
    (s.see x).sys = s.sys ∧ (s.see x).plinth = s.plinth ∧ (s.see x).timers = s.timers ∧ (s.see x).uart = s.uart ∧
    (s.see x).mbox = s.mbox ∧ (s.see x).adsin = s.adsin ∧ (s.see x).fabric = s.fabric ∧ (s.see x).assay = s.assay ∧
    (s.see x).update = s.update ∧ (s.see x).dbg = s.dbg ∧ (s.see x).hft = s.hft ∧ (s.see x).free = s.free ∧
    (s.see x).seen = x ∧ (s.see x).pending = s.pending ∧ (∀ r, (s.see x).reg r = s.reg r) ∧
    (∀ y, (s.see x).fld y = s.fld y) ∧ (∀ y, (s.see x).flag y = s.flag y) ∧ (∀ r, (s.see x).eff r = s.eff r) ∧
    (∀ d, (s.see x).rfe d = s.rfe d) ∧ (∀ m, (s.see x).lane m = s.lane m) ∧ (∀ m, (s.see x).frame? m = s.frame? m) :=
  by repeat' apply And.intro
     all_goals first | rfl | (intro _; rfl) | (intro d; cases d <;> rfl)

/-- The fields after `modRadio`. -/
@[simp] theorem State.modRadio_fields (f : Radio → Radio) :
    (s.modRadio f).regs = s.regs ∧ (s.modRadio f).inForce = s.inForce ∧ (s.modRadio f).snap = s.snap ∧
    (s.modRadio f).sram = s.sram ∧ (s.modRadio f).recRam = s.recRam ∧ (s.modRadio f).mram = s.mram ∧
    (s.modRadio f).mramFlip = s.mramFlip ∧ (s.modRadio f).lines = s.lines ∧ (s.modRadio f).radio = f s.radio ∧
    (s.modRadio f).crypto = s.crypto ∧ (s.modRadio f).keys = s.keys ∧ (s.modRadio f).pke = s.pke ∧
    (s.modRadio f).trng = s.trng ∧ (s.modRadio f).access = s.access ∧ (s.modRadio f).cores = s.cores ∧
    (s.modRadio f).nvm = s.nvm ∧ (s.modRadio f).sys = s.sys ∧ (s.modRadio f).plinth = s.plinth ∧
    (s.modRadio f).timers = s.timers ∧ (s.modRadio f).uart = s.uart ∧ (s.modRadio f).mbox = s.mbox ∧
    (s.modRadio f).adsin = s.adsin ∧ (s.modRadio f).fabric = s.fabric ∧ (s.modRadio f).assay = s.assay ∧
    (s.modRadio f).update = s.update ∧ (s.modRadio f).dbg = s.dbg ∧ (s.modRadio f).hft = s.hft ∧
    (s.modRadio f).free = s.free ∧ (s.modRadio f).seen = s.seen ∧ (s.modRadio f).pending = s.pending ∧
    (∀ r, (s.modRadio f).reg r = s.reg r) ∧ (∀ y, (s.modRadio f).fld y = s.fld y) ∧
    (∀ y, (s.modRadio f).flag y = s.flag y) ∧ (∀ r, (s.modRadio f).eff r = s.eff r) :=
  by repeat' apply And.intro
     all_goals first | rfl | (intro _; rfl) | (intro d; cases d <;> rfl)

/-- The fields after `modRfe`. -/
@[simp] theorem State.modRfe_fields (b : Band) (f : Rfe → Rfe) :
    (s.modRfe b f).regs = s.regs ∧ (s.modRfe b f).inForce = s.inForce ∧ (s.modRfe b f).snap = s.snap ∧
    (s.modRfe b f).sram = s.sram ∧ (s.modRfe b f).recRam = s.recRam ∧ (s.modRfe b f).mram = s.mram ∧
    (s.modRfe b f).mramFlip = s.mramFlip ∧ (s.modRfe b f).lines = s.lines ∧ (s.modRfe b f).crypto = s.crypto ∧
    (s.modRfe b f).keys = s.keys ∧ (s.modRfe b f).pke = s.pke ∧ (s.modRfe b f).trng = s.trng ∧
    (s.modRfe b f).access = s.access ∧ (s.modRfe b f).cores = s.cores ∧ (s.modRfe b f).nvm = s.nvm ∧
    (s.modRfe b f).sys = s.sys ∧ (s.modRfe b f).plinth = s.plinth ∧ (s.modRfe b f).timers = s.timers ∧
    (s.modRfe b f).uart = s.uart ∧ (s.modRfe b f).mbox = s.mbox ∧ (s.modRfe b f).adsin = s.adsin ∧
    (s.modRfe b f).fabric = s.fabric ∧ (s.modRfe b f).assay = s.assay ∧ (s.modRfe b f).update = s.update ∧
    (s.modRfe b f).dbg = s.dbg ∧ (s.modRfe b f).hft = s.hft ∧ (s.modRfe b f).free = s.free ∧ (s.modRfe b f).seen = s.seen ∧
    (s.modRfe b f).pending = s.pending ∧ (∀ r, (s.modRfe b f).reg r = s.reg r) ∧ (∀ y, (s.modRfe b f).fld y = s.fld y) ∧
    (∀ y, (s.modRfe b f).flag y = s.flag y) ∧ (∀ r, (s.modRfe b f).eff r = s.eff r) ∧
    (∀ m, (s.modRfe b f).lane m = s.lane m) ∧ (∀ m, (s.modRfe b f).frame? m = s.frame? m) :=
  by repeat' apply And.intro
     all_goals first | rfl | (intro _; rfl) | (intro _; cases b <;> rfl)

/-- The fields after `modLane`. -/
@[simp] theorem State.modLane_fields (n : Nat) (f : Lane → Lane) :
    (s.modLane n f).regs = s.regs ∧ (s.modLane n f).inForce = s.inForce ∧ (s.modLane n f).snap = s.snap ∧
    (s.modLane n f).sram = s.sram ∧ (s.modLane n f).recRam = s.recRam ∧ (s.modLane n f).mram = s.mram ∧
    (s.modLane n f).mramFlip = s.mramFlip ∧ (s.modLane n f).lines = s.lines ∧ (s.modLane n f).crypto = s.crypto ∧
    (s.modLane n f).keys = s.keys ∧ (s.modLane n f).pke = s.pke ∧ (s.modLane n f).trng = s.trng ∧
    (s.modLane n f).access = s.access ∧ (s.modLane n f).cores = s.cores ∧ (s.modLane n f).nvm = s.nvm ∧
    (s.modLane n f).sys = s.sys ∧ (s.modLane n f).plinth = s.plinth ∧ (s.modLane n f).timers = s.timers ∧
    (s.modLane n f).uart = s.uart ∧ (s.modLane n f).mbox = s.mbox ∧ (s.modLane n f).adsin = s.adsin ∧
    (s.modLane n f).fabric = s.fabric ∧ (s.modLane n f).assay = s.assay ∧ (s.modLane n f).update = s.update ∧
    (s.modLane n f).dbg = s.dbg ∧ (s.modLane n f).hft = s.hft ∧ (s.modLane n f).free = s.free ∧
    (s.modLane n f).seen = s.seen ∧ (s.modLane n f).pending = s.pending ∧ (∀ r, (s.modLane n f).reg r = s.reg r) ∧
    (∀ y, (s.modLane n f).fld y = s.fld y) ∧ (∀ y, (s.modLane n f).flag y = s.flag y) ∧
    (∀ r, (s.modLane n f).eff r = s.eff r) ∧ (∀ d, (s.modLane n f).rfe d = s.rfe d) ∧
    (∀ m, (s.modLane n f).frame? m = s.frame? m) :=
  by repeat' apply And.intro
     all_goals first | rfl | (intro _; rfl) | (intro d; cases d <;> rfl)

/-- The fields after `modFrame`. -/
@[simp] theorem State.modFrame_fields (n : Nat) (f : Frame → Frame) :
    (s.modFrame n f).regs = s.regs ∧ (s.modFrame n f).inForce = s.inForce ∧ (s.modFrame n f).snap = s.snap ∧
    (s.modFrame n f).sram = s.sram ∧ (s.modFrame n f).recRam = s.recRam ∧ (s.modFrame n f).mram = s.mram ∧
    (s.modFrame n f).mramFlip = s.mramFlip ∧ (s.modFrame n f).lines = s.lines ∧ (s.modFrame n f).crypto = s.crypto ∧
    (s.modFrame n f).keys = s.keys ∧ (s.modFrame n f).pke = s.pke ∧ (s.modFrame n f).trng = s.trng ∧
    (s.modFrame n f).access = s.access ∧ (s.modFrame n f).cores = s.cores ∧ (s.modFrame n f).nvm = s.nvm ∧
    (s.modFrame n f).sys = s.sys ∧ (s.modFrame n f).plinth = s.plinth ∧ (s.modFrame n f).timers = s.timers ∧
    (s.modFrame n f).uart = s.uart ∧ (s.modFrame n f).mbox = s.mbox ∧ (s.modFrame n f).adsin = s.adsin ∧
    (s.modFrame n f).fabric = s.fabric ∧ (s.modFrame n f).assay = s.assay ∧ (s.modFrame n f).update = s.update ∧
    (s.modFrame n f).dbg = s.dbg ∧ (s.modFrame n f).hft = s.hft ∧ (s.modFrame n f).free = s.free ∧
    (s.modFrame n f).seen = s.seen ∧ (s.modFrame n f).pending = s.pending ∧ (∀ r, (s.modFrame n f).reg r = s.reg r) ∧
    (∀ y, (s.modFrame n f).fld y = s.fld y) ∧ (∀ y, (s.modFrame n f).flag y = s.flag y) ∧
    (∀ r, (s.modFrame n f).eff r = s.eff r) ∧ (∀ d, (s.modFrame n f).rfe d = s.rfe d) ∧
    (∀ m, (s.modFrame n f).lane m = s.lane m) :=
  by repeat' apply And.intro
     all_goals first | rfl | (intro _; rfl) | (intro d; cases d <;> rfl)

/-- The fields after `dropFrame`. -/
@[simp] theorem State.dropFrame_fields (n : Nat) :
    (s.dropFrame n).regs = s.regs ∧ (s.dropFrame n).inForce = s.inForce ∧ (s.dropFrame n).snap = s.snap ∧
    (s.dropFrame n).sram = s.sram ∧ (s.dropFrame n).recRam = s.recRam ∧ (s.dropFrame n).mram = s.mram ∧
    (s.dropFrame n).mramFlip = s.mramFlip ∧ (s.dropFrame n).lines = s.lines ∧ (s.dropFrame n).crypto = s.crypto ∧
    (s.dropFrame n).keys = s.keys ∧ (s.dropFrame n).pke = s.pke ∧ (s.dropFrame n).trng = s.trng ∧
    (s.dropFrame n).access = s.access ∧ (s.dropFrame n).cores = s.cores ∧ (s.dropFrame n).nvm = s.nvm ∧
    (s.dropFrame n).sys = s.sys ∧ (s.dropFrame n).plinth = s.plinth ∧ (s.dropFrame n).timers = s.timers ∧
    (s.dropFrame n).uart = s.uart ∧ (s.dropFrame n).mbox = s.mbox ∧ (s.dropFrame n).adsin = s.adsin ∧
    (s.dropFrame n).fabric = s.fabric ∧ (s.dropFrame n).assay = s.assay ∧ (s.dropFrame n).update = s.update ∧
    (s.dropFrame n).dbg = s.dbg ∧ (s.dropFrame n).hft = s.hft ∧ (s.dropFrame n).free = s.free ∧
    (s.dropFrame n).seen = s.seen ∧ (s.dropFrame n).pending = s.pending ∧ (∀ r, (s.dropFrame n).reg r = s.reg r) ∧
    (∀ y, (s.dropFrame n).fld y = s.fld y) ∧ (∀ y, (s.dropFrame n).flag y = s.flag y) ∧
    (∀ r, (s.dropFrame n).eff r = s.eff r) ∧ (∀ d, (s.dropFrame n).rfe d = s.rfe d) ∧
    (∀ m, (s.dropFrame n).lane m = s.lane m) :=
  by repeat' apply And.intro
     all_goals first | rfl | (intro _; rfl) | (intro d; cases d <;> rfl)

/-- The fields after `modRec`. -/
@[simp] theorem State.modRec_fields (f : Rec → Rec) :
    (s.modRec f).regs = s.regs ∧ (s.modRec f).inForce = s.inForce ∧ (s.modRec f).snap = s.snap ∧
    (s.modRec f).sram = s.sram ∧ (s.modRec f).recRam = s.recRam ∧ (s.modRec f).mram = s.mram ∧
    (s.modRec f).mramFlip = s.mramFlip ∧ (s.modRec f).lines = s.lines ∧
    (s.modRec f).radio = { s.radio with recd := f s.radio.recd } ∧ (s.modRec f).crypto = s.crypto ∧
    (s.modRec f).keys = s.keys ∧ (s.modRec f).pke = s.pke ∧ (s.modRec f).trng = s.trng ∧ (s.modRec f).access = s.access ∧
    (s.modRec f).cores = s.cores ∧ (s.modRec f).nvm = s.nvm ∧ (s.modRec f).sys = s.sys ∧ (s.modRec f).plinth = s.plinth ∧
    (s.modRec f).timers = s.timers ∧ (s.modRec f).uart = s.uart ∧ (s.modRec f).mbox = s.mbox ∧
    (s.modRec f).adsin = s.adsin ∧ (s.modRec f).fabric = s.fabric ∧ (s.modRec f).assay = s.assay ∧
    (s.modRec f).update = s.update ∧ (s.modRec f).dbg = s.dbg ∧ (s.modRec f).hft = s.hft ∧ (s.modRec f).free = s.free ∧
    (s.modRec f).seen = s.seen ∧ (s.modRec f).pending = s.pending ∧ (∀ r, (s.modRec f).reg r = s.reg r) ∧
    (∀ y, (s.modRec f).fld y = s.fld y) ∧ (∀ y, (s.modRec f).flag y = s.flag y) ∧ (∀ r, (s.modRec f).eff r = s.eff r) ∧
    (∀ d, (s.modRec f).rfe d = s.rfe d) ∧ (∀ m, (s.modRec f).lane m = s.lane m) ∧ (∀ m, (s.modRec f).frame? m = s.frame? m) :=
  by repeat' apply And.intro
     all_goals first | rfl | (intro _; rfl) | (intro d; cases d <;> rfl)

/-- The fields after `modCourse`. -/
@[simp] theorem State.modCourse_fields (f : Course → Course) :
    (s.modCourse f).regs = s.regs ∧ (s.modCourse f).inForce = s.inForce ∧ (s.modCourse f).snap = s.snap ∧
    (s.modCourse f).sram = s.sram ∧ (s.modCourse f).recRam = s.recRam ∧ (s.modCourse f).mram = s.mram ∧
    (s.modCourse f).mramFlip = s.mramFlip ∧ (s.modCourse f).lines = s.lines ∧
    (s.modCourse f).radio = { s.radio with course := f s.radio.course } ∧ (s.modCourse f).crypto = s.crypto ∧
    (s.modCourse f).keys = s.keys ∧ (s.modCourse f).pke = s.pke ∧ (s.modCourse f).trng = s.trng ∧
    (s.modCourse f).access = s.access ∧ (s.modCourse f).cores = s.cores ∧ (s.modCourse f).nvm = s.nvm ∧
    (s.modCourse f).sys = s.sys ∧ (s.modCourse f).plinth = s.plinth ∧ (s.modCourse f).timers = s.timers ∧
    (s.modCourse f).uart = s.uart ∧ (s.modCourse f).mbox = s.mbox ∧ (s.modCourse f).adsin = s.adsin ∧
    (s.modCourse f).fabric = s.fabric ∧ (s.modCourse f).assay = s.assay ∧ (s.modCourse f).update = s.update ∧
    (s.modCourse f).dbg = s.dbg ∧ (s.modCourse f).hft = s.hft ∧ (s.modCourse f).free = s.free ∧
    (s.modCourse f).seen = s.seen ∧ (s.modCourse f).pending = s.pending ∧ (∀ r, (s.modCourse f).reg r = s.reg r) ∧
    (∀ y, (s.modCourse f).fld y = s.fld y) ∧ (∀ y, (s.modCourse f).flag y = s.flag y) ∧
    (∀ r, (s.modCourse f).eff r = s.eff r) ∧ (∀ d, (s.modCourse f).rfe d = s.rfe d) ∧
    (∀ m, (s.modCourse f).lane m = s.lane m) ∧ (∀ m, (s.modCourse f).frame? m = s.frame? m) :=
  by repeat' apply And.intro
     all_goals first | rfl | (intro _; rfl) | (intro d; cases d <;> rfl)

/-- The fields after `modHod`. -/
@[simp] theorem State.modHod_fields (f : Hod → Hod) :
    (s.modHod f).regs = s.regs ∧ (s.modHod f).inForce = s.inForce ∧ (s.modHod f).snap = s.snap ∧
    (s.modHod f).sram = s.sram ∧ (s.modHod f).recRam = s.recRam ∧ (s.modHod f).mram = s.mram ∧
    (s.modHod f).mramFlip = s.mramFlip ∧ (s.modHod f).lines = s.lines ∧
    (s.modHod f).radio = { s.radio with hod := f s.radio.hod } ∧ (s.modHod f).crypto = s.crypto ∧
    (s.modHod f).keys = s.keys ∧ (s.modHod f).pke = s.pke ∧ (s.modHod f).trng = s.trng ∧ (s.modHod f).access = s.access ∧
    (s.modHod f).cores = s.cores ∧ (s.modHod f).nvm = s.nvm ∧ (s.modHod f).sys = s.sys ∧ (s.modHod f).plinth = s.plinth ∧
    (s.modHod f).timers = s.timers ∧ (s.modHod f).uart = s.uart ∧ (s.modHod f).mbox = s.mbox ∧
    (s.modHod f).adsin = s.adsin ∧ (s.modHod f).fabric = s.fabric ∧ (s.modHod f).assay = s.assay ∧
    (s.modHod f).update = s.update ∧ (s.modHod f).dbg = s.dbg ∧ (s.modHod f).hft = s.hft ∧ (s.modHod f).free = s.free ∧
    (s.modHod f).seen = s.seen ∧ (s.modHod f).pending = s.pending ∧ (∀ r, (s.modHod f).reg r = s.reg r) ∧
    (∀ y, (s.modHod f).fld y = s.fld y) ∧ (∀ y, (s.modHod f).flag y = s.flag y) ∧ (∀ r, (s.modHod f).eff r = s.eff r) ∧
    (∀ d, (s.modHod f).rfe d = s.rfe d) ∧ (∀ m, (s.modHod f).lane m = s.lane m) ∧ (∀ m, (s.modHod f).frame? m = s.frame? m) :=
  by repeat' apply And.intro
     all_goals first | rfl | (intro _; rfl) | (intro d; cases d <;> rfl)

/-- The fields after `modAshlar`. -/
@[simp] theorem State.modAshlar_fields (f : Ashlar → Ashlar) :
    (s.modAshlar f).regs = s.regs ∧ (s.modAshlar f).inForce = s.inForce ∧ (s.modAshlar f).snap = s.snap ∧
    (s.modAshlar f).sram = s.sram ∧ (s.modAshlar f).recRam = s.recRam ∧ (s.modAshlar f).mram = s.mram ∧
    (s.modAshlar f).mramFlip = s.mramFlip ∧ (s.modAshlar f).lines = s.lines ∧
    (s.modAshlar f).radio = { s.radio with ashlar := f s.radio.ashlar } ∧ (s.modAshlar f).crypto = s.crypto ∧
    (s.modAshlar f).keys = s.keys ∧ (s.modAshlar f).pke = s.pke ∧ (s.modAshlar f).trng = s.trng ∧
    (s.modAshlar f).access = s.access ∧ (s.modAshlar f).cores = s.cores ∧ (s.modAshlar f).nvm = s.nvm ∧
    (s.modAshlar f).sys = s.sys ∧ (s.modAshlar f).plinth = s.plinth ∧ (s.modAshlar f).timers = s.timers ∧
    (s.modAshlar f).uart = s.uart ∧ (s.modAshlar f).mbox = s.mbox ∧ (s.modAshlar f).adsin = s.adsin ∧
    (s.modAshlar f).fabric = s.fabric ∧ (s.modAshlar f).assay = s.assay ∧ (s.modAshlar f).update = s.update ∧
    (s.modAshlar f).dbg = s.dbg ∧ (s.modAshlar f).hft = s.hft ∧ (s.modAshlar f).free = s.free ∧
    (s.modAshlar f).seen = s.seen ∧ (s.modAshlar f).pending = s.pending ∧ (∀ r, (s.modAshlar f).reg r = s.reg r) ∧
    (∀ y, (s.modAshlar f).fld y = s.fld y) ∧ (∀ y, (s.modAshlar f).flag y = s.flag y) ∧
    (∀ r, (s.modAshlar f).eff r = s.eff r) ∧ (∀ d, (s.modAshlar f).rfe d = s.rfe d) ∧
    (∀ m, (s.modAshlar f).lane m = s.lane m) ∧ (∀ m, (s.modAshlar f).frame? m = s.frame? m) :=
  by repeat' apply And.intro
     all_goals first | rfl | (intro _; rfl) | (intro d; cases d <;> rfl)

/-- The fields after `modCrypto`. -/
@[simp] theorem State.modCrypto_fields (f : Crypto → Crypto) :
    (s.modCrypto f).regs = s.regs ∧ (s.modCrypto f).inForce = s.inForce ∧ (s.modCrypto f).snap = s.snap ∧
    (s.modCrypto f).sram = s.sram ∧ (s.modCrypto f).recRam = s.recRam ∧ (s.modCrypto f).mram = s.mram ∧
    (s.modCrypto f).mramFlip = s.mramFlip ∧ (s.modCrypto f).lines = s.lines ∧ (s.modCrypto f).radio = s.radio ∧
    (s.modCrypto f).crypto = f s.crypto ∧ (s.modCrypto f).keys = s.keys ∧ (s.modCrypto f).pke = s.pke ∧
    (s.modCrypto f).trng = s.trng ∧ (s.modCrypto f).access = s.access ∧ (s.modCrypto f).cores = s.cores ∧
    (s.modCrypto f).nvm = s.nvm ∧ (s.modCrypto f).sys = s.sys ∧ (s.modCrypto f).plinth = s.plinth ∧
    (s.modCrypto f).timers = s.timers ∧ (s.modCrypto f).uart = s.uart ∧ (s.modCrypto f).mbox = s.mbox ∧
    (s.modCrypto f).adsin = s.adsin ∧ (s.modCrypto f).fabric = s.fabric ∧ (s.modCrypto f).assay = s.assay ∧
    (s.modCrypto f).update = s.update ∧ (s.modCrypto f).dbg = s.dbg ∧ (s.modCrypto f).hft = s.hft ∧
    (s.modCrypto f).free = s.free ∧ (s.modCrypto f).seen = s.seen ∧ (s.modCrypto f).pending = s.pending ∧
    (∀ r, (s.modCrypto f).reg r = s.reg r) ∧ (∀ y, (s.modCrypto f).fld y = s.fld y) ∧
    (∀ y, (s.modCrypto f).flag y = s.flag y) ∧ (∀ r, (s.modCrypto f).eff r = s.eff r) ∧
    (∀ d, (s.modCrypto f).rfe d = s.rfe d) ∧ (∀ m, (s.modCrypto f).lane m = s.lane m) ∧
    (∀ m, (s.modCrypto f).frame? m = s.frame? m) :=
  by repeat' apply And.intro
     all_goals first | rfl | (intro _; rfl) | (intro d; cases d <;> rfl)

/-- The fields after `modKeys`. -/
@[simp] theorem State.modKeys_fields (f : Keys → Keys) :
    (s.modKeys f).regs = s.regs ∧ (s.modKeys f).inForce = s.inForce ∧ (s.modKeys f).snap = s.snap ∧
    (s.modKeys f).sram = s.sram ∧ (s.modKeys f).recRam = s.recRam ∧ (s.modKeys f).mram = s.mram ∧
    (s.modKeys f).mramFlip = s.mramFlip ∧ (s.modKeys f).lines = s.lines ∧ (s.modKeys f).radio = s.radio ∧
    (s.modKeys f).crypto = s.crypto ∧ (s.modKeys f).keys = f s.keys ∧ (s.modKeys f).pke = s.pke ∧
    (s.modKeys f).trng = s.trng ∧ (s.modKeys f).access = s.access ∧ (s.modKeys f).cores = s.cores ∧
    (s.modKeys f).nvm = s.nvm ∧ (s.modKeys f).sys = s.sys ∧ (s.modKeys f).plinth = s.plinth ∧
    (s.modKeys f).timers = s.timers ∧ (s.modKeys f).uart = s.uart ∧ (s.modKeys f).mbox = s.mbox ∧
    (s.modKeys f).adsin = s.adsin ∧ (s.modKeys f).fabric = s.fabric ∧ (s.modKeys f).assay = s.assay ∧
    (s.modKeys f).update = s.update ∧ (s.modKeys f).dbg = s.dbg ∧ (s.modKeys f).hft = s.hft ∧ (s.modKeys f).free = s.free ∧
    (s.modKeys f).seen = s.seen ∧ (s.modKeys f).pending = s.pending ∧ (∀ r, (s.modKeys f).reg r = s.reg r) ∧
    (∀ y, (s.modKeys f).fld y = s.fld y) ∧ (∀ y, (s.modKeys f).flag y = s.flag y) ∧ (∀ r, (s.modKeys f).eff r = s.eff r) ∧
    (∀ d, (s.modKeys f).rfe d = s.rfe d) ∧ (∀ m, (s.modKeys f).lane m = s.lane m) ∧
    (∀ m, (s.modKeys f).frame? m = s.frame? m) :=
  by repeat' apply And.intro
     all_goals first | rfl | (intro _; rfl) | (intro d; cases d <;> rfl)

/-- The fields after `modPke`. -/
@[simp] theorem State.modPke_fields (f : Pke → Pke) :
    (s.modPke f).regs = s.regs ∧ (s.modPke f).inForce = s.inForce ∧ (s.modPke f).snap = s.snap ∧
    (s.modPke f).sram = s.sram ∧ (s.modPke f).recRam = s.recRam ∧ (s.modPke f).mram = s.mram ∧
    (s.modPke f).mramFlip = s.mramFlip ∧ (s.modPke f).lines = s.lines ∧ (s.modPke f).radio = s.radio ∧
    (s.modPke f).crypto = s.crypto ∧ (s.modPke f).keys = s.keys ∧ (s.modPke f).pke = f s.pke ∧ (s.modPke f).trng = s.trng ∧
    (s.modPke f).access = s.access ∧ (s.modPke f).cores = s.cores ∧ (s.modPke f).nvm = s.nvm ∧ (s.modPke f).sys = s.sys ∧
    (s.modPke f).plinth = s.plinth ∧ (s.modPke f).timers = s.timers ∧ (s.modPke f).uart = s.uart ∧
    (s.modPke f).mbox = s.mbox ∧ (s.modPke f).adsin = s.adsin ∧ (s.modPke f).fabric = s.fabric ∧
    (s.modPke f).assay = s.assay ∧ (s.modPke f).update = s.update ∧ (s.modPke f).dbg = s.dbg ∧ (s.modPke f).hft = s.hft ∧
    (s.modPke f).free = s.free ∧ (s.modPke f).seen = s.seen ∧ (s.modPke f).pending = s.pending ∧
    (∀ r, (s.modPke f).reg r = s.reg r) ∧ (∀ y, (s.modPke f).fld y = s.fld y) ∧ (∀ y, (s.modPke f).flag y = s.flag y) ∧
    (∀ r, (s.modPke f).eff r = s.eff r) ∧ (∀ d, (s.modPke f).rfe d = s.rfe d) ∧ (∀ m, (s.modPke f).lane m = s.lane m) ∧
    (∀ m, (s.modPke f).frame? m = s.frame? m) :=
  by repeat' apply And.intro
     all_goals first | rfl | (intro _; rfl) | (intro d; cases d <;> rfl)

/-- The fields after `modTrng`. -/
@[simp] theorem State.modTrng_fields (f : Trng → Trng) :
    (s.modTrng f).regs = s.regs ∧ (s.modTrng f).inForce = s.inForce ∧ (s.modTrng f).snap = s.snap ∧
    (s.modTrng f).sram = s.sram ∧ (s.modTrng f).recRam = s.recRam ∧ (s.modTrng f).mram = s.mram ∧
    (s.modTrng f).mramFlip = s.mramFlip ∧ (s.modTrng f).lines = s.lines ∧ (s.modTrng f).radio = s.radio ∧
    (s.modTrng f).crypto = s.crypto ∧ (s.modTrng f).keys = s.keys ∧ (s.modTrng f).pke = s.pke ∧
    (s.modTrng f).trng = f s.trng ∧ (s.modTrng f).access = s.access ∧ (s.modTrng f).cores = s.cores ∧
    (s.modTrng f).nvm = s.nvm ∧ (s.modTrng f).sys = s.sys ∧ (s.modTrng f).plinth = s.plinth ∧
    (s.modTrng f).timers = s.timers ∧ (s.modTrng f).uart = s.uart ∧ (s.modTrng f).mbox = s.mbox ∧
    (s.modTrng f).adsin = s.adsin ∧ (s.modTrng f).fabric = s.fabric ∧ (s.modTrng f).assay = s.assay ∧
    (s.modTrng f).update = s.update ∧ (s.modTrng f).dbg = s.dbg ∧ (s.modTrng f).hft = s.hft ∧ (s.modTrng f).free = s.free ∧
    (s.modTrng f).seen = s.seen ∧ (s.modTrng f).pending = s.pending ∧ (∀ r, (s.modTrng f).reg r = s.reg r) ∧
    (∀ y, (s.modTrng f).fld y = s.fld y) ∧ (∀ y, (s.modTrng f).flag y = s.flag y) ∧ (∀ r, (s.modTrng f).eff r = s.eff r) ∧
    (∀ d, (s.modTrng f).rfe d = s.rfe d) ∧ (∀ m, (s.modTrng f).lane m = s.lane m) ∧
    (∀ m, (s.modTrng f).frame? m = s.frame? m) :=
  by repeat' apply And.intro
     all_goals first | rfl | (intro _; rfl) | (intro d; cases d <;> rfl)

/-- The fields after `modAccess`. -/
@[simp] theorem State.modAccess_fields (f : Access → Access) :
    (s.modAccess f).regs = s.regs ∧ (s.modAccess f).inForce = s.inForce ∧ (s.modAccess f).snap = s.snap ∧
    (s.modAccess f).sram = s.sram ∧ (s.modAccess f).recRam = s.recRam ∧ (s.modAccess f).mram = s.mram ∧
    (s.modAccess f).mramFlip = s.mramFlip ∧ (s.modAccess f).lines = s.lines ∧ (s.modAccess f).radio = s.radio ∧
    (s.modAccess f).crypto = s.crypto ∧ (s.modAccess f).keys = s.keys ∧ (s.modAccess f).pke = s.pke ∧
    (s.modAccess f).trng = s.trng ∧ (s.modAccess f).access = f s.access ∧ (s.modAccess f).cores = s.cores ∧
    (s.modAccess f).nvm = s.nvm ∧ (s.modAccess f).sys = s.sys ∧ (s.modAccess f).plinth = s.plinth ∧
    (s.modAccess f).timers = s.timers ∧ (s.modAccess f).uart = s.uart ∧ (s.modAccess f).mbox = s.mbox ∧
    (s.modAccess f).adsin = s.adsin ∧ (s.modAccess f).fabric = s.fabric ∧ (s.modAccess f).assay = s.assay ∧
    (s.modAccess f).update = s.update ∧ (s.modAccess f).dbg = s.dbg ∧ (s.modAccess f).hft = s.hft ∧
    (s.modAccess f).free = s.free ∧ (s.modAccess f).seen = s.seen ∧ (s.modAccess f).pending = s.pending ∧
    (∀ r, (s.modAccess f).reg r = s.reg r) ∧ (∀ y, (s.modAccess f).fld y = s.fld y) ∧
    (∀ y, (s.modAccess f).flag y = s.flag y) ∧ (∀ r, (s.modAccess f).eff r = s.eff r) ∧
    (∀ d, (s.modAccess f).rfe d = s.rfe d) ∧ (∀ m, (s.modAccess f).lane m = s.lane m) ∧
    (∀ m, (s.modAccess f).frame? m = s.frame? m) :=
  by repeat' apply And.intro
     all_goals first | rfl | (intro _; rfl) | (intro d; cases d <;> rfl)

/-- The fields after `modSess`. -/
@[simp] theorem State.modSess_fields (f : Session → Session) :
    (s.modSess f).regs = s.regs ∧ (s.modSess f).inForce = s.inForce ∧ (s.modSess f).snap = s.snap ∧
    (s.modSess f).sram = s.sram ∧ (s.modSess f).recRam = s.recRam ∧ (s.modSess f).mram = s.mram ∧
    (s.modSess f).mramFlip = s.mramFlip ∧ (s.modSess f).lines = s.lines ∧ (s.modSess f).radio = s.radio ∧
    (s.modSess f).crypto = s.crypto ∧ (s.modSess f).keys = s.keys ∧ (s.modSess f).pke = s.pke ∧
    (s.modSess f).trng = s.trng ∧ (s.modSess f).access = { s.access with sess := f s.access.sess } ∧
    (s.modSess f).cores = s.cores ∧ (s.modSess f).nvm = s.nvm ∧ (s.modSess f).sys = s.sys ∧
    (s.modSess f).plinth = s.plinth ∧ (s.modSess f).timers = s.timers ∧ (s.modSess f).uart = s.uart ∧
    (s.modSess f).mbox = s.mbox ∧ (s.modSess f).adsin = s.adsin ∧ (s.modSess f).fabric = s.fabric ∧
    (s.modSess f).assay = s.assay ∧ (s.modSess f).update = s.update ∧ (s.modSess f).dbg = s.dbg ∧
    (s.modSess f).hft = s.hft ∧ (s.modSess f).free = s.free ∧ (s.modSess f).seen = s.seen ∧
    (s.modSess f).pending = s.pending ∧ (∀ r, (s.modSess f).reg r = s.reg r) ∧ (∀ y, (s.modSess f).fld y = s.fld y) ∧
    (∀ y, (s.modSess f).flag y = s.flag y) ∧ (∀ r, (s.modSess f).eff r = s.eff r) ∧ (∀ d, (s.modSess f).rfe d = s.rfe d) ∧
    (∀ m, (s.modSess f).lane m = s.lane m) ∧ (∀ m, (s.modSess f).frame? m = s.frame? m) :=
  by repeat' apply And.intro
     all_goals first | rfl | (intro _; rfl) | (intro d; cases d <;> rfl)

/-- The fields after `modCore`. -/
@[simp] theorem State.modCore_fields (c : Fin 6) (f : Core → Core) :
    (s.modCore c f).regs = s.regs ∧ (s.modCore c f).inForce = s.inForce ∧ (s.modCore c f).snap = s.snap ∧
    (s.modCore c f).sram = s.sram ∧ (s.modCore c f).recRam = s.recRam ∧ (s.modCore c f).mram = s.mram ∧
    (s.modCore c f).mramFlip = s.mramFlip ∧ (s.modCore c f).lines = s.lines ∧ (s.modCore c f).radio = s.radio ∧
    (s.modCore c f).crypto = s.crypto ∧ (s.modCore c f).keys = s.keys ∧ (s.modCore c f).pke = s.pke ∧
    (s.modCore c f).trng = s.trng ∧ (s.modCore c f).access = s.access ∧
    (s.modCore c f).cores = s.cores.set c (f s.cores[c]) ∧ (s.modCore c f).nvm = s.nvm ∧ (s.modCore c f).sys = s.sys ∧
    (s.modCore c f).plinth = s.plinth ∧ (s.modCore c f).timers = s.timers ∧ (s.modCore c f).uart = s.uart ∧
    (s.modCore c f).mbox = s.mbox ∧ (s.modCore c f).adsin = s.adsin ∧ (s.modCore c f).fabric = s.fabric ∧
    (s.modCore c f).assay = s.assay ∧ (s.modCore c f).update = s.update ∧ (s.modCore c f).dbg = s.dbg ∧
    (s.modCore c f).hft = s.hft ∧ (s.modCore c f).free = s.free ∧ (s.modCore c f).seen = s.seen ∧
    (s.modCore c f).pending = s.pending ∧ (∀ r, (s.modCore c f).reg r = s.reg r) ∧ (∀ y, (s.modCore c f).fld y = s.fld y) ∧
    (∀ y, (s.modCore c f).flag y = s.flag y) ∧ (∀ r, (s.modCore c f).eff r = s.eff r) ∧
    (∀ d, (s.modCore c f).rfe d = s.rfe d) ∧ (∀ m, (s.modCore c f).lane m = s.lane m) ∧
    (∀ m, (s.modCore c f).frame? m = s.frame? m) :=
  by repeat' apply And.intro
     all_goals first | rfl | (intro _; rfl) | (intro d; cases d <;> rfl)

/-- The fields after `modThr`. -/
@[simp] theorem State.modThr_fields (c : Fin 6) (t : Fin 4) (f : Thread → Thread) :
    (s.modThr c t f).regs = s.regs ∧ (s.modThr c t f).inForce = s.inForce ∧ (s.modThr c t f).snap = s.snap ∧
    (s.modThr c t f).sram = s.sram ∧ (s.modThr c t f).recRam = s.recRam ∧ (s.modThr c t f).mram = s.mram ∧
    (s.modThr c t f).mramFlip = s.mramFlip ∧ (s.modThr c t f).lines = s.lines ∧ (s.modThr c t f).radio = s.radio ∧
    (s.modThr c t f).crypto = s.crypto ∧ (s.modThr c t f).keys = s.keys ∧ (s.modThr c t f).pke = s.pke ∧
    (s.modThr c t f).trng = s.trng ∧ (s.modThr c t f).access = s.access ∧ (s.modThr c t f).nvm = s.nvm ∧
    (s.modThr c t f).sys = s.sys ∧ (s.modThr c t f).plinth = s.plinth ∧ (s.modThr c t f).timers = s.timers ∧
    (s.modThr c t f).uart = s.uart ∧ (s.modThr c t f).mbox = s.mbox ∧ (s.modThr c t f).adsin = s.adsin ∧
    (s.modThr c t f).fabric = s.fabric ∧ (s.modThr c t f).assay = s.assay ∧ (s.modThr c t f).update = s.update ∧
    (s.modThr c t f).dbg = s.dbg ∧ (s.modThr c t f).hft = s.hft ∧ (s.modThr c t f).free = s.free ∧
    (s.modThr c t f).seen = s.seen ∧ (s.modThr c t f).pending = s.pending ∧ (∀ r, (s.modThr c t f).reg r = s.reg r) ∧
    (∀ y, (s.modThr c t f).fld y = s.fld y) ∧ (∀ y, (s.modThr c t f).flag y = s.flag y) ∧
    (∀ r, (s.modThr c t f).eff r = s.eff r) ∧ (∀ d, (s.modThr c t f).rfe d = s.rfe d) ∧
    (∀ m, (s.modThr c t f).lane m = s.lane m) ∧ (∀ m, (s.modThr c t f).frame? m = s.frame? m) :=
  by repeat' apply And.intro
     all_goals first | rfl | (intro _; rfl) | (intro d; cases d <;> rfl)

/-- The fields after `modNvm`. -/
@[simp] theorem State.modNvm_fields (f : Nvm → Nvm) :
    (s.modNvm f).regs = s.regs ∧ (s.modNvm f).inForce = s.inForce ∧ (s.modNvm f).snap = s.snap ∧
    (s.modNvm f).sram = s.sram ∧ (s.modNvm f).recRam = s.recRam ∧ (s.modNvm f).mram = s.mram ∧
    (s.modNvm f).mramFlip = s.mramFlip ∧ (s.modNvm f).lines = s.lines ∧ (s.modNvm f).radio = s.radio ∧
    (s.modNvm f).crypto = s.crypto ∧ (s.modNvm f).keys = s.keys ∧ (s.modNvm f).pke = s.pke ∧ (s.modNvm f).trng = s.trng ∧
    (s.modNvm f).access = s.access ∧ (s.modNvm f).cores = s.cores ∧ (s.modNvm f).nvm = f s.nvm ∧ (s.modNvm f).sys = s.sys ∧
    (s.modNvm f).plinth = s.plinth ∧ (s.modNvm f).timers = s.timers ∧ (s.modNvm f).uart = s.uart ∧
    (s.modNvm f).mbox = s.mbox ∧ (s.modNvm f).adsin = s.adsin ∧ (s.modNvm f).fabric = s.fabric ∧
    (s.modNvm f).assay = s.assay ∧ (s.modNvm f).update = s.update ∧ (s.modNvm f).dbg = s.dbg ∧ (s.modNvm f).hft = s.hft ∧
    (s.modNvm f).free = s.free ∧ (s.modNvm f).seen = s.seen ∧ (s.modNvm f).pending = s.pending ∧
    (∀ r, (s.modNvm f).reg r = s.reg r) ∧ (∀ y, (s.modNvm f).fld y = s.fld y) ∧ (∀ y, (s.modNvm f).flag y = s.flag y) ∧
    (∀ r, (s.modNvm f).eff r = s.eff r) ∧ (∀ d, (s.modNvm f).rfe d = s.rfe d) ∧ (∀ m, (s.modNvm f).lane m = s.lane m) ∧
    (∀ m, (s.modNvm f).frame? m = s.frame? m) :=
  by repeat' apply And.intro
     all_goals first | rfl | (intro _; rfl) | (intro d; cases d <;> rfl)

/-- The fields after `modSys`. -/
@[simp] theorem State.modSys_fields (f : Sys → Sys) :
    (s.modSys f).regs = s.regs ∧ (s.modSys f).inForce = s.inForce ∧ (s.modSys f).snap = s.snap ∧
    (s.modSys f).sram = s.sram ∧ (s.modSys f).recRam = s.recRam ∧ (s.modSys f).mram = s.mram ∧
    (s.modSys f).mramFlip = s.mramFlip ∧ (s.modSys f).lines = s.lines ∧ (s.modSys f).radio = s.radio ∧
    (s.modSys f).crypto = s.crypto ∧ (s.modSys f).keys = s.keys ∧ (s.modSys f).pke = s.pke ∧ (s.modSys f).trng = s.trng ∧
    (s.modSys f).access = s.access ∧ (s.modSys f).cores = s.cores ∧ (s.modSys f).nvm = s.nvm ∧ (s.modSys f).sys = f s.sys ∧
    (s.modSys f).plinth = s.plinth ∧ (s.modSys f).timers = s.timers ∧ (s.modSys f).uart = s.uart ∧
    (s.modSys f).mbox = s.mbox ∧ (s.modSys f).adsin = s.adsin ∧ (s.modSys f).fabric = s.fabric ∧
    (s.modSys f).assay = s.assay ∧ (s.modSys f).update = s.update ∧ (s.modSys f).dbg = s.dbg ∧ (s.modSys f).hft = s.hft ∧
    (s.modSys f).free = s.free ∧ (s.modSys f).seen = s.seen ∧ (s.modSys f).pending = s.pending ∧
    (∀ r, (s.modSys f).reg r = s.reg r) ∧ (∀ y, (s.modSys f).fld y = s.fld y) ∧ (∀ y, (s.modSys f).flag y = s.flag y) ∧
    (∀ r, (s.modSys f).eff r = s.eff r) ∧ (∀ d, (s.modSys f).rfe d = s.rfe d) ∧ (∀ m, (s.modSys f).lane m = s.lane m) ∧
    (∀ m, (s.modSys f).frame? m = s.frame? m) :=
  by repeat' apply And.intro
     all_goals first | rfl | (intro _; rfl) | (intro d; cases d <;> rfl)

/-- The fields after `modPlinth`. -/
@[simp] theorem State.modPlinth_fields (f : Plinth → Plinth) :
    (s.modPlinth f).regs = s.regs ∧ (s.modPlinth f).inForce = s.inForce ∧ (s.modPlinth f).snap = s.snap ∧
    (s.modPlinth f).sram = s.sram ∧ (s.modPlinth f).recRam = s.recRam ∧ (s.modPlinth f).mram = s.mram ∧
    (s.modPlinth f).mramFlip = s.mramFlip ∧ (s.modPlinth f).lines = s.lines ∧ (s.modPlinth f).radio = s.radio ∧
    (s.modPlinth f).crypto = s.crypto ∧ (s.modPlinth f).keys = s.keys ∧ (s.modPlinth f).pke = s.pke ∧
    (s.modPlinth f).trng = s.trng ∧ (s.modPlinth f).access = s.access ∧ (s.modPlinth f).cores = s.cores ∧
    (s.modPlinth f).nvm = s.nvm ∧ (s.modPlinth f).sys = s.sys ∧ (s.modPlinth f).plinth = f s.plinth ∧
    (s.modPlinth f).timers = s.timers ∧ (s.modPlinth f).uart = s.uart ∧ (s.modPlinth f).mbox = s.mbox ∧
    (s.modPlinth f).adsin = s.adsin ∧ (s.modPlinth f).fabric = s.fabric ∧ (s.modPlinth f).assay = s.assay ∧
    (s.modPlinth f).update = s.update ∧ (s.modPlinth f).dbg = s.dbg ∧ (s.modPlinth f).hft = s.hft ∧
    (s.modPlinth f).free = s.free ∧ (s.modPlinth f).seen = s.seen ∧ (s.modPlinth f).pending = s.pending ∧
    (∀ r, (s.modPlinth f).reg r = s.reg r) ∧ (∀ y, (s.modPlinth f).fld y = s.fld y) ∧
    (∀ y, (s.modPlinth f).flag y = s.flag y) ∧ (∀ r, (s.modPlinth f).eff r = s.eff r) ∧
    (∀ d, (s.modPlinth f).rfe d = s.rfe d) ∧ (∀ m, (s.modPlinth f).lane m = s.lane m) ∧
    (∀ m, (s.modPlinth f).frame? m = s.frame? m) :=
  by repeat' apply And.intro
     all_goals first | rfl | (intro _; rfl) | (intro d; cases d <;> rfl)

/-- The fields after `modTimer`. -/
@[simp] theorem State.modTimer_fields (k : Fin 8) (f : Timer → Timer) :
    (s.modTimer k f).regs = s.regs ∧ (s.modTimer k f).inForce = s.inForce ∧ (s.modTimer k f).snap = s.snap ∧
    (s.modTimer k f).sram = s.sram ∧ (s.modTimer k f).recRam = s.recRam ∧ (s.modTimer k f).mram = s.mram ∧
    (s.modTimer k f).mramFlip = s.mramFlip ∧ (s.modTimer k f).lines = s.lines ∧ (s.modTimer k f).radio = s.radio ∧
    (s.modTimer k f).crypto = s.crypto ∧ (s.modTimer k f).keys = s.keys ∧ (s.modTimer k f).pke = s.pke ∧
    (s.modTimer k f).trng = s.trng ∧ (s.modTimer k f).access = s.access ∧ (s.modTimer k f).cores = s.cores ∧
    (s.modTimer k f).nvm = s.nvm ∧ (s.modTimer k f).sys = s.sys ∧ (s.modTimer k f).plinth = s.plinth ∧
    (s.modTimer k f).timers = s.timers.set k (f s.timers[k]) ∧ (s.modTimer k f).uart = s.uart ∧
    (s.modTimer k f).mbox = s.mbox ∧ (s.modTimer k f).adsin = s.adsin ∧ (s.modTimer k f).fabric = s.fabric ∧
    (s.modTimer k f).assay = s.assay ∧ (s.modTimer k f).update = s.update ∧ (s.modTimer k f).dbg = s.dbg ∧
    (s.modTimer k f).hft = s.hft ∧ (s.modTimer k f).free = s.free ∧ (s.modTimer k f).seen = s.seen ∧
    (s.modTimer k f).pending = s.pending ∧ (∀ r, (s.modTimer k f).reg r = s.reg r) ∧
    (∀ y, (s.modTimer k f).fld y = s.fld y) ∧ (∀ y, (s.modTimer k f).flag y = s.flag y) ∧
    (∀ r, (s.modTimer k f).eff r = s.eff r) ∧ (∀ d, (s.modTimer k f).rfe d = s.rfe d) ∧
    (∀ m, (s.modTimer k f).lane m = s.lane m) ∧ (∀ m, (s.modTimer k f).frame? m = s.frame? m) :=
  by repeat' apply And.intro
     all_goals first | rfl | (intro _; rfl) | (intro d; cases d <;> rfl)

/-- The fields after `modUart`. -/
@[simp] theorem State.modUart_fields (f : Uart → Uart) :
    (s.modUart f).regs = s.regs ∧ (s.modUart f).inForce = s.inForce ∧ (s.modUart f).snap = s.snap ∧
    (s.modUart f).sram = s.sram ∧ (s.modUart f).recRam = s.recRam ∧ (s.modUart f).mram = s.mram ∧
    (s.modUart f).mramFlip = s.mramFlip ∧ (s.modUart f).lines = s.lines ∧ (s.modUart f).radio = s.radio ∧
    (s.modUart f).crypto = s.crypto ∧ (s.modUart f).keys = s.keys ∧ (s.modUart f).pke = s.pke ∧
    (s.modUart f).trng = s.trng ∧ (s.modUart f).access = s.access ∧ (s.modUart f).cores = s.cores ∧
    (s.modUart f).nvm = s.nvm ∧ (s.modUart f).sys = s.sys ∧ (s.modUart f).plinth = s.plinth ∧
    (s.modUart f).timers = s.timers ∧ (s.modUart f).uart = f s.uart ∧ (s.modUart f).mbox = s.mbox ∧
    (s.modUart f).adsin = s.adsin ∧ (s.modUart f).fabric = s.fabric ∧ (s.modUart f).assay = s.assay ∧
    (s.modUart f).update = s.update ∧ (s.modUart f).dbg = s.dbg ∧ (s.modUart f).hft = s.hft ∧ (s.modUart f).free = s.free ∧
    (s.modUart f).seen = s.seen ∧ (s.modUart f).pending = s.pending ∧ (∀ r, (s.modUart f).reg r = s.reg r) ∧
    (∀ y, (s.modUart f).fld y = s.fld y) ∧ (∀ y, (s.modUart f).flag y = s.flag y) ∧ (∀ r, (s.modUart f).eff r = s.eff r) ∧
    (∀ d, (s.modUart f).rfe d = s.rfe d) ∧ (∀ m, (s.modUart f).lane m = s.lane m) ∧
    (∀ m, (s.modUart f).frame? m = s.frame? m) :=
  by repeat' apply And.intro
     all_goals first | rfl | (intro _; rfl) | (intro d; cases d <;> rfl)

/-- The fields after `modAdsin`. -/
@[simp] theorem State.modAdsin_fields (f : Adsin → Adsin) :
    (s.modAdsin f).regs = s.regs ∧ (s.modAdsin f).inForce = s.inForce ∧ (s.modAdsin f).snap = s.snap ∧
    (s.modAdsin f).sram = s.sram ∧ (s.modAdsin f).recRam = s.recRam ∧ (s.modAdsin f).mram = s.mram ∧
    (s.modAdsin f).mramFlip = s.mramFlip ∧ (s.modAdsin f).lines = s.lines ∧ (s.modAdsin f).radio = s.radio ∧
    (s.modAdsin f).crypto = s.crypto ∧ (s.modAdsin f).keys = s.keys ∧ (s.modAdsin f).pke = s.pke ∧
    (s.modAdsin f).trng = s.trng ∧ (s.modAdsin f).access = s.access ∧ (s.modAdsin f).cores = s.cores ∧
    (s.modAdsin f).nvm = s.nvm ∧ (s.modAdsin f).sys = s.sys ∧ (s.modAdsin f).plinth = s.plinth ∧
    (s.modAdsin f).timers = s.timers ∧ (s.modAdsin f).uart = s.uart ∧ (s.modAdsin f).mbox = s.mbox ∧
    (s.modAdsin f).adsin = f s.adsin ∧ (s.modAdsin f).fabric = s.fabric ∧ (s.modAdsin f).assay = s.assay ∧
    (s.modAdsin f).update = s.update ∧ (s.modAdsin f).dbg = s.dbg ∧ (s.modAdsin f).hft = s.hft ∧
    (s.modAdsin f).free = s.free ∧ (s.modAdsin f).seen = s.seen ∧ (s.modAdsin f).pending = s.pending ∧
    (∀ r, (s.modAdsin f).reg r = s.reg r) ∧ (∀ y, (s.modAdsin f).fld y = s.fld y) ∧
    (∀ y, (s.modAdsin f).flag y = s.flag y) ∧ (∀ r, (s.modAdsin f).eff r = s.eff r) ∧
    (∀ d, (s.modAdsin f).rfe d = s.rfe d) ∧ (∀ m, (s.modAdsin f).lane m = s.lane m) ∧
    (∀ m, (s.modAdsin f).frame? m = s.frame? m) :=
  by repeat' apply And.intro
     all_goals first | rfl | (intro _; rfl) | (intro d; cases d <;> rfl)

/-- The fields after `modChan`. -/
@[simp] theorem State.modChan_fields (k : Fin 6) (f : Channel → Channel) :
    (s.modChan k f).regs = s.regs ∧ (s.modChan k f).inForce = s.inForce ∧ (s.modChan k f).snap = s.snap ∧
    (s.modChan k f).sram = s.sram ∧ (s.modChan k f).recRam = s.recRam ∧ (s.modChan k f).mram = s.mram ∧
    (s.modChan k f).mramFlip = s.mramFlip ∧ (s.modChan k f).lines = s.lines ∧ (s.modChan k f).radio = s.radio ∧
    (s.modChan k f).crypto = s.crypto ∧ (s.modChan k f).keys = s.keys ∧ (s.modChan k f).pke = s.pke ∧
    (s.modChan k f).trng = s.trng ∧ (s.modChan k f).access = s.access ∧ (s.modChan k f).cores = s.cores ∧
    (s.modChan k f).nvm = s.nvm ∧ (s.modChan k f).sys = s.sys ∧ (s.modChan k f).plinth = s.plinth ∧
    (s.modChan k f).timers = s.timers ∧ (s.modChan k f).uart = s.uart ∧ (s.modChan k f).mbox = s.mbox ∧
    (s.modChan k f).adsin = { s.adsin with chans := s.adsin.chans.set k (f s.adsin.chans[k]) } ∧
    (s.modChan k f).fabric = s.fabric ∧ (s.modChan k f).assay = s.assay ∧ (s.modChan k f).update = s.update ∧
    (s.modChan k f).dbg = s.dbg ∧ (s.modChan k f).hft = s.hft ∧ (s.modChan k f).free = s.free ∧
    (s.modChan k f).seen = s.seen ∧ (s.modChan k f).pending = s.pending ∧ (∀ r, (s.modChan k f).reg r = s.reg r) ∧
    (∀ y, (s.modChan k f).fld y = s.fld y) ∧ (∀ y, (s.modChan k f).flag y = s.flag y) ∧
    (∀ r, (s.modChan k f).eff r = s.eff r) ∧ (∀ d, (s.modChan k f).rfe d = s.rfe d) ∧
    (∀ m, (s.modChan k f).lane m = s.lane m) ∧ (∀ m, (s.modChan k f).frame? m = s.frame? m) :=
  by repeat' apply And.intro
     all_goals first | rfl | (intro _; rfl) | (intro d; cases d <;> rfl)

/-- The fields after `modFabric`. -/
@[simp] theorem State.modFabric_fields (f : Fabric → Fabric) :
    (s.modFabric f).regs = s.regs ∧ (s.modFabric f).inForce = s.inForce ∧ (s.modFabric f).snap = s.snap ∧
    (s.modFabric f).sram = s.sram ∧ (s.modFabric f).recRam = s.recRam ∧ (s.modFabric f).mram = s.mram ∧
    (s.modFabric f).mramFlip = s.mramFlip ∧ (s.modFabric f).lines = s.lines ∧ (s.modFabric f).radio = s.radio ∧
    (s.modFabric f).crypto = s.crypto ∧ (s.modFabric f).keys = s.keys ∧ (s.modFabric f).pke = s.pke ∧
    (s.modFabric f).trng = s.trng ∧ (s.modFabric f).access = s.access ∧ (s.modFabric f).cores = s.cores ∧
    (s.modFabric f).nvm = s.nvm ∧ (s.modFabric f).sys = s.sys ∧ (s.modFabric f).plinth = s.plinth ∧
    (s.modFabric f).timers = s.timers ∧ (s.modFabric f).uart = s.uart ∧ (s.modFabric f).mbox = s.mbox ∧
    (s.modFabric f).adsin = s.adsin ∧ (s.modFabric f).fabric = f s.fabric ∧ (s.modFabric f).assay = s.assay ∧
    (s.modFabric f).update = s.update ∧ (s.modFabric f).dbg = s.dbg ∧ (s.modFabric f).hft = s.hft ∧
    (s.modFabric f).free = s.free ∧ (s.modFabric f).seen = s.seen ∧ (s.modFabric f).pending = s.pending ∧
    (∀ r, (s.modFabric f).reg r = s.reg r) ∧ (∀ y, (s.modFabric f).fld y = s.fld y) ∧
    (∀ y, (s.modFabric f).flag y = s.flag y) ∧ (∀ r, (s.modFabric f).eff r = s.eff r) ∧
    (∀ d, (s.modFabric f).rfe d = s.rfe d) ∧ (∀ m, (s.modFabric f).lane m = s.lane m) ∧
    (∀ m, (s.modFabric f).frame? m = s.frame? m) :=
  by repeat' apply And.intro
     all_goals first | rfl | (intro _; rfl) | (intro d; cases d <;> rfl)

/-- The fields after `modAssay`. -/
@[simp] theorem State.modAssay_fields (f : Assay → Assay) :
    (s.modAssay f).regs = s.regs ∧ (s.modAssay f).inForce = s.inForce ∧ (s.modAssay f).snap = s.snap ∧
    (s.modAssay f).sram = s.sram ∧ (s.modAssay f).recRam = s.recRam ∧ (s.modAssay f).mram = s.mram ∧
    (s.modAssay f).mramFlip = s.mramFlip ∧ (s.modAssay f).lines = s.lines ∧ (s.modAssay f).radio = s.radio ∧
    (s.modAssay f).crypto = s.crypto ∧ (s.modAssay f).keys = s.keys ∧ (s.modAssay f).pke = s.pke ∧
    (s.modAssay f).trng = s.trng ∧ (s.modAssay f).access = s.access ∧ (s.modAssay f).cores = s.cores ∧
    (s.modAssay f).nvm = s.nvm ∧ (s.modAssay f).sys = s.sys ∧ (s.modAssay f).plinth = s.plinth ∧
    (s.modAssay f).timers = s.timers ∧ (s.modAssay f).uart = s.uart ∧ (s.modAssay f).mbox = s.mbox ∧
    (s.modAssay f).adsin = s.adsin ∧ (s.modAssay f).fabric = s.fabric ∧ (s.modAssay f).assay = f s.assay ∧
    (s.modAssay f).update = s.update ∧ (s.modAssay f).dbg = s.dbg ∧ (s.modAssay f).hft = s.hft ∧
    (s.modAssay f).free = s.free ∧ (s.modAssay f).seen = s.seen ∧ (s.modAssay f).pending = s.pending ∧
    (∀ r, (s.modAssay f).reg r = s.reg r) ∧ (∀ y, (s.modAssay f).fld y = s.fld y) ∧
    (∀ y, (s.modAssay f).flag y = s.flag y) ∧ (∀ r, (s.modAssay f).eff r = s.eff r) ∧
    (∀ d, (s.modAssay f).rfe d = s.rfe d) ∧ (∀ m, (s.modAssay f).lane m = s.lane m) ∧
    (∀ m, (s.modAssay f).frame? m = s.frame? m) :=
  by repeat' apply And.intro
     all_goals first | rfl | (intro _; rfl) | (intro d; cases d <;> rfl)

/-- The fields after `modUpdate`. -/
@[simp] theorem State.modUpdate_fields (f : Update → Update) :
    (s.modUpdate f).regs = s.regs ∧ (s.modUpdate f).inForce = s.inForce ∧ (s.modUpdate f).snap = s.snap ∧
    (s.modUpdate f).sram = s.sram ∧ (s.modUpdate f).recRam = s.recRam ∧ (s.modUpdate f).mram = s.mram ∧
    (s.modUpdate f).mramFlip = s.mramFlip ∧ (s.modUpdate f).lines = s.lines ∧ (s.modUpdate f).radio = s.radio ∧
    (s.modUpdate f).crypto = s.crypto ∧ (s.modUpdate f).keys = s.keys ∧ (s.modUpdate f).pke = s.pke ∧
    (s.modUpdate f).trng = s.trng ∧ (s.modUpdate f).access = s.access ∧ (s.modUpdate f).cores = s.cores ∧
    (s.modUpdate f).nvm = s.nvm ∧ (s.modUpdate f).sys = s.sys ∧ (s.modUpdate f).plinth = s.plinth ∧
    (s.modUpdate f).timers = s.timers ∧ (s.modUpdate f).uart = s.uart ∧ (s.modUpdate f).mbox = s.mbox ∧
    (s.modUpdate f).adsin = s.adsin ∧ (s.modUpdate f).fabric = s.fabric ∧ (s.modUpdate f).assay = s.assay ∧
    (s.modUpdate f).update = f s.update ∧ (s.modUpdate f).dbg = s.dbg ∧ (s.modUpdate f).hft = s.hft ∧
    (s.modUpdate f).free = s.free ∧ (s.modUpdate f).seen = s.seen ∧ (s.modUpdate f).pending = s.pending ∧
    (∀ r, (s.modUpdate f).reg r = s.reg r) ∧ (∀ y, (s.modUpdate f).fld y = s.fld y) ∧
    (∀ y, (s.modUpdate f).flag y = s.flag y) ∧ (∀ r, (s.modUpdate f).eff r = s.eff r) ∧
    (∀ d, (s.modUpdate f).rfe d = s.rfe d) ∧ (∀ m, (s.modUpdate f).lane m = s.lane m) ∧
    (∀ m, (s.modUpdate f).frame? m = s.frame? m) :=
  by repeat' apply And.intro
     all_goals first | rfl | (intro _; rfl) | (intro d; cases d <;> rfl)

/-- The fields after `modDebug`. -/
@[simp] theorem State.modDebug_fields (f : Debug → Debug) :
    (s.modDebug f).regs = s.regs ∧ (s.modDebug f).inForce = s.inForce ∧ (s.modDebug f).snap = s.snap ∧
    (s.modDebug f).sram = s.sram ∧ (s.modDebug f).recRam = s.recRam ∧ (s.modDebug f).mram = s.mram ∧
    (s.modDebug f).mramFlip = s.mramFlip ∧ (s.modDebug f).lines = s.lines ∧ (s.modDebug f).radio = s.radio ∧
    (s.modDebug f).crypto = s.crypto ∧ (s.modDebug f).keys = s.keys ∧ (s.modDebug f).pke = s.pke ∧
    (s.modDebug f).trng = s.trng ∧ (s.modDebug f).access = s.access ∧ (s.modDebug f).cores = s.cores ∧
    (s.modDebug f).nvm = s.nvm ∧ (s.modDebug f).sys = s.sys ∧ (s.modDebug f).plinth = s.plinth ∧
    (s.modDebug f).timers = s.timers ∧ (s.modDebug f).uart = s.uart ∧ (s.modDebug f).mbox = s.mbox ∧
    (s.modDebug f).adsin = s.adsin ∧ (s.modDebug f).fabric = s.fabric ∧ (s.modDebug f).assay = s.assay ∧
    (s.modDebug f).update = s.update ∧ (s.modDebug f).dbg = f s.dbg ∧ (s.modDebug f).hft = s.hft ∧
    (s.modDebug f).free = s.free ∧ (s.modDebug f).seen = s.seen ∧ (s.modDebug f).pending = s.pending ∧
    (∀ r, (s.modDebug f).reg r = s.reg r) ∧ (∀ y, (s.modDebug f).fld y = s.fld y) ∧
    (∀ y, (s.modDebug f).flag y = s.flag y) ∧ (∀ r, (s.modDebug f).eff r = s.eff r) ∧
    (∀ d, (s.modDebug f).rfe d = s.rfe d) ∧ (∀ m, (s.modDebug f).lane m = s.lane m) ∧
    (∀ m, (s.modDebug f).frame? m = s.frame? m) :=
  by repeat' apply And.intro
     all_goals first | rfl | (intro _; rfl) | (intro d; cases d <;> rfl)

/-- The fields after `sramPut`, but for the memory it writes. -/
@[simp] theorem State.sramPut_fields (a : Nat) (l : List Byte) :
    (s.sramPut a l).regs = s.regs ∧ (s.sramPut a l).inForce = s.inForce ∧ (s.sramPut a l).snap = s.snap ∧
    (s.sramPut a l).recRam = s.recRam ∧ (s.sramPut a l).mram = s.mram ∧ (s.sramPut a l).mramFlip = s.mramFlip ∧
    (s.sramPut a l).lines = s.lines ∧ (s.sramPut a l).radio = s.radio ∧ (s.sramPut a l).crypto = s.crypto ∧
    (s.sramPut a l).keys = s.keys ∧ (s.sramPut a l).pke = s.pke ∧ (s.sramPut a l).trng = s.trng ∧
    (s.sramPut a l).access = s.access ∧ (s.sramPut a l).cores = s.cores ∧ (s.sramPut a l).nvm = s.nvm ∧
    (s.sramPut a l).sys = s.sys ∧ (s.sramPut a l).plinth = s.plinth ∧ (s.sramPut a l).timers = s.timers ∧
    (s.sramPut a l).uart = s.uart ∧ (s.sramPut a l).mbox = s.mbox ∧ (s.sramPut a l).adsin = s.adsin ∧
    (s.sramPut a l).fabric = s.fabric ∧ (s.sramPut a l).assay = s.assay ∧ (s.sramPut a l).update = s.update ∧
    (s.sramPut a l).dbg = s.dbg ∧ (s.sramPut a l).hft = s.hft ∧ (s.sramPut a l).free = s.free ∧
    (s.sramPut a l).seen = s.seen ∧ (s.sramPut a l).pending = s.pending ∧ (∀ r, (s.sramPut a l).reg r = s.reg r) ∧
    (∀ y, (s.sramPut a l).fld y = s.fld y) ∧ (∀ y, (s.sramPut a l).flag y = s.flag y) ∧
    (∀ r, (s.sramPut a l).eff r = s.eff r) ∧ (∀ d, (s.sramPut a l).rfe d = s.rfe d) := by
  unfold State.sramPut
  split
  all_goals repeat' apply And.intro
  all_goals first | rfl | (intro _; rfl) | (intro d; cases d <;> rfl)

/-- The fields after `mramPut`, but for the memory it writes. -/
@[simp] theorem State.mramPut_fields (a : Nat) (l : List Byte) :
    (s.mramPut a l).regs = s.regs ∧ (s.mramPut a l).inForce = s.inForce ∧ (s.mramPut a l).snap = s.snap ∧
    (s.mramPut a l).sram = s.sram ∧ (s.mramPut a l).recRam = s.recRam ∧ (s.mramPut a l).mramFlip = s.mramFlip ∧
    (s.mramPut a l).lines = s.lines ∧ (s.mramPut a l).radio = s.radio ∧ (s.mramPut a l).crypto = s.crypto ∧
    (s.mramPut a l).keys = s.keys ∧ (s.mramPut a l).pke = s.pke ∧ (s.mramPut a l).trng = s.trng ∧
    (s.mramPut a l).access = s.access ∧ (s.mramPut a l).cores = s.cores ∧ (s.mramPut a l).nvm = s.nvm ∧
    (s.mramPut a l).sys = s.sys ∧ (s.mramPut a l).plinth = s.plinth ∧ (s.mramPut a l).timers = s.timers ∧
    (s.mramPut a l).uart = s.uart ∧ (s.mramPut a l).mbox = s.mbox ∧ (s.mramPut a l).adsin = s.adsin ∧
    (s.mramPut a l).fabric = s.fabric ∧ (s.mramPut a l).assay = s.assay ∧ (s.mramPut a l).update = s.update ∧
    (s.mramPut a l).dbg = s.dbg ∧ (s.mramPut a l).hft = s.hft ∧ (s.mramPut a l).free = s.free ∧
    (s.mramPut a l).seen = s.seen ∧ (s.mramPut a l).pending = s.pending ∧ (∀ r, (s.mramPut a l).reg r = s.reg r) ∧
    (∀ y, (s.mramPut a l).fld y = s.fld y) ∧ (∀ y, (s.mramPut a l).flag y = s.flag y) ∧
    (∀ r, (s.mramPut a l).eff r = s.eff r) ∧ (∀ d, (s.mramPut a l).rfe d = s.rfe d) := by
  unfold State.mramPut
  split
  all_goals repeat' apply And.intro
  all_goals first | rfl | (intro _; rfl) | (intro d; cases d <;> rfl)

/-- The fields after `setSramHalf`, but for the memory it writes. -/
@[simp] theorem State.setSramHalf_fields (a : Nat) (v : Half) :
    (s.setSramHalf a v).regs = s.regs ∧ (s.setSramHalf a v).inForce = s.inForce ∧ (s.setSramHalf a v).snap = s.snap ∧
    (s.setSramHalf a v).recRam = s.recRam ∧ (s.setSramHalf a v).mram = s.mram ∧ (s.setSramHalf a v).mramFlip = s.mramFlip ∧
    (s.setSramHalf a v).lines = s.lines ∧ (s.setSramHalf a v).radio = s.radio ∧ (s.setSramHalf a v).crypto = s.crypto ∧
    (s.setSramHalf a v).keys = s.keys ∧ (s.setSramHalf a v).pke = s.pke ∧ (s.setSramHalf a v).trng = s.trng ∧
    (s.setSramHalf a v).access = s.access ∧ (s.setSramHalf a v).cores = s.cores ∧ (s.setSramHalf a v).nvm = s.nvm ∧
    (s.setSramHalf a v).sys = s.sys ∧ (s.setSramHalf a v).plinth = s.plinth ∧ (s.setSramHalf a v).timers = s.timers ∧
    (s.setSramHalf a v).uart = s.uart ∧ (s.setSramHalf a v).mbox = s.mbox ∧ (s.setSramHalf a v).adsin = s.adsin ∧
    (s.setSramHalf a v).fabric = s.fabric ∧ (s.setSramHalf a v).assay = s.assay ∧ (s.setSramHalf a v).update = s.update ∧
    (s.setSramHalf a v).dbg = s.dbg ∧ (s.setSramHalf a v).hft = s.hft ∧ (s.setSramHalf a v).free = s.free ∧
    (s.setSramHalf a v).seen = s.seen ∧ (s.setSramHalf a v).pending = s.pending ∧
    (∀ r, (s.setSramHalf a v).reg r = s.reg r) ∧ (∀ y, (s.setSramHalf a v).fld y = s.fld y) ∧
    (∀ y, (s.setSramHalf a v).flag y = s.flag y) ∧ (∀ r, (s.setSramHalf a v).eff r = s.eff r) ∧
    (∀ d, (s.setSramHalf a v).rfe d = s.rfe d) := by
  unfold State.setSramHalf State.sramPut
  split
  all_goals repeat' apply And.intro
  all_goals first | rfl | (intro _; rfl) | (intro d; cases d <;> rfl)

/-- The fields after `setSramWords`, but for the memory it writes. -/
@[simp] theorem State.setSramWords_fields (a : Nat) (l : List Half) :
    (s.setSramWords a l).regs = s.regs ∧ (s.setSramWords a l).inForce = s.inForce ∧ (s.setSramWords a l).snap = s.snap ∧
    (s.setSramWords a l).recRam = s.recRam ∧ (s.setSramWords a l).mram = s.mram ∧
    (s.setSramWords a l).mramFlip = s.mramFlip ∧ (s.setSramWords a l).lines = s.lines ∧
    (s.setSramWords a l).radio = s.radio ∧ (s.setSramWords a l).crypto = s.crypto ∧ (s.setSramWords a l).keys = s.keys ∧
    (s.setSramWords a l).pke = s.pke ∧ (s.setSramWords a l).trng = s.trng ∧ (s.setSramWords a l).access = s.access ∧
    (s.setSramWords a l).cores = s.cores ∧ (s.setSramWords a l).nvm = s.nvm ∧ (s.setSramWords a l).sys = s.sys ∧
    (s.setSramWords a l).plinth = s.plinth ∧ (s.setSramWords a l).timers = s.timers ∧ (s.setSramWords a l).uart = s.uart ∧
    (s.setSramWords a l).mbox = s.mbox ∧ (s.setSramWords a l).adsin = s.adsin ∧ (s.setSramWords a l).fabric = s.fabric ∧
    (s.setSramWords a l).assay = s.assay ∧ (s.setSramWords a l).update = s.update ∧ (s.setSramWords a l).dbg = s.dbg ∧
    (s.setSramWords a l).hft = s.hft ∧ (s.setSramWords a l).free = s.free ∧ (s.setSramWords a l).seen = s.seen ∧
    (s.setSramWords a l).pending = s.pending ∧ (∀ r, (s.setSramWords a l).reg r = s.reg r) ∧
    (∀ y, (s.setSramWords a l).fld y = s.fld y) ∧ (∀ y, (s.setSramWords a l).flag y = s.flag y) ∧
    (∀ r, (s.setSramWords a l).eff r = s.eff r) ∧ (∀ d, (s.setSramWords a l).rfe d = s.rfe d) := by
  unfold State.setSramWords State.sramPut
  split
  all_goals repeat' apply And.intro
  all_goals first | rfl | (intro _; rfl) | (intro d; cases d <;> rfl)

/-- A commit changes the configuration in force alone. -/
theorem State.commit_parts (l : List Nat) : ∃ e, s.commit l = { s with inForce := e } := by
  unfold State.commit
  induction l generalizing s with
  | nil => exact ⟨s.inForce, rfl⟩
  | cons a l ih =>
    obtain ⟨e, h⟩ := ih (s.setEff a (s.reg a))
    exact ⟨e, h⟩

/-- The parts that a commit leaves. -/
@[simp] theorem State.commit_fields (l : List Nat) :
    (s.commit l).regs = s.regs ∧ (s.commit l).snap = s.snap ∧ (s.commit l).sram = s.sram ∧ (s.commit l).recRam = s.recRam ∧
    (s.commit l).mram = s.mram ∧ (s.commit l).mramFlip = s.mramFlip ∧ (s.commit l).lines = s.lines ∧
    (s.commit l).radio = s.radio ∧ (s.commit l).crypto = s.crypto ∧ (s.commit l).keys = s.keys ∧ (s.commit l).pke = s.pke ∧
    (s.commit l).trng = s.trng ∧ (s.commit l).access = s.access ∧ (s.commit l).cores = s.cores ∧ (s.commit l).nvm = s.nvm ∧
    (s.commit l).sys = s.sys ∧ (s.commit l).plinth = s.plinth ∧ (s.commit l).timers = s.timers ∧
    (s.commit l).uart = s.uart ∧ (s.commit l).mbox = s.mbox ∧ (s.commit l).adsin = s.adsin ∧
    (s.commit l).fabric = s.fabric ∧ (s.commit l).assay = s.assay ∧ (s.commit l).update = s.update ∧
    (s.commit l).dbg = s.dbg ∧ (s.commit l).hft = s.hft ∧ (s.commit l).free = s.free ∧ (s.commit l).seen = s.seen ∧
    (s.commit l).pending = s.pending ∧ (∀ r, (s.commit l).reg r = s.reg r) ∧ (∀ y, (s.commit l).fld y = s.fld y) ∧
    (∀ y, (s.commit l).flag y = s.flag y) ∧ (∀ d, (s.commit l).rfe d = s.rfe d) ∧ (∀ m, (s.commit l).lane m = s.lane m) := by
  obtain ⟨e, h⟩ := s.commit_parts l
  rw [h]
  repeat' apply And.intro
  all_goals first | rfl | (intro _; rfl) | (intro d; cases d <;> rfl)

end Sys2Proof.Machine
end

