-- ==== Sys2Proof/Laws/Cpu.lean ====
section
/-! SUPPORT. One instruction of a core: what the shared frame State.instr answers when the core executes (R211, R241). -/
namespace Sys2Proof.Machine

/-- A fetch from MRAM changes the line buffers and the count of corrected words alone. -/
theorem State.fetchLine_parts (s : State) (c : Fin 6) (a : Nat) : ∃ r l, s.fetchLine c a = { s with regs := r, lines := l } := by
  unfold State.fetchLine State.eccCount
  split
  · exact ⟨s.regs, s.lines, rfl⟩
  · dsimp only
    split
    · exact ⟨s.regs, _, rfl⟩
    · exact ⟨_, _, rfl⟩

/-- What an instruction that executes answers: the illegal-instruction exception, its own exception, or its completion. -/
theorem instr_runs (s : State) (c t shape bad f) (u : State) (h : Executes s c t shape u) :
    s.instr c shape bad f = if bad (s.thr c t) then u.raiseInstr c t exIllegal none else
      (match (f u t (s.thr c t)).1 with
       | .fault code addr => (f u t (s.thr c t)).2.raiseInstr c t code addr
       | .done d => if ((f u t (s.thr c t)).2.thr c t).st = .dead ∨ (f u t (s.thr c t)).2.sys.inReset then (f u t (s.thr c t)).2
          else (f u t (s.thr c t)).2.completeInstr c t d) := by
  obtain ⟨h0, h1, h2, h3, h4, h5, h6, h7, h8⟩ := h
  subst h0
  unfold State.instr
  simp only [h1]
  rw [if_neg (fun hh => by
    rcases h2 with h2 | h2
    · rw [h2] at hh; cases hh.1
    · exact h2 (Option.isNone_iff_eq_none.mp hh.2))]
  simp only [h3, h4]
  have hm : (if shape = .plain then (s.thr c t).slot.isSome && (s.thr c t).atLe else (s.thr c t).slot.isSome || (s.thr c t).atLe) = false := by
    split
    · rename_i hp; rcases h6 hp with h | h <;> rw [h] <;> simp
    · rename_i hp; rw [(h5 hp).1, (h5 hp).2]; rfl
  simp only [hm, Bool.or_false] <;> (split <;> rfl)

/-- The fetch leaves the thread and the reset as they stand. -/
theorem executes_runs {s u : State} {c t shape} (h : Executes s c t shape u) : (u.thr c t).st ≠ .dead ∧ u.sys.inReset = false := by
  obtain ⟨r, l, e⟩ := s.fetchLine_parts c (s.thr c t).pc.toNat
  rw [h.1, e]
  exact h.2.2.2.2.2.2.2

/-- An instruction that completes retires with what it did. -/
theorem instr_done (s : State) (c t shape bad f d) (u v : State) (h : Executes s c t shape u) (hb : bad (s.thr c t) = false)
    (hf : f u t (s.thr c t) = (.done d, v)) (h1 : (v.thr c t).st ≠ .dead := by exact (executes_runs h).1)
    (h2 : v.sys.inReset = false := by exact (executes_runs h).2) : s.instr c shape bad f = v.completeInstr c t d := by
  rw [instr_runs _ _ _ _ _ _ _ h, hb, hf]
  show (if false = true then _ else if (v.thr c t).st = .dead ∨ v.sys.inReset = true then v else v.completeInstr c t d) = _
  rw [if_neg (by decide), if_neg]; rintro (x | x)
  · exact h1 x
  · rw [h2] at x; cases x

/-- An instruction that ends in an exception takes it. -/
theorem instr_fault (s : State) (c t shape bad f code a) (u v : State) (h : Executes s c t shape u) (hb : bad (s.thr c t) = false)
    (hf : f u t (s.thr c t) = (.fault code a, v)) : s.instr c shape bad f = v.raiseInstr c t code a := by
  rw [instr_runs _ _ _ _ _ _ _ h, hb, hf]; rfl

/-- An encoding that the instruction does not allow takes the illegal-instruction exception. -/
theorem instr_illegal (s : State) (c t shape bad f) (u : State) (h : Executes s c t shape u) (hb : bad (s.thr c t) = true) :
    s.instr c shape bad f = u.raiseInstr c t exIllegal none := by
  rw [instr_runs _ _ _ _ _ _ _ h, hb]; rfl

/-- An instruction on registers alone completes with its result. -/
theorem compute_runs (s : State) (c t bad f) (u : State) (h : Executes s c t .plain u) (hb : bad = false) :
    s.compute c bad f = u.completeInstr c t (f (s.thr c t)) := instr_done _ _ _ _ _ _ _ _ _ h hb rfl

end Sys2Proof.Machine
end

