-- ==== Sys2Proof/Laws/Dispatch.lean ====
section
/-! SUPPORT. Each command runs its meaning. -/
namespace Sys2Proof.Machine

variable (s : State)

@[simp] theorem exec_registerWrite (m : Master) (a : BitVec 24) (w : Half) : exec (.registerWrite m a w) s = execRegisterWrite m a w s := rfl
@[simp] theorem exec_rclRead (m : Master) (a : BitVec 24) : exec (.rclRead m a) s = execRclRead m a s := rfl
@[simp] theorem exec_snapshotRead (m : Master) (a : BitVec 24) : exec (.snapshotRead m a) s = execSnapshotRead m a s := rfl
@[simp] theorem exec_ashlarCounterGroupRead (m : Master) (tenant : Bool) : exec (.ashlarCounterGroupRead m tenant) s = execAshlarCounterGroupRead m tenant s := rfl
@[simp] theorem exec_xoHfLoss : exec (.xoHfLoss) s = execXoHfLoss s := rfl
@[simp] theorem exec_feEnable (b : Band) (w : Half) : exec (.feEnable b w) s = execFeEnable b w s := rfl
@[simp] theorem exec_loLock (b : Band) : exec (.loLock b) s = execLoLock b s := rfl
@[simp] theorem exec_feCorrectionsApply (b : Band) : exec (.feCorrectionsApply b) s = execFeCorrectionsApply b s := rfl
@[simp] theorem exec_feReady (b : Band) : exec (.feReady b) s = execFeReady b s := rfl
@[simp] theorem exec_lockFail (b : Band) : exec (.lockFail b) s = execLockFail b s := rfl
@[simp] theorem exec_lockLost (b : Band) : exec (.lockLost b) s = execLockLost b s := rfl
@[simp] theorem exec_feDisable (b : Band) (w : Half) : exec (.feDisable b w) s = execFeDisable b w s := rfl
@[simp] theorem exec_feDisableTakesEffect (b : Band) : exec (.feDisableTakesEffect b) s = execFeDisableTakesEffect b s := rfl
@[simp] theorem exec_rfeSpanWrite (b : Band) (w : Half) : exec (.rfeSpanWrite b w) s = execRfeSpanWrite b w s := rfl
@[simp] theorem exec_levelWindow (b : Band) (lvl : Int) : exec (.levelWindow b lvl) s = execLevelWindow b lvl s := rfl
@[simp] theorem exec_overload (x : Clips) : exec (.overload x) s = execOverload x s := rfl
@[simp] theorem exec_gainStep (b : Band) : exec (.gainStep b) s = execGainStep b s := rfl
@[simp] theorem exec_gainMarker (b : Band) : exec (.gainMarker b) s = execGainMarker b s := rfl
@[simp] theorem exec_calRequestRc (b : Band) : exec (.calRequestRc b) s = execCalRequestRc b s := rfl
@[simp] theorem exec_calRequestDc (b : Band) : exec (.calRequestDc b) s = execCalRequestDc b s := rfl
@[simp] theorem exec_calRequestIq (b : Band) : exec (.calRequestIq b) s = execCalRequestIq b s := rfl
@[simp] theorem exec_calibrationStart (b : Band) : exec (.calibrationStart b) s = execCalibrationStart b s := rfl
@[simp] theorem exec_calibrationEnd (b : Band) (m : CalResult) : exec (.calibrationEnd b m) s = execCalibrationEnd b m s := rfl
@[simp] theorem exec_xoTrimWrite (w : Half) : exec (.xoTrimWrite w) s = execXoTrimWrite w s := rfl
@[simp] theorem exec_txConfigWrite (b : Band) (r : Fin 34) (w : Half) : exec (.txConfigWrite b r w) s = execTxConfigWrite b r w s := rfl
@[simp] theorem exec_femRegisterWrite (b : Band) (p : Fin 6) (k : Fin 3) (w : Half) : exec (.femRegisterWrite b p k w) s = execFemRegisterWrite b p k w s := rfl
@[simp] theorem exec_burstSequencingStart (b : Band) : exec (.burstSequencingStart b) s = execBurstSequencingStart b s := rfl
@[simp] theorem exec_femTxEdge (b : Band) (p : Fin 6) : exec (.femTxEdge b p) s = execFemTxEdge b p s := rfl
@[simp] theorem exec_driverRampUp (b : Band) : exec (.driverRampUp b) s = execDriverRampUp b s := rfl
@[simp] theorem exec_carrierStart (b : Band) : exec (.carrierStart b) s = execCarrierStart b s := rfl
@[simp] theorem exec_carrierEnd (b : Band) : exec (.carrierEnd b) s = execCarrierEnd b s := rfl
@[simp] theorem exec_burstEnd (b : Band) : exec (.burstEnd b) s = execBurstEnd b s := rfl
@[simp] theorem exec_driverOff (b : Band) : exec (.driverOff b) s = execDriverOff b s := rfl
@[simp] theorem exec_femRxEdge (b : Band) (p : Fin 6) : exec (.femRxEdge b p) s = execFemRxEdge b p s := rfl
@[simp] theorem exec_burstMuteEnd (b : Band) : exec (.burstMuteEnd b) s = execBurstMuteEnd b s := rfl
@[simp] theorem exec_dgainAdjust (n : Fin 64) (lvl : Int) : exec (.dgainAdjust n lvl) s = execDgainAdjust n lvl s := rfl
@[simp] theorem exec_notchEngage (x : Tone) : exec (.notchEngage x) s = execNotchEngage x s := rfl
@[simp] theorem exec_preambleDetect (n : Fin 64) (x : Preamble) : exec (.preambleDetect n x) s = execPreambleDetect n x s := rfl
@[simp] theorem exec_preambleLost (x : Fade) : exec (.preambleLost x) s = execPreambleLost x s := rfl
@[simp] theorem exec_sfdTimeout (n : Fin 64) : exec (.sfdTimeout n) s = execSfdTimeout n s := rfl
@[simp] theorem exec_sfdFound (n : Fin 64) (coded : Bool) (errs : Nat) : exec (.sfdFound n coded errs) s = execSfdFound n coded errs s := rfl
@[simp] theorem exec_phrValid (n : Fin 64) (phr : Phr) (octets : List Byte) : exec (.phrValid n phr octets) s = execPhrValid n phr octets s := rfl
@[simp] theorem exec_phrRejected (n : Fin 64) (phr : Phr) : exec (.phrRejected n phr) s = execPhrRejected n phr s := rfl
@[simp] theorem exec_laneHandoff (n : Fin 64) (rssi : Half) (snr : Int) (err : Fin 5) : exec (.laneHandoff n rssi snr err) s = execLaneHandoff n rssi snr err s := rfl
@[simp] theorem exec_dfeAdaptResume (n : Fin 64) : exec (.dfeAdaptResume n) s = execDfeAdaptResume n s := rfl
@[simp] theorem exec_recArm : exec (.recArm) s = execRecArm s := rfl
@[simp] theorem exec_recStop : exec (.recStop) s = execRecStop s := rfl
@[simp] theorem exec_recSwtrig : exec (.recSwtrig) s = execRecSwtrig s := rfl
@[simp] theorem exec_recArmed : exec (.recArmed) s = execRecArmed s := rfl
@[simp] theorem exec_recGroupComplete (data : BitVec 128) : exec (.recGroupComplete data) s = execRecGroupComplete data s := rfl
@[simp] theorem exec_recDone : exec (.recDone) s = execRecDone s := rfl
@[simp] theorem exec_recConfigWrite (r : Fin 7) (w : Half) : exec (.recConfigWrite r w) s = execRecConfigWrite r w s := rfl
@[simp] theorem exec_courseRun (startAt : Bool) : exec (.courseRun startAt) s = execCourseRun startAt s := rfl
@[simp] theorem exec_courseRunClear (startAt : Bool) : exec (.courseRunClear startAt) s = execCourseRunClear startAt s := rfl
@[simp] theorem exec_courseStopTakesEffect : exec (.courseStopTakesEffect) s = execCourseStopTakesEffect s := rfl
@[simp] theorem exec_courseTick : exec (.courseTick) s = execCourseTick s := rfl
@[simp] theorem exec_planLock : exec (.planLock) s = execPlanLock s := rfl
@[simp] theorem exec_shadowCopyDone : exec (.shadowCopyDone) s = execShadowCopyDone s := rfl
@[simp] theorem exec_planCommit : exec (.planCommit) s = execPlanCommit s := rfl
@[simp] theorem exec_planCheckDone : exec (.planCheckDone) s = execPlanCheckDone s := rfl
@[simp] theorem exec_shadowWrite (x : Fin 512) (w : Half) : exec (.shadowWrite x w) s = execShadowWrite x w s := rfl
@[simp] theorem exec_courseAdjWrite (w : Half) : exec (.courseAdjWrite w) s = execCourseAdjWrite w s := rfl
@[simp] theorem exec_courseWallWrite (w : Half) : exec (.courseWallWrite w) s = execCourseWallWrite w s := rfl
@[simp] theorem exec_courseCfgWrite (r : Fin 9) (w : Half) : exec (.courseCfgWrite r w) s = execCourseCfgWrite r w s := rfl
@[simp] theorem exec_idleWindowOpen : exec (.idleWindowOpen) s = execIdleWindowOpen s := rfl
@[simp] theorem exec_idleWindowClose : exec (.idleWindowClose) s = execIdleWindowClose s := rfl
@[simp] theorem exec_txEntryTest (e : Fin 8) : exec (.txEntryTest e) s = execTxEntryTest e s := rfl
@[simp] theorem exec_ccaWindowEnd (e : Fin 8) (dbm : Int) : exec (.ccaWindowEnd e dbm) s = execCcaWindowEnd e dbm s := rfl
@[simp] theorem exec_courseTxendRead : exec (.courseTxendRead) s = execCourseTxendRead s := rfl
@[simp] theorem exec_dutyBucketRoll (k : Fin 8) : exec (.dutyBucketRoll k) s = execDutyBucketRoll k s := rfl
@[simp] theorem exec_dutyAccountEnable (k : Fin 8) (w : Half) : exec (.dutyAccountEnable k w) s = execDutyAccountEnable k w s := rfl
@[simp] theorem exec_macfDecision (n : Fin 64) : exec (.macfDecision n) s = execMacfDecision n s := rfl
@[simp] theorem exec_hodIngest (n : Fin 64) : exec (.hodIngest n) s = execHodIngest n s := rfl
@[simp] theorem exec_hodSettle (n : Fin 64) : exec (.hodSettle n) s = execHodSettle n s := rfl
@[simp] theorem exec_hodRdWrite (d : Fin 512) : exec (.hodRdWrite d) s = execHodRdWrite d s := rfl
@[simp] theorem exec_hodEnable (w : Half) : exec (.hodEnable w) s = execHodEnable w s := rfl
@[simp] theorem exec_hodDisable (w : Half) : exec (.hodDisable w) s = execHodDisable w s := rfl
@[simp] theorem exec_ashlarLookup (n : Fin 64) (inTime : Bool) : exec (.ashlarLookup n inTime) s = execAshlarLookup n inTime s := rfl
@[simp] theorem exec_ashlarMicCheck (n : Fin 64) : exec (.ashlarMicCheck n) s = execAshlarMicCheck n s := rfl
@[simp] theorem exec_verdictDeadline (n : Fin 64) : exec (.verdictDeadline n) s = execVerdictDeadline n s := rfl
@[simp] theorem exec_ashlarCommit (n : Fin 64) : exec (.ashlarCommit n) s = execAshlarCommit n s := rfl
@[simp] theorem exec_leaseWrite : exec (.leaseWrite) s = execLeaseWrite s := rfl
@[simp] theorem exec_leaseCommitted : exec (.leaseCommitted) s = execLeaseCommitted s := rfl
@[simp] theorem exec_leaseWriteFailed : exec (.leaseWriteFailed) s = execLeaseWriteFailed s := rfl
@[simp] theorem exec_leaseSweep : exec (.leaseSweep) s = execLeaseSweep s := rfl
@[simp] theorem exec_leaseSegmentReclaim : exec (.leaseSegmentReclaim) s = execLeaseSegmentReclaim s := rfl
@[simp] theorem exec_ashlarEnable : exec (.ashlarEnable) s = execAshlarEnable s := rfl
@[simp] theorem exec_ashlarDisable : exec (.ashlarDisable) s = execAshlarDisable s := rfl
@[simp] theorem exec_ashlarCmdRestore : exec (.ashlarCmdRestore) s = execAshlarCmdRestore s := rfl
@[simp] theorem exec_hkDraw : exec (.hkDraw) s = execHkDraw s := rfl
@[simp] theorem exec_restoreDone : exec (.restoreDone) s = execRestoreDone s := rfl
@[simp] theorem exec_ashlarCmdRebuild : exec (.ashlarCmdRebuild) s = execAshlarCmdRebuild s := rfl
@[simp] theorem exec_rebuildStart : exec (.rebuildStart) s = execRebuildStart s := rfl
@[simp] theorem exec_rebuildDone : exec (.rebuildDone) s = execRebuildDone s := rfl
@[simp] theorem exec_tenantEpochWrite (w : Half) : exec (.tenantEpochWrite w) s = execTenantEpochWrite w s := rfl
@[simp] theorem exec_entryOpRead : exec (.entryOpRead) s = execEntryOpRead s := rfl
@[simp] theorem exec_entryOpInsert : exec (.entryOpInsert) s = execEntryOpInsert s := rfl
@[simp] theorem exec_entryOpDelete : exec (.entryOpDelete) s = execEntryOpDelete s := rfl
@[simp] theorem exec_entryOpSetPend : exec (.entryOpSetPend) s = execEntryOpSetPend s := rfl
@[simp] theorem exec_entryOpClrPend : exec (.entryOpClrPend) s = execEntryOpClrPend s := rfl
@[simp] theorem exec_entryOpSetQuar : exec (.entryOpSetQuar) s = execEntryOpSetQuar s := rfl
@[simp] theorem exec_entryOpClrQuar : exec (.entryOpClrQuar) s = execEntryOpClrQuar s := rfl
@[simp] theorem exec_entryOpPurge : exec (.entryOpPurge) s = execEntryOpPurge s := rfl
@[simp] theorem exec_entryOpBadop (op : Fin 16) : exec (.entryOpBadop op) s = execEntryOpBadop op s := rfl
@[simp] theorem exec_entryOpDone : exec (.entryOpDone) s = execEntryOpDone s := rfl
@[simp] theorem exec_purgeDone : exec (.purgeDone) s = execPurgeDone s := rfl
@[simp] theorem exec_cryptoEnable : exec (.cryptoEnable) s = execCryptoEnable s := rfl
@[simp] theorem exec_cryptoDisable : exec (.cryptoDisable) s = execCryptoDisable s := rfl
@[simp] theorem exec_cryptoQueueWrite (c : Fin 2) (w : Half) : exec (.cryptoQueueWrite c w) s = execCryptoQueueWrite c w s := rfl
@[simp] theorem exec_jobCbcEnc : exec (.jobCbcEnc) s = execJobCbcEnc s := rfl
@[simp] theorem exec_jobCbcDec : exec (.jobCbcDec) s = execJobCbcDec s := rfl
@[simp] theorem exec_jobCfbEnc : exec (.jobCfbEnc) s = execJobCfbEnc s := rfl
@[simp] theorem exec_jobCfbDec : exec (.jobCfbDec) s = execJobCfbDec s := rfl
@[simp] theorem exec_jobCtr : exec (.jobCtr) s = execJobCtr s := rfl
@[simp] theorem exec_jobCmac : exec (.jobCmac) s = execJobCmac s := rfl
@[simp] theorem exec_jobCcmEnc : exec (.jobCcmEnc) s = execJobCcmEnc s := rfl
@[simp] theorem exec_jobCcmDec : exec (.jobCcmDec) s = execJobCcmDec s := rfl
@[simp] theorem exec_cryptoJobDone (k : Fin 4) : exec (.cryptoJobDone k) s = execCryptoJobDone k s := rfl
@[simp] theorem exec_keysLeaseCommit (ok : Bool) : exec (.keysLeaseCommit ok) s = execKeysLeaseCommit ok s := rfl
@[simp] theorem exec_pkeShaInit (c : Fin 2) : exec (.pkeShaInit c) s = execPkeShaInit c s := rfl
@[simp] theorem exec_pkeShaUpdate (c : Fin 2) : exec (.pkeShaUpdate c) s = execPkeShaUpdate c s := rfl
@[simp] theorem exec_pkeShaFinal (c : Fin 2) : exec (.pkeShaFinal c) s = execPkeShaFinal c s := rfl
@[simp] theorem exec_pkeVerify (c : Fin 2) : exec (.pkeVerify c) s = execPkeVerify c s := rfl
@[simp] theorem exec_pkeSign (c : Fin 2) (slot : Fin 64) (ident : Bool) : exec (.pkeSign c slot ident) s = execPkeSign c slot ident s := rfl
@[simp] theorem exec_pkeEcdh (c : Fin 2) (slot : Fin 64) (ident : Bool) : exec (.pkeEcdh c slot ident) s = execPkeEcdh c slot ident s := rfl
@[simp] theorem exec_pkeKeygen (c : Fin 2) (slot : Fin 64) : exec (.pkeKeygen c slot) s = execPkeKeygen c slot s := rfl
@[simp] theorem exec_pkeCheck (c : Fin 2) : exec (.pkeCheck c) s = execPkeCheck c s := rfl
@[simp] theorem exec_pkeBadop (c : Fin 2) (op : Fin 16) : exec (.pkeBadop c op) s = execPkeBadop c op s := rfl
@[simp] theorem exec_pkeOpDone : exec (.pkeOpDone) s = execPkeOpDone s := rfl
@[simp] theorem exec_trngReseed : exec (.trngReseed) s = execTrngReseed s := rfl
@[simp] theorem exec_trngRestart : exec (.trngRestart) s = execTrngRestart s := rfl
@[simp] theorem exec_trngStartupDone (first : Nat) (rest : List Nat) : exec (.trngStartupDone first rest) s = execTrngStartupDone first rest s := rfl
@[simp] theorem exec_drbgAutoReseed : exec (.drbgAutoReseed) s = execDrbgAutoReseed s := rfl
@[simp] theorem exec_healthTestFail (samples : List Nat) : exec (.healthTestFail samples) s = execHealthTestFail samples s := rfl
@[simp] theorem exec_trngOutRead : exec (.trngOutRead) s = execTrngOutRead s := rfl
@[simp] theorem exec_keysImport (c : Fin 2) : exec (.keysImport c) s = execKeysImport c s := rfl
@[simp] theorem exec_keysDerive (c : Fin 2) : exec (.keysDerive c) s = execKeysDerive c s := rfl
@[simp] theorem exec_keysGenerate (c : Fin 2) : exec (.keysGenerate c) s = execKeysGenerate c s := rfl
@[simp] theorem exec_keysDestroy (c : Fin 2) : exec (.keysDestroy c) s = execKeysDestroy c s := rfl
@[simp] theorem exec_keysTransfer (c : Fin 2) : exec (.keysTransfer c) s = execKeysTransfer c s := rfl
@[simp] theorem exec_keysDrop (c : Fin 2) : exec (.keysDrop c) s = execKeysDrop c s := rfl
@[simp] theorem exec_keysLcNonce (c : Fin 2) : exec (.keysLcNonce c) s = execKeysLcNonce c s := rfl
@[simp] theorem exec_keysLcChange (c : Fin 2) : exec (.keysLcChange c) s = execKeysLcChange c s := rfl
@[simp] theorem exec_keysBadop (c : Fin 2) (op : Fin 16) : exec (.keysBadop c op) s = execKeysBadop c op s := rfl
@[simp] theorem exec_keysCmdDone : exec (.keysCmdDone) s = execKeysCmdDone s := rfl
@[simp] theorem exec_lcTransitionDone : exec (.lcTransitionDone) s = execLcTransitionDone s := rfl
@[simp] theorem exec_accessEnable (root : Fin 64) : exec (.accessEnable root) s = execAccessEnable root s := rfl
@[simp] theorem exec_accessDisable (root : Fin 64) : exec (.accessDisable root) s = execAccessDisable root s := rfl
@[simp] theorem exec_lfTelegramStart : exec (.lfTelegramStart) s = execLfTelegramStart s := rfl
@[simp] theorem exec_challengeEnd : exec (.challengeEnd) s = execChallengeEnd s := rfl
@[simp] theorem exec_responseTimeout : exec (.responseTimeout) s = execResponseTimeout s := rfl
@[simp] theorem exec_plumbSessionStart (calInt : Half) : exec (.plumbSessionStart calInt) s = execPlumbSessionStart calInt s := rfl
@[simp] theorem exec_plumbRequestTimeout : exec (.plumbRequestTimeout) s = execPlumbRequestTimeout s := rfl
@[simp] theorem exec_plumbRound (coarse : Int) (pa1 : Fin 1024) (pa2 : Fin 1024) (b : Bool) (detected : Bool) : exec (.plumbRound coarse pa1 pa2 b detected) s = execPlumbRound coarse pa1 pa2 b detected s := rfl
@[simp] theorem exec_plumbPinsRestore : exec (.plumbPinsRestore) s = execPlumbPinsRestore s := rfl
@[simp] theorem exec_plumbEnd : exec (.plumbEnd) s = execPlumbEnd s := rfl
@[simp] theorem exec_reportTimeout : exec (.reportTimeout) s = execReportTimeout s := rfl
@[simp] theorem exec_accessLogCommitted (ok : Bool) : exec (.accessLogCommitted ok) s = execAccessLogCommitted ok s := rfl
@[simp] theorem exec_releasePulseEnd : exec (.releasePulseEnd) s = execReleasePulseEnd s := rfl
@[simp] theorem exec_lockReadbackFault : exec (.lockReadbackFault) s = execLockReadbackFault s := rfl
@[simp] theorem exec_lockoutEnd : exec (.lockoutEnd) s = execLockoutEnd s := rfl
@[simp] theorem exec_lockSecTick : exec (.lockSecTick) s = execLockSecTick s := rfl
@[simp] theorem exec_lfOvercurrent (n : Fin 4) : exec (.lfOvercurrent n) s = execLfOvercurrent n s := rfl
@[simp] theorem exec_lfOpenCheck (n : Fin 4) (peak : Byte) : exec (.lfOpenCheck n peak) s = execLfOpenCheck n peak s := rfl
@[simp] theorem exec_lfBurstEnd (peakA : Byte) (peakB : Byte) (peakC : Byte) (peakD : Byte) : exec (.lfBurstEnd peakA peakB peakC peakD) s = execLfBurstEnd peakA peakB peakC peakD s := rfl
@[simp] theorem exec_vlfLowChange (low : Bool) : exec (.vlfLowChange low) s = execVlfLowChange low s := rfl
@[simp] theorem exec_lfTuneRequest (mask : BitVec 4) : exec (.lfTuneRequest mask) s = execLfTuneRequest mask s := rfl
@[simp] theorem exec_lfTuneStart : exec (.lfTuneStart) s = execLfTuneStart s := rfl
@[simp] theorem exec_lfTuneDone (a : Fin 64 × Byte) (b : Fin 64 × Byte) (c : Fin 64 × Byte) (d : Fin 64 × Byte) : exec (.lfTuneDone a b c d) s = execLfTuneDone a b c d s := rfl
@[simp] theorem exec_pollBurst : exec (.pollBurst) s = execPollBurst s := rfl
@[simp] theorem exec_accessTblLoad : exec (.accessTblLoad) s = execAccessTblLoad s := rfl
@[simp] theorem exec_accessTblCopyDone : exec (.accessTblCopyDone) s = execAccessTblCopyDone s := rfl
@[simp] theorem exec_opAdd (c : Fin 6) (dd : Fin 16) (da : Fin 16) (db : Fin 16) (z : Byte) : exec (.opAdd c dd da db z) s = execOpAdd c dd da db z s := rfl
@[simp] theorem exec_opAddc (c : Fin 6) (dd : Fin 16) (da : Fin 16) (db : Fin 16) (z : Byte) : exec (.opAddc c dd da db z) s = execOpAddc c dd da db z s := rfl
@[simp] theorem exec_opSub (c : Fin 6) (dd : Fin 16) (da : Fin 16) (db : Fin 16) (z : Byte) : exec (.opSub c dd da db z) s = execOpSub c dd da db z s := rfl
@[simp] theorem exec_opSubc (c : Fin 6) (dd : Fin 16) (da : Fin 16) (db : Fin 16) (z : Byte) : exec (.opSubc c dd da db z) s = execOpSubc c dd da db z s := rfl
@[simp] theorem exec_opAnd (c : Fin 6) (dd : Fin 16) (da : Fin 16) (db : Fin 16) (z : Byte) : exec (.opAnd c dd da db z) s = execOpAnd c dd da db z s := rfl
@[simp] theorem exec_opOr (c : Fin 6) (dd : Fin 16) (da : Fin 16) (db : Fin 16) (z : Byte) : exec (.opOr c dd da db z) s = execOpOr c dd da db z s := rfl
@[simp] theorem exec_opXor (c : Fin 6) (dd : Fin 16) (da : Fin 16) (db : Fin 16) (z : Byte) : exec (.opXor c dd da db z) s = execOpXor c dd da db z s := rfl
@[simp] theorem exec_opCmp (c : Fin 6) (dd : Fin 16) (da : Fin 16) (db : Fin 16) (z : Byte) : exec (.opCmp c dd da db z) s = execOpCmp c dd da db z s := rfl
@[simp] theorem exec_opTst (c : Fin 6) (dd : Fin 16) (da : Fin 16) (db : Fin 16) (z : Byte) : exec (.opTst c dd da db z) s = execOpTst c dd da db z s := rfl
@[simp] theorem exec_opMov (c : Fin 6) (dd : Fin 16) (da : Fin 16) (db : Fin 16) (z : Byte) : exec (.opMov c dd da db z) s = execOpMov c dd da db z s := rfl
@[simp] theorem exec_opNot (c : Fin 6) (dd : Fin 16) (da : Fin 16) (db : Fin 16) (z : Byte) : exec (.opNot c dd da db z) s = execOpNot c dd da db z s := rfl
@[simp] theorem exec_opNeg (c : Fin 6) (dd : Fin 16) (da : Fin 16) (db : Fin 16) (z : Byte) : exec (.opNeg c dd da db z) s = execOpNeg c dd da db z s := rfl
@[simp] theorem exec_opShl (c : Fin 6) (dd : Fin 16) (da : Fin 16) (db : Fin 16) (z : Byte) : exec (.opShl c dd da db z) s = execOpShl c dd da db z s := rfl
@[simp] theorem exec_opShr (c : Fin 6) (dd : Fin 16) (da : Fin 16) (db : Fin 16) (z : Byte) : exec (.opShr c dd da db z) s = execOpShr c dd da db z s := rfl
@[simp] theorem exec_opSar (c : Fin 6) (dd : Fin 16) (da : Fin 16) (db : Fin 16) (z : Byte) : exec (.opSar c dd da db z) s = execOpSar c dd da db z s := rfl
@[simp] theorem exec_opRol (c : Fin 6) (dd : Fin 16) (da : Fin 16) (db : Fin 16) (z : Byte) : exec (.opRol c dd da db z) s = execOpRol c dd da db z s := rfl
@[simp] theorem exec_opMul (c : Fin 6) (dd : Fin 16) (da : Fin 16) (db : Fin 16) (z : Byte) : exec (.opMul c dd da db z) s = execOpMul c dd da db z s := rfl
@[simp] theorem exec_opMulhs (c : Fin 6) (dd : Fin 16) (da : Fin 16) (db : Fin 16) (z : Byte) : exec (.opMulhs c dd da db z) s = execOpMulhs c dd da db z s := rfl
@[simp] theorem exec_opMulhu (c : Fin 6) (dd : Fin 16) (da : Fin 16) (db : Fin 16) (z : Byte) : exec (.opMulhu c dd da db z) s = execOpMulhu c dd da db z s := rfl
@[simp] theorem exec_opMac (c : Fin 6) (dd : Fin 16) (da : Fin 16) (db : Fin 16) (z : Byte) : exec (.opMac c dd da db z) s = execOpMac c dd da db z s := rfl
@[simp] theorem exec_opMacu (c : Fin 6) (dd : Fin 16) (da : Fin 16) (db : Fin 16) (z : Byte) : exec (.opMacu c dd da db z) s = execOpMacu c dd da db z s := rfl
@[simp] theorem exec_opAdds (c : Fin 6) (dd : Fin 16) (da : Fin 16) (db : Fin 16) (z : Byte) : exec (.opAdds c dd da db z) s = execOpAdds c dd da db z s := rfl
@[simp] theorem exec_opSubs (c : Fin 6) (dd : Fin 16) (da : Fin 16) (db : Fin 16) (z : Byte) : exec (.opSubs c dd da db z) s = execOpSubs c dd da db z s := rfl
@[simp] theorem exec_opCrc (c : Fin 6) (dd : Fin 16) (da : Fin 16) (db : Fin 16) (z : Byte) : exec (.opCrc c dd da db z) s = execOpCrc c dd da db z s := rfl
@[simp] theorem exec_opAddi (c : Fin 6) (dd : Fin 16) (da : Fin 16) (z : BitVec 2) (imm : Half) : exec (.opAddi c dd da z imm) s = execOpAddi c dd da z imm s := rfl
@[simp] theorem exec_opAndi (c : Fin 6) (dd : Fin 16) (da : Fin 16) (z : BitVec 2) (imm : Half) : exec (.opAndi c dd da z imm) s = execOpAndi c dd da z imm s := rfl
@[simp] theorem exec_opOri (c : Fin 6) (dd : Fin 16) (da : Fin 16) (z : BitVec 2) (imm : Half) : exec (.opOri c dd da z imm) s = execOpOri c dd da z imm s := rfl
@[simp] theorem exec_opXori (c : Fin 6) (dd : Fin 16) (da : Fin 16) (z : BitVec 2) (imm : Half) : exec (.opXori c dd da z imm) s = execOpXori c dd da z imm s := rfl
@[simp] theorem exec_opCmpi (c : Fin 6) (dd : Fin 16) (da : Fin 16) (z : BitVec 2) (imm : Half) : exec (.opCmpi c dd da z imm) s = execOpCmpi c dd da z imm s := rfl
@[simp] theorem exec_opMovi (c : Fin 6) (dd : Fin 16) (da : Fin 16) (z : BitVec 2) (imm : Half) : exec (.opMovi c dd da z imm) s = execOpMovi c dd da z imm s := rfl
@[simp] theorem exec_opShi (c : Fin 6) (dd : Fin 16) (da : Fin 16) (z : BitVec 2) (imm : Half) : exec (.opShi c dd da z imm) s = execOpShi c dd da z imm s := rfl
@[simp] theorem exec_opExtu (c : Fin 6) (dd : Fin 16) (da : Fin 16) (pos : Fin 16) (lm1 : Fin 16) (z : BitVec 4) (z2 : BitVec 4) : exec (.opExtu c dd da pos lm1 z z2) s = execOpExtu c dd da pos lm1 z z2 s := rfl
@[simp] theorem exec_opExts (c : Fin 6) (dd : Fin 16) (da : Fin 16) (pos : Fin 16) (lm1 : Fin 16) (z : BitVec 4) (z2 : BitVec 4) : exec (.opExts c dd da pos lm1 z z2) s = execOpExts c dd da pos lm1 z z2 s := rfl
@[simp] theorem exec_opIns (c : Fin 6) (dd : Fin 16) (da : Fin 16) (pos : Fin 16) (lm1 : Fin 16) (z : BitVec 4) (z2 : BitVec 4) : exec (.opIns c dd da pos lm1 z z2) s = execOpIns c dd da pos lm1 z z2 s := rfl
@[simp] theorem exec_opAddp (c : Fin 6) (pd : Fin 8) (pa : Fin 8) (z : BitVec 4) (imm : Half) : exec (.opAddp c pd pa z imm) s = execOpAddp c pd pa z imm s := rfl
@[simp] theorem exec_opLpl (c : Fin 6) (pd : Fin 8) (pa : Fin 8) (z : BitVec 4) (imm : Half) : exec (.opLpl c pd pa z imm) s = execOpLpl c pd pa z imm s := rfl
@[simp] theorem exec_opLph (c : Fin 6) (pd : Fin 8) (pa : Fin 8) (z : BitVec 4) (imm : Half) : exec (.opLph c pd pa z imm) s = execOpLph c pd pa z imm s := rfl
@[simp] theorem exec_opAddpd (c : Fin 6) (pd : Fin 8) (pa : Fin 8) (pb : Fin 8) (dx : Fin 16) (z : BitVec 7) : exec (.opAddpd c pd pa pb dx z) s = execOpAddpd c pd pa pb dx z s := rfl
@[simp] theorem exec_opAddpu (c : Fin 6) (pd : Fin 8) (pa : Fin 8) (pb : Fin 8) (dx : Fin 16) (z : BitVec 7) : exec (.opAddpu c pd pa pb dx z) s = execOpAddpu c pd pa pb dx z s := rfl
@[simp] theorem exec_opMovp (c : Fin 6) (pd : Fin 8) (pa : Fin 8) (pb : Fin 8) (dx : Fin 16) (z : BitVec 7) : exec (.opMovp c pd pa pb dx z) s = execOpMovp c pd pa pb dx z s := rfl
@[simp] theorem exec_opCmpp (c : Fin 6) (pd : Fin 8) (pa : Fin 8) (pb : Fin 8) (dx : Fin 16) (z : BitVec 7) : exec (.opCmpp c pd pa pb dx z) s = execOpCmpp c pd pa pb dx z s := rfl
@[simp] theorem exec_opDifp (c : Fin 6) (pd : Fin 8) (pa : Fin 8) (pb : Fin 8) (dx : Fin 16) (z : BitVec 7) : exec (.opDifp c pd pa pb dx z) s = execOpDifp c pd pa pb dx z s := rfl
@[simp] theorem exec_opMovdp (c : Fin 6) (pd : Fin 8) (pa : Fin 8) (pb : Fin 8) (dx : Fin 16) (z : BitVec 7) : exec (.opMovdp c pd pa pb dx z) s = execOpMovdp c pd pa pb dx z s := rfl
@[simp] theorem exec_opMovdph (c : Fin 6) (pd : Fin 8) (pa : Fin 8) (pb : Fin 8) (dx : Fin 16) (z : BitVec 7) : exec (.opMovdph c pd pa pb dx z) s = execOpMovdph c pd pa pb dx z s := rfl
@[simp] theorem exec_opMovpd (c : Fin 6) (pd : Fin 8) (pa : Fin 8) (pb : Fin 8) (dx : Fin 16) (z : BitVec 7) : exec (.opMovpd c pd pa pb dx z) s = execOpMovpd c pd pa pb dx z s := rfl
@[simp] theorem exec_opLdb (c : Fin 6) (t : Fin 16) (pb : Fin 8) (am : Fin 8) (imm : Half) : exec (.opLdb c t pb am imm) s = execOpLdb c t pb am imm s := rfl
@[simp] theorem exec_opLdbs (c : Fin 6) (t : Fin 16) (pb : Fin 8) (am : Fin 8) (imm : Half) : exec (.opLdbs c t pb am imm) s = execOpLdbs c t pb am imm s := rfl
@[simp] theorem exec_opLdh (c : Fin 6) (t : Fin 16) (pb : Fin 8) (am : Fin 8) (imm : Half) : exec (.opLdh c t pb am imm) s = execOpLdh c t pb am imm s := rfl
@[simp] theorem exec_opLdp (c : Fin 6) (t : Fin 8) (z : Bool) (pb : Fin 8) (am : Fin 8) (imm : Half) : exec (.opLdp c t z pb am imm) s = execOpLdp c t z pb am imm s := rfl
@[simp] theorem exec_opStb (c : Fin 6) (t : Fin 16) (pb : Fin 8) (am : Fin 8) (imm : Half) : exec (.opStb c t pb am imm) s = execOpStb c t pb am imm s := rfl
@[simp] theorem exec_opSth (c : Fin 6) (t : Fin 16) (pb : Fin 8) (am : Fin 8) (imm : Half) : exec (.opSth c t pb am imm) s = execOpSth c t pb am imm s := rfl
@[simp] theorem exec_opStp (c : Fin 6) (t : Fin 8) (z : Bool) (pb : Fin 8) (am : Fin 8) (imm : Half) : exec (.opStp c t z pb am imm) s = execOpStp c t z pb am imm s := rfl
@[simp] theorem exec_opBcc (c : Fin 6) (cond : Fin 16) (ofs : BitVec 22) : exec (.opBcc c cond ofs) s = execOpBcc c cond ofs s := rfl
@[simp] theorem exec_opJ (c : Fin 6) (z : BitVec 4) (ofs : BitVec 22) : exec (.opJ c z ofs) s = execOpJ c z ofs s := rfl
@[simp] theorem exec_opCall (c : Fin 6) (z : BitVec 4) (ofs : BitVec 22) : exec (.opCall c z ofs) s = execOpCall c z ofs s := rfl
@[simp] theorem exec_opJr (c : Fin 6) (pa : Fin 8) (z : BitVec 21) : exec (.opJr c pa z) s = execOpJr c pa z s := rfl
@[simp] theorem exec_opCallr (c : Fin 6) (pa : Fin 8) (z : BitVec 21) : exec (.opCallr c pa z) s = execOpCallr c pa z s := rfl
@[simp] theorem exec_opRet (c : Fin 6) (z : BitVec 24) : exec (.opRet c z) s = execOpRet c z s := rfl
@[simp] theorem exec_opLoop (c : Fin 6) (lvl : Fin 2) (src : Bool) (count : BitVec 12) (fin : BitVec 12) : exec (.opLoop c lvl src count fin) s = execOpLoop c lvl src count fin s := rfl
@[simp] theorem exec_opMtc (c : Fin 6) (cr : BitVec 6) (isP : Bool) (r : Fin 16) (z : BitVec 15) : exec (.opMtc c cr isP r z) s = execOpMtc c cr isP r z s := rfl
@[simp] theorem exec_opMfc (c : Fin 6) (cr : BitVec 6) (isP : Bool) (r : Fin 16) (z : BitVec 15) : exec (.opMfc c cr isP r z) s = execOpMfc c cr isP r z s := rfl
@[simp] theorem exec_opMfs (c : Fin 6) (dd : Fin 16) (n : Fin 8) (z : BitVec 19) : exec (.opMfs c dd n z) s = execOpMfs c dd n z s := rfl
@[simp] theorem exec_opNop (c : Fin 6) (z : BitVec 4) (arg : Half) : exec (.opNop c z arg) s = execOpNop c z arg s := rfl
@[simp] theorem exec_opYield (c : Fin 6) (z : BitVec 4) (arg : Half) : exec (.opYield c z arg) s = execOpYield c z arg s := rfl
@[simp] theorem exec_opWait (c : Fin 6) (z : BitVec 4) (arg : Half) : exec (.opWait c z arg) s = execOpWait c z arg s := rfl
@[simp] theorem exec_opSig (c : Fin 6) (z : BitVec 4) (arg : Half) : exec (.opSig c z arg) s = execOpSig c z arg s := rfl
@[simp] theorem exec_opSyscall (c : Fin 6) (z : BitVec 4) (arg : Half) : exec (.opSyscall c z arg) s = execOpSyscall c z arg s := rfl
@[simp] theorem exec_opBreak (c : Fin 6) (z : BitVec 4) (arg : Half) : exec (.opBreak c z arg) s = execOpBreak c z arg s := rfl
@[simp] theorem exec_opEret (c : Fin 6) (z : BitVec 4) (arg : Half) : exec (.opEret c z arg) s = execOpEret c z arg s := rfl
@[simp] theorem exec_opFence (c : Fin 6) (z : BitVec 4) (arg : Half) : exec (.opFence c z arg) s = execOpFence c z arg s := rfl
@[simp] theorem exec_resultLanding (c : Fin 6) (t : Fin 4) : exec (.resultLanding c t) s = execResultLanding c t s := rfl
@[simp] theorem exec_threadStart (c : Fin 6) (mask : BitVec 4) : exec (.threadStart c mask) s = execThreadStart c mask s := rfl
@[simp] theorem exec_threadKill (c : Fin 6) (mask : BitVec 4) : exec (.threadKill c mask) s = execThreadKill c mask s := rfl
@[simp] theorem exec_eventLinePost (c : Fin 6) (l : Fin 32) : exec (.eventLinePost c l) s = execEventLinePost c l s := rfl
@[simp] theorem exec_eventPendClear (c : Fin 6) (w : Fin 4) (v : Half) : exec (.eventPendClear c w v) s = execEventPendClear c w v s := rfl
@[simp] theorem exec_stall (c : Fin 6) : exec (.stall c) s = execStall c s := rfl
@[simp] theorem exec_mailboxWrite (k : Fin 8) (c : Fin 6) (w : Half) : exec (.mailboxWrite k c w) s = execMailboxWrite k c w s := rfl
@[simp] theorem exec_mailboxRead (k : Fin 8) (c : Fin 6) : exec (.mailboxRead k c) s = execMailboxRead k c s := rfl
@[simp] theorem exec_doorbell (c : Fin 6) (mask : BitVec 6) : exec (.doorbell c mask) s = execDoorbell c mask s := rfl
@[simp] theorem exec_wdtEnable (c : Fin 6) : exec (.wdtEnable c) s = execWdtEnable c s := rfl
@[simp] theorem exec_wdtKick (c : Fin 6) (w : Half) : exec (.wdtKick c w) s = execWdtKick c w s := rfl
@[simp] theorem exec_wdtStage1Expiry (c : Fin 6) : exec (.wdtStage1Expiry c) s = execWdtStage1Expiry c s := rfl
@[simp] theorem exec_wdtStage2Expiry (c : Fin 6) : exec (.wdtStage2Expiry c) s = execWdtStage2Expiry c s := rfl
@[simp] theorem exec_admitWrite (w : Half) : exec (.admitWrite w) s = execAdmitWrite w s := rfl
@[simp] theorem exec_nvmcCfgWrite : exec (.nvmcCfgWrite) s = execNvmcCfgWrite s := rfl
@[simp] theorem exec_nvmcCfgRead : exec (.nvmcCfgRead) s = execNvmcCfgRead s := rfl
@[simp] theorem exec_nvmcEvtWrite : exec (.nvmcEvtWrite) s = execNvmcEvtWrite s := rfl
@[simp] theorem exec_nvmcImgWrite : exec (.nvmcImgWrite) s = execNvmcImgWrite s := rfl
@[simp] theorem exec_nvmcImgErase : exec (.nvmcImgErase) s = execNvmcImgErase s := rfl
@[simp] theorem exec_nvmcBadop (op : Fin 16) : exec (.nvmcBadop op) s = execNvmcBadop op s := rfl
@[simp] theorem exec_nvmcCmdDone (fails : Fin 3) : exec (.nvmcCmdDone fails) s = execNvmcCmdDone fails s := rfl
@[simp] theorem exec_nvmcPortRecord (src : Fin 4) : exec (.nvmcPortRecord src) s = execNvmcPortRecord src s := rfl
@[simp] theorem exec_nvmcRecordDone (src : Fin 4) (fails : Fin 3) : exec (.nvmcRecordDone src fails) s = execNvmcRecordDone src fails s := rfl
@[simp] theorem exec_segmentEraseDone : exec (.segmentEraseDone) s = execSegmentEraseDone s := rfl
@[simp] theorem exec_imgLockSet (w : Half) : exec (.imgLockSet w) s = execImgLockSet w s := rfl
@[simp] theorem exec_plRequest (target : Fin 4) : exec (.plRequest target) s = execPlRequest target s := rfl
@[simp] theorem exec_plChangeStart : exec (.plChangeStart) s = execPlChangeStart s := rfl
@[simp] theorem exec_plDividerSwitch : exec (.plDividerSwitch) s = execPlDividerSwitch s := rfl
@[simp] theorem exec_plChangeDone : exec (.plChangeDone) s = execPlChangeDone s := rfl
@[simp] theorem exec_sleepNap : exec (.sleepNap) s = execSleepNap s := rfl
@[simp] theorem exec_sleepShelf : exec (.sleepShelf) s = execSleepShelf s := rfl
@[simp] theorem exec_sleepPlinth : exec (.sleepPlinth) s = execSleepPlinth s := rfl
@[simp] theorem exec_sleepEntryDone : exec (.sleepEntryDone) s = execSleepEntryDone s := rfl
@[simp] theorem exec_sleepAbandon : exec (.sleepAbandon) s = execSleepAbandon s := rfl
@[simp] theorem exec_wakeSourceRise (src : Fin 9) : exec (.wakeSourceRise src) s = execWakeSourceRise src s := rfl
@[simp] theorem exec_sleepTimerExpiry : exec (.sleepTimerExpiry) s = execSleepTimerExpiry s := rfl
@[simp] theorem exec_napResume : exec (.napResume) s = execNapResume s := rfl
@[simp] theorem exec_xoEnable (w : Half) : exec (.xoEnable w) s = execXoEnable w s := rfl
@[simp] theorem exec_xoStable : exec (.xoStable) s = execXoStable s := rfl
@[simp] theorem exec_pllEnable (w : Half) : exec (.pllEnable w) s = execPllEnable w s := rfl
@[simp] theorem exec_pllLock : exec (.pllLock) s = execPllLock s := rfl
@[simp] theorem exec_clockSourceSwitch (src : Bool) : exec (.clockSourceSwitch src) s = execClockSourceSwitch src s := rfl
@[simp] theorem exec_supplySagHalt (how : Fin 3) : exec (.supplySagHalt how) s = execSupplySagHalt how s := rfl
@[simp] theorem exec_vbakSwitchover : exec (.vbakSwitchover) s = execVbakSwitchover s := rfl
@[simp] theorem exec_powerOnReset : exec (.powerOnReset) s = execPowerOnReset s := rfl
@[simp] theorem exec_pinReset : exec (.pinReset) s = execPinReset s := rfl
@[simp] theorem exec_softwareReset (key : Half) : exec (.softwareReset key) s = execSoftwareReset key s := rfl
@[simp] theorem exec_resetRelease : exec (.resetRelease) s = execResetRelease s := rfl
@[simp] theorem exec_bootRomSequence (clkOk : Bool) (nvOk : Bool) (run : CalResult × CalResult) (cal : Option CalRecord) : exec (.bootRomSequence clkOk nvOk run cal) s = execBootRomSequence clkOk nvOk run cal s := rfl
@[simp] theorem exec_coreRelease (n : Fin 6) : exec (.coreRelease n) s = execCoreRelease n s := rfl
@[simp] theorem exec_coreReset (n : Fin 6) : exec (.coreReset n) s = execCoreReset n s := rfl
@[simp] theorem exec_dmaStart (k : Fin 4) : exec (.dmaStart k) s = execDmaStart k s := rfl
@[simp] theorem exec_dmaDone (k : Fin 4) : exec (.dmaDone k) s = execDmaDone k s := rfl
@[simp] theorem exec_dmaStopError (k : Fin 4) : exec (.dmaStopError k) s = execDmaStopError k s := rfl
@[simp] theorem exec_tempConversion (deg : BitVec 11) : exec (.tempConversion deg) s = execTempConversion deg s := rfl
@[simp] theorem exec_plinthPowerUp : exec (.plinthPowerUp) s = execPlinthPowerUp s := rfl
@[simp] theorem exec_rtcTick : exec (.rtcTick) s = execRtcTick s := rfl
@[simp] theorem exec_rtcSetCommit (w : Half) : exec (.rtcSetCommit w) s = execRtcSetCommit w s := rfl
@[simp] theorem exec_hourShiftForward : exec (.hourShiftForward) s = execHourShiftForward s := rfl
@[simp] theorem exec_hourShiftBack : exec (.hourShiftBack) s = execHourShiftBack s := rfl
@[simp] theorem exec_xoLfStop : exec (.xoLfStop) s = execXoLfStop s := rfl
@[simp] theorem exec_xoLfRestart : exec (.xoLfRestart) s = execXoLfRestart s := rfl
@[simp] theorem exec_rtcAlarmCommit (w : Half) : exec (.rtcAlarmCommit w) s = execRtcAlarmCommit w s := rfl
@[simp] theorem exec_trimWindowClose : exec (.trimWindowClose) s = execTrimWindowClose s := rfl
@[simp] theorem exec_trimWindowVoid : exec (.trimWindowVoid) s = execTrimWindowVoid s := rfl
@[simp] theorem exec_mainsEdge : exec (.mainsEdge) s = execMainsEdge s := rfl
@[simp] theorem exec_mainsLoss : exec (.mainsLoss) s = execMainsLoss s := rfl
@[simp] theorem exec_plinthMainsWrite (w : Half) : exec (.plinthMainsWrite w) s = execPlinthMainsWrite w s := rfl
@[simp] theorem exec_tamperEdge (n : Fin 2) (rising : Bool) : exec (.tamperEdge n rising) s = execTamperEdge n rising s := rfl
@[simp] theorem exec_trickleWrite (w : Half) : exec (.trickleWrite w) s = execTrickleWrite w s := rfl
@[simp] theorem exec_timerCompareFire (k : Fin 8) : exec (.timerCompareFire k) s = execTimerCompareFire k s := rfl
@[simp] theorem exec_timerCntCommit (k : Fin 8) (w : Half) : exec (.timerCntCommit k w) s = execTimerCntCommit k w s := rfl
@[simp] theorem exec_timerCmpCommit (k : Fin 8) (w : Half) : exec (.timerCmpCommit k w) s = execTimerCmpCommit k w s := rfl
@[simp] theorem exec_timerRun (k : Fin 8) (w : Half) : exec (.timerRun k w) s = execTimerRun k w s := rfl
@[simp] theorem exec_timerStop (k : Fin 8) (w : Half) : exec (.timerStop k w) s = execTimerStop k w s := rfl
@[simp] theorem exec_timerCapture (k : Fin 8) (e : CaptureEdge) : exec (.timerCapture k e) s = execTimerCapture k e s := rfl
@[simp] theorem exec_timerCapRead (k : Fin 8) : exec (.timerCapRead k) s = execTimerCapRead k s := rfl
@[simp] theorem exec_spiStatus : exec (.spiStatus) s = execSpiStatus s := rfl
@[simp] theorem exec_spiWrite (data : List Half) (frac : Bool) : exec (.spiWrite data frac) s = execSpiWrite data frac s := rfl
@[simp] theorem exec_spiRead (n : Nat) : exec (.spiRead n) s = execSpiRead n s := rfl
@[simp] theorem exec_spiBadop : exec (.spiBadop) s = execSpiBadop s := rfl
@[simp] theorem exec_hostifInRelease : exec (.hostifInRelease) s = execHostifInRelease s := rfl
@[simp] theorem exec_hrdyNotch : exec (.hrdyNotch) s = execHrdyNotch s := rfl
@[simp] theorem exec_hrdyNotchEnd : exec (.hrdyNotchEnd) s = execHrdyNotchEnd s := rfl
@[simp] theorem exec_hostifQueueWrite (w : Half) : exec (.hostifQueueWrite w) s = execHostifQueueWrite w s := rfl
@[simp] theorem exec_hostifEnable (w : Half) : exec (.hostifEnable w) s = execHostifEnable w s := rfl
@[simp] theorem exec_hostifDisable (w : Half) : exec (.hostifDisable w) s = execHostifDisable w s := rfl
@[simp] theorem exec_uartFrame (l : List Byte) : exec (.uartFrame l) s = execUartFrame l s := rfl
@[simp] theorem exec_uartGapTimeout : exec (.uartGapTimeout) s = execUartGapTimeout s := rfl
@[simp] theorem exec_uartDataWrite (w : Half) : exec (.uartDataWrite w) s = execUartDataWrite w s := rfl
@[simp] theorem exec_uartDataRead : exec (.uartDataRead) s = execUartDataRead s := rfl
@[simp] theorem exec_channelReset (k : Fin 4) : exec (.channelReset k) s = execChannelReset k s := rfl
@[simp] theorem exec_sysHello (k : Fin 6) (h : AdsinHdr) (p : List Half) : exec (.sysHello k h p) s = execSysHello k h p s := rfl
@[simp] theorem exec_sysPing (k : Fin 6) (h : AdsinHdr) (p : List Half) : exec (.sysPing k h p) s = execSysPing k h p s := rfl
@[simp] theorem exec_sysInfo (k : Fin 6) (h : AdsinHdr) (p : List Half) : exec (.sysInfo k h p) s = execSysInfo k h p s := rfl
@[simp] theorem exec_sysEvtMask (k : Fin 6) (h : AdsinHdr) (p : List Half) : exec (.sysEvtMask k h p) s = execSysEvtMask k h p s := rfl
@[simp] theorem exec_sysReset (k : Fin 6) (h : AdsinHdr) (p : List Half) : exec (.sysReset k h p) s = execSysReset k h p s := rfl
@[simp] theorem exec_sysStats (k : Fin 6) (h : AdsinHdr) (p : List Half) : exec (.sysStats k h p) s = execSysStats k h p s := rfl
@[simp] theorem exec_pwrPlSet (k : Fin 6) (h : AdsinHdr) (p : List Half) : exec (.pwrPlSet k h p) s = execPwrPlSet k h p s := rfl
@[simp] theorem exec_pwrPlGet (k : Fin 6) (h : AdsinHdr) (p : List Half) : exec (.pwrPlGet k h p) s = execPwrPlGet k h p s := rfl
@[simp] theorem exec_pwrSleep (k : Fin 6) (h : AdsinHdr) (p : List Half) : exec (.pwrSleep k h p) s = execPwrSleep k h p s := rfl
@[simp] theorem exec_pwrMains (k : Fin 6) (h : AdsinHdr) (p : List Half) : exec (.pwrMains k h p) s = execPwrMains k h p s := rfl
@[simp] theorem exec_timeGet (k : Fin 6) (h : AdsinHdr) (p : List Half) : exec (.timeGet k h p) s = execTimeGet k h p s := rfl
@[simp] theorem exec_timeSet (k : Fin 6) (h : AdsinHdr) (p : List Half) : exec (.timeSet k h p) s = execTimeSet k h p s := rfl
@[simp] theorem exec_timeShift (k : Fin 6) (h : AdsinHdr) (p : List Half) : exec (.timeShift k h p) s = execTimeShift k h p s := rfl
@[simp] theorem exec_timeTrim (k : Fin 6) (h : AdsinHdr) (p : List Half) : exec (.timeTrim k h p) s = execTimeTrim k h p s := rfl
@[simp] theorem exec_timeAlarm (k : Fin 6) (h : AdsinHdr) (p : List Half) : exec (.timeAlarm k h p) s = execTimeAlarm k h p s := rfl
@[simp] theorem exec_radioFeCfg (k : Fin 6) (h : AdsinHdr) (p : List Half) : exec (.radioFeCfg k h p) s = execRadioFeCfg k h p s := rfl
@[simp] theorem exec_radioFeEn (k : Fin 6) (h : AdsinHdr) (p : List Half) : exec (.radioFeEn k h p) s = execRadioFeEn k h p s := rfl
@[simp] theorem exec_radioCal (k : Fin 6) (h : AdsinHdr) (p : List Half) : exec (.radioCal k h p) s = execRadioCal k h p s := rfl
@[simp] theorem exec_radioRoute (k : Fin 6) (h : AdsinHdr) (p : List Half) : exec (.radioRoute k h p) s = execRadioRoute k h p s := rfl
@[simp] theorem exec_radioSend (k : Fin 6) (h : AdsinHdr) (p : List Half) : exec (.radioSend k h p) s = execRadioSend k h p s := rfl
@[simp] theorem exec_radioLaneStats (k : Fin 6) (h : AdsinHdr) (p : List Half) : exec (.radioLaneStats k h p) s = execRadioLaneStats k h p s := rfl
@[simp] theorem exec_radioRecord (k : Fin 6) (h : AdsinHdr) (p : List Half) : exec (.radioRecord k h p) s = execRadioRecord k h p s := rfl
@[simp] theorem exec_radioRecRead (k : Fin 6) (h : AdsinHdr) (p : List Half) : exec (.radioRecRead k h p) s = execRadioRecRead k h p s := rfl
@[simp] theorem exec_courseCfg (k : Fin 6) (h : AdsinHdr) (p : List Half) : exec (.courseCfg k h p) s = execCourseCfg k h p s := rfl
@[simp] theorem exec_courseStart (k : Fin 6) (h : AdsinHdr) (p : List Half) : exec (.courseStart k h p) s = execCourseStart k h p s := rfl
@[simp] theorem exec_courseStop (k : Fin 6) (h : AdsinHdr) (p : List Half) : exec (.courseStop k h p) s = execCourseStop k h p s := rfl
@[simp] theorem exec_courseLanes (k : Fin 6) (h : AdsinHdr) (p : List Half) : exec (.courseLanes k h p) s = execCourseLanes k h p s := rfl
@[simp] theorem exec_courseHoplist (k : Fin 6) (h : AdsinHdr) (p : List Half) : exec (.courseHoplist k h p) s = execCourseHoplist k h p s := rfl
@[simp] theorem exec_courseDuty (k : Fin 6) (h : AdsinHdr) (p : List Half) : exec (.courseDuty k h p) s = execCourseDuty k h p s := rfl
@[simp] theorem exec_ashlarTenant (k : Fin 6) (h : AdsinHdr) (p : List Half) : exec (.ashlarTenant k h p) s = execAshlarTenant k h p s := rfl
@[simp] theorem exec_ashlarEpoch (k : Fin 6) (h : AdsinHdr) (p : List Half) : exec (.ashlarEpoch k h p) s = execAshlarEpoch k h p s := rfl
@[simp] theorem exec_ashlarEntry (k : Fin 6) (h : AdsinHdr) (p : List Half) : exec (.ashlarEntry k h p) s = execAshlarEntry k h p s := rfl
@[simp] theorem exec_ashlarRebuild (k : Fin 6) (h : AdsinHdr) (p : List Half) : exec (.ashlarRebuild k h p) s = execAshlarRebuild k h p s := rfl
@[simp] theorem exec_ashlarCounters (k : Fin 6) (h : AdsinHdr) (p : List Half) : exec (.ashlarCounters k h p) s = execAshlarCounters k h p s := rfl
@[simp] theorem exec_keyImport (k : Fin 6) (h : AdsinHdr) (p : List Half) : exec (.keyImport k h p) s = execKeyImport k h p s := rfl
@[simp] theorem exec_keyDerive (k : Fin 6) (h : AdsinHdr) (p : List Half) : exec (.keyDerive k h p) s = execKeyDerive k h p s := rfl
@[simp] theorem exec_keyGenerate (k : Fin 6) (h : AdsinHdr) (p : List Half) : exec (.keyGenerate k h p) s = execKeyGenerate k h p s := rfl
@[simp] theorem exec_keyDestroy (k : Fin 6) (h : AdsinHdr) (p : List Half) : exec (.keyDestroy k h p) s = execKeyDestroy k h p s := rfl
@[simp] theorem exec_keyTransfer (k : Fin 6) (h : AdsinHdr) (p : List Half) : exec (.keyTransfer k h p) s = execKeyTransfer k h p s := rfl
@[simp] theorem exec_keyDrop (k : Fin 6) (h : AdsinHdr) (p : List Half) : exec (.keyDrop k h p) s = execKeyDrop k h p s := rfl
@[simp] theorem exec_keyAttr (k : Fin 6) (h : AdsinHdr) (p : List Half) : exec (.keyAttr k h p) s = execKeyAttr k h p s := rfl
@[simp] theorem exec_keyIdpub (k : Fin 6) (h : AdsinHdr) (p : List Half) : exec (.keyIdpub k h p) s = execKeyIdpub k h p s := rfl
@[simp] theorem exec_keyLcNonce (k : Fin 6) (h : AdsinHdr) (p : List Half) : exec (.keyLcNonce k h p) s = execKeyLcNonce k h p s := rfl
@[simp] theorem exec_keyLcChange (k : Fin 6) (h : AdsinHdr) (p : List Half) : exec (.keyLcChange k h p) s = execKeyLcChange k h p s := rfl
@[simp] theorem exec_keyCipher (k : Fin 6) (h : AdsinHdr) (p : List Half) : exec (.keyCipher k h p) s = execKeyCipher k h p s := rfl
@[simp] theorem exec_accessCfg (k : Fin 6) (h : AdsinHdr) (p : List Half) : exec (.accessCfg k h p) s = execAccessCfg k h p s := rfl
@[simp] theorem exec_accessTablePut (k : Fin 6) (h : AdsinHdr) (p : List Half) : exec (.accessTablePut k h p) s = execAccessTablePut k h p s := rfl
@[simp] theorem exec_accessTableLoad (k : Fin 6) (h : AdsinHdr) (p : List Half) : exec (.accessTableLoad k h p) s = execAccessTableLoad k h p s := rfl
@[simp] theorem exec_accessStatus (k : Fin 6) (h : AdsinHdr) (p : List Half) : exec (.accessStatus k h p) s = execAccessStatus k h p s := rfl
@[simp] theorem exec_accessTune (k : Fin 6) (h : AdsinHdr) (p : List Half) : exec (.accessTune k h p) s = execAccessTune k h p s := rfl
@[simp] theorem exec_accessPlumbCal (k : Fin 6) (h : AdsinHdr) (p : List Half) : exec (.accessPlumbCal k h p) s = execAccessPlumbCal k h p s := rfl
@[simp] theorem exec_fabricCfg (k : Fin 6) (h : AdsinHdr) (p : List Half) : exec (.fabricCfg k h p) s = execFabricCfg k h p s := rfl
@[simp] theorem exec_fabricStart (k : Fin 6) (h : AdsinHdr) (p : List Half) : exec (.fabricStart k h p) s = execFabricStart k h p s := rfl
@[simp] theorem exec_fabricStop (k : Fin 6) (h : AdsinHdr) (p : List Half) : exec (.fabricStop k h p) s = execFabricStop k h p s := rfl
@[simp] theorem exec_fabricStatus (k : Fin 6) (h : AdsinHdr) (p : List Half) : exec (.fabricStatus k h p) s = execFabricStatus k h p s := rfl
@[simp] theorem exec_fabricNeighbours (k : Fin 6) (h : AdsinHdr) (p : List Half) : exec (.fabricNeighbours k h p) s = execFabricNeighbours k h p s := rfl
@[simp] theorem exec_fabricSend (k : Fin 6) (h : AdsinHdr) (p : List Half) : exec (.fabricSend k h p) s = execFabricSend k h p s := rfl
@[simp] theorem exec_fabricRoutes (k : Fin 6) (h : AdsinHdr) (p : List Half) : exec (.fabricRoutes k h p) s = execFabricRoutes k h p s := rfl
@[simp] theorem exec_assayRun (k : Fin 6) (h : AdsinHdr) (p : List Half) : exec (.assayRun k h p) s = execAssayRun k h p s := rfl
@[simp] theorem exec_assaySchedule (k : Fin 6) (h : AdsinHdr) (p : List Half) : exec (.assaySchedule k h p) s = execAssaySchedule k h p s := rfl
@[simp] theorem exec_assayResults (k : Fin 6) (h : AdsinHdr) (p : List Half) : exec (.assayResults k h p) s = execAssayResults k h p s := rfl
@[simp] theorem exec_updateBegin (k : Fin 6) (h : AdsinHdr) (p : List Half) : exec (.updateBegin k h p) s = execUpdateBegin k h p s := rfl
@[simp] theorem exec_updateChunk (k : Fin 6) (h : AdsinHdr) (p : List Half) : exec (.updateChunk k h p) s = execUpdateChunk k h p s := rfl
@[simp] theorem exec_updateVerify (k : Fin 6) (h : AdsinHdr) (p : List Half) : exec (.updateVerify k h p) s = execUpdateVerify k h p s := rfl
@[simp] theorem exec_updateActivate (k : Fin 6) (h : AdsinHdr) (p : List Half) : exec (.updateActivate k h p) s = execUpdateActivate k h p s := rfl
@[simp] theorem exec_updateState (k : Fin 6) (h : AdsinHdr) (p : List Half) : exec (.updateState k h p) s = execUpdateState k h p s := rfl
@[simp] theorem exec_updateAbort (k : Fin 6) (h : AdsinHdr) (p : List Half) : exec (.updateAbort k h p) s = execUpdateAbort k h p s := rfl
@[simp] theorem exec_logRead (k : Fin 6) (h : AdsinHdr) (p : List Half) : exec (.logRead k h p) s = execLogRead k h p s := rfl
@[simp] theorem exec_logWrite (k : Fin 6) (h : AdsinHdr) (p : List Half) : exec (.logWrite k h p) s = execLogWrite k h p s := rfl
@[simp] theorem exec_fabricHelloSend : exec (.fabricHelloSend) s = execFabricHelloSend s := rfl
@[simp] theorem exec_fabricHelloReceive : exec (.fabricHelloReceive) s = execFabricHelloReceive s := rfl
@[simp] theorem exec_neighbourRemove : exec (.neighbourRemove) s = execNeighbourRemove s := rfl
@[simp] theorem exec_joinReqSend : exec (.joinReqSend) s = execJoinReqSend s := rfl
@[simp] theorem exec_joinReqRelay : exec (.joinReqRelay) s = execJoinReqRelay s := rfl
@[simp] theorem exec_joinRspReceive : exec (.joinRspReceive) s = execJoinRspReceive s := rfl
@[simp] theorem exec_joinTimeout : exec (.joinTimeout) s = execJoinTimeout s := rfl
@[simp] theorem exec_routeAdvSend : exec (.routeAdvSend) s = execRouteAdvSend s := rfl
@[simp] theorem exec_routeAdvReceive : exec (.routeAdvReceive) s = execRouteAdvReceive s := rfl
@[simp] theorem exec_routeExpiry : exec (.routeExpiry) s = execRouteExpiry s := rfl
@[simp] theorem exec_dataForward : exec (.dataForward) s = execDataForward s := rfl
@[simp] theorem exec_parentLost : exec (.parentLost) s = execParentLost s := rfl
@[simp] theorem exec_timeOffsetUpdate : exec (.timeOffsetUpdate) s = execTimeOffsetUpdate s := rfl
@[simp] theorem exec_sliceLane (t : Fin 128) : exec (.sliceLane t) s = execSliceLane t s := rfl
@[simp] theorem exec_sliceAes (t : Fin 128) : exec (.sliceAes t) s = execSliceAes t s := rfl
@[simp] theorem exec_sliceLf (t : Fin 128) : exec (.sliceLf t) s = execSliceLf t s := rfl
@[simp] theorem exec_sliceAdcRef (t : Fin 128) : exec (.sliceAdcRef t) s = execSliceAdcRef t s := rfl
@[simp] theorem exec_sliceIqLoop (t : Fin 128) : exec (.sliceIqLoop t) s = execSliceIqLoop t s := rfl
@[simp] theorem exec_sliceSramMarch (t : Fin 128) : exec (.sliceSramMarch t) s = execSliceSramMarch t s := rfl
@[simp] theorem exec_sliceLaneModes (t : Fin 128) : exec (.sliceLaneModes t) s = execSliceLaneModes t s := rfl
@[simp] theorem exec_sliceTxLoop (t : Fin 128) : exec (.sliceTxLoop t) s = execSliceTxLoop t s := rfl
@[simp] theorem exec_slicePkeKat (t : Fin 128) : exec (.slicePkeKat t) s = execSlicePkeKat t s := rfl
@[simp] theorem exec_sliceMramScan (t : Fin 128) : exec (.sliceMramScan t) s = execSliceMramScan t s := rfl
@[simp] theorem exec_assayRequestCheck : exec (.assayRequestCheck) s = execAssayRequestCheck s := rfl
@[simp] theorem exec_sliceStart : exec (.sliceStart) s = execSliceStart s := rfl
@[simp] theorem exec_supplyCheckEnd (mv : Fin 4096) : exec (.supplyCheckEnd mv) s = execSupplyCheckEnd mv s := rfl
@[simp] theorem exec_sliceReturn (m : Measured) (d : BitVec 24) (short : Bool) : exec (.sliceReturn m d short) s = execSliceReturn m d short s := rfl
@[simp] theorem exec_sliceOverrun : exec (.sliceOverrun) s = execSliceOverrun s := rfl
@[simp] theorem exec_requestExpired : exec (.requestExpired) s = execRequestExpired s := rfl
@[simp] theorem exec_assayDisable : exec (.assayDisable) s = execAssayDisable s := rfl
@[simp] theorem exec_assayScheduleTick (slice : Byte) : exec (.assayScheduleTick slice) s = execAssayScheduleTick slice s := rfl
@[simp] theorem exec_handoverStandbyReady : exec (.handoverStandbyReady) s = execHandoverStandbyReady s := rfl
@[simp] theorem exec_handoverReadyTimeout : exec (.handoverReadyTimeout) s = execHandoverReadyTimeout s := rfl
@[simp] theorem exec_handoverCutoverStart : exec (.handoverCutoverStart) s = execHandoverCutoverStart s := rfl
@[simp] theorem exec_handoverAccept (accepts : Bool) : exec (.handoverAccept accepts) s = execHandoverAccept accepts s := rfl
@[simp] theorem exec_handoverDecision : exec (.handoverDecision) s = execHandoverDecision s := rfl
@[simp] theorem exec_handoverTakeover (_ok : Bool) : exec (.handoverTakeover _ok) s = execHandoverTakeover _ok s := rfl
@[simp] theorem exec_recordMigration : exec (.recordMigration) s = execRecordMigration s := rfl
@[simp] theorem exec_trowelStatus (core : Fin 8) : exec (.trowelStatus core) s = execTrowelStatus core s := rfl
@[simp] theorem exec_trowelAddr (a : BitVec 24) (good : Bool) : exec (.trowelAddr a good) s = execTrowelAddr a good s := rfl
@[simp] theorem exec_trowelRd16 (core : Fin 8) : exec (.trowelRd16 core) s = execTrowelRd16 core s := rfl
@[simp] theorem exec_trowelWr16 (core : Fin 8) (w : Half) (good : Bool) : exec (.trowelWr16 core w good) s = execTrowelWr16 core w good s := rfl
@[simp] theorem exec_trowelHalt (core : Fin 8) (t : Fin 4) : exec (.trowelHalt core t) s = execTrowelHalt core t s := rfl
@[simp] theorem exec_trowelResume (core : Fin 8) (t : Fin 4) : exec (.trowelResume core t) s = execTrowelResume core t s := rfl
@[simp] theorem exec_trowelStep (core : Fin 8) (t : Fin 4) : exec (.trowelStep core t) s = execTrowelStep core t s := rfl
@[simp] theorem exec_trowelRsel (core : Fin 8) (t : Fin 4) (sel : Byte) (good : Bool) : exec (.trowelRsel core t sel good) s = execTrowelRsel core t sel good s := rfl
@[simp] theorem exec_trowelRrd (core : Fin 8) (t : Fin 4) : exec (.trowelRrd core t) s = execTrowelRrd core t s := rfl
@[simp] theorem exec_trowelRwr (core : Fin 8) (t : Fin 4) (v : BitVec 24) (good : Bool) : exec (.trowelRwr core t v good) s = execTrowelRwr core t v good s := rfl
@[simp] theorem exec_trowelBkpt (core : Fin 8) (t : Fin 4) (v : BitVec 24) (good : Bool) : exec (.trowelBkpt core t v good) s = execTrowelBkpt core t v good s := rfl
@[simp] theorem exec_trowelBkctl (core : Fin 8) (v : Byte) (good : Bool) : exec (.trowelBkctl core v good) s = execTrowelBkctl core v good s := rfl
@[simp] theorem exec_trowelReset : exec (.trowelReset) s = execTrowelReset s := rfl
@[simp] theorem exec_trowelScan : exec (.trowelScan) s = execTrowelScan s := rfl
@[simp] theorem exec_trowelBadcmd : exec (.trowelBadcmd) s = execTrowelBadcmd s := rfl
@[simp] theorem exec_trowelRequestError : exec (.trowelRequestError) s = execTrowelRequestError s := rfl
@[simp] theorem exec_trowelLineReset : exec (.trowelLineReset) s = execTrowelLineReset s := rfl
@[simp] theorem exec_threadHaltTakesEffect (c : Fin 6) (t : Fin 4) : exec (.threadHaltTakesEffect c t) s = execThreadHaltTakesEffect c t s := rfl
@[simp] theorem exec_breakpointHit (c : Fin 6) (branch : Bool) : exec (.breakpointHit c branch) s = execBreakpointHit c branch s := rfl
@[simp] theorem exec_jtagExtest (ext : BitVec 57) (shifted : BitVec 157) : exec (.jtagExtest ext shifted) s = execJtagExtest ext shifted s := rfl
@[simp] theorem exec_jtagSamplePreload (ext : BitVec 57) (shifted : BitVec 157) : exec (.jtagSamplePreload ext shifted) s = execJtagSamplePreload ext shifted s := rfl
@[simp] theorem exec_jtagBypass : exec (.jtagBypass) s = execJtagBypass s := rfl
@[simp] theorem exec_gpioEdge (n : Fin 32) (rising : Bool) : exec (.gpioEdge n rising) s = execGpioEdge n rising s := rfl
@[simp] theorem exec_ppsInEdge : exec (.ppsInEdge) s = execPpsInEdge s := rfl
@[simp] theorem exec_uartOctetReceived (b : Byte) (ferr : Bool) : exec (.uartOctetReceived b ferr) s = execUartOctetReceived b ferr s := rfl
@[simp] theorem exec_uartOctetSent : exec (.uartOctetSent) s = execUartOctetSent s := rfl
@[simp] theorem exec_vioLoss : exec (.vioLoss) s = execVioLoss s := rfl
@[simp] theorem exec_vioReturn : exec (.vioReturn) s = execVioReturn s := rfl
@[simp] theorem exec_plinthSupplyLoss : exec (.plinthSupplyLoss) s = execPlinthSupplyLoss s := rfl
@[simp] theorem exec_plinthFeedVmain : exec (.plinthFeedVmain) s = execPlinthFeedVmain s := rfl

end Sys2Proof.Machine
end

