-- ==== Sys2Proof/Laws/Sparse.lean ====
section
/-! SUPPORT. Sparse maps: read after write, and the operations keep the canonical form. -/
namespace Sys2Proof.Machine

variable {α : Type}

/-- Dropping the entries of a key leaves what every other key reads as. -/
theorem sparseGet_filter_ne (d : Nat → α) (m : Sparse α) {k k' : Nat} (h : k' ≠ k) :
    sparseGet d (m.filter (fun p => p.1 != k)) k' = sparseGet d m k' := by
  induction m with
  | nil => rfl
  | cons p m ih =>
    obtain ⟨a, v⟩ := p
    by_cases ha : a = k
    · simp [sparseGet, ha, ih, h]
    · simp [sparseGet, ha, ih]

/-- A key without an entry reads as an unlisted key. -/
theorem sparseGet_of_absent (d : Nat → α) (m : Sparse α) (k : Nat) (h : ∀ p ∈ m, p.1 ≠ k) : sparseGet d m k = d k := by
  induction m with
  | nil => rfl
  | cons p m ih =>
    obtain ⟨a, v⟩ := p
    have ha : k ≠ a := fun e => h (a, v) (by simp) e.symm
    simp only [sparseGet, if_neg ha]
    exact ih (fun q hq => h q (by simp [hq]))

/-- After an insertion the key reads as the new value, and every other key as before. -/
theorem sparseGet_sparseInsert (d : Nat → α) (m : Sparse α) (k : Nat) (v : α) (k' : Nat) (h : ∀ p ∈ m, p.1 ≠ k) :
    sparseGet d (sparseInsert k v m) k' = if k' = k then v else sparseGet d m k' := by
  induction m with
  | nil => simp [sparseInsert, sparseGet]
  | cons p m ih =>
    obtain ⟨a, w⟩ := p
    have ha : a ≠ k := h (a, w) (by simp)
    have hm := ih (fun q hq => h q (by simp [hq]))
    by_cases hlt : k < a
    · simp [sparseInsert, hlt, sparseGet]
    · by_cases hk : k' = a
      · simp [sparseInsert, hlt, sparseGet, hk, ha]
      · simp [sparseInsert, hlt, sparseGet, hk, hm]

/-- Read after write: the key written reads as the value written, every other key as before. -/
theorem sparseGet_sparseSet [DecidableEq α] (d : Nat → α) (m : Sparse α) (k : Nat) (v : α) (k' : Nat) :
    sparseGet d (sparseSet d m k v) k' = if k' = k then v else sparseGet d m k' := by
  have habs : ∀ p ∈ m.filter (fun p => p.1 != k), p.1 ≠ k := fun p hp => by simpa using (List.mem_filter.1 hp).2
  unfold sparseSet
  by_cases hv : v = d k
  · by_cases hk : k' = k
    · subst hk; simp [hv, sparseGet_of_absent d _ _ habs]
    · simp [hv, hk, sparseGet_filter_ne d m hk]
  · rw [if_neg hv, sparseGet_sparseInsert d _ k v k' habs]
    by_cases hk : k' = k
    · simp [hk]
    · simp [hk, sparseGet_filter_ne d m hk]

/-- Clearing a range: its keys read as unlisted, every other key as before. -/
theorem sparseGet_sparseClear (d : Nat → α) (m : Sparse α) (lo hi k : Nat) :
    sparseGet d (sparseClear m lo hi) k = if lo ≤ k ∧ k < hi then d k else sparseGet d m k := by
  induction m with
  | nil => simp [sparseClear, sparseGet]
  | cons p m ih =>
    obtain ⟨a, v⟩ := p
    simp only [sparseClear] at ih
    by_cases ha : a < lo ∨ hi ≤ a
    · simp only [sparseClear, List.filter_cons, Bool.or_eq_true, decide_eq_true_eq, if_pos ha, sparseGet, ih]
      by_cases hk : k = a
      · subst hk; rw [if_pos rfl, if_neg (by omega), if_pos rfl]
      · simp [hk]
    · simp only [sparseClear, List.filter_cons, Bool.or_eq_true, decide_eq_true_eq, if_neg ha, sparseGet, ih]
      by_cases hk : k = a
      · subst hk; rw [if_pos (by omega), if_pos (by omega)]
      · simp [hk]

/-- The canonical form, said of the whole list: keys strictly rising, no entry reading as an unlisted key. -/
theorem sparseWf_iff [DecidableEq α] (d : Nat → α) (m : Sparse α) :
    sparseWf d m = true ↔ m.Pairwise (fun p q => p.1 < q.1) ∧ ∀ p ∈ m, p.2 ≠ d p.1 := by
  induction m with
  | nil => simp [sparseWf]
  | cons p m ih =>
    obtain ⟨k, v⟩ := p
    cases m with
    | nil => simp [sparseWf]
    | cons q m =>
      obtain ⟨k', v'⟩ := q
      simp only [sparseWf, Bool.and_eq_true, decide_eq_true_eq, bne_iff_ne, ih]
      constructor
      · rintro ⟨⟨hk, hv⟩, hp, hd⟩
        refine ⟨List.pairwise_cons.2 ⟨?_, hp⟩, ?_⟩
        · intro r hr
          rcases List.mem_cons.1 hr with rfl | hr
          · exact hk
          · exact Nat.lt_trans hk ((List.pairwise_cons.1 hp).1 r hr)
        · intro r hr
          rcases List.mem_cons.1 hr with rfl | hr
          · exact hv
          · exact hd r hr
      · rintro ⟨hp, hd⟩
        have h2 := List.pairwise_cons.1 hp
        exact ⟨⟨h2.1 (k', v') (by simp), hd (k, v) (by simp)⟩, h2.2, fun r hr => hd r (by simp [hr])⟩

/-- Filtering keeps the canonical form. -/
theorem sparseWf_filter [DecidableEq α] (d : Nat → α) (m : Sparse α) (f : Nat × α → Bool) (h : sparseWf d m = true) :
    sparseWf d (m.filter f) = true := by
  rw [sparseWf_iff] at *
  exact ⟨h.1.filter f, fun p hp => h.2 p (List.mem_filter.1 hp).1⟩

/-- Members of an insertion: the new pair and the old ones. -/
theorem mem_sparseInsert (m : Sparse α) (k : Nat) (v : α) (p : Nat × α) :
    p ∈ sparseInsert k v m ↔ p = (k, v) ∨ p ∈ m := by
  induction m with
  | nil => simp [sparseInsert]
  | cons q m ih =>
    obtain ⟨a, w⟩ := q
    by_cases h : k < a
    · simp [sparseInsert, h]
    · simp only [sparseInsert, if_neg h, List.mem_cons, ih]
      constructor
      · rintro (h | h | h) <;> simp [h]
      · rintro (h | h | h) <;> simp [h]

/-- Inserting a key that has no entry keeps the keys strictly rising. -/
theorem pairwise_sparseInsert (m : Sparse α) (k : Nat) (v : α) (hm : m.Pairwise (fun p q => p.1 < q.1))
    (h : ∀ p ∈ m, p.1 ≠ k) : (sparseInsert k v m).Pairwise (fun p q => p.1 < q.1) := by
  induction m with
  | nil => simp [sparseInsert]
  | cons q m ih =>
    obtain ⟨a, w⟩ := q
    obtain ⟨h1, h2⟩ := List.pairwise_cons.1 hm
    have ha : a ≠ k := h (a, w) (by simp)
    by_cases hk : k < a
    · simp only [sparseInsert, if_pos hk]
      refine List.pairwise_cons.2 ⟨?_, hm⟩
      intro p hp
      rcases List.mem_cons.1 hp with rfl | hp
      · exact hk
      · exact Nat.lt_trans hk (h1 p hp)
    · simp only [sparseInsert, if_neg hk]
      refine List.pairwise_cons.2 ⟨?_, ih h2 (fun p hp => h p (by simp [hp]))⟩
      intro p hp
      rcases (mem_sparseInsert m k v p).1 hp with rfl | hp
      · show a < k; omega
      · exact h1 p hp

/-- A write keeps the canonical form. -/
theorem sparseWf_sparseSet [DecidableEq α] (d : Nat → α) (m : Sparse α) (k : Nat) (v : α) (h : sparseWf d m = true) :
    sparseWf d (sparseSet d m k v) = true := by
  have hf := sparseWf_filter d m (fun p => p.1 != k) h
  unfold sparseSet
  by_cases hv : v = d k
  · simpa [hv] using hf
  · rw [if_neg hv]
    rw [sparseWf_iff] at *
    refine ⟨pairwise_sparseInsert _ k v hf.1 (fun p hp => by simpa using (List.mem_filter.1 hp).2), ?_⟩
    intro p hp
    rcases (mem_sparseInsert _ k v p).1 hp with rfl | hp
    · exact hv
    · exact hf.2 p hp

/-- Clearing a range keeps the canonical form. -/
theorem sparseWf_sparseClear [DecidableEq α] (d : Nat → α) (m : Sparse α) (lo hi : Nat) (h : sparseWf d m = true) :
    sparseWf d (sparseClear m lo hi) = true :=
  sparseWf_filter d m _ h

/-- Writing a list of pairs keeps the canonical form. -/
theorem sparseWf_foldl_sparseSet [DecidableEq α] (d : Nat → α) {β : Type} (key : β → Nat) (val : β → α) (l : List β)
    (m : Sparse α) (h : sparseWf d m = true) :
    sparseWf d (l.foldl (fun acc p => sparseSet d acc (key p) (val p)) m) = true := by
  induction l generalizing m with
  | nil => exact h
  | cons b l ih => exact ih _ (sparseWf_sparseSet d m _ _ h)

/-- Changing every listed value keeps the canonical form. -/
theorem sparseWf_sparseMap [DecidableEq α] (d : Nat → α) (f : α → α) (m : Sparse α) : sparseWf d (sparseMap d f m) = true :=
  sparseWf_foldl_sparseSet d Prod.fst (fun p => f p.2) m [] rfl

/-- Two canonical maps that read alike are the same list. -/
theorem sparse_ext [DecidableEq α] (d : Nat → α) (m n : Sparse α) (hm : sparseWf d m = true) (hn : sparseWf d n = true)
    (h : ∀ k, sparseGet d m k = sparseGet d n k) : m = n := by
  have listed : ∀ (m : Sparse α), sparseWf d m = true → ∀ k v, (k, v) ∈ m → sparseGet d m k = v := by
    intro m hm
    rw [sparseWf_iff] at hm
    induction m with
    | nil => simp
    | cons p m ih =>
      obtain ⟨a, w⟩ := p
      obtain ⟨h1, h2⟩ := List.pairwise_cons.1 hm.1
      intro k v hk
      rcases List.mem_cons.1 hk with hk | hk
      · cases hk; simp [sparseGet]
      · have : a < k := h1 (k, v) hk
        simp only [sparseGet, if_neg (Nat.ne_of_gt this)]
        exact ih ⟨h2, fun p hp => hm.2 p (by simp [hp])⟩ k v hk
  have mem : ∀ (m n : Sparse α), sparseWf d m = true → sparseWf d n = true → (∀ k, sparseGet d m k = sparseGet d n k) →
      ∀ p ∈ m, p ∈ n := by
    intro m n hm hn h p hp
    have hv := listed m hm p.1 p.2 hp
    by_cases hx : ∃ v, (p.1, v) ∈ n
    · obtain ⟨v, hv'⟩ := hx
      have := listed n hn p.1 v hv'
      rw [← h, hv] at this
      rw [← this] at hv'; exact hv'
    · have hd := sparseGet_of_absent d n p.1 (fun q hq e => hx ⟨q.2, by rw [← e]; exact hq⟩)
      rw [← h, hv] at hd
      exact absurd hd (((sparseWf_iff d m).1 hm).2 p hp)
  rw [sparseWf_iff] at hm hn
  have hp : m.Perm n := by
    have nd : ∀ (m : Sparse α), m.Pairwise (fun p q => p.1 < q.1) → m.Nodup :=
      fun m hm => hm.imp (fun {p q} hpq e => by rw [e] at hpq; exact Nat.lt_irrefl _ hpq)
    refine (List.perm_ext_iff_of_nodup (nd m hm.1) (nd n hn.1)).2 (fun p => ?_)
    exact ⟨mem m n ((sparseWf_iff d m).2 hm) ((sparseWf_iff d n).2 hn) h p,
      mem n m ((sparseWf_iff d n).2 hn) ((sparseWf_iff d m).2 hm) (fun k => (h k).symm) p⟩
  exact hp.eq_of_pairwise (fun a b _ _ h1 h2 => absurd (Nat.lt_trans h1 h2) (Nat.lt_irrefl _)) hm.1 hn.1

end Sys2Proof.Machine
end

