-- ==== Sys2Proof/Laws/Memory.lean ====
section
/-! SUPPORT. The memories: read after write, and every operation that writes a memory keeps its canonical form. -/
namespace Sys2Proof.Machine

/-- Read after write of one octet. -/
theorem memGet_memSet (d : Byte) (m : Memory) (a : Nat) (v : Byte) (x : Nat) :
    memGet d (memSet d m a v) x = if x = a then v else memGet d m x :=
  sparseGet_sparseSet _ _ _ _ _

/-- A write of a range leaves every octet outside it. -/
theorem memGet_memPut_outside (d : Byte) (l : List Byte) : ∀ (m : Memory) (a x : Nat), (x < a ∨ a + l.length ≤ x) →
    memGet d (memPut d m a l) x = memGet d m x := by
  induction l with
  | nil => intros; rfl
  | cons v l ih =>
    intro m a x h
    simp only [List.length_cons] at h
    rw [memPut, ih _ _ _ (by omega), memGet_memSet, if_neg (by omega)]

/-- A write of a range puts its octets in ascending addresses. -/
theorem memGet_memPut_inside (d : Byte) (l : List Byte) : ∀ (m : Memory) (a i : Nat) (h : i < l.length),
    memGet d (memPut d m a l) (a + i) = l[i] := by
  induction l with
  | nil => intro m a i h; simp at h
  | cons v l ih =>
    intro m a i h
    cases i with
    | zero => rw [memPut, memGet_memPut_outside _ _ _ _ _ (by omega), memGet_memSet]; simp
    | succ i =>
      rw [memPut, show a + (i + 1) = a + 1 + i by omega, ih _ _ _ (by simpa using h)]; rfl

/-- A write of one octet keeps the canonical form. -/
theorem memSet_wf (d : Byte) (m : Memory) (a : Nat) (v : Byte) (h : Memory.wf m d = true) :
    Memory.wf (memSet d m a v) d = true := sparseWf_sparseSet _ _ _ _ h

/-- A write of a range keeps the canonical form. -/
theorem memPut_wf (d : Byte) (l : List Byte) : ∀ (m : Memory) (a : Nat), Memory.wf m d = true →
    Memory.wf (memPut d m a l) d = true := by
  induction l with
  | nil => intro m a h; exact h
  | cons v l ih => intro m a h; exact ih _ _ (memSet_wf d m a v h)

/-- Dropping a range keeps the canonical form. -/
theorem memClear_wf (d : Byte) (m : Memory) (lo hi : Nat) (h : Memory.wf m d = true) :
    Memory.wf (sparseClear m lo hi) d = true := sparseWf_sparseClear _ _ _ _ h

/-- Dropping entries keeps the canonical form (the test of a memory leaves it cleared). -/
theorem memFilter_wf (d : Byte) (m : Memory) (f : Nat × Byte → Bool) (h : Memory.wf m d = true) :
    Memory.wf (m.filter f) d = true := sparseWf_filter _ _ _ h

/-- A write of general SRAM keeps its canonical form. -/
theorem sramPut_wf (s : State) (a : Nat) (l : List Byte) (h : Memory.wf s.sram 0 = true) :
    Memory.wf (s.sramPut a l).sram 0 = true := by
  unfold State.sramPut
  split
  · exact memPut_wf _ _ _ _ h
  · exact h

/-- A write of MRAM keeps its canonical form. -/
theorem mramPut_wf (s : State) (a : Nat) (l : List Byte) (h : Memory.wf s.mram 0xFF = true) :
    Memory.wf (s.mramPut a l).mram 0xFF = true := by
  unfold State.mramPut
  split
  · exact memPut_wf _ _ _ _ h
  · exact h

/-- A write of general SRAM changes no octet outside the range. -/
theorem sramPut_outside (s : State) (a : Nat) (l : List Byte) (x : Nat) (h : x < a ∨ a + l.length ≤ x) :
    memGet 0 (s.sramPut a l).sram x = memGet 0 s.sram x := by
  unfold State.sramPut
  split
  · exact memGet_memPut_outside _ _ _ _ _ h
  · rfl

/-- Equal readings of canonical memories are equal memories. -/
theorem memory_ext (d : Byte) (m n : Memory) (hm : Memory.wf m d = true) (hn : Memory.wf n d = true)
    (h : ∀ a, memGet d m a = memGet d n a) : m = n := sparse_ext (fun _ => d) m n hm hn h

/-- The memories after reset list nothing. -/
theorem reset_memory_wf : Memory.wf State.reset.sram 0 = true ∧ Memory.wf State.reset.recRam 0 = true ∧
    Memory.wf State.reset.mram 0xFF = true := ⟨rfl, rfl, rfl⟩

end Sys2Proof.Machine
end

