-- ==== Sys2Proof/Laws/Regs.lean ====
section
/-! SUPPORT. The register file: what a write of a register, of a field or of a flag leaves in every register and in every
field. -/
namespace Sys2Proof.Machine

/-- A number split at a field: what lies above it, the field, and what lies below. -/
theorem field_split (v lo w : Nat) : v = v / 2 ^ (lo + w) * 2 ^ (lo + w) + v / 2 ^ lo % 2 ^ w * 2 ^ lo + v % 2 ^ lo := by
  have h1 := Nat.div_add_mod v (2 ^ lo)
  have h2 := Nat.div_add_mod (v / 2 ^ lo) (2 ^ w)
  rw [Nat.div_div_eq_div_mul, ← Nat.pow_add] at h2
  rw [← h2, Nat.mul_add, ← Nat.mul_assoc, ← Nat.pow_add] at h1
  rw [Nat.mul_comm (v / 2 ^ (lo + w)), Nat.mul_comm (v / 2 ^ lo % 2 ^ w)]
  exact h1.symm

/-- A number with a field replaced: the part above and the part below stay. -/
theorem putBits_eq (v hi lo n : Nat) (h : lo ≤ hi + 1) :
    putBits v hi lo n = v / 2 ^ (hi + 1) * 2 ^ (hi + 1) + n % 2 ^ (hi + 1 - lo) * 2 ^ lo + v % 2 ^ lo := by
  have hs := field_split v lo (hi + 1 - lo)
  rw [Nat.add_sub_cancel' h] at hs
  unfold putBits bits
  omega

theorem bits_putBits_same (v hi lo n : Nat) (h : lo ≤ hi) : bits (putBits v hi lo n) hi lo = n % 2 ^ (hi + 1 - lo) := by
  rw [putBits_eq v hi lo n (by omega)]
  have hp : 2 ^ (hi + 1) = 2 ^ (hi + 1 - lo) * 2 ^ lo := by rw [← Nat.pow_add]; congr 1; omega
  unfold bits
  have hr := Nat.mod_lt v (Nat.two_pow_pos lo)
  have e : v / 2 ^ (hi + 1) * 2 ^ (hi + 1) + n % 2 ^ (hi + 1 - lo) * 2 ^ lo + v % 2 ^ lo
      = v % 2 ^ lo + (v / 2 ^ (hi + 1) * 2 ^ (hi + 1 - lo) + n % 2 ^ (hi + 1 - lo)) * 2 ^ lo := by
    rw [Nat.add_mul, Nat.mul_assoc, ← hp]; omega
  rw [e, Nat.add_mul_div_right _ _ (Nat.two_pow_pos lo), Nat.div_eq_of_lt hr, Nat.zero_add, Nat.mul_add_mod_self_right,
    Nat.mod_mod]

theorem bits_putBits_above (v hi lo n hi' lo' : Nat) (h : lo ≤ hi) (h' : hi < lo') :
    bits (putBits v hi lo n) hi' lo' = bits v hi' lo' := by
  rw [putBits_eq v hi lo n (by omega)]
  unfold bits
  have hp : 2 ^ (hi + 1) = 2 ^ (hi + 1 - lo) * 2 ^ lo := by rw [← Nat.pow_add]; congr 1; omega
  have hr := Nat.mod_lt v (Nat.two_pow_pos lo)
  have hm := Nat.mod_lt n (Nat.two_pow_pos (hi + 1 - lo))
  have hk : 2 ^ lo' = 2 ^ (hi + 1) * 2 ^ (lo' - (hi + 1)) := by rw [← Nat.pow_add]; congr 1; omega
  have hb : n % 2 ^ (hi + 1 - lo) * 2 ^ lo + v % 2 ^ lo < 2 ^ (hi + 1) := by
    rw [hp]
    have := Nat.mul_le_mul_right (2 ^ lo) (Nat.succ_le_of_lt hm)
    rw [Nat.succ_mul] at this; omega
  congr 1
  rw [hk, ← Nat.div_div_eq_div_mul, ← Nat.div_div_eq_div_mul]
  congr 1
  rw [Nat.add_assoc, Nat.add_comm, Nat.add_mul_div_right _ _ (Nat.two_pow_pos (hi + 1)), Nat.div_eq_of_lt hb, Nat.zero_add]

theorem bits_eq_mod (v hi lo : Nat) (h : lo ≤ hi + 1) : bits v hi lo = v % 2 ^ (hi + 1) / 2 ^ lo := by
  unfold bits
  have hp : 2 ^ (hi + 1) = 2 ^ lo * 2 ^ (hi + 1 - lo) := by rw [← Nat.pow_add]; congr 1; omega
  rw [hp, Nat.mod_mul_right_div_self]

theorem bits_putBits_below (v hi lo n hi' lo' : Nat) (h : lo ≤ hi) (hl : lo' ≤ hi') (h' : hi' < lo) :
    bits (putBits v hi lo n) hi' lo' = bits v hi' lo' := by
  rw [bits_eq_mod _ _ _ (by omega), bits_eq_mod _ _ _ (by omega)]
  congr 1
  have hd : 2 ^ (hi' + 1) ∣ 2 ^ lo := Nat.pow_dvd_pow 2 (by omega)
  have hd' : 2 ^ (hi' + 1) ∣ 2 ^ (hi + 1) := Nat.pow_dvd_pow 2 (by omega)
  rw [putBits_eq v hi lo n (by omega), ← Nat.mod_mod_of_dvd v hd, Nat.add_mod]
  have : (v / 2 ^ (hi + 1) * 2 ^ (hi + 1) + n % 2 ^ (hi + 1 - lo) * 2 ^ lo) % 2 ^ (hi' + 1) = 0 :=
    Nat.mod_eq_zero_of_dvd ((Nat.dvd_add_right (Nat.dvd_mul_left_of_dvd hd' _)).2 (Nat.dvd_mul_left_of_dvd hd _))
  rw [this, Nat.zero_add, Nat.mod_mod]

/-- A field whose bits lie in a 16-bit register. -/
def Fld.inReg (f : Fld) : Bool := f.lo ≤ f.hi && f.hi < 16

theorem Fld.put_toNat (f : Fld) (v : Half) (n : Nat) (h : f.inReg = true) :
    (f.put v n).toNat = putBits v.toNat f.hi f.lo n := by
  simp only [Fld.inReg, Bool.and_eq_true, decide_eq_true_eq] at h
  unfold Fld.put half
  rw [BitVec.toNat_ofNat]
  apply Nat.mod_eq_of_lt
  rw [putBits_eq _ _ _ _ (by omega)]
  have hp : 2 ^ (f.hi + 1) = 2 ^ (f.hi + 1 - f.lo) * 2 ^ f.lo := by rw [← Nat.pow_add]; congr 1; omega
  have hr := Nat.mod_lt v.toNat (Nat.two_pow_pos f.lo)
  have hm := Nat.mod_lt n (Nat.two_pow_pos (f.hi + 1 - f.lo))
  have hb : n % 2 ^ (f.hi + 1 - f.lo) * 2 ^ f.lo + v.toNat % 2 ^ f.lo < 2 ^ (f.hi + 1) := by
    rw [hp]
    have := Nat.mul_le_mul_right (2 ^ f.lo) (Nat.succ_le_of_lt hm)
    rw [Nat.succ_mul] at this; omega
  have h16 : 2 ^ 16 = 2 ^ (16 - (f.hi + 1)) * 2 ^ (f.hi + 1) := by rw [← Nat.pow_add]; congr 1; omega
  have hv : v.toNat / 2 ^ (f.hi + 1) < 2 ^ (16 - (f.hi + 1)) := by
    apply Nat.div_lt_of_lt_mul
    rw [Nat.mul_comm, ← h16]; exact v.isLt
  have := Nat.mul_le_mul_right (2 ^ (f.hi + 1)) (Nat.succ_le_of_lt hv)
  rw [Nat.succ_mul, ← h16] at this
  omega

/-- A field just written reads as the number written, cut to its width. -/
theorem Fld.of_put (f : Fld) (v : Half) (n : Nat) (h : f.inReg = true) : f.of (f.put v n) = n % 2 ^ (f.hi + 1 - f.lo) := by
  unfold Fld.of
  rw [f.put_toNat v n h]
  simp only [Fld.inReg, Bool.and_eq_true, decide_eq_true_eq] at h
  exact bits_putBits_same _ _ _ _ h.1

/-- Fields of one register that share no bit. -/
def Fld.apart (f g : Fld) : Bool := f.inReg && g.inReg && (f.hi < g.lo || g.hi < f.lo)

/-- Writing a field leaves a field apart from it. -/
theorem Fld.of_put_apart (f g : Fld) (v : Half) (n : Nat) (h : f.apart g = true) : g.of (f.put v n) = g.of v := by
  simp only [Fld.apart, Bool.and_eq_true, Bool.or_eq_true, decide_eq_true_eq] at h
  unfold Fld.of
  rw [f.put_toNat v n h.1.1]
  have hf := h.1.1
  have hg := h.1.2
  simp only [Fld.inReg, Bool.and_eq_true, decide_eq_true_eq] at hf hg
  rcases h.2 with h | h
  · exact bits_putBits_above _ _ _ _ _ _ hf.1 h
  · exact bits_putBits_below _ _ _ _ _ _ hf.1 hg.1 h

variable (s : State)

/-- Read after write of a register. -/
theorem State.reg_setReg (a : Nat) (v : Half) (b : Nat) : (s.setReg a v).reg b = if b = a then v else s.reg b :=
  sparseGet_sparseSet regReset s.regs a v b

@[simp] theorem State.reg_setReg_same (a : Nat) (v : Half) : (s.setReg a v).reg a = v := by
  rw [State.reg_setReg, if_pos rfl]

theorem State.reg_setReg_other {a b : Nat} (v : Half) (h : b ≠ a) : (s.setReg a v).reg b = s.reg b := by
  rw [State.reg_setReg, if_neg h]

/-- Read after write of a register in force. -/
theorem State.eff_setEff (a : Nat) (v : Half) (b : Nat) : (s.setEff a v).eff b = if b = a then v else s.eff b :=
  sparseGet_sparseSet regReset s.inForce a v b

/-- A field write is a register write. -/
theorem State.reg_setFld (f : Fld) (n b : Nat) :
    (s.setFld f n).reg b = if b = f.reg then f.put (s.reg f.reg) n else s.reg b :=
  s.reg_setReg f.reg _ b

theorem State.reg_setFld_other {f : Fld} {b : Nat} (n : Nat) (h : b ≠ f.reg) : (s.setFld f n).reg b = s.reg b := by
  rw [State.reg_setFld, if_neg h]

theorem State.reg_setFlag_other {f : Fld} {b : Nat} (x : Bool) (h : b ≠ f.reg) : (s.setFlag f x).reg b = s.reg b :=
  s.reg_setFld_other _ h

/-- Read after write of a field. -/
theorem State.fld_setFld_same (f : Fld) (n : Nat) (h : f.inReg = true) :
    (s.setFld f n).fld f = n % 2 ^ (f.hi + 1 - f.lo) := by
  unfold State.fld
  rw [State.reg_setFld, if_pos rfl, f.of_put _ _ h]

/-- A field write leaves the fields of other registers, and those apart from it in its own. -/
theorem State.fld_setFld_other (f g : Fld) (n : Nat) (h : g.reg ≠ f.reg ∨ f.apart g = true) :
    (s.setFld f n).fld g = s.fld g := by
  unfold State.fld
  rw [State.reg_setFld]
  by_cases e : g.reg = f.reg
  · rw [if_pos e, f.of_put_apart g _ _ (h.resolve_left (absurd e)), e]
  · rw [if_neg e]

theorem State.fld_setReg_other {a : Nat} (v : Half) (g : Fld) (h : g.reg ≠ a) : (s.setReg a v).fld g = s.fld g := by
  unfold State.fld
  rw [State.reg_setReg_other s v h]

/-- Read after write of a flag. -/
theorem State.flag_setFlag_same (f : Fld) (b : Bool) (h : f.inReg = true) : (s.setFlag f b).flag f = b := by
  unfold State.flag State.setFlag
  rw [State.fld_setFld_same s f _ h]
  simp only [Fld.inReg, Bool.and_eq_true, decide_eq_true_eq] at h
  cases b
  · simp [bit]
  · have : 1 < 2 ^ (f.hi + 1 - f.lo) := Nat.one_lt_two_pow (by omega)
    simp [bit, Nat.mod_eq_of_lt this]

theorem State.flag_setFlag_other (f g : Fld) (b : Bool) (h : g.reg ≠ f.reg ∨ f.apart g = true) :
    (s.setFlag f b).flag g = s.flag g := by
  unfold State.flag State.setFlag
  rw [State.fld_setFld_other s f g _ h]

/-- A field read of a register other than one written by its access codes. -/
theorem State.fld_plainWrite_other {a : Nat} (w : Half) (g : Fld) (h : g.reg ≠ a) : (s.plainWrite a w).fld g = s.fld g :=
  s.fld_setReg_other _ g h

theorem State.flag_plainWrite_other {a : Nat} (w : Half) (g : Fld) (h : g.reg ≠ a) : (s.plainWrite a w).flag g = s.flag g := by
  unfold State.flag
  rw [State.fld_plainWrite_other s w g h]

/-- A register after a write of it by its access codes. -/
theorem State.reg_plainWrite (a : Nat) (w : Half) (b : Nat) :
    (s.plainWrite a w).reg b = if b = a then writeFields (fieldsAt a) (s.reg a) w else s.reg b :=
  s.reg_setReg a _ b

end Sys2Proof.Machine
end

