-- ==== Sys2Proof/Laws/Shared.lean ====
section
/-! SUPPORT. What the operations that many blocks share can do: Adsin events and responses change Adsin alone; an event line
changes pending words, cores and Adsin alone. -/
namespace Sys2Proof.Machine

variable (s : State)

/-- Registers follow the register file. -/
theorem State.reg_congr {s t : State} (a : Nat) (h : s.regs = t.regs) : s.reg a = t.reg a := by
  unfold State.reg
  rw [h]

/-- An Adsin event changes Adsin alone. -/
theorem State.event_parts (l : List (Fin 6)) (c e : Nat) (w : List Half) : ∃ a, s.event l c e w = { s with adsin := a } := by
  have h : ∀ (l : List (Fin 6)) (s : State), ∃ a, forEach l s (fun s k => s.modChan k (fun x => x.event c e w)) =
      { s with adsin := a } := by
    intro l
    unfold forEach
    induction l with
    | nil => intro s; exact ⟨s.adsin, rfl⟩
    | cons x l ih =>
      intro s
      obtain ⟨a, h⟩ := ih (s.modChan x (fun k => k.event c e w))
      exact ⟨a, h⟩
  unfold State.event
  split
  · exact h l s
  · exact ⟨s.adsin, rfl⟩

/-- An Adsin response changes Adsin alone. -/
theorem State.complete_parts (w : Await) (x y : Nat) (p : List Half) : ∃ a, s.complete w x y p = { s with adsin := a } := by
  have h : ∀ (l : List (Fin 6)) (s : State), ∃ a, forEach l s (fun s k => s.modChan k (fun c => c.complete w x y p)) =
      { s with adsin := a } := by
    intro l
    unfold forEach
    induction l with
    | nil => intro s; exact ⟨s.adsin, rfl⟩
    | cons k l ih =>
      intro s
      obtain ⟨a, h⟩ := ih (s.modChan k (fun c => c.complete w x y p))
      exact ⟨a, h⟩
  exact h allChans s

/-- Waking threads changes the cores alone. -/
theorem State.wakeThreads_parts (c : Fin 6) : ∃ k, s.wakeThreads c = { s with cores := k } := by
  have h : ∀ (l : List (Fin 4)) (s : State), ∃ k, forEach l s (fun s t =>
      if (s.thr c t).st == .wait && s.maskMet c t then s.modCore c (fun k => k.waitEnds t) else s) = { s with cores := k } := by
    intro l
    unfold forEach
    induction l with
    | nil => intro s; exact ⟨s.cores, rfl⟩
    | cons x l ih =>
      intro s
      rw [List.foldl_cons]
      split
      · obtain ⟨k, hk⟩ := ih (s.modCore c (fun k => k.waitEnds x))
        exact ⟨k, hk⟩
      · exact ih s
  obtain ⟨k, hk⟩ := h [0, 1, 2, 3] s
  unfold State.wakeThreads
  rw [hk]
  exact ⟨_, rfl⟩

/-- A line rises on one core: a pending word, then the threads that wait for it. -/
theorem State.post_regs (c : Fin 6) (l : Nat) :
    (s.post c l).regs = (s.setReg (A.EVU_PEND c (l / 16)) (s.reg (A.EVU_PEND c (l / 16)) ||| half (2 ^ (l % 16)))).regs := by
  unfold State.post
  generalize s.setReg _ _ = t
  obtain ⟨k, e⟩ := t.wakeThreads_parts c
  rw [e]

/-- A register write and the threads that it wakes. -/
theorem State.setReg_wakeThreads (a : Nat) (v : Half) (c : Fin 6) :
    ∃ r k, (s.setReg a v).wakeThreads c = { s with regs := r, cores := k } := by
  obtain ⟨k, e⟩ := (s.setReg a v).wakeThreads_parts c
  exact ⟨_, k, e⟩

/-- A line rises on one core: registers and cores alone change. -/
theorem State.post_parts (c : Fin 6) (l : Nat) : ∃ r k, s.post c l = { s with regs := r, cores := k } :=
  s.setReg_wakeThreads _ _ c

/-- The fault event changes Adsin alone. -/
theorem State.faultEvent_parts (l : Nat) : ∃ a, s.faultEvent l = { s with adsin := a } := by
  unfold State.faultEvent
  split
  · exact s.event_parts _ _ _ _
  · exact s.event_parts _ _ _ _
  · exact s.event_parts _ _ _ _
  · exact ⟨s.adsin, rfl⟩

/-- A line posted to the Lintel cores changes registers and cores alone. -/
theorem State.postAll_parts (l : Nat) : ∃ r k, s.postAll lintel l = { s with regs := r, cores := k } := by
  obtain ⟨r1, k1, h1⟩ := s.post_parts 0 l
  obtain ⟨r2, k2, h2⟩ := (s.post 0 l).post_parts 1 l
  rw [h1] at h2
  refine ⟨r2, k2, ?_⟩
  unfold State.postAll forEach lintel
  simp only [List.foldl_cons, List.foldl_nil, h1, h2]

/-- A line rises on the Lintel cores: registers, cores and Adsin alone change. -/
theorem State.raise_parts (l : Nat) : ∃ r k a, s.raise l = { s with regs := r, cores := k, adsin := a } := by
  obtain ⟨r, k, hp⟩ := s.postAll_parts l
  obtain ⟨a, ha⟩ := (s.postAll lintel l).faultEvent_parts l
  refine ⟨r, k, a, ?_⟩
  unfold State.raise
  rw [ha, hp]

/-- The parts that an Adsin event leaves. -/
@[simp] theorem State.event_fields (l : List (Fin 6)) (c e : Nat) (w : List Half) :
    (s.event l c e w).regs = s.regs ∧ (s.event l c e w).inForce = s.inForce ∧ (s.event l c e w).snap = s.snap ∧
    (s.event l c e w).sram = s.sram ∧ (s.event l c e w).recRam = s.recRam ∧ (s.event l c e w).mram = s.mram ∧
    (s.event l c e w).mramFlip = s.mramFlip ∧ (s.event l c e w).lines = s.lines ∧ (s.event l c e w).radio = s.radio ∧
    (s.event l c e w).crypto = s.crypto ∧ (s.event l c e w).keys = s.keys ∧ (s.event l c e w).pke = s.pke ∧
    (s.event l c e w).trng = s.trng ∧ (s.event l c e w).access = s.access ∧ (s.event l c e w).cores = s.cores ∧
    (s.event l c e w).nvm = s.nvm ∧ (s.event l c e w).sys = s.sys ∧ (s.event l c e w).plinth = s.plinth ∧
    (s.event l c e w).timers = s.timers ∧ (s.event l c e w).uart = s.uart ∧ (s.event l c e w).mbox = s.mbox ∧
    (s.event l c e w).fabric = s.fabric ∧ (s.event l c e w).assay = s.assay ∧ (s.event l c e w).update = s.update ∧
    (s.event l c e w).dbg = s.dbg ∧ (s.event l c e w).hft = s.hft ∧ (s.event l c e w).free = s.free ∧
    (s.event l c e w).seen = s.seen ∧ (s.event l c e w).pending = s.pending ∧ (∀ r, (s.event l c e w).reg r = s.reg r) ∧
    (∀ y, (s.event l c e w).fld y = s.fld y) ∧ (∀ y, (s.event l c e w).flag y = s.flag y) ∧
    (∀ r, (s.event l c e w).eff r = s.eff r) ∧ (∀ d, (s.event l c e w).rfe d = s.rfe d) ∧
    (∀ m, (s.event l c e w).lane m = s.lane m) ∧ (∀ m, (s.event l c e w).frame? m = s.frame? m) := by
  obtain ⟨a, h⟩ := s.event_parts l c e w
  rw [h]
  repeat' apply And.intro
  all_goals first | rfl | (intro _; rfl) | (intro d; cases d <;> rfl)

/-- The parts that an Adsin response leaves. -/
@[simp] theorem State.complete_fields (w : Await) (x z : Nat) (p : List Half) :
    (s.complete w x z p).regs = s.regs ∧ (s.complete w x z p).inForce = s.inForce ∧ (s.complete w x z p).snap = s.snap ∧
    (s.complete w x z p).sram = s.sram ∧ (s.complete w x z p).recRam = s.recRam ∧ (s.complete w x z p).mram = s.mram ∧
    (s.complete w x z p).mramFlip = s.mramFlip ∧ (s.complete w x z p).lines = s.lines ∧
    (s.complete w x z p).radio = s.radio ∧ (s.complete w x z p).crypto = s.crypto ∧ (s.complete w x z p).keys = s.keys ∧
    (s.complete w x z p).pke = s.pke ∧ (s.complete w x z p).trng = s.trng ∧ (s.complete w x z p).access = s.access ∧
    (s.complete w x z p).cores = s.cores ∧ (s.complete w x z p).nvm = s.nvm ∧ (s.complete w x z p).sys = s.sys ∧
    (s.complete w x z p).plinth = s.plinth ∧ (s.complete w x z p).timers = s.timers ∧ (s.complete w x z p).uart = s.uart ∧
    (s.complete w x z p).mbox = s.mbox ∧ (s.complete w x z p).fabric = s.fabric ∧ (s.complete w x z p).assay = s.assay ∧
    (s.complete w x z p).update = s.update ∧ (s.complete w x z p).dbg = s.dbg ∧ (s.complete w x z p).hft = s.hft ∧
    (s.complete w x z p).free = s.free ∧ (s.complete w x z p).seen = s.seen ∧ (s.complete w x z p).pending = s.pending ∧
    (∀ r, (s.complete w x z p).reg r = s.reg r) ∧ (∀ y, (s.complete w x z p).fld y = s.fld y) ∧
    (∀ y, (s.complete w x z p).flag y = s.flag y) ∧ (∀ r, (s.complete w x z p).eff r = s.eff r) ∧
    (∀ d, (s.complete w x z p).rfe d = s.rfe d) ∧ (∀ m, (s.complete w x z p).lane m = s.lane m) ∧
    (∀ m, (s.complete w x z p).frame? m = s.frame? m) := by
  obtain ⟨a, h⟩ := s.complete_parts w x z p
  rw [h]
  repeat' apply And.intro
  all_goals first | rfl | (intro _; rfl) | (intro d; cases d <;> rfl)

/-- The parts that waking threads leaves. -/
@[simp] theorem State.wakeThreads_fields (c : Fin 6) :
    (s.wakeThreads c).regs = s.regs ∧ (s.wakeThreads c).inForce = s.inForce ∧ (s.wakeThreads c).snap = s.snap ∧
    (s.wakeThreads c).sram = s.sram ∧ (s.wakeThreads c).recRam = s.recRam ∧ (s.wakeThreads c).mram = s.mram ∧
    (s.wakeThreads c).mramFlip = s.mramFlip ∧ (s.wakeThreads c).lines = s.lines ∧ (s.wakeThreads c).radio = s.radio ∧
    (s.wakeThreads c).crypto = s.crypto ∧ (s.wakeThreads c).keys = s.keys ∧ (s.wakeThreads c).pke = s.pke ∧
    (s.wakeThreads c).trng = s.trng ∧ (s.wakeThreads c).access = s.access ∧ (s.wakeThreads c).nvm = s.nvm ∧
    (s.wakeThreads c).sys = s.sys ∧ (s.wakeThreads c).plinth = s.plinth ∧ (s.wakeThreads c).timers = s.timers ∧
    (s.wakeThreads c).uart = s.uart ∧ (s.wakeThreads c).mbox = s.mbox ∧ (s.wakeThreads c).adsin = s.adsin ∧
    (s.wakeThreads c).fabric = s.fabric ∧ (s.wakeThreads c).assay = s.assay ∧ (s.wakeThreads c).update = s.update ∧
    (s.wakeThreads c).dbg = s.dbg ∧ (s.wakeThreads c).hft = s.hft ∧ (s.wakeThreads c).free = s.free ∧
    (s.wakeThreads c).seen = s.seen ∧ (s.wakeThreads c).pending = s.pending ∧ (∀ r, (s.wakeThreads c).reg r = s.reg r) ∧
    (∀ y, (s.wakeThreads c).fld y = s.fld y) ∧ (∀ y, (s.wakeThreads c).flag y = s.flag y) ∧
    (∀ r, (s.wakeThreads c).eff r = s.eff r) ∧ (∀ d, (s.wakeThreads c).rfe d = s.rfe d) ∧
    (∀ m, (s.wakeThreads c).lane m = s.lane m) ∧ (∀ m, (s.wakeThreads c).frame? m = s.frame? m) := by
  obtain ⟨k, h⟩ := s.wakeThreads_parts c
  rw [h]
  repeat' apply And.intro
  all_goals first | rfl | (intro _; rfl) | (intro d; cases d <;> rfl)

/-- The parts that raising a line leaves. -/
@[simp] theorem State.raise_fields (l : Nat) :
    (s.raise l).inForce = s.inForce ∧ (s.raise l).snap = s.snap ∧ (s.raise l).sram = s.sram ∧
    (s.raise l).recRam = s.recRam ∧ (s.raise l).mram = s.mram ∧ (s.raise l).mramFlip = s.mramFlip ∧
    (s.raise l).lines = s.lines ∧ (s.raise l).radio = s.radio ∧ (s.raise l).crypto = s.crypto ∧ (s.raise l).keys = s.keys ∧
    (s.raise l).pke = s.pke ∧ (s.raise l).trng = s.trng ∧ (s.raise l).access = s.access ∧ (s.raise l).nvm = s.nvm ∧
    (s.raise l).sys = s.sys ∧ (s.raise l).plinth = s.plinth ∧ (s.raise l).timers = s.timers ∧ (s.raise l).uart = s.uart ∧
    (s.raise l).mbox = s.mbox ∧ (s.raise l).fabric = s.fabric ∧ (s.raise l).assay = s.assay ∧
    (s.raise l).update = s.update ∧ (s.raise l).dbg = s.dbg ∧ (s.raise l).hft = s.hft ∧ (s.raise l).free = s.free ∧
    (s.raise l).seen = s.seen ∧ (s.raise l).pending = s.pending ∧ (∀ r, (s.raise l).eff r = s.eff r) ∧
    (∀ d, (s.raise l).rfe d = s.rfe d) ∧ (∀ m, (s.raise l).lane m = s.lane m) ∧ (∀ m, (s.raise l).frame? m = s.frame? m) := by
  obtain ⟨r, k, a, h⟩ := s.raise_parts l
  rw [h]
  repeat' apply And.intro
  all_goals first | rfl | (intro _; rfl) | (intro d; cases d <;> rfl)

/-- Raising a line on a core leaves every register but one pending word. -/
theorem State.reg_post (c : Fin 6) (l a : Nat) (h : a ≠ A.EVU_PEND c (l / 16)) : (s.post c l).reg a = s.reg a := by
  unfold State.reg
  rw [State.post_regs]
  exact State.reg_setReg_other s _ h

/-- After a line has risen on a core, its pending word holds its bit. -/
theorem State.reg_post_same (c : Fin 6) (l : Nat) :
    (s.post c l).reg (A.EVU_PEND c (l / 16)) = s.reg (A.EVU_PEND c (l / 16)) ||| half (2 ^ (l % 16)) := by
  unfold State.reg
  rw [State.post_regs]
  exact State.reg_setReg_same s _ _

/-- Raising a line leaves every register but the Lintel cores' pending words. -/
theorem State.reg_raise (l a : Nat) (h0 : a ≠ A.EVU_PEND 0 (l / 16)) (h1 : a ≠ A.EVU_PEND 1 (l / 16)) :
    (s.raise l).reg a = s.reg a := by
  obtain ⟨x, e⟩ := (s.postAll lintel l).faultEvent_parts l
  unfold State.raise
  rw [State.reg_congr (t := s.postAll lintel l) _ (by rw [e])]
  unfold State.postAll forEach lintel
  simp only [List.foldl_cons, List.foldl_nil]
  rw [State.reg_post _ _ _ _ h1, State.reg_post _ _ _ _ h0]

/-- Raising a line leaves the fields of every register but the Lintel cores' pending words. -/
theorem State.fld_raise (l : Nat) (y : Fld) (h0 : y.reg ≠ A.EVU_PEND 0 (l / 16)) (h1 : y.reg ≠ A.EVU_PEND 1 (l / 16)) :
    (s.raise l).fld y = s.fld y := by
  unfold State.fld
  rw [State.reg_raise s l _ h0 h1]

/-- Raising a line sets its pending bit on both Lintel cores. -/
theorem State.pending_raise (l : Nat) (c : Fin 6) (h : c = 0 ∨ c = 1) : (s.raise l).linePending c l = true := by
  obtain ⟨x, e⟩ := (s.postAll lintel l).faultEvent_parts l
  unfold State.raise
  unfold State.linePending
  rw [State.reg_congr (t := s.postAll lintel l) _ (by rw [e])]
  rw [← State.linePending]
  unfold State.postAll forEach lintel
  simp only [List.foldl_cons, List.foldl_nil]
  have b : ∀ (v : Half), (v ||| half (2 ^ (l % 16))).getLsbD (l % 16) = true := by
    intro v
    have hl : l % 16 < 16 := Nat.mod_lt _ (by decide)
    unfold half
    rw [BitVec.getLsbD_or, BitVec.getLsbD_ofNat, Nat.testBit_two_pow_self, decide_eq_true hl, Bool.true_and, Bool.or_true]
  have p1 : ∀ (t : State) (d : Fin 6), (t.post d l).linePending d l = true := by
    intro t d
    unfold State.linePending
    rw [State.reg_post_same]
    exact b _
  rcases h with h | h
  · subst h
    have : (((s.post 0 l).post 1 l)).linePending 0 l = (s.post 0 l).linePending 0 l := by
      unfold State.linePending
      rw [State.reg_post]
      unfold A.EVU_PEND coreKey
      omega
    exact this.trans (p1 s 0)
  · subst h
    exact p1 (s.post 0 l) 1

end Sys2Proof.Machine
end

