-- ==== Sys2Proof/Laws/Radio.lean ====
section
/-! SUPPORT. What the operations of the radio can do: a gain marker reaches lanes and frames alone; a gain change besides moves the
gain index. -/
namespace Sys2Proof.Machine

/-- One state follows another with lanes and frames changed at most. -/
def OnlyLanes (s t : State) : Prop := ∃ l f, t = { s with radio := { s.radio with lanes := l, frames := f } }

/-- Nothing changed. -/
theorem OnlyLanes.refl (s : State) : OnlyLanes s s := ⟨s.radio.lanes, s.radio.frames, rfl⟩

/-- One change after another. -/
theorem OnlyLanes.trans {s t u : State} (h : OnlyLanes s t) (k : OnlyLanes t u) : OnlyLanes s u := by
  obtain ⟨_, _, rfl⟩ := h
  obtain ⟨l, f, rfl⟩ := k
  exact ⟨l, f, rfl⟩

/-- A lane changed. -/
theorem onlyLanes_modLane (s : State) (n : Nat) (f : Lane → Lane) : OnlyLanes s (s.modLane n f) := ⟨_, _, rfl⟩

/-- A frame changed. -/
theorem onlyLanes_modFrame (s : State) (n : Nat) (f : Frame → Frame) : OnlyLanes s (s.modFrame n f) := ⟨_, _, rfl⟩

/-- A marker at a lane. -/
theorem onlyLanes_laneMarker (s : State) (n : Nat) (c : Int) : OnlyLanes s (s.laneMarker n c) := by
  unfold State.laneMarker
  dsimp only
  split
  · exact .refl s
  · split
    · exact onlyLanes_modLane s n _
    · split
      · exact onlyLanes_modLane s n _
      · split <;> split
        · exact (onlyLanes_modLane s n _).trans (onlyLanes_modLane _ n _)
        · exact ((onlyLanes_modLane s n _).trans (onlyLanes_modFrame _ _ _)).trans (onlyLanes_modLane _ n _)
        · exact onlyLanes_modLane s n _
        · exact (onlyLanes_modLane s n _).trans (onlyLanes_modFrame _ _ _)

/-- A marker at every lane of a band. -/
theorem onlyLanes_markBand (s : State) (b : Band) (c : Int) : OnlyLanes s (s.markBand b c) := by
  have h : ∀ (l : List Nat) (s : State), OnlyLanes s (forEach l s (fun s n => if s.laneBand n = b then s.laneMarker n (-c) else s)) := by
    intro l
    unfold forEach
    induction l with
    | nil => exact fun s => .refl s
    | cons x l ih =>
      intro s
      rw [List.foldl_cons]
      split
      · exact (onlyLanes_laneMarker s x (-c)).trans (ih _)
      · exact ih s
  exact h _ s

/-- What a gain change does: the index moves, and the radio's lanes, frames and statistics follow; the same index changes nothing. -/
theorem State.setGain_parts (s : State) (b : Band) (i : Nat) :
    (s.setGain b i = s ∧ i = s.fld (F.RFE_GAIN_GAIN_IDX b)) ∨
      ∃ r, s.setGain b i = { s.setFld (F.RFE_GAIN_GAIN_IDX b) i with radio := r } := by
  unfold State.setGain
  dsimp only
  split
  · exact .inl ⟨rfl, by assumption⟩
  · obtain ⟨l, f, h⟩ := onlyLanes_markBand ((s.setFld (F.RFE_GAIN_GAIN_IDX b) i).modRfe b (fun r => { r with gainMoved := true })) b
      (gainAt b i - gainAt b (s.fld (F.RFE_GAIN_GAIN_IDX b)))
    exact .inr ⟨_, h⟩

/-- A gain change leaves every register but RFE_GAIN. -/
theorem State.reg_setGain (s : State) (b : Band) (i a : Nat) (h : a ≠ A.RFE_GAIN b) : (s.setGain b i).reg a = s.reg a := by
  obtain ⟨h1, _⟩ | ⟨r, h1⟩ := s.setGain_parts b i
  · rw [h1]
  · rw [h1]
    exact s.reg_setFld_other i h

end Sys2Proof.Machine
end

