-- ==== Sys2Proof/Laws/Records.lean ====
section
/-! SUPPORT. What appending a record can do: it changes MRAM with its faulty words, the line buffers, what NVMC holds, the count of free
values, and, where NVMC reads a faulty word, its ECC registers and the line and event that report it; and nothing else. -/
namespace Sys2Proof.Machine

/-- The registers in which NVMC reports a faulty word (R266), with the pending words of its line. -/
abbrev eccRegs : List Nat :=
  [A.NVMC_ECC_CORR, A.NVMC_UNC_ADDR_LO, A.NVMC_UNC_ADDR_HI, A.NVMC_EVT, A.EVU_PEND 0 0, A.EVU_PEND 1 0]

/-- One state follows another with nothing but what a record's writing may touch changed. -/
def OnlyNv (s t : State) : Prop :=
  (∃ m b l n f r k a, t = { s with
    mram := m, mramFlip := b, lines := l, nvm := n, free := f, regs := r, cores := k, adsin := a }) ∧
  ∀ x, x ∉ eccRegs → t.reg x = s.reg x

/-- Nothing changed. -/
theorem OnlyNv.refl (s : State) : OnlyNv s s :=
  ⟨⟨s.mram, s.mramFlip, s.lines, s.nvm, s.free, s.regs, s.cores, s.adsin, rfl⟩, fun _ _ => rfl⟩

/-- One change after another. -/
theorem OnlyNv.trans {s t u : State} (h : OnlyNv s t) (k : OnlyNv t u) : OnlyNv s u := by
  obtain ⟨⟨_, _, _, _, _, _, _, _, rfl⟩, h2⟩ := h
  obtain ⟨⟨m, b, l, n, f, r, c, a, rfl⟩, k2⟩ := k
  exact ⟨⟨m, b, l, n, f, r, c, a, rfl⟩, fun x hx => (k2 x hx).trans (h2 x hx)⟩

/-- A change of MRAM, its faulty words, the line buffers, NVMC and the count of free values. -/
theorem OnlyNv.mem {s t : State} (h : ∃ m b l n f, t = { s with mram := m, mramFlip := b, lines := l, nvm := n, free := f }) :
    OnlyNv s t := by
  obtain ⟨m, b, l, n, f, rfl⟩ := h
  exact ⟨⟨m, b, l, n, f, s.regs, s.cores, s.adsin, rfl⟩, fun _ _ => rfl⟩

/-- An ECC register written. -/
theorem onlyNv_setReg (s : State) (a : Nat) (v : Half) (h : a ∈ eccRegs) : OnlyNv s (s.setReg a v) :=
  ⟨⟨s.mram, s.mramFlip, s.lines, s.nvm, s.free, _, s.cores, s.adsin, rfl⟩,
    fun x hx => s.reg_setReg_other v (fun e => hx (e ▸ h))⟩

/-- NVMC's line raised. -/
theorem onlyNv_raise (s : State) : OnlyNv s (s.raise 15) := by
  refine ⟨?_, fun x hx => s.reg_raise 15 x ?_ ?_⟩
  · obtain ⟨r, k, a, h⟩ := s.raise_parts 15
    exact ⟨s.mram, s.mramFlip, s.lines, s.nvm, s.free, r, k, a, h⟩
  · rintro rfl; exact hx (by decide)
  · rintro rfl; exact hx (by decide)

/-- An Adsin event. -/
theorem onlyNv_event (s : State) (l : List (Fin 6)) (c e : Nat) (w : List Half) : OnlyNv s (s.event l c e w) := by
  obtain ⟨a, h⟩ := s.event_parts l c e w
  rw [h]
  exact ⟨⟨s.mram, s.mramFlip, s.lines, s.nvm, s.free, s.regs, s.cores, a, rfl⟩, fun _ _ => rfl⟩

/-- A range read. -/
theorem onlyNv_eccNote (s : State) (lo hi : Nat) : OnlyNv s (s.eccNote lo hi) := by
  have h : OnlyNv s (s.eccCount lo hi) := by
    unfold State.eccCount State.count
    simp only
    split
    · exact .refl s
    · exact onlyNv_setReg s _ _ (by decide)
  unfold State.eccNote State.eccBad
  split
  · exact ((((h.trans (onlyNv_setReg _ _ _ (by decide))).trans (onlyNv_setReg _ _ _ (by decide))).trans
      (onlyNv_setReg _ _ _ (by decide))).trans (onlyNv_raise _)).trans (onlyNv_event _ _ _ _ _)
  · exact h

/-- A write of MRAM changes MRAM alone. -/
theorem State.mramPut_parts (s : State) (a : Nat) (l : List Byte) : ∃ m, s.mramPut a l = { s with mram := m } := by
  unfold State.mramPut
  split
  · exact ⟨_, rfl⟩
  · exact ⟨s.mram, rfl⟩

/-- What NVMC holds changed. -/
theorem onlyNv_modNvm (s : State) (f : Nvm → Nvm) : OnlyNv s (s.modNvm f) := .mem ⟨_, _, _, _, _, rfl⟩

/-- Words written to MRAM, whole again. -/
theorem onlyNv_nvWrite (s : State) (a : Nat) (ws : List Half) : OnlyNv s (s.nvWrite a ws) := by
  obtain ⟨m, h⟩ := s.mramPut_parts a (ws.flatMap (fun w => leOctets 2 w.toNat))
  unfold State.nvWrite
  rw [h]
  exact .mem ⟨_, _, _, _, _, rfl⟩

/-- A word at which a loss of power cuts a write. -/
theorem onlyNv_nvTear (s : State) (a : Nat) (w : Half) (how : Nat) : OnlyNv s (s.nvTear a w how) := by
  unfold State.nvTear
  split
  · exact .refl s
  · exact onlyNv_nvWrite s a [w]
  · exact .mem ⟨_, _, _, _, _, rfl⟩

/-- Words written to MRAM, or those of them before a cut. -/
theorem onlyNv_nvPut (s : State) (a : Nat) (ws : List Half) : OnlyNv s (s.nvPut a ws) := by
  unfold State.nvPut
  split
  · exact onlyNv_nvWrite s a ws
  · split
    · exact (onlyNv_nvWrite s a ws).trans (onlyNv_modNvm _ _)
    · exact ((onlyNv_nvWrite s a _).trans (onlyNv_nvTear _ _ _ _)).trans (onlyNv_modNvm _ _)

/-- Operations one after the other. -/
theorem onlyNv_forEach {α : Type} (f : State → α → State) (h : ∀ s x, OnlyNv s (f s x)) (l : List α) (s : State) :
    OnlyNv s (forEach l s f) := by
  unfold forEach
  induction l generalizing s with
  | nil => exact .refl s
  | cons x l ih => exact (h s x).trans (ih (f s x))

/-- A range cleared. -/
theorem onlyNv_nvClear (s : State) (lo hi : Nat) : OnlyNv s (s.nvClear lo hi) :=
  (onlyNv_eccNote s lo hi).trans (onlyNv_forEach _ (fun s r => onlyNv_nvPut s r _) _ _)

/-- A region's position moved. -/
theorem onlyNv_setNvPos (s : State) (r : Region) (a : Nat) : OnlyNv s (s.setNvPos r a) := onlyNv_modNvm s _

/-- An instance written at a region's position. -/
theorem onlyNv_nvInstance (s : State) (r : Region) (ws : List Half) : OnlyNv s (s.nvInstance r ws) :=
  (onlyNv_nvPut s _ _).trans (onlyNv_setNvPos _ r _)

/-- A segment freed. -/
theorem onlyNv_freeSeg (s : State) (b : Nat) : OnlyNv s (s.freeSeg b) := (onlyNv_nvPut s _ _).trans (onlyNv_modNvm _ _)

/-- A segment opened. -/
theorem onlyNv_openSeg (s t : State) (r : Region) (h : s.openSeg r = some t) : OnlyNv s t := by
  unfold State.openSeg at h
  split at h
  · cases h
  · split at h
    rename_i q u e
    have hu : OnlyNv s u := by
      split at e
      · cases e; exact .refl s
      · cases e; exact .mem ⟨s.mram, s.mramFlip, s.lines, s.nvm, s.free + 1, rfl⟩
    injection h with h
    subst h
    exact (((hu.trans (onlyNv_nvClear _ _ _)).trans (onlyNv_modNvm _ _)).trans (onlyNv_nvPut _ _ _)).trans (onlyNv_setNvPos _ r _)

/-- An instance in a segment opened for it, where one is free. -/
theorem onlyNv_open (s : State) (ws : List Half) :
    OnlyNv s (match s.openSeg .evt with | some s => s.nvInstance .evt ws | none => s) := by
  split
  · rename_i e
    exact (onlyNv_openSeg _ _ _ e).trans (onlyNv_nvInstance _ .evt ws)
  · exact .refl s

/-- A record of the event and access log. -/
theorem onlyNv_evtAppend (s : State) (ws : List Half) : OnlyNv s (s.evtAppend ws) := by
  unfold State.evtAppend
  split
  · exact onlyNv_nvInstance s .evt ws
  · split
    · split
      · exact (onlyNv_freeSeg s _).trans (onlyNv_open _ ws)
      · exact onlyNv_open s ws
    · exact onlyNv_open s ws

end Sys2Proof.Machine
end

