-- ==== Sys2Proof/WellFormed.lean ====
section
/-! DEFINITION. Which commands the outside world can send: register addresses are those of halfwords (R21), an Adsin payload
fits a message (R334), a frame fits UART0's limits (R332), and a row for codes that a table does not list carries such a code. A
command that is not well formed still has a meaning (R9); no run of the hardware contains it. -/
namespace Sys2Proof

/-- A code that a table of commands 1 to `n` does not list. -/
def unlisted (n : Nat) (op : Fin 16) : Bool := op.val = 0 || n < op.val

/-- An Adsin payload fits a message of 1,088 words (R334). -/
def payloadFits (p : List Half) : Bool := p.length ≤ 1084

/-- An even 24-bit address. -/
def evenAddr (a : BitVec 24) : Bool := !a.getLsbD 0

/-- A command is well formed. -/
def Instr.wf : Instr → Bool
  | .registerWrite _ a _ => evenAddr a
  | .rclRead _ a => evenAddr a
  | .snapshotRead _ a => evenAddr a
  | .keysBadop _ op => unlisted 8 op
  | .pkeBadop _ op => unlisted 8 op
  | .nvmcBadop op => unlisted 5 op
  | .entryOpBadop op => unlisted 8 op
  | .spiWrite data _ => data.length ≤ 1088
  | .uartFrame l => l.length ≤ 2178
  | .sysHello _ _ p => payloadFits p
  | .sysPing _ _ p => payloadFits p
  | .sysInfo _ _ p => payloadFits p
  | .sysEvtMask _ _ p => payloadFits p
  | .sysReset _ _ p => payloadFits p
  | .sysStats _ _ p => payloadFits p
  | .pwrPlSet _ _ p => payloadFits p
  | .pwrPlGet _ _ p => payloadFits p
  | .pwrSleep _ _ p => payloadFits p
  | .pwrMains _ _ p => payloadFits p
  | .timeGet _ _ p => payloadFits p
  | .timeSet _ _ p => payloadFits p
  | .timeShift _ _ p => payloadFits p
  | .timeTrim _ _ p => payloadFits p
  | .timeAlarm _ _ p => payloadFits p
  | .radioFeCfg _ _ p => payloadFits p
  | .radioFeEn _ _ p => payloadFits p
  | .radioCal _ _ p => payloadFits p
  | .radioRoute _ _ p => payloadFits p
  | .radioSend _ _ p => payloadFits p
  | .radioLaneStats _ _ p => payloadFits p
  | .radioRecord _ _ p => payloadFits p
  | .radioRecRead _ _ p => payloadFits p
  | .courseCfg _ _ p => payloadFits p
  | .courseStart _ _ p => payloadFits p
  | .courseStop _ _ p => payloadFits p
  | .courseLanes _ _ p => payloadFits p
  | .courseHoplist _ _ p => payloadFits p
  | .courseDuty _ _ p => payloadFits p
  | .ashlarTenant _ _ p => payloadFits p
  | .ashlarEpoch _ _ p => payloadFits p
  | .ashlarEntry _ _ p => payloadFits p
  | .ashlarRebuild _ _ p => payloadFits p
  | .ashlarCounters _ _ p => payloadFits p
  | .keyImport _ _ p => payloadFits p
  | .keyDerive _ _ p => payloadFits p
  | .keyGenerate _ _ p => payloadFits p
  | .keyDestroy _ _ p => payloadFits p
  | .keyTransfer _ _ p => payloadFits p
  | .keyDrop _ _ p => payloadFits p
  | .keyAttr _ _ p => payloadFits p
  | .keyIdpub _ _ p => payloadFits p
  | .keyLcNonce _ _ p => payloadFits p
  | .keyLcChange _ _ p => payloadFits p
  | .keyCipher _ _ p => payloadFits p
  | .accessCfg _ _ p => payloadFits p
  | .accessTablePut _ _ p => payloadFits p
  | .accessTableLoad _ _ p => payloadFits p
  | .accessStatus _ _ p => payloadFits p
  | .accessTune _ _ p => payloadFits p
  | .accessPlumbCal _ _ p => payloadFits p
  | .fabricCfg _ _ p => payloadFits p
  | .fabricStart _ _ p => payloadFits p
  | .fabricStop _ _ p => payloadFits p
  | .fabricStatus _ _ p => payloadFits p
  | .fabricNeighbours _ _ p => payloadFits p
  | .fabricSend _ _ p => payloadFits p
  | .fabricRoutes _ _ p => payloadFits p
  | .assayRun _ _ p => payloadFits p
  | .assaySchedule _ _ p => payloadFits p
  | .assayResults _ _ p => payloadFits p
  | .updateBegin _ _ p => payloadFits p
  | .updateChunk _ _ p => payloadFits p
  | .updateVerify _ _ p => payloadFits p
  | .updateActivate _ _ p => payloadFits p
  | .updateState _ _ p => payloadFits p
  | .updateAbort _ _ p => payloadFits p
  | .logRead _ _ p => payloadFits p
  | .logWrite _ _ p => payloadFits p
  | _ => true

end Sys2Proof
end

