-- ==== Sys2Proof/Tests/Slice0.lean ====
section
/-! SUPPORT. Tests of one step each, the smoke test of WellFormed, and for every statement of Obligations that has
hypotheses a theorem test_witness_<Name>: concrete states and operands that meet the hypotheses of its clauses together, at
a boundary value where clauses divide one range. The expected values are those of the spec's rules. -/
namespace Sys2Proof.Tests
open Sys2Proof.Machine

/-! ## Small states -/

/-- The state after reset, and the same with COURSE running. -/
def z : State := State.reset
def run : State := z.setFlag F.COURSE_STATUS_RUNNING

/-- A band in a state of its own. -/
def fe (b : Band) (r : Rfe) : State := z.modRfe b (fun _ => r)

/-- A band that is READY and not muted. -/
def feOn (b : Band) : State := ((fe b { phase := .ready, loLocked := true }).setFlag (F.RFE_STATUS_READY b)).setFlag (F.RFE_STATUS_MUTE b) false

/-- An acknowledgement that starts at HF tick 2000 and ends at 3000. -/
def ack : Carrier := ⟨none, 0, 2000, 3000, false, false, 0, 0, false, 0, false, []⟩

/-- A frame of lane 0, its decision open. -/
def fr : Frame := ⟨0, 0, .sub, 0, 0, false, 0, false, false, 0, false, false, 6, List.replicate 6 0, 0, 0, 0, 0, [], false, .undecided,
  none, none, none, false, false, none, false, false⟩

/-- A hand-off of an error-free frame that ended at HF tick 100. -/
def ho : Handoff := ⟨0, 0, 0, 100, false, false, 0, 0⟩

/-- ASHLAR's findings on a frame of an unknown sender. -/
def chk : Check := ⟨none, 0, 1, 1, 300, 5, false, [], none, false⟩

/-- Lane 0 with a frame, in a lane state. -/
def lane0 (f : Frame) (st : Nat) : State :=
  ((z.modLane 0 (fun l => { l with frame := some f.fid })).modRadio (fun r => { r with frames := [f] })).setLaneState 0 st

/-- The recorder triggered with SRC on the sub-GHz stream and room for one more group. -/
def recOn : State :=
  ((((feOn .sub).setReg A.REC_SRC 0x4000).setReg A.REC_POST 1).commit recConfig).setFld F.REC_STATUS_STATE recTriggered

/-- A fabric frame of a type, received from a neighbour, with a body; and the fabric in a state with it in its inbox. -/
def fx (typ : Nat) (ttl : Nat) (body : List Byte) : Frecv := ⟨7, 0, 0, 0, 0, 0, [byte typ, 0, 0, 1, 0xFF, 0xFF, byte ttl, 0, 0, 1] ++ body⟩
def fab (f : Fabric) : State := z.modFabric (fun _ => f)

/-- A joined neighbour of rank 0 that a parent may be chosen from. -/
def nb : Neighbour := ⟨7, 1, 0, true, true, 2, 2, 0, 2, 0, 0, 7, true, 1, 0, [some 255, some 255], [some 255, some 255], 0, 0, true, 0, none⟩

/-- An entry of a sender in the stash, and ASHLAR holding it. -/
def en : AEntry := { eui := 1, hwm := 299, valid := true, epoch := 1 }
def ash (a : Ashlar) : State := (z.setFlag F.ASHLAR_CTRL_EN).modAshlar (fun _ => a)

/-- A DELETE record. -/
def del : LeaseRec := ⟨false, 1, 0, 0, false, 0⟩

/-! ## Witnesses: access and registers -/

/-- A thread whose next word spells NOP, and one whose word spells nothing. -/
def fetchOk : State := { z.modThr 0 0 (fun t => { t with pc := 0x100000 }) with sram := [(0x100003, 0xF0)] }

theorem test_witness_StepRunsFrontCommand :
    ({ z with pending := [.xoStable] } : State).pending = .xoStable :: [] ∧ z.pending = [] ∧ z.cpuThread 1 = none ∧
    (fetchOk.cpuThread 0 = some 0 ∧ placeSpan 0x100000 4 = .sram ∧ (plynnel 0 (BitVec.ofNat 32 (leNat (fetchOk.sramTake 0x100000 4)))).isSome = true) ∧
    plynnel 0 (BitVec.ofNat 32 (leNat (z.sramTake 0x100000 4))) = none ∧ placeSpan 0x800000 4 = .mram ∧
    placeSpan 0 4 = .rom ∧ placeSpan 0xE00000 4 = .periph := by and_intros <;> decide

theorem test_witness_StepKeepsCanonicalForm : Canonical z ∧ step z = .next (z.tick.adsinPump) := by
  refine ⟨by unfold Canonical; decide, rfl⟩

theorem test_witness_RegisterCommands :
    admitted (.core 2) 0xE20000 2 true = false ∧
    (admitted (.core 0) 0xE03000 2 true = true ∧ placeSpan 0xE03000 2 ≠ .sram ∧ regKey (Master.coreOr0 (.core 0)) 0xE03000 = some 0xE03000) ∧
    placeSpan 0x100000 2 = .sram ∧ placeSpan 0x2FFFFE 2 = .sram ∧ admitted (.core 2) 0xE20000 2 false = false ∧
    (admitted (.core 0) 0xE02000 2 false = true ∧ placeSpan 0xE02000 2 = .periph ∧ z.timerHidden (.core 0) 0xE02000 = false ∧
      Master.vault (.core 0) = true ∧ regKey (Master.coreOr0 (.core 0)) 0xE02000 = some 0xE02000) ∧
    (admitted (.core 0) 0xF00000 2 false = true ∧ placeSpan 0xF00000 2 = .plinth) ∧
    (admitted (.core 5) 0xFF0000 2 false = true ∧ placeSpan 0xFF0000 2 = .coreLocal ∧ z.timerHidden (.core 5) 0xFF0000 = false ∧
      regKey (Master.coreOr0 (.core 5)) 0xFF0000 = some (coreKey 5 0xFF0000)) ∧ Master.vault (.core 2) = false ∧
    z.cpuThread 1 = none ∧ z.cpuThread 0 = some 0 := by
  and_intros <;> decide

theorem test_witness_RefusedAccesses :
    Master.vault (.core 2) = false ∧ openBlock 0xE00000 true = false ∧ openBlock 0xEFFFFE true = false ∧ openBlock 0xE00000 false = false ∧
    openBlock 0xE0F000 true = false := by and_intros <;> decide

theorem test_witness_FieldWrites :
    ((fieldsAt (A.RFE_CTRL .sub)).any (fun d => d.acc == .rw && d.admits 0) = true) ∧
    ((fieldsAt A.LF_CTRL ++ fieldsAt A.PLINTH_CTRL ++ fieldsAt A.HOD_CTRL ++ fieldsAt (A.LANE_PHYOPT 0)).any
      (fun d => d.acc == .rw && (List.range 64).any (fun n => !d.admits n)) = true) ∧
    ((fieldsAt A.HOD_STATUS).any (fun d => d.acc == .w1c) = true) ∧ ((fieldsAt A.NVMC_IMG_LOCK).any (fun d => d.acc == .w1s) = true) ∧
    ((fieldsAt (A.LANE_ST0 0)).any (fun d => d.acc == .ro) = true) := by and_intros <;> decide

theorem test_witness_SramWords :
    inSram 0x100000 2 = true ∧ inSram 0x2FFFFE 2 = true ∧ inSram 0x2FFFFF 2 = false ∧ Memory.wf z.sram 0 = true := by
  and_intros <;> decide


theorem test_witness_EventLines : (63 : Nat) < 64 ∧ (62 : Nat) ≠ 63 ∧ 2 ≤ (2 : Fin 6).val ∧ (z.thr 2 1).st = .dead := by decide

/-! ## Witnesses: front ends, lanes, recorder -/

/-- A READY band 2 µs on, at a gain index; and clipped samples in every conversion of 2 µs. -/
def ovlAt (i : Nat) : State := ({ feOn .sub with hft := 200 } : State).setFld (F.RFE_GAIN_GAIN_IDX .sub) i
def allClip : List (Nat × Bool × Bool) := (List.range 10).map (fun i => (i, true, true))

theorem test_witness_FrontEndEnableAndDisable :
    ((z.rfe .sub).phase = .off ∧ (z.rfe .sub).disablePend = false ∧ (z.rfe .sub).enabled = false) ∧
    (((fe .sub { phase := .locking }).rfe .sub).phase = .locking ∧ ((fe .sub { phase := .locking }).rfe .sub).loLocked = false) ∧
    (((fe .ism { phase := .locked, loLocked := true }).rfe .ism).phase = .locked ∧
      ((fe .ism { phase := .locked, loLocked := true }).rfe .ism).loLocked = true) ∧
    (((fe .ism { phase := .corrected, loLocked := true }).rfe .ism).phase = .corrected ∧
      ((fe .ism { phase := .corrected, loLocked := true }).rfe .ism).loLocked = true) ∧
    ((feOn .sub).rfe .sub).enabled = true ∧
    (((fe .sub { burst := some ⟨0, .driverOff, some 9, none⟩, disablePend := true }).rfe .sub).burst = some ⟨0, .driverOff, some 9, none⟩ ∧
      ((fe .sub { burst := some ⟨0, .driverOff, some 9, none⟩, disablePend := true }).rfe .sub).disablePend = true) ∧
    (z.setFlag (F.RFE_STATUS_TX_ACTIVE .sub)).flag (F.RFE_STATUS_TX_ACTIVE .sub) = true ∧ z.flag (F.RFE_STATUS_TX_ACTIVE .sub) = false := by
  and_intros <;> decide

theorem test_witness_CalibrationsRunInOrder :
    (((feOn .sub).setFlag (F.RFE_CAL_STATUS_RC_PEND .sub)).flag (calPend .sub .rc) = true ∧
      (((feOn .sub).setFlag (F.RFE_CAL_STATUS_RC_PEND .sub)).rfe .sub).cal = none ∧
      ((feOn .sub).setFlag (F.RFE_CAL_STATUS_RC_PEND .sub)).flag (F.RFE_STATUS_READY .sub) = true ∧
      (((feOn .sub).setFlag (F.RFE_CAL_STATUS_RC_PEND .sub)).rfe .sub).mutePlumb = false ∧
      ((feOn .sub).setFlag (F.RFE_CAL_STATUS_RC_PEND .sub)).windowFor (calTime .rc) = true) ∧
    (((feOn .ism).setFlag (F.RFE_CAL_STATUS_IQ_PEND .ism)).flag (calPend .ism .iq) = true ∧
      ((feOn .ism).setFlag (F.RFE_CAL_STATUS_IQ_PEND .ism)).windowFor (calTime .iq) = true) ∧
    ((fe .sub { cal := some .dc }).rfe .sub).cal = some .dc ∧ ((fe .sub { cal := some .dc, calLost := true }).rfe .sub).calLost = true := by and_intros <;> decide

theorem test_witness_LossGainAndBursts :
    ((feOn .sub).rfe .sub).loLocked = true ∧
    (((feOn .sub).setFlag F.COURSE_STATUS_RUNNING).flag F.COURSE_STATUS_RUNNING = true ∧
      ((feOn .sub).setFlag F.COURSE_STATUS_RUNNING).muted .sub = false ∧
      (((feOn .sub).setFlag F.COURSE_STATUS_RUNNING).rfe .sub).cal = none ∧
      (((feOn .sub).setFlag F.COURSE_STATUS_RUNNING).rfe .sub).gainMoved = false ∧
      (((feOn .sub).setFlag F.COURSE_STATUS_RUNNING).rfe .sub).muteIn = false) ∧
    (run.flag F.COURSE_STATUS_RUNNING = true ∧ run.muted .sub = true) ∧
    ((ovlAt 0).detects .sub = true ∧ (ovlAt 0).overloads .sub allClip = true ∧ (ovlAt 0).fld (F.RFE_GAIN_GAIN_IDX .sub) = 0) ∧
    ((ovlAt 1).detects .sub = true ∧ (ovlAt 1).overloads .sub allClip = true ∧ (ovlAt 1).fld (F.RFE_GAIN_GAIN_IDX .sub) ≠ 0) ∧
    (z.muted .sub = true ∧ (ovlAt 1).overloads .sub [] = false) ∧
    (((fe .sub { ovl := some 7 }).rfe .sub).ovl = some 7 ∧ ((fe .sub { ovl := some 7 }).rfe .sub).ovlStepped = false) ∧
    (((fe .sub { ovl := some 7, ovlStepped := true }).rfe .sub).ovl = some 7 ∧
      ((fe .sub { ovl := some 7, ovlStepped := true }).rfe .sub).ovlStepped = true) ∧
    (((fe .sub { phase := .ready, carriers := [ack] }).rfe .sub).bursting = false ∧
      ((fe .sub { phase := .ready, carriers := [ack] }).rfe .sub).enabled = true ∧
      firstStart ((fe .sub { phase := .ready, carriers := [ack] }).rfe .sub).carriers = some 2000) ∧
    (((fe .sub { burst := some ⟨0, .sequencing, none, none⟩ }).rfe .sub).burst = some ⟨0, .sequencing, none, none⟩ ∧
      ((fe .sub { burst := some ⟨0, .sequencing, none, none⟩ }).rfe .sub).femTx.getLsbD 0 = false ∧ z.femLevel .sub 2 1 ≠ z.femLevel .sub 2 2) ∧
    (((fe .sub { burst := some ⟨0, .driving, none, none⟩, carriers := [ack] }).rfe .sub).burst = some ⟨0, .driving, none, none⟩ ∧
      firstStart ((fe .sub { burst := some ⟨0, .driving, none, none⟩, carriers := [ack] }).rfe .sub).carriers = some 2000) ∧
    ((fe .sub { burst := some ⟨0, .driving, none, none⟩ }).rfe .sub).carriers = [] ∧
    firstStop ((fe .sub { carriers := [{ ack with started := true }] }).rfe .sub).carriers = some { ack with started := true } ∧
    (((fe .sub { femDue := [(1, 99)] }).rfe .sub).femDue.find? (fun d => d.1 = 1) = some (1, 99) ∧
      ((fe .sub { femDue := [(1, 99)] }).rfe .sub).femDue.find? (fun d => d.1 = 0) = none) ∧
    ((fe .sub { burst := some ⟨0, .rampDown, some 5, none⟩, femTx := 1 }).rfe .sub).burst = some ⟨0, .rampDown, some 5, none⟩ ∧
    ((fe .sub { burst := some ⟨0, .rampDown, some 5, none⟩, femTx := 1 }).rfe .sub).femTx.getLsbD 0 = true ∧
    (((fe .sub { burst := some ⟨0, .driverOff, some 5, none⟩ }).rfe .sub).burst = some ⟨0, .driverOff, some 5, none⟩ ∧
      ((fe .sub { burst := some ⟨0, .driverOff, some 5, none⟩ }).rfe .sub).disablePend = false ∧
      ((fe .sub { burst := some ⟨0, .driverOff, some 5, none⟩, disablePend := true }).rfe .sub).disablePend = true) := by
  and_intros <;> decide

theorem test_witness_LaneReceptionStates :
    ((z.setLaneState 0 laneSearch).laneState 0 = laneSearch ∧ (z.setLaneState 0 laneSearch).effFld (F.LANE_CTRL_BYP_ACF 0) = 0) ∧
    ((z.setLaneState 0 laneSearch).fld (F.LANE_SYNC_PRE_MIN 0) ≤ 40 ∧ (z.setLaneState 0 laneSearch).laneMode 0 ≠ 0x10 ∧
      (z.setLaneState 0 laneSearch).fld (F.LANE_SYNC_CORR_THR 0) ≤ 255 ∧ 0 < (z.setLaneState 0 lanePreamble).fld (F.LANE_SYNC_CORR_THR 0) ∧
      4 * (toSigned 16 (0 : Half).toNat).natAbs ≤ 10) ∧
    (((feOn .sub).setLaneState 0 laneSearch).laneState 0 = laneSearch ∧ (modeOf (((feOn .sub).setLaneState 0 laneSearch).laneMode 0)).isSome ∧
      ((feOn .sub).setLaneState 0 laneSearch).muted (((feOn .sub).setLaneState 0 laneSearch).laneBand 0) = false) ∧
    ((lane0 fr lanePreamble).laneState 0 = lanePreamble ∧ ((lane0 fr lanePreamble).lane 0).frame = some 0 ∧
      (lane0 fr lanePreamble).laneMode 0 = 0 ∧ 0 ≤ (lane0 fr lanePreamble).fld (F.LANE_SYNC_SFD_ERR 0)) ∧
    ((lane0 fr laneHeader).laneState 0 = laneHeader ∧ ((lane0 fr laneHeader).lane 0).frame = some 0 ∧
      phrOk ((lane0 fr laneHeader).laneMode 0) 6 ⟨false, false, false, 0, 0, 5⟩ = true ∧
      phrOk ((lane0 fr laneHeader).laneMode 0) 6 ⟨false, false, false, 0, 0, 7⟩ = false) ∧
    ((z.modLane 0 (fun l => { l with frozen := true })).lane 0).frozen = true := by and_intros <;> decide

theorem test_witness_RecorderStates :
    (z.fld F.REC_STATUS_STATE ≠ recTriggered ∧ z.fld F.REC_STATUS_STATE ≠ recArming ∧ z.recConfigOk = true) ∧
    (z.fld F.REC_STATUS_STATE = recIdle ∧ (z.setFld F.REC_STATUS_STATE recDone).fld F.REC_STATUS_STATE = recDone) ∧
    ((z.setFld F.REC_STATUS_STATE recArmed).eff A.REC_PRE).toNat = 0 ∧
    ((((z.setReg A.REC_PRE 0x80).commit recConfig).setFld F.REC_STATUS_STATE recArmed).fld F.REC_STATUS_STATE = recArmed ∧
      (((z.setReg A.REC_PRE 0x80).commit recConfig).setFld F.REC_STATUS_STATE recArmed).eff A.REC_PRE ≠ 0) ∧
    (((z.setReg A.REC_PRE 0x8000).setReg A.REC_POST 1).fld F.REC_STATUS_STATE ≠ recTriggered ∧
      ((z.setReg A.REC_PRE 0x8000).setReg A.REC_POST 1).recConfigOk = false) ∧
    (z.setFld F.REC_STATUS_STATE recArming).fld F.REC_STATUS_STATE = recArming ∧
    (z.setFld F.REC_STATUS_STATE recArmed).fld F.REC_STATUS_STATE = recArmed ∧
    (z.setFld F.REC_STATUS_STATE recTriggered).fld F.REC_STATUS_STATE = recTriggered ∧
    (recOn.fld F.REC_STATUS_STATE = recTriggered ∧ recOn.recSilent = false ∧ recOn.radio.recd.post < (recOn.eff A.REC_POST).toNat ∧
      (recOn.eff A.REC_PRE).toNat + recOn.radio.recd.post < 32768) ∧
    ((recOn.modRec (fun r => { r with post := 1 })).eff A.REC_POST).toNat ≤ (recOn.modRec (fun r => { r with post := 1 })).radio.recd.post := by
  and_intros <;> decide

/-! ## Witnesses: courses, the Hod, the fabric -/

theorem test_witness_CourseStartAndPlan :
    (z.running = false ∧ (z.setFlag F.COURSE_STATUS_RUNNING).running = true) ∧
    (((z.setReg A.COURSE_T_TXOFS 6000).modSys (fun y => { y with xoRun := true })).templateOk = true) ∧ z.sys.xoRun = false ∧
    ((run.modCourse (fun c => { c with stopPend := true, locked := true })).course.stopPend = true ∧
      (run.modCourse (fun c => { c with stopPend := true, locked := true })).course.locked = true) ∧
    ((run.modCourse (fun c => { c with stopPend := true })).course.locked = false) ∧
    (z.flag F.COURSE_STATUS_COPY = false ∧ (z.setFlag F.COURSE_STATUS_COPY).flag F.COURSE_STATUS_COPY = true) ∧
    ((z.modCourse (fun c => { c with checking := true })).course.checking = true ∧
      (z.modCourse (fun c => { c with checking := true })).planFault = none) ∧
    (((z.modCourse (fun c => { c with checking := true })).setReg (A.COURSE_SHADOW 0) 0xC000).planFault.isSome = true) ∧
    (z.modCourse (fun c => { c with copying := true })).course.copying = true ∧
    (run.course.first = false ∧ run.course.locked = false ∧ run.course.stopPend = false) := by and_intros <;> decide

theorem test_witness_CourseClock :
    (run.running = true ∧ run.course.stopPend = false ∧ run.course.first = false ∧ run.course.adj = .none ∧
      run.course.sel.getD (run.flag F.COURSE_STATUS_COMMIT_PEND) = false) ∧
    ((run.modCourse (fun c => { c with first := true, adj := .following })).course.first = true ∧
      (run.modCourse (fun c => { c with first := true, adj := .following })).course.adj = .following) ∧
    ((run.modCourse (fun c => { c with sel := some true, adj := .current })).course.sel.getD false = true ∧
      (run.modCourse (fun c => { c with sel := some true, adj := .current })).course.adj = .current) ∧
    (run.modCourse (fun c => { c with stopPend := true })).course.stopPend = true ∧
    (within 4800 4800 = true ∧ within (-4800) 4800 = true ∧ within 4801 4800 = false ∧ within (-4801) 4800 = false) ∧ z.running = false ∧
    (z.hft < z.course.ct + z.courseLen / 2 ∧ ¬({ z with hft := z.courseLen / 2 } : State).hft < z.course.ct + z.courseLen / 2) ∧
    ((run.modCourse (fun c => { c with nextCt := 480000 })).flag F.COURSE_STATUS_IW_OPEN = false ∧
      (run.modCourse (fun c => { c with nextCt := 480000 })).hft <
        (run.modCourse (fun c => { c with nextCt := 480000 })).course.nextCt - 48 * run.regN A.COURSE_T_GUARD) ∧
    (run.setFlag F.COURSE_STATUS_IW_OPEN).flag F.COURSE_STATUS_IW_OPEN = true := by and_intros <;> decide

/-- COURSE running on a plan whose transmit entry 0 is in use, with LBT; the plan's PSDU is empty. -/
def txPlan : State := run.setReg (A.COURSE_ACTIVE 0x90) 0xC000

theorem test_witness_CourseTransmissions :
    (txPlan.running = true ∧ txPlan.course.first = false ∧ txPlan.course.repeated = false ∧ txPlan.course.tested.getLsbD 0 = false) ∧
    ((txPlan.txEntry? 0).isSome = true ∧ txPlan.txEntry? 7 = none ∧ (txPlan.ccaHolders.find? (fun h => h.1 == 0)).isSome = true) ∧
    (z.txReady .sub = false ∧ ((feOn .sub).setFlag (F.RFE_CTRL_TX_EN .sub)).txReady .sub = true) ∧ (z.sramHalf 0x100000).toNat = 0 ∧
    (z.modCourse (fun c => { c with txend := [(1, 2)] })).course.txend = [(1, 2)] ∧ z.course.txend = [] ∧
    ((z.setFlag (F.COURSE_DC_CTRL_EN 7)).flag (F.COURSE_DC_CTRL_EN 7) = true ∧ z.flag (F.COURSE_DC_CTRL_EN 0) = false) := by
  and_intros <;> decide

theorem test_witness_MacfAndHod :
    ((lane0 fr lanePayload).laneFrame 0 = some fr ∧ (lane0 fr lanePayload).laneState 0 = lanePayload ∧ fr.knock = false ∧
      fr.macf = .undecided) ∧
    (z.macfTest (mhrOf [0x01, 0x08, 0, 0xFF, 0xFF, 0xFF, 0xFF]) 20 = .inl A.MACF_CNT_VER) ∧
    ((lane0 { fr with handoff := some ho } laneSearch).frameOf 0 (fun f => f.handoff.isSome && !f.placed) = some { fr with handoff := some ho }) ∧
    ((lane0 { fr with handoff := some ho, placed := true, verdict := some 0 } laneSearch).frameOf 0 (fun f => f.placed && !f.settled) =
        some { fr with handoff := some ho, placed := true, verdict := some 0 } ∧
      ∀ g ∈ (lane0 { fr with handoff := some ho, placed := true, verdict := some 0 } laneSearch).radio.frames, g.handoff ≠ none →
        g.settled = false → hodBefore g { fr with handoff := some ho, placed := true, verdict := some 0 } = false) ∧
    (z.flag F.HOD_CTRL_EN = false ∧ ((z.setFlag F.HOD_CTRL_EN).setReg A.HOD_WR 256).hodOcc = 256) ∧
    (z.hodOcc < (1 + 512 - z.regN A.HOD_RD) % 512 ∧ (0 + 512 - z.regN A.HOD_RD) % 512 ≤ z.hodOcc) ∧
    ((z.plainWrite A.HOD_CTRL 1).flag F.HOD_CTRL_EN = true ∧ (z.plainWrite A.HOD_CTRL 1).hodCfgOk = false) ∧
    ((((z.setReg A.HOD_RING_BASE_HI 0x10).setReg A.HOD_POOL_BASE_HI 0x11).commit [A.HOD_RING_BASE_HI, A.HOD_POOL_BASE_HI]).plainWrite
      A.HOD_CTRL 1).hodCfgOk = true := by and_intros <;> decide

theorem test_witness_FabricLinksAndTime :
    ((fab { inbox := [fx 1 16 (List.replicate 20 0)] }).fabNext [1]).isSome = true ∧
    ((fab { inbox := [fx 1 16 (List.replicate 19 0 ++ [7, 0])] }).fabNext [1] = some (fx 1 16 (List.replicate 19 0 ++ [7, 0]), fab {}) ∧
      (fx 1 16 (List.replicate 19 0 ++ [7, 0])).body.length = 21 ∧ (octAt (fx 1 16 (List.replicate 19 0 ++ [7, 0])).body 19).toNat < 8 ∧
      (fab {}).fabric.nbr 7 = none ∧ (fab {}).fabric.nbrs.length < 32 ∧ (fab { nbrs := [nb] }).fabric.nbr 7 = some nb) ∧
    8 ≤ (octAt (fx 1 16 (List.replicate 19 0 ++ [8, 0])).body 19).toNat ∧ z.fabric.st ≠ 3 ∧
    ((fab { inbox := [fx 6 2 []], st := 3, seen := [] }).fabNext [4, 6] = some (fx 6 2 [], fab { st := 3 }) ∧ (fab { st := 3 }).fabric.st = 3 ∧
      (sparseGet (fun _ => []) (fab { st := 3 }).fabric.seen ((fx 6 2 []).h 2 2)).contains ((fx 6 2 []).h 8 2) = false ∧
      (sparseGet (fun _ => []) (fab { seen := [(1, [1])] }).fabric.seen ((fx 6 2 []).h 2 2)).contains ((fx 6 2 []).h 8 2) = true) ∧
    ((fab { st := 3, parent := some 7, nbrs := [{ nb with fails := 4 }] }).fabric.parent.bind
      (fab { st := 3, parent := some 7, nbrs := [{ nb with fails := 4 }] }).fabric.nbr = some { nb with fails := 4 }) ∧
    (firstStop ((fe .sub { carriers := [{ ack with started := true }] }).rfe .sub).carriers = some { ack with started := true }) ∧
    (firstStop ((fe .sub { carriers := [{ ack with started := true, entry := some 0 }] }).rfe .sub).carriers).isSome = true ∧
    ((fab { st := 1, nbrs := [nb] }).fabric.st = 1 ∧ (fab { st := 1, nbrs := [nb] }).fabric.isRoot = false ∧
      (fab { st := 1, nbrs := [nb] }).fabric.asked = none ∧
      (fab { st := 1, nbrs := [nb] }).fabric.retryAt ≤ (fab { st := 1, nbrs := [nb] }).asn ∧ bestParent [nb] 0x10000 = some nb) ∧
    ((fab { inbox := [fx 2 2 (List.replicate 12 0)], st := 3 }).fabNext [2] = some (fx 2 2 (List.replicate 12 0), fab { st := 3 }) ∧
      (fx 2 2 (List.replicate 12 0)).body.length = 12 ∧ 1 < (fx 2 2 (List.replicate 12 0)).h 6 1 ∧ (fx 2 1 []).h 6 1 ≤ 1) ∧
    ((fab { inbox := [fx 3 2 (List.replicate 11 0)], st := 2 }).fabNext [3] = some (fx 3 2 (List.replicate 11 0), fab { st := 2 }) ∧
      (octAt (fx 3 2 (List.replicate 11 0)).body 8).toNat = 0 ∧ (octAt (fx 3 2 (List.replicate 8 0 ++ [1, 0, 0])).body 8).toNat ≠ 0) ∧
    ((fab { inbox := [fx 5 1 []] }).fabNext [5]).isSome = true ∧
    (fab { st := 3, parent := some 7, nbrs := [{ nb with verEvt := none }] }).fabric.st = 3 ∧ nb.version = some 2 ∧
    ((fab { st := 3, offsets := [(1, 0), (2, 4), (3, 8), (4, 12)] }).fabric.isRoot = false ∧ 4 ≤ (fab { st := 3, offsets := [(1, 0), (2, 4), (3, 8), (4, 12)] }).fabric.offsets.length ∧
      (fab { st := 3, offsets := [(1, 0), (2, 4), (3, 8), (4, 12)] }).fabric.prevMean = none ∧ (divRound (([1, 2, 3, 4] : List Int).foldl (· + ·) 0) 4).natAbs ≤ 4800 ∧
      4800 < (divRound (([4801, 4801, 4801, 4801] : List Int).foldl (· + ·) 0) 4).natAbs) ∧
    ((fab { st := 3 }).fabric.st = 3 ∧ (fab { nbrs := [nb] }).fabric.nbr 7 = some nb ∧ nb.usable = true ∧
      ({ nb with vMax := 1, vMin := 1 } : Neighbour).version = some 1 ∧ ({ nb with hrMin := 1 } : Neighbour).usable = false) := by
  and_intros <;> decide

/-- The hypotheses of FabricLinksAndTime beside those above: HELLOs to send, a full table, DATA at its destination and beyond, frames in
an entry, and the root. -/
theorem test_witness_FabricLinksAndTime_more :
    ((fab { st := 3, addr := 5 }).fabric.on = true ∧ (fab { st := 3, addr := 5 }).fabric.addr ≠ 0xFFFF ∧
      (fab { st := 3, addr := 5 }).fabric.hellos = []) ∧
    ((fab { nbrs := (List.range 32).map (fun i => { nb with eui := BitVec.ofNat 64 (8 + i) }) }).fabric.nbr 7 = none ∧
      32 ≤ (fab { nbrs := (List.range 32).map (fun i => { nb with eui := BitVec.ofNat 64 (8 + i) }) }).fabric.nbrs.length ∧
      (fab { nbrs := [nb] }).worstNbr.isSome = true) ∧
    ((fx 4 2 []).h 4 2 = (fab { st := 3 }).fabric.addr ∧ (fx 4 2 []).h 4 2 ≠ (fab { st := 3, addr := 5 }).fabric.addr ∧
      (fx 4 1 []).h 6 1 ≤ 1 ∧ 1 < (fx 4 2 []).h 6 1 ∧ (fab { st := 3, addr := 5, parent := some 7 }).fabric.hopFor ((fx 4 2 []).h 4 2) = some 7 ∧
      (fab { st := 3, addr := 5 }).fabric.hopFor ((fx 4 2 []).h 4 2) = none) ∧
    ((fab { queue := [{ typ := 4, hop := 7, payload := [], host := none, stage := .placed [] 0 3 }] }).fabric.queue.find?
      (fun m => m.inEntry 0 3)).isSome = true ∧ (fab {}).fabric.queue.find? (fun m => m.inEntry 0 3) = none ∧
    ((fab { st := 3, cfg := [1] }).fabric.isRoot = true ∧ (fab { st := 3 }).fabric.isRoot = false ∧ (fab { st := 3 }).fabric.parent = none) ∧
    bestParent (fab {}).fabric.nbrs 0x10000 = none ∧ (fab { asked := some 5 }).fabric.asked = some 5 ∧
    (∀ j ∈ (fab {}).fabric.joins, j.1 = 7 → j.2.2.2 + 480000000 < z.hft) ∧
    (fab { prevMean := some (4, 0) }).fabric.prevMean = some (4, 0) := by
  and_intros <;> decide

/-- With a period of one course a HELLO is due in each. -/
theorem test_witness_FabricLinksAndTime_due (s : State) (h : s.fabric.period = 0) :
    (s.nextPlanAsn + s.deviceEui % 256) % max 1 s.fabric.period = 0 := by rw [h]; exact Nat.mod_one _
/-! ## Witnesses: ASHLAR, CRYPTO, KEYS, PKE -/

theorem test_witness_AshlarVerdictsAndLeases :
    ((lane0 { fr with macf := .passed 0 } lanePayload).frameOf 0 (fun f => f.passed && f.check.isNone) = some { fr with macf := .passed 0 } ∧
      z.flag F.ASHLAR_CTRL_EN = false ∧ (mhrOf [0x09, 0x28, 0, 0, 0, 0]).sec = true) ∧
    ((lane0 { fr with check := some chk } lanePayload).frameOf 0 Frame.awaitsMic = some { fr with check := some chk }) ∧
    ((lane0 { fr with macf := .passed 0, handoff := some ho } laneSearch).frameOf 0
      (fun f => f.passed && f.handoff.isSome && f.verdict.isNone) = some { fr with macf := .passed 0, handoff := some ho }) ∧
    ((lane0 { fr with handoff := some ho, check := some { chk with mic := some true } } laneSearch).frameOf 0 Frame.toCommit =
        some { fr with handoff := some ho, check := some { chk with mic := some true } } ∧ ho.fcsErr = false ∧ ho.cut = false) ∧
    ((ash { stash := [en] }).ashlar.find chk.eui = some en ∧ en.epoch.toNat = chk.keyIndex ∧ en.hwm.toNat < chk.counter ∧
      ({ chk with counter := 299 } : Check).counter ≤ en.hwm.toNat ∧ en.dirty = false) ∧
    ((ash { deletes := [del] }).leaseFree = true ∧ (ash { deletes := [del] }).ashlar.deletes = [del]) ∧
    ((ash { dirtyQ := [1], stash := [{ en with dirty := true }] }).leaseFree = true ∧
      (ash { dirtyQ := [1], stash := [{ en with dirty := true }] }).ashlar.find 1 = some { en with dirty := true }) ∧
    ((ash {}).ashlar.deletes = [] ∧ (ash {}).ashlar.dirtyQ = [] ∧ ((ash {}).setFlag F.ASHLAR_STATUS_LEASE_SWEEP).leaseFree = true ∧
      (ash { stash := [{ en with dirty := true }] }).ashlar.entries.find? (·.dirty) = some { en with dirty := true } ∧
      (ash {}).ashlar.entries.find? (·.dirty) = none) ∧
    ((ash { leaseOut := some del }).ashlar.leaseOut = some del ∧
      ((ash { leaseOut := some del }).nvAppend .lease (copyWords 2 1 del.payload 0)).isSome = true) ∧
    2 < (z.segsFree .lease).length ∧
    ((mhrOf [0x09, 0x28, 0, 0, 0, 0]).sec = true ∧ (z.modKeys (fun q => { q with lcPhase := .written })).keys.lcPhase ≠ .none ∧
      z.keys.lcPhase = .none) ∧
    ((secOf (List.replicate 6 0) (mhrOf (List.replicate 6 0)) 4).mic + (secOf (List.replicate 6 0) (mhrOf (List.replicate 6 0)) 4).micLen ≤ 6 ∧
      ([] : List Byte).length < (secOf [] (mhrOf []) 30).mic + (secOf [] (mhrOf []) 30).micLen + 1) ∧
    (lane0 { fr with handoff := some ho, check := some { chk with mic := some true } } laneSearch).radio.frames.any
      (fun g => g.passed && !g.committed && hodBefore g fr) = false ∧
    (ash { leaseOut := some del }).leaseFree = false ∧ (ash {}).ashlar.leaseOut = none := by and_intros <;> decide

/-- A lease record at its port while NVMC serves the lease writer, its open segment with room. -/
def leasing : State := { (ash { leaseOut := some del }) with nvm := { reqs := [⟨.lease, 2, 1, del.payload, 0⟩], cur := some .lease, posLease := 0xB00020 } }

/-- NVMC with ten lease segments in use, each with a header copy. -/
def tenSegs : State := { (ash {}) with mram := (List.range 10).flatMap (fun i =>
  ((copyWords 1 1 [half (i + 1), 0] 0).flatMap (fun w => leOctets 2 w.toNat)).zipIdx.map (fun p => (0xB00000 + 0x10000 * i + p.2, p.1))) }

theorem test_witness_AshlarVerdictsAndLeases_nvmc :
    (leasing.ashlar.leaseOut = some del ∧ leasing.nvTurn .lease = true ∧
      leasing.nvFits .lease (threeCopies (copyWords 2 1 del.payload 0)) = true ∧
      (leasing.nvRecordWrite .lease (copyWords 2 1 del.payload 0) 0).1 = .committed ∧
      (leasing.nvRecordWrite .lease (copyWords 2 1 del.payload 0) 1).1 = .committed ∧
      (leasing.nvRecordWrite .lease (copyWords 2 1 del.payload 0) 2).1 = .verify) ∧
    (tenSegs.leaseFree = true ∧ tenSegs.ashlar.reclaim = none ∧ (tenSegs.segsFree .lease).length ≤ 2 ∧
      (tenSegs.segsInUse .lease).head? = some (1, 0xB00000)) ∧
    ((ash { reclaim := some (0xB00000, [1]), stash := [en] }).leaseFree = true ∧ (ash { stash := [en] }).ashlar.find 1 = some en ∧
      (ash { reclaim := some (0xB00000, [1]) }).ashlar.reclaim = some (0xB00000, [1]) ∧ ([(1 : BitVec 64)].all (fun u => ((ash {}).ashlar.find u).isNone)) = true) := by
  and_intros <;> decide +kernel

theorem test_witness_AshlarTableOperations :
    (z.flag F.ASHLAR_CTRL_EN = false ∧ (ash {}).flag F.ASHLAR_CTRL_EN = true ∧ (ash {}).flag F.ASHLAR_STATUS_RESTORE = false ∧
      (ash {}).flag F.ASHLAR_STATUS_REBUILD = false ∧ ((ash {}).setFlag F.ASHLAR_STATUS_REBUILD).flag F.ASHLAR_STATUS_REBUILD = true) ∧
    ((ash { wantHk := true }).ashlar.wantHk = true ∧ z.drbgReady = false ∧ (z.setFlag F.TRNG_STATUS_READY).drbgReady = true) ∧
    (((ash {}).setFlag F.ASHLAR_STATUS_RESTORE).flag F.ASHLAR_STATUS_RESTORE = true ∧ (ash {}).ashlar.wantHk = false) ∧
    ((ash {}).ashlar.replaced = false ∧ (ash { replaced := true }).ashlar.replaced = true) ∧
    ((z.tenant z.tsel).epoch = 0 ∧ (1 : Half).toNat % 256 ≠ 0) ∧
    (((z.modTenant z.tsel (fun t => { t with epoch := 254 })).tenant z.tsel).epoch = 254 ∧ (255 : Half).toNat % 256 = 254 + 1) ∧
    (((z.modTenant z.tsel (fun t => { t with epoch := 255 })).tenant z.tsel).epoch = 255) ∧
    (entryCode (.entryOpBadop 9) = some 9 ∧ entryCode .entryOpRead = some 1 ∧ z.flag F.ASHLAR_STATUS_CMD_BUSY = false ∧
      (z.setFlag F.ASHLAR_STATUS_CMD_BUSY).flag F.ASHLAR_STATUS_CMD_BUSY = true) ∧
    ((ash { stash := [{ en with eui := 0 }] }).ashlar.find z.opEui = some { en with eui := 0 } ∧ (ash {}).ashlar.find z.opEui = none) ∧
    (64 ≤ (ash { stash := List.replicate 64 en }).ashlar.stash.length ∧ (z.tenant 0).usable = false ∧
      ((z.modTenant 0 (fun t => { t with root := some [], en := true, epoch := 1 })).tenant 0).usable = true) ∧
    ((ash { op := some (1, 0) }).ashlar.op = some (1, 0) ∧ (ash { op := some (8, 0) }).ashlar.op = some (8, 0)) := by
  and_intros <;> decide

/-- CRYPTO enabled with a ring at 0x100000 whose first descriptor asks for a mode of slot 0 by the Hod, and a slot. -/
def cry (mode : Nat) (k : Slot) : State :=
  (((((((z.setFlag F.CRYPTO_CTRL_EN).setReg A.CRYPTO_Q_BASE_HI 0x10).commit [A.CRYPTO_Q_BASE_HI]).latch [A.CRYPTO_Q_BASE_LO, A.CRYPTO_Q_BASE_HI]).setReg A.CRYPTO_Q_WR
    1).setSramHalf 0x100000 (half (mode * 4096))).setSramHalf 0x10000E 0xFF00).setSlot 0 k

/-- An AES slot that every master and use may take, of unlimited life, and a counted one with its lease used up. -/
def aes : Slot := { attr0 := 0x63FF, attr1 := 0xFFFF, key := List.replicate 16 0 }
def aesCount : Slot := { attr0 := 0x43FF, attr1 := 0xFFFF, key := List.replicate 16 0, u := 512, f := 512 }

theorem test_witness_CryptoJobsAndModes :
    (jobMode .jobCbcEnc = some 1 ∧ (cry 1 aes).ringWaits = true ∧ (cry 1 aes).keys.commit = none ∧ (cry 1 aes).nextDesc.mode = 1 ∧
      (cry 1 aes).freeCore = some 0) ∧
    ((cry 1 {}).jobCheck (cry 1 {}).nextDesc ((cry 1 {}).crypto.submitter.getD ((cry 1 {}).crypto.next % 16) 0) = some jNoSlot) ∧
    ((cry 1 aes).jobCheck (cry 1 aes).nextDesc ((cry 1 aes).crypto.submitter.getD ((cry 1 aes).crypto.next % 16) 0) = none ∧
      ((cry 1 aes).slot (cry 1 aes).nextDesc.slot).leaseNeed true (cry 1 aes).nextDesc.nctr = none) ∧
    ((cry 1 aesCount).jobCheck (cry 1 aesCount).nextDesc ((cry 1 aesCount).crypto.submitter.getD ((cry 1 aesCount).crypto.next % 16) 0) =
        none ∧ ((cry 1 aesCount).slot (cry 1 aesCount).nextDesc.slot).leaseNeed true (cry 1 aesCount).nextDesc.nctr = some (256, 0)) ∧
    z.ringWaits = false ∧ z.nvm.cur = none ∧
    (z.modCrypto (fun c => { c with jobs := [⟨3, 0, 0, false, 0, 0, [], none⟩] })).crypto.jobs ≠ [] ∧
    ((z.modCrypto (fun c => { c with jobs := [⟨3, 0, 0, false, 0, 0, [], none⟩] })).crypto.jobs.find? (fun j => j.core = 3)).isSome = true ∧
    (z.flag F.CRYPTO_CTRL_EN = false ∧ (cry 1 aes).flag F.CRYPTO_CTRL_EN = true ∧ (cry 1 aes).crypto.jobs = []) ∧
    (16 < ((17 : Half).toNat % 32 + 32 - z.regN A.CRYPTO_Q_RD) % 32 ∧ ((16 : Half).toNat % 32 + 32 - z.regN A.CRYPTO_Q_RD) % 32 ≤ 16) ∧
    ((z.modKeys (fun q => { q with commit := some (0, 256, 0) })).keys.commit = some (0, 256, 0)) ∧
    ((cry 5 aes).nextDesc.mode = 5 ∧ (cry 6 aes).nextDesc.mode = 6 ∧ (cry 7 aes).nextDesc.mode = 7 ∧ (cry 7 aes).nextDesc.nctr = false ∧
      (cry 0 aes).nextDesc.bad 0 = true ∧ (cry 1 aes).nextDesc.bad 0 = false ∧ (z.slot 0).kind = 0 ∧ aes.kind = 1 ∧
      (z.slotAdmits { aes with attr1 := 0 } 0 = false) ∧ aesCount.counted = true ∧ aes.counted = false) := by and_intros <;> decide

/-- An LC_CHANGE in progress that KEYS can judge, in a life-cycle state. -/
def lcAsked (st target : Nat) : State := ((z.setFld F.ID_LIFECYCLE_STATE st).modKeys (fun k => { k with
  cmd := some ⟨8, 0, [half target], false⟩ })).modPke (fun p => { p with held := true })

theorem test_witness_KeysCommands :
    (keysCode (.keysImport 0) = some (0, 1) ∧ keysCode (.keysBadop 1 15) = some (1, 15) ∧ z.flag F.KEYS_STATUS_BUSY = false ∧
      (z.setFlag F.KEYS_STATUS_BUSY).flag F.KEYS_STATUS_BUSY = true) ∧
    ((z.modKeys (fun k => { k with cmd := some ⟨3, 0, [], false⟩ })).keysWaits ⟨3, 0, [], false⟩ = true ∧ z.keysWaits ⟨6, 0, [], false⟩ = false ∧
      (z.modPke (fun p => { p with held := true })).keysWaits ⟨1, 0, [], false⟩ = false) ∧
    ((z.setFlag F.KEYS_STATUS_KS_LOST).flag F.KEYS_STATUS_KS_LOST = true) ∧
    ((lcAsked 1 4).keys.cmd = some ⟨8, 0, [4], false⟩ ∧ (lcAsked 1 4).pke.held = true ∧ bits (wordAt [4] 0) 2 0 = 4 ∧
      (lcAsked 1 4).lcAllowed [4] 4 = true) ∧
    ((lcAsked 1 2).keys.cmd = some ⟨8, 0, [2], false⟩ ∧ bits (wordAt [2] 0) 2 0 = 2 ∧ (lcAsked 1 2).lcAllowed [2] 2 = true ∧
      (lcAsked 1 2).drbgReady = false) ∧
    (lcAsked 1 3).lcAllowed [3] (bits (wordAt [3] 0) 2 0) = false ∧ z.pke.held = false ∧ z.pke.cmd = none ∧
    (z.modPke (fun p => { p with cmd := some ⟨5, 0, false, 0, 0, 0, 0⟩ })).pke.cmd ≠ none := by and_intros <;> decide

theorem test_witness_PkeAndRandomNumbers :
    (pkeCode (.pkeShaInit 0) = some (0, 1) ∧ pkeCode (.pkeSign 1 63 true) = some (1, 0xBF05) ∧ z.flag F.PKE_STATUS_BUSY = false ∧
      (z.setFlag F.PKE_STATUS_BUSY).flag F.PKE_STATUS_BUSY = true) ∧
    ((z.modPke (fun p => { p with cmd := some ⟨5, 0, false, 0, 0, 0, 0⟩ })).pke.cmd = some ⟨5, 0, false, 0, 0, 0, 0⟩ ∧
      z.drbgReady = false ∧ (z.setFlag F.TRNG_STATUS_READY).drbgReady = true ∧ (z.setFlag F.TRNG_STATUS_READY).keysWantsDrbg = false ∧
      (z.setFlag F.TRNG_STATUS_READY).ashlar.wantHk = false) ∧
    (onCurve (z.pkeOp A.PKE_QX) (z.pkeOp A.PKE_QY) = false ∧ z.pke.sha = none) ∧
    ((z.setFlag F.TRNG_STATUS_STARTUP).flag F.TRNG_STATUS_STARTUP = true) ∧
    (rctFails 0 0 (List.replicate 40 7) = 0 ∧ rctFails 0 0 (List.replicate 41 7) ≠ 0 ∧ (List.replicate 41 7).length = 41) ∧
    ((z.modTrng (fun t => { t with requests := 65536 })).trng.requests = 65536 ∧ z.trng.requests < 65536) ∧
    (z.flag F.TRNG_STATUS_OUT_VALID = false ∧ (z.setFlag F.TRNG_STATUS_OUT_VALID).flag F.TRNG_STATUS_OUT_VALID = true) := by
  and_intros <;> decide

/-- ACCESS in a state of its own. -/
def acc (st : Nat) (a : Access) : State := (((z.setFlag F.ACCESS_CTRL_EN).setAc st).modAccess (fun _ => a))

theorem test_witness_AccessSessionStates :
    (z.flag F.ACCESS_CTRL_EN = false ∧ (acc acIdle {}).flag F.ACCESS_CTRL_EN = true ∧ (acc acPlumb {}).acState = acPlumb) ∧
    ((acc acChallenge {}).acState = acChallenge ∧ (acc acChallenge {}).access.burst = none) ∧ (acc acWaitResp {}).acState = acWaitResp ∧
    (acc acWaitReport {}).acState = acWaitReport ∧
    ((lane0 fr lanePayload).laneFrame 0 = some fr ∧ (lane0 fr lanePayload).laneState 0 = lanePayload ∧ fr.octets.length = fr.len) ∧
    z.access.records = [] ∧ z.nvm.cur = none ∧ (z.modNvm (fun n => { n with cur := some .firmware })).nvTurn .access = false ∧
    (z.modNvm (fun n => { n with cur := some .access })).nvTurn .access = true ∧
    ((acc acLog { records := [([0, 0, 0, 0, 0x1000], true)], sess := { verdict := some avRelease } }).access.records =
        [([0, 0, 0, 0, 0x1000], true)] ∧ bits (wordAt [0, 0, 0, 0, 0x1000] 4) 15 12 = 1 ∧
      (acc acLog { records := [([0, 0, 0, 0, 0x1000], true)], sess := { verdict := some avRelease } }).acState = acLog) ∧
    (((acc acRelease {}).setFlag F.ACCESS_STATUS_RELEASE).flag F.ACCESS_STATUS_RELEASE = true ∧ (acc acRelease {}).acState = acRelease) ∧
    ((acc acIdle {}).setFlag F.ACCESS_STATUS_RELEASE).acState ≠ acRelease ∧
    ((z.setFlag F.ACCESS_STATUS_RELEASE).setFlag F.ACCESS_STATUS_LOCK_FAULT).flag F.ACCESS_STATUS_RELEASE = true ∧
    (z.setFlag F.ACCESS_STATUS_LOCK_FAULT).flag F.ACCESS_STATUS_RELEASE = false := by and_intros <;> decide

theorem test_witness_PlumbLockoutAndLf :
    (((feOn .ism).setAc acWaitPlumb).plumbMayStart = true ∧ z.plumbMayStart = false ∧ (acc acWaitPlumb {}).acState = acWaitPlumb) ∧
    ((acc acPlumb {}).acState = acPlumb ∧ (acc acPlumb { rounds := List.replicate 31 ⟨0, 0, 0, false, true⟩ }).access.rounds.length < 32) ∧
    ((z.setFlag F.PLINTH_LO_STATE_LOCKED).flag F.PLINTH_LO_STATE_LOCKED = true ∧
      (z.setReg A.PLINTH_LO_END_LO 0).lockSec = (z.setReg A.PLINTH_LO_END_LO 0).reg32 A.PLINTH_LO_END_LO ∧
      (z.setFlag F.PLINTH_LO_STATE_LOCKED false).flag F.PLINTH_LO_STATE_LOCKED = false ∧ z.plinth.powered = true) ∧
    (((acc acIdle { burst := some true }).setFld F.LF_CTRL_EN 15).driverIn 3 = true ∧ (acc acIdle { burst := some true }).access.burst ≠ none) ∧
    ((acc acIdle { tuneReq := 1 }).access.tuneReq ≠ 0 ∧ (acc acIdle { tuneReq := 1 }).access.tuning = 0 ∧
      (acc acIdle { tuneReq := 1 }).acState ≠ acChallenge ∧ ∀ n < 4, (acc acIdle { tuneReq := 1 }).lfSlice n = false) ∧
    ((acc acIdle { tuning := 1 }).access.tuning ≠ 0 ∧ (acc acIdle { tuning := 1 }).access.tuning.getLsbD 0 = true ∧
      (acc acIdle {}).fld (F.LF_ISET_ISET 0) ≤ 4 * 63) ∧
    ((acc acIdle {}).acState = acIdle ∧ (((acc acIdle {}).modSys (fun y => { y with xoRun := true })).sys.xoRun = true) ∧
      (acc acIdle {}).access.burst = none ∧ (acc acIdle {}).sys.xoRun = false ∧
      (acc acIdle {}).alive = true) ∧
    ((z.setFlag F.ACCESS_STATUS_TBL_BUSY).flag F.ACCESS_STATUS_TBL_BUSY = true ∧ z.tokenTables = none ∧
      ((((z.setReg A.ACCESS_TOK_BASE_HI 0x10).setReg A.ACCESS_REV_BASE_HI 0x10).commit [A.ACCESS_TOK_BASE_HI, A.ACCESS_REV_BASE_HI]).latch [A.ACCESS_TOK_BASE_LO, A.ACCESS_TOK_BASE_HI,
        A.ACCESS_REV_BASE_LO, A.ACCESS_REV_BASE_HI]).tokenTables = some ([], [])) := by and_intros <;> decide

/-! ## Witnesses: cores -/

/-- Thread 0 of Lintel core 0 running from general SRAM, and from a pointer that its loads and stores reach. -/
def cpu : State := z.modThr 0 0 (fun t => { t with pc := 0x100000, p := Vector.replicate 8 0x100000 })

theorem test_executes : Executes cpu 0 0 .plain cpu ∧ Executes cpu 0 0 .branch cpu ∧ Executes cpu 0 0 .ctl cpu :=
  ⟨⟨rfl, by decide⟩, ⟨rfl, by decide⟩, ⟨rfl, by decide⟩⟩

theorem test_witness_CpuArithmetic : Executes cpu 0 0 .plain cpu := test_executes.1
theorem test_witness_CpuLogicAndShifts : Executes cpu 0 0 .plain cpu ∧ (0x3F : Half).toNat / 64 = 0 := ⟨test_executes.1, by decide⟩
theorem test_witness_CpuProductsFieldsPointers : Executes cpu 0 0 .plain cpu ∧ (15 : Fin 16).val + (0 : Fin 16).val < 16 ∧
    16 ≤ (15 : Fin 16).val + (1 : Fin 16).val ∧ (0xFF : Half).toNat < 256 := ⟨test_executes.1, by decide⟩

theorem test_witness_CpuLoadsAndStores : Executes cpu 0 0 .plain cpu ∧ amLegal 1 0 = true ∧
    ((cpu.load 0 0 0x100000 1).1 = .inl 0 ∧ (cpu.load 0 0 0x100000 2).1 = .inl 0 ∧ (cpu.load 0 0 0x100000 4).1 = .inl 0 ∧
      (cpu.load 0 0 0x100001 2).1 = .inr (exAlign, some 0x100001)) ∧
    (cpu.dataFault 0 0 0x100000 4 true = none ∧ (cpu.busWrite (.core 0) 0 0x100000 4 5).isSome = true ∧ (cpu.thr 0 0).st ≠ .dead ∧
      cpu.sys.inReset = false ∧ cpu.dataFault 0 0 0x100001 2 true = some (exAlign, some 0x100001)) ∧
    inSram 0x100000 4 = true ∧ (0x100001 : Ptr).toNat % 2 ≠ 0 := by
  refine ⟨test_executes.1, ?_⟩
  and_intros <;> decide

theorem test_witness_CpuBranchesAndLoops : Executes cpu 0 0 .branch cpu ∧ Executes cpu 0 0 .ctl cpu ∧ ((cpu.thr 0 0).p[(0 : Fin 8)]).toNat % 4 = 0 ∧
    ((cpu.modThr 0 0 (fun t => { t with lr := 2 })).thr 0 0).lr.toNat % 4 ≠ 0 ∧ (cpu.thr 0 0).lr.toNat % 4 = 0 ∧
    (cpu.thr 0 0).loopBad 0 true 3 2 = false ∧ (cpu.thr 0 0).loopBad 0 true 3 0 = true ∧ (cpu.thr 0 0).loopBad 1 false 0xF00 2 = false ∧
    (0xF00 : BitVec 12) = BitVec.ofNat 12 (15 * 256) := by
  refine ⟨test_executes.2.1, test_executes.2.2, ?_⟩
  and_intros <;> decide

theorem test_witness_CpuSystem : Executes cpu 0 0 .plain cpu ∧ Executes cpu 0 0 .ctl cpu ∧ crBad 4 false 0 0 = false ∧ crBad 3 true 0 0 = false ∧
    (cpu.thr 0 0).mtcPriv 4 = false ∧ ((cpu.modThr 0 0 (fun t => { t with psw := 0 })).thr 0 0).mtcPriv 1 = true ∧
    crBad 10 false 0 0 = true ∧ (cpu.thr 0 0).priv = true ∧ ((cpu.modThr 0 0 (fun t => { t with psw := 0 })).thr 0 0).priv = false ∧
    ((cpu.post 0 47).thr 0 0).st ≠ .dead := by
  refine ⟨test_executes.1, test_executes.2.2, ?_⟩
  and_intros <;> decide

theorem test_witness_CpuCompletion : (cpu.thr 0 0).pend = [] ∧ (cpu.thr 0 0).slot = none ∧ (cpu.thr 0 0).atLe = false ∧
    (cpu.thr 0 0).holdStall = false ∧ (cpu.thr 0 0).holdWdog = false ∧ (cpu.thr 0 0).stepping = false ∧ (cpu.thr 0 0).pc.toNat % 4 = 0 := by
  and_intros <;> decide

theorem test_witness_CpuExceptions : Executes cpu 0 0 .plain cpu ∧ cpu.cpuThread 0 = some 0 ∧ (cpu.thr 0 0).haltReq = false ∧
    (cpu.thr 0 0).exl = false ∧ (cpu.thr 0 0).slot = none ∧ (cpu.thr 0 0).pend = [] ∧
    (((cpu.modThr 0 0 (fun t => { t with pc := 0xE00000 })).fetchFault 0 0).isSome = true ∧
      (cpu.modThr 0 0 (fun t => { t with pc := 0xE00000 })).fetchFault 0 0 ≠ some exEcc) ∧
    ((cpu.modThr 0 0 (fun t => { t with slot := some (0x100000, 0x100010) })).thr 0 0).slot.isSome = true := by
  refine ⟨test_executes.1, ?_⟩
  and_intros <;> decide

theorem test_witness_DoubleFault : ((cpu.modThr 0 0 (fun t => { t with psw := 0xA000 })).thr 0 0).exl = true := by decide

theorem test_witness_ThreadsAndEvents :
    ((z.thr 0 1).st = .dead ∧ (z.thr 0 0).st ≠ .dead ∧ z.cores[(0 : Fin 6)].lowestLive = some 0 ∧ z.stalled 0 = false ∧
      (z.thr 0 0).holdStall = false) ∧
    (z.cores[(2 : Fin 6)].lowestLive = none ∧ z.alive = true ∧ (z.modThr 0 0 (fun t => { t with st := .wait })).stalled 0 = true) ∧
    (mbWriter 0 2 = true ∧ mbWriter 0 5 = false ∧ (z.mbox[(0 : Fin 8)]).length < 32 ∧ allCores.any (mbReader 0) = true ∧ z.mbox[(0 : Fin 8)] = []) ∧
    (z.flag (F.WDT_CTRL_EN 0) = false ∧ (z.setFlag (F.WDT_CTRL_EN 0)).flag (F.WDT_CTRL_EN 0) = true) ∧
    ((z.modCore 0 (fun k => { k with wdStage := 1 })).cores[(0 : Fin 6)].wdStage = 1 ∧ z.cores[(0 : Fin 6)].anyHalted = false) := by
  and_intros <;> decide

/-! ## Witnesses: MRAM, reset, power, clocks, the Plinth domain, timers -/

theorem test_witness_NvmcCommands :
    (nvmcCode .nvmcCfgRead = some 2 ∧ nvmcCode (.nvmcBadop 6) = some 6 ∧ z.flag F.NVMC_STATUS_BUSY = false ∧
      (z.setFlag F.NVMC_STATUS_BUSY).flag F.NVMC_STATUS_BUSY = true) ∧
    ((z.modNvm (fun n => { n with cmd := some (7, []), cur := some .firmware })).nvm.cmd = some (7, []) ∧
      (z.modNvm (fun n => { n with cmd := some (7, []), cur := some .firmware })).nvm.cur = some .firmware ∧ z.nvm.cur = none ∧
      nvmcWork z 7 [] 0 = (nvBadOp, z)) ∧
    ((z.modNvm (fun n => { n with cmd := some (4, []), cur := some .firmware, reqs := [⟨.keys, 0x20, 1, [], 0⟩] })).nvTurn .keys = true ∧
      (z.modNvm (fun n => { n with cur := some .assay })).nvTurn .assay = true ∧
      (z.modNvm (fun n => { n with cur := some .access })).nvTurn .access = true ∧
      (z.modNvm (fun n => { n with cur := some .lease })).nvTurn .lease = true) ∧
    (((z.modNvm (fun n => { n with posEvt := 0xBC0020 })).nvPlace .evt (threeCopies [1])).isSome = true) ∧
    ((z.setReg A.NVMC_IMG_LOCK 1).slotLocked 0 = true ∧ z.slotLocked 1 = false ∧ wordAt [1] 0 % 2 = 1) ∧
    (z.nvm.reqs.any (fun r => r.src == sourceOf 2) = false ∧
      ((acc acLog { records := [([1], true)] }).sourceRecord .access).isSome = true) ∧
    ((z.modNvm (fun n => { n with reqs := [⟨.assay, 3, 1, [], 0⟩, ⟨.access, 5, 1, [], 0⟩, ⟨.lease, 2, 1, [], 0⟩, ⟨.keys, 0x20, 1, [], 0⟩] })).nvm.reqs.any
      (fun r => r.src == .lease) = true) ∧
    ((z.modNvm (fun n => { n with erasing := [0x800000] })).nvm.erasing = [0x800000]) ∧
    (z.fld F.SYSCTL_ADMIT_CAP_BYTES < (193 : Half).toNat % 4096 ∧ ¬ z.fld F.SYSCTL_ADMIT_CAP_BYTES < (192 : Half).toNat % 4096) := by
  and_intros <;> decide

theorem test_witness_Resets :
    (z.sys.sleep ≠ .asleep 3 ∧ (z.modSys (fun y => { y with sleep := .asleep 3 })).sys.sleep = .asleep 3) ∧ z.nvm.reqs = [] ∧ rcSoft ≠ rcShelf ∧
    z.mramBad.contains 0x800000 = false ∧ (z.modSys (fun y => { y with inReset := true })).sys.inReset = true ∧
    (z.modKeys (fun k => { k with lcPhase := .running 1 [] })).keys.lcPhase = .running 1 [] ∧
    ((z.modKeys (fun k => { k with lcPhase := .written })).keys.lcPhase = .written ∧
      (z.modKeys (fun k => { k with lcPhase := .written })).lcAnswering = false ∧ z.nvm.cur = none ∧ z.keys.cmd = none ∧ z.keys.lcPhase = .none) ∧
    ((z.modSys (fun y => { y with sleep := .entering 3 false })).sys.sleep = .entering 3 false ∧
      (z.modSys (fun y => { y with halted := true })).sys.halted = true ∧ rcSoft ≠ rcPor ∧ rcSoft ≠ rcPin ∧ z.alive = true) ∧
    ((z.setReg A.SYSCTL_CORE_CTRL 0x3F).reg A.SYSCTL_CORE_CTRL).getLsbD 5 = true ∧
    ((z.reg A.SYSCTL_CORE_CTRL).getLsbD 1 = false ∧ z.flag (F.WDT_CTRL_EN 1) = false ∧
      (forEach [0, 1, 2, 3] (z.setReg A.SYSCTL_CORE_CTRL (half (putBits (z.regN A.SYSCTL_CORE_CTRL) 1 1 1)))
        (fun s w => s.setReg (A.EVU_PEND 1 w) 0)).flag (F.WDT_CTRL_EN 1) = false) ∧
    ((z.modCore 0 (fun k => { k with wdStage := 2 })).cores[(0 : Fin 6)].wdStage = 2 ∧ z.cores[(0 : Fin 6)].anyHalted = false ∧
      (z.modCore 5 (fun k => { k with wdStage := 2 })).cores[(5 : Fin 6)].wdStage = 2) := by and_intros <;> decide

/-- A level request that waits. -/
def plp (t : Nat) : State := z.modSys (fun y => { y with plPend := some t })

theorem test_witness_PerformanceLevels :
    ((z.modSys (fun y => { y with plChange := some (2, false) })).sys.plChange.isSome = true ∧ z.sys.plChange = none ∧
      (0 : Fin 4).val = z.fld F.PMU_PL_CUR ∧ (3 : Fin 4).val ≠ z.fld F.PMU_PL_CUR) ∧
    ((plp 2).plWindow = true ∧ (plp 2).plumbMayStart = false ∧ (plp 2).fld F.SYSCTL_ADMIT_BYTES ≤ admissible 2 ∧
      (plp 2).lanesAbove (plLanes 2) = false) ∧
    (admissible 0 < ((plp 0).setFld F.SYSCTL_ADMIT_BYTES 193).fld F.SYSCTL_ADMIT_BYTES) ∧
    (((plp 0).setReg (A.COURSE_ACTIVE 126) 0x4000).lanesAbove (plLanes 0) = true) ∧
    ((((feOn .ism).setAc acWaitPlumb).modSys (fun y => { y with plPend := some 2 })).plWindow = true ∧
      (((feOn .ism).setAc acWaitPlumb).modSys (fun y => { y with plPend := some 2 })).plumbMayStart = true) ∧
    ((z.modSys (fun y => { y with plChange := some (3, true) })).sys.plChange = some (3, true)) := by and_intros <;> decide

/-- Asleep, or entering a sleep state, with the sources that may wake enabled. -/
def sleeping (p : SleepPhase) (risen : BitVec 9) : State := z.modSys (fun y => { y with sleep := p, risen := risen, wakeEn := 0x1FF })

theorem test_witness_SleepStates :
    (sleepState .sleepNap = some 1 ∧ z.sys.sleep = .awake ∧ z.sleepWhy = none ∧ run.sleepWhy = some 1) ∧
    ((sleeping (.entering 2 false) 0).sys.wakeEn.getLsbD 4 = true ∧ (sleeping (.asleep 1) 0).sys.wakeEn.getLsbD 8 = true ∧
      (sleeping (.asleep 2) 0).sys.wakeEn.getLsbD 0 = true ∧ z.sys.wakeEn.getLsbD 0 = false) ∧
    (((sleeping .awake 0).modSys (fun y => { y with inReset := true, cause := rcShelf })).sys.inReset = true ∧
      ((sleeping .awake 0).modSys (fun y => { y with inReset := true, cause := rcShelf })).sys.cause = rcShelf) ∧
    ((sleeping (.asleep 3) 0).sys.sleep = .asleep 3 ∧ (2 : Fin 9).val < 3) ∧
    ((sleeping (.entering 3 true) 0).sys.sleep = .entering 3 true ∧ (sleeping (.entering 1 true) 0).sys.sleep = .entering 1 true) ∧
    ((sleeping (.asleep 1) 0).sys.risen = 0 ∧ (sleeping (.asleep 1) 1).sys.risen ≠ 0) := by and_intros <;> decide

/-- DMA channel 0 started on 2 halfwords. -/
def dma (src dst : Nat) : State := (z.setFlag (F.DMA_CTRL_EN 0)).modSys (fun y => { y with dma := [(src, dst, 2), (0, 0, 0), (0, 0, 0), (0, 0, 0)] })

theorem test_witness_ClocksAndDma :
    ((6 : Half).getLsbD 2 = true ∧ (6 : Half).getLsbD 1 = true ∧ (z.setFlag F.SYSCTL_CLK_STATUS_XO_OK).flag F.SYSCTL_CLK_STATUS_XO_OK = true) ∧
    ((z.modSys (fun y => { y with xoRun := true, pllOn := true })).sys.xoRun = true ∧
      (z.modSys (fun y => { y with xoRun := true, pllOn := true })).sys.pllOn = true) ∧ (z.sys.sleep = .awake ∧ z.sys.inReset = false) ∧
    (z.flag (F.DMA_CTRL_EN 3) = false ∧ (dma 0x100000 0x200000).flag (F.DMA_CTRL_EN 0) = true ∧ (dma 0x100000 0x200000).dmaBad 0 = none ∧
      (dma 0x100000 0x200000).dmaChan 0 = (0x100000, 0x200000, 2)) ∧ (dma 0x100000 0x2FFFFE).dmaBad 0 = some 1 ∧
    (z.alive = true ∧ (z.modSys (fun y => { y with sleep := .asleep 2 })).alive = false ∧ z.sys.fwRun = false) := by and_intros <;> decide

/-- The Plinth domain with its mains detector and trim in some state. -/
def pli (p : Plinth) : State := z.modPlinth (fun _ => p)

theorem test_witness_PlinthInputs :
    (((pli { raw := 163, lastMains := some 0 }).capEdge 0x01 true).plinth.lastMains = some 0 ∧ 4 * z.mainsHz * (163 - 0) < 32768 ∧
      32768 ≤ 4 * z.mainsHz * (164 - 0)) ∧
    (((pli { raw := 655, lastMains := some 0 }).capEdge 0x01 true).plinth.powered = true ∧
      (pli { raw := 655, lastMains := some 0 }).fld F.PLINTH_CTRL_TSRC ≠ 2 ∧ 9 * 32768 ≤ 10 * z.mainsHz * 655 ∧ 10 * z.mainsHz * 655 ≤ 11 * 32768 ∧
      10 * z.mainsHz * 500 < 9 * 32768) ∧
    (((pli { raw := 655 }).setFld F.PLINTH_CTRL_TSRC 2).plinth.lastMains = none ∧
      ((pli { raw := 655 }).setFld F.PLINTH_CTRL_TSRC 2).fld F.PLINTH_CTRL_TSRC = 2 ∧ z.flag F.PLINTH_STATUS_LOM = false) ∧
    (((pli { lastMains := some 0 }).setFld F.PLINTH_MAINS_LOM_CYC 3).fld F.PLINTH_MAINS_LOM_CYC ≠ 0 ∧
      (pli { detect := true }).plinth.detect = true) ∧
    (((z.setFlag F.PLINTH_TAMP_EN0).setFld F.PLINTH_TAMP_EDGE0 1).flag F.PLINTH_TAMP_EN0 = true ∧
      (((z.setFlag F.PLINTH_TAMP_EN0).setFld F.PLINTH_TAMP_EDGE0 1).fld F.PLINTH_TAMP_EDGE0).testBit 0 = true) ∧
    (((z.setFlag F.PLINTH_TAMP_EN1).setFld F.PLINTH_TAMP_EDGE1 2).flag F.PLINTH_TAMP_EN1 = true ∧
      (((z.setFlag F.PLINTH_TAMP_EN1).setFld F.PLINTH_TAMP_EDGE1 2).fld F.PLINTH_TAMP_EDGE1).testBit 1 = true) ∧
    ((0x9600 : Half).toNat / 256 = 0x96 ∧ (0x96 : Half).toNat / 256 ≠ 0x96) := by and_intros <;> decide +kernel

theorem test_witness_HourShift :
    (z.flag F.PLINTH_STATUS_SHIFT_PEND = false ∧ (z.setFlag F.PLINTH_STATUS_SHIFT_PEND).flag F.PLINTH_STATUS_SHIFT_PEND = true) ∧
    (Master.vault (.core 0) = true ∧ reachesRegs (.core 0) = true ∧ (0xB401 : Half).toNat / 256 = 0xB4 ∧ (0xB401 : Half).toNat % 4 = 1 ∧
      (0xB402 : Half).toNat % 4 = 2 ∧ (0xB403 : Half).toNat % 4 = 3 ∧ (0xB400 : Half).toNat % 4 = 0) ∧
    ((z.setFlag F.PLINTH_STATUS_XO_LF_RUN).lfRuns = true ∧ z.plinth.shiftFwd = false ∧ z.rtc + (rtcStep z).1 < hourTicks ∧
      hourTicks ≤ (z.setReg A.RTC_1 1800).rtc + (rtcStep (z.setReg A.RTC_1 1800)).1) := by and_intros <;> decide +kernel

theorem test_witness_RealTimeClock :
    ((z.setFlag F.PLINTH_STATUS_XO_LF_RUN).lfRuns = true ∧ (z.setFlag F.PLINTH_STATUS_XO_LF_RUN false).lfRuns = false ∧
      z.flag F.PLINTH_STATUS_SHIFT_PEND = false) ∧
    (pli { winOpen := some 0 }).plinth.winOpen ≠ none ∧
    (((pli { raw := 32440, lastPps := some 0 }).capEdge 0x02 true).plinth.lastPps = some 0 ∧ (z.capEdge 0x02 true).plinth.powered = true ∧
      32440 ≤ ((pli { raw := 32440, lastPps := some 0 }).capEdge 0x02 true).plinth.raw - 0 ∧ (z.capEdge 0x02 true).plinth.lastPps = none ∧
      33096 < ((pli { raw := 33097, lastPps := some 0 }).capEdge 0x02 true).plinth.raw - 0) ∧
    ((pli { winOpen := some 0, closeAt := some 32768 }).plinth.winOpen = some 0 ∧
      (pli { winOpen := some 0, closeAt := some 32768 }).plinth.closeAt = some 32768 ∧
      (z.trimClose).plinth.winOpen = none ∧ ((pli { winOpen := some 0 }).trimClose).plinth.winOpen ≠ none ∧
      (0 : Nat) + 1 < 2 ^ (z.setFld F.PLINTH_CTRL_WIN 10).trimClose.fld F.PLINTH_CTRL_WIN) := by
  and_intros <;> decide +kernel

/-- TIMER channel 0 running with its compare and capture enabled. -/
def tmr : State := (z.setReg (A.TMR_CTRL 0) 0xFFFF).modSys (fun y => { y with xoRun := true })

theorem test_witness_TimerCommands :
    (tmr.flag (F.TMR_CTRL_RUN 0) = true ∧ tmr.flag (F.TMR_CTRL_CMP_EN 0) = true ∧ tmr.sys.xoRun = true ∧ tmr.tmrAdd 0 = 0 ∧
      ((tmr.setReg (A.TMR_ADD_LO 0) 1).commit [A.TMR_ADD_LO 0]).tmrAdd 0 ≠ 0) ∧
    (z.flag (F.TMR_CTRL_RUN 7) = false ∧ tmr.flag (F.TMR_CTRL_CAP_EN 0) = true ∧ tmr.fld (F.TMR_CTRL_CAPSEL 0) ≠ 0 ∧
      tmr.fld (F.TMR_CTRL_CAPSEL 0) ≠ 3 ∧ tmr.fld (F.TMR_CTRL_CAPSEL 0) ≠ 4 ∧ (tmr.fld (F.TMR_CTRL_EDGE 0)).testBit 0 = true ∧
      (z.fld (F.TMR_CTRL_EDGE 0)).testBit 1 = false ∧ (tmr.modTimer 0 (fun t => { t with late := true })).timers[(0 : Fin 8)].late = true ∧
      tmr.timers[(0 : Fin 8)].held = none) := by and_intros <;> decide

/-! ## Witnesses: host interface and Adsin -/

/-- HOSTIF live with its areas at 0x100000 and 0x101000, and one message of 4 words queued at 0x102000. -/
def hif : State := ((((z.setReg A.HOSTIF_IN_BASE_HI 0x10).setReg A.HOSTIF_OQ_BASE_LO 0x1000).setReg A.HOSTIF_OQ_BASE_HI 0x10).commit
  [A.HOSTIF_IN_BASE_HI, A.HOSTIF_OQ_BASE_LO, A.HOSTIF_OQ_BASE_HI])
def hifOn : State := (hif.latch [A.HOSTIF_IN_BASE_LO, A.HOSTIF_IN_BASE_HI, A.HOSTIF_OQ_BASE_LO, A.HOSTIF_OQ_BASE_HI]).setFlag F.HOSTIF_CTRL_EN

/-- The state after a chip select that HOSTIF sees. -/
def sel (s : State) : State := (if s.sys.vio = true then s.wakeRise 4 else s).drive []

theorem test_witness_QuadSpi :
    ((sel z).hostifLive = false ∧ (sel hifOn).hostifLive = true ∧
      (sel (hifOn.setFlag F.HOSTIF_STATUS_IN_FULL)).flag F.HOSTIF_STATUS_IN_FULL = true ∧
      (sel hifOn).flag F.HOSTIF_STATUS_IN_FULL = false) ∧
    (wordAt [3, 0, 0] 0 % 2048 < 4 ∧ 1088 < wordAt [1089] 0 % 2048 ∧ 4 ≤ wordAt [4, 0, 0, 0] 0 % 2048 ∧
      [(4 : Half), 0, 0, 0].length = wordAt [4, 0, 0, 0] 0 % 2048) ∧
    ((hifOn.setReg A.HOSTIF_OQ_WR 1).hrdy = true ∧ (hifOn.setReg A.HOSTIF_OQ_WR 1).oqCount ≠ 0 ∧ hifOn.sys.shown = false) ∧
    (16 < ((17 : Half).toNat % 32 + 32 - z.fld F.HOSTIF_OQ_RD_INDEX) % 32 ∧
      ((16 : Half).toNat % 32 + 32 - z.fld F.HOSTIF_OQ_RD_INDEX) % 32 ≤ 16) ∧
    (z.flag F.HOSTIF_CTRL_EN = false ∧ (hif.plainWrite A.HOSTIF_CTRL 1).hostifCfgOk = true ∧
      (z.plainWrite A.HOSTIF_CTRL 1).hostifCfgOk = false) := by and_intros <;> decide

/-- Firmware running with version 2.4 agreed on the Quad-SPI channel. -/
def hst : State := (z.modSys (fun y => { y with fwRun := true })).modChan 0 (fun c => { c with version := some 0x0204 })

/-- UART0 enabled. -/
def urt (u : Uart) : State := (z.setFlag F.UART0_CTRL_EN).modUart (fun _ => u)

/-- A frame of the shortest message with its CRC. -/
def frame : List Byte := [0, 4, 0, 1, 0, 0, 0, 0] ++ beOctets 2 (crc16 0xFFFF [0, 4, 0, 1, 0, 0, 0, 0])

theorem test_frame_crc : beNat (frame.drop (2 * 4)) = crc16 0xFFFF (frame.take (2 * 4)) := by decide +kernel

theorem test_witness_UartAndChannels :
    ((urt {}).uartLive = true ∧ beNat (slice frame 0 2) = 4 ∧ frame.length = 2 * 4 + 2) ∧
    ((urt { inFrame := true }).uart.inFrame = true ∧ (urt {}).uart.inFrame = false ∧ (urt { tx := List.replicate 63 0 }).uart.tx.length < 64 ∧
      64 ≤ (urt { tx := List.replicate 64 0 }).uart.tx.length) ∧
    ((urt { rx := [1] }).uart.rx = [1] ∧ z.uart.rx = [] ∧ z.uartLive = false ∧ 64 ≤ (urt { rx := List.replicate 64 0 }).uart.rx.length ∧
      (((urt {}).setFlag F.UART0_CTRL_RXIE).wakeRise 5).flag F.UART0_CTRL_RXIE = true ∧ ((urt {}).wakeRise 5).uart.rx = [] ∧
      64 ≤ ((urt { rx := List.replicate 64 0 }).wakeRise 5).uart.rx.length ∧ ((urt { rx := [1] }).wakeRise 5).uart.rx.length < 64) ∧
    (beNat (slice ([0] ++ [(3 : Byte)]) 0 2) % 2048 < 4 ∧ 1088 < beNat (slice ([4] ++ [(0x41 : Byte)]) 0 2) % 2048 ∧
      2 < ([0, 4] ++ [(0 : Byte)]).length ∧ ([0, 4] ++ [(0 : Byte)]).length ≠ 2 * (beNat (slice ([0, 4] ++ [(0 : Byte)]) 0 2) % 2048) + 2 ∧
      (frame.take 9 ++ frame.drop 9).length = 2 * (beNat (slice frame 0 2) % 2048) + 2) ∧
    ((z.setFlag (F.MB_STATUS_OVF 0)).flag (F.MB_STATUS_OVF 0) = true ∧ z.chanBad 2 = false ∧
      { z with mbox := vset z.mbox 0 [3] }.adsin.chans[(2 : Fin 6)].part = [] ∧
      { z with mbox := vset z.mbox 0 [3] }.mbox.toList.getD 0 [] = [3] ∧ (3 : Half).toNat % 2048 < 4 ∧
      { hst with mbox := vset hst.mbox 0 [3] }.chanBad 2 = true ∧ hst.sys.fwRun = true ∧ hst.alive = true) := by and_intros <;> decide

/-- A header of a request. -/
def hd : AdsinHdr := ⟨0, 0, 0, 1, 0⟩

theorem test_witness_AdsinRequestOrder :
    z.adsinUp 0 = false ∧ hst.adsinUp 0 = true ∧ hst.adsinCheck 0 hd 12 1 [] = some stBadClass ∧
    (hst.modChan 0 (fun c => { c with outstanding := List.replicate 8 { cls := 0, cmd := 2, seq := 0 } })).adsinCheck 0 hd 0 2 [] = some stBusy ∧
    hst.adsinCheck 0 hd 0 2 [] = none ∧
    ((hst.modChan 0 (fun c => { c with outstanding := [{ cls := 6, cmd := 4, seq := 0, held := some [0] }] })).adsin.chans[(0 : Fin 6)].outstanding.any
      (·.held.isSome) = true) ∧ (hst.modUpdate (fun u => { u with hand := .go 1 })).cutover = true ∧ ({ hd with kind := 1 } : AdsinHdr).kind ≠ 0 ∧ hd.kind = 0 ∧ hd.res0 = 0 ∧ hd.res1 = 0 ∧
    hd.w3.toNat % 256 = 0 ∧ z.adsin.chans[(0 : Fin 6)].version = none := by and_intros <;> decide

/-- Requests that the channel takes and acts on at once. -/
def takes (l : List (Nat × Nat × List Half)) : Bool :=
  l.all (fun q => hst.adsinUp 0 && hst.adsinCheck 0 hd q.1 q.2.1 q.2.2 == none && !hst.cutover && !hst.adsin.chans[(0 : Fin 6)].outstanding.any (·.held.isSome))

theorem test_takes (l : List (Nat × Nat × List Half)) (h : takes l = true) : ∀ q ∈ l, Taken hst 0 hd q.1 q.2.1 q.2.2 := by
  intro q hq
  have := List.all_eq_true.mp h q hq
  simp only [Bool.and_eq_true, beq_iff_eq, Bool.not_eq_true'] at this
  exact ⟨this.1.1.1, this.1.1.2, this.1.2, this.2⟩

/-- MRAM with a first configuration segment that holds a boot record, one copy of each. -/
def bootsAs (r : BootRec) (s : State) : State :=
  let b := (Region.cfg.segments).headD 0
  (s.nvPut b (copyWords 1 1 [0, 0] 0)).nvPut (b + 10) (copyWords 3 1 r.payload 1)

/-- The same with slot A confirmed. -/
def boots (s : State) : State := bootsAs { conf := 1 } s

theorem test_boot_record : (counted (boots hst) 0).bootRec.conf = 1 ∧ (counted hst 0).bootRec.conf = 0 := by decide +kernel

theorem test_boot_record2 : (boots hst).adsinUp 0 = true ∧
    (boots hst).adsinCheck 0 hd 0 3 [] = none := by decide +kernel

theorem test_witness_AdsinSystemClasses :
    (takes [(0, 1, [0x0200, 0x0204]), (0, 2, []), (0, 3, []), (0, 4, List.replicate 12 0), (0, 5, [0x5A3C]), (0, 6, []),
      (1, 1, [3]), (1, 2, []), (1, 3, [1, 0, 0, 0]), (1, 4, [0]), (2, 1, []), (2, 2, [0, 0, 0]), (2, 3, [1]), (2, 4, [0x0400, 0]),
      (2, 5, [0, 0, 0, 0])] = true) ∧
    (max (wordAt [0x0200, 0x0204] 0) 0x0200 ≤ 0x0204 ∧ ¬(max (wordAt [0x0205, 0x0205] 0) 0x0200 ≤ 0x0204)) ∧
    ((counted hst 0).sys.plChange = none ∧ wordAt [3] 0 ≠ (counted hst 0).fld F.PMU_PL_CUR ∧ (counted hst 0).sleepWhy = none) ∧
    (regFits A.PMU_WAKE_EN 0 = true ∧ regFits A.PLINTH_MAINS 0 = true ∧ regFits A.PLINTH_CTRL 0x0400 = true ∧ (0x0400 : Half) &&& 0x80FF = 0) := by and_intros <;> decide

theorem test_witness_AdsinRadioClasses :
    (takes [(3, 1, List.replicate 7 0), (3, 2, [0, 1]), (3, 3, [0, 7]), (3, 4, [0xFFFF, 0, 0]), (3, 5, [0, 0, 0, 0, 0, 0, 1, 0]),
      (3, 6, [63]), (3, 7, [0, 0, 0, 0]), (3, 8, [0, 0, 1])] = true ∧
      takes [(4, 1, List.replicate 8 0), (4, 2, List.replicate 6 0), (4, 3, []), (4, 4, [1, 0, 0, 0]), (4, 5, [3, 1, 0, 0, 0, 0]),
      (4, 6, List.replicate 5 0), (5, 1, List.replicate 4 0), (5, 2, [0, 0]), (5, 3, List.replicate 9 0), (5, 4, []), (5, 5, [0xFFFF]),
      (5, 5, [0xFFF])] = true) ∧
    (bandAt [0] = some .sub ∧ bandAt [1] = some .ism ∧ regFits (A.RFE_CAL_CMD .sub) 7 = true ∧
      allFit [(A.RFE_CTRL .sub, 0), (A.RFE_SPAN .sub, 7700), (A.RFE_GAIN .sub, 0), (A.RFE_AGC_TOP .sub, 0), (A.RFE_TX_TOTAL .sub, 0),
        (A.RFE_TX_NMAX .sub, 1)] = true) ∧
    ((counted hst 0).sendBad 0 [0x0010, 0, 0] = false ∧ ((counted hst 0).sendPlace 0).isSome = true) ∧
    (allFit ([A.REC_SRC, A.REC_TRIG, A.REC_PRE, A.REC_POST].zip [0, 0, 0, 1]) = true ∧ (counted hst 0).effFld F.REC_SRC_EXT ≠ 1) ∧
    allFit ([A.COURSE_CFG, A.COURSE_WALL, A.COURSE_T_CCAOFS, A.COURSE_T_CCA, A.COURSE_T_TXOFS, A.COURSE_T_IDLE, A.COURSE_T_GUARD,
      A.COURSE_CCA_THR].zip [1, 0x65, 0x708, 0x80, 0x848, 0x20D0, 0x64, 0x5555]) = true ∧
    ((counted hst 0).awaited .planCheck = false ∧ (counted hst 0).flag F.ASHLAR_STATUS_CMD_BUSY = false) ∧
    allFit ([A.ASHLAR_TSEL, A.ASHLAR_TCFG, A.ASHLAR_TQUOTA, A.ASHLAR_TRATE].zip [0xFFF, 0x10, 0, 0]) = true := by and_intros <;> decide

theorem test_witness_AdsinKeyClass :
    (takes [(6, 1, List.replicate 60 0), (6, 2, List.replicate 6 0), (6, 3, List.replicate 5 0), (6, 4, [63]), (6, 5, [0, 0]),
      (6, 6, [0]), (6, 7, [0]), (6, 8, []), (6, 9, []), (6, 10, List.replicate 33 0), (6, 11, List.replicate 12 0)] = true) ∧
    ((cipherDesc (List.replicate 12 0)).req = 0 ∧ (cipherDesc (List.replicate 12 0)).len + (cipherDesc (List.replicate 12 0)).alen + 16 ≤ 2048) ∧
    (
      (cry 1 aes).ringRoom = true ∧ (counted hst 0).ringRoom = false) ∧
    ((counted hst 0).flag F.KEYS_STATUS_BUSY = false ∧ (z.setFlag F.KEYS_STATUS_BUSY).flag F.KEYS_STATUS_BUSY = true) := by and_intros <;> decide

theorem test_witness_AdsinServiceClasses :
    (takes [(7, 1, List.replicate 14 0), (7, 2, [0, 0, 0]), (7, 2, [1, 0, 0]), (7, 3, [0, 0]), (7, 4, []), (7, 5, [0]), (7, 6, [0]),
      (8, 1, List.replicate 14 0), (8, 3, []), (8, 4, []), (8, 5, [0, 1]), (8, 7, [0, 1]), (9, 2, [1, 0, 0, 0, 0, 0, 0]),
      (9, 3, [1])] = true ∧
      (hst.modFabric (fun f => { f with st := 3 })).adsinCheck 0 hd 8 6 [0, 0] = none ∧
      (hst.modFabric (fun f => { f with cfg := List.replicate 14 0 })).adsinCheck 0 hd 8 2 [] = none ∧
      (hst.setFlag F.ASSAY_CTRL_EN).adsinCheck 0 hd 9 1 [1, 0] = none) ∧
    (allFit [(A.ACCESS_TOK_N, 256), (A.ACCESS_REV_N, 1024)] = true ∧ (counted hst 0).flag F.ACCESS_STATUS_TBL_BUSY = false) ∧
    (regFits A.LF_CMD 0 = true ∧ regFits A.LF_CMD 1 = true ∧ (counted hst 0).access.tuning = 0 ∧ (counted hst 0).access.tuneReq = 0 ∧
      regFits A.PLUMB_CAL_BOARD 0 = true) ∧
    fabricFits [0, 1, 0, 0, 16, 60, 0, 3, 0, 0xFFFE, 0, 3, 0, 255] = true ∧
    ((counted hst 0).fabric.queue.length < 64 ∧
      64 ≤ ((counted hst 0).modFabric (fun f => { f with queue := List.replicate 64 { typ := 4, hop := 7, payload := [], host := none } })).fabric.queue.length ∧ (counted hst 0).assay.queue.length < 8 ∧ sliceBudget 1 ≠ none) := by and_intros <;> decide

theorem test_witness_AdsinUpdateClasses :
    (takes [(10, 1, [0, 10]), (10, 4, [1]), (10, 5, []), (10, 6, []), (11, 1, [0, 0, 0, 1]), (11, 2, [0x8000])] = true) ∧
    ((counted hst 0).flag F.NVMC_STATUS_BUSY = false ∧ wordAt [0, 10] 0 + 65536 * wordAt [0, 10] 1 ≤ 655360 ∧
      (counted hst 0).bootRec.conf = 0 ∧ (counted hst 0).bootRec.prev ≠ 1) ∧
    ((hst.modUpdate (fun u => { u with slots := #v[1, 0], imgWords := 4 })).adsinCheck 0 hd 10 2 [0, 0, 7] = none ∧
      0 + ([(0 : Half), 0, 7].drop 2).length ≤ (hst.modUpdate (fun u => { u with slots := #v[1, 0], imgWords := 4 })).update.imgWords ∧
      (hst.modUpdate (fun u => { u with slots := #v[1, 0] })).adsinCheck 0 hd 10 3 [] = none) ∧
    ((hst.modUpdate (fun u => { u with slots := #v[1, 0] })).update.hand = .none ∧
      [0, 1].find? (fun i => (hst.modUpdate (fun u => { u with slots := #v[1, 0] })).slotState i = ssStaging ∨
        (hst.modUpdate (fun u => { u with slots := #v[1, 0] })).slotState i = ssVerified) = some 0 ∧
      [0, 1].find? (fun i => (hst.modUpdate (fun u => { u with slots := #v[0, 3] })).slotState i = ssPending ∨
        (hst.modUpdate (fun u => { u with slots := #v[0, 3] })).slotState i = ssRunning) = some 1) := by and_intros <;> decide

/-! ## Witnesses: ASSAY, update, TROWEL, pins -/

/-- ASSAY enabled with a queue and a running slice, the life cycle in DEPLOYED or another state. -/
def asy (lc : Nat) (a : Assay) : State :=
  ((((z.setFlag F.ASSAY_CTRL_EN).setFld F.ID_LIFECYCLE_STATE lc).setFld F.PMU_PL_CUR 2).setFlag F.SYSCTL_CLK_SRC).modAssay (fun _ => a)

theorem test_witness_AssayRequests :
    (sliceCode (.sliceAes 3) = some (slAes, 3) ∧ (asy 2 {}).flag F.ASSAY_CTRL_EN = true ∧ (asy 2 {}).assay.queue.length < 8 ∧
      8 ≤ (asy 2 { queue := List.replicate 8 (⟨1, 0⟩, 0) }).assay.queue.length) ∧
    ((asy 2 { queue := [(⟨1, 0⟩, 256)] }).assay.queue = [(⟨1, 0⟩, 256)] ∧ (asy 2 {}).assay.running = none ∧ (asy 2 {}).assay.checked = false ∧
      (asy 2 { checked := true }).assay.checked = true) ∧
    (sliceAdmitted (asy 2 {}).lcState slLane = true ∧ sliceAdmitted (asy 2 {}).lcState slLaneModes = false ∧
      (z.setFld F.PMU_PL_CUR 1).fld F.PMU_PL_CUR < 2 ∧ 2 ≤ (asy 2 {}).fld F.PMU_PL_CUR ∧ (asy 2 {}).flag F.SYSCTL_CLK_SRC = true ∧
      (asy 2 {}).badTarget ⟨slAes, 4⟩ = true ∧ (asy 2 {}).badTarget ⟨slAes, 3⟩ = false) ∧
    ((asy 2 { running := some ⟨1, 0⟩ }).assay.running = some ⟨1, 0⟩) ∧
    (({ mask := [1], period := 1 } : Sched).period ≠ 0 ∧ ({ mask := [1], period := 1 } : Sched).next.isSome = true) := by and_intros <;> decide

theorem test_witness_SliceRuns :
    ((asy 2 { queue := [(⟨slAes, 0⟩, 0)], checked := true }).sliceMayStart ⟨slAes, 0⟩ = true) ∧
    ((asy 2 { running := some ⟨slAes, 0⟩ }).assay.isolated = false ∧ (asy 2 { running := some ⟨slAes, 0⟩, isolated := true }).assay.isolated = true ∧
      sliceBudget slAes = some 80 ∧ z.hft ≤ z.assay.tAs + 48 * 80 ∧ z.assay.tAs + 48 * 80 < ({ z with hft := 3841 } : State).hft) ∧
    (z.slicePass ⟨slAes, 0⟩ true [] = true ∧ z.slicePass ⟨slLf, 0⟩ true [101] = false ∧ z.slicePass ⟨slLf, 0⟩ true [-100] = true ∧
      z.slicePass ⟨slAdcRef, 0⟩ true [50] = true ∧ z.slicePass ⟨slAdcRef, 0⟩ true [-51] = false ∧ z.slicePass ⟨slIqLoop, 0⟩ true [5800] = true ∧
      z.slicePass ⟨slIqLoop, 0⟩ true [5799] = false ∧ z.slicePass ⟨slTxLoop, 0⟩ true [] = false ∧ slAes ≠ slLf ∧ slAes ≠ slAdcRef ∧
      slAes ≠ slIqLoop ∧ slAes ≠ slTxLoop) ∧
    (isLaneSlice slLane = true ∧ isLaneSlice slAes = false ∧ (z.markFailed (z.fld (F.LANE_PHYS_PHYS 0))).freeSpare = some 64 ∧
      (((z.setReg (A.LANE_PHYS 1) 0x4040).setReg (A.LANE_PHYS 2) 0x4041).markFailed 0).freeSpare = none) ∧
    ((z.setFld F.ID_CAPS1_AES_ACTIVE 1).fld F.ID_CAPS1_AES_ACTIVE ≤ 1 ∧ 2 ≤ z.fld F.ID_CAPS1_AES_ACTIVE) := by and_intros <;> decide

/-- A handover in a phase. -/
def hnd (h : Hand) : State := z.modUpdate (fun u => { u with hand := h })

theorem test_witness_Handover :
    ((hnd (.starting 2 24)).update.hand = .starting 2 24 ∧ (hnd (.starting 2 24)).hft ≤ 24 ∧ 24 < ({ hnd (.starting 2 24) with hft := 25 } : State).hft ∧
      (hnd (.ready 2)).update.hand = .ready 2 ∧ (hnd (.block 2 24)).update.hand = .block 2 24 ∧
      (hnd (.accepted 2)).update.hand = .accepted 2 ∧ (hnd (.go 2)).update.hand = .go 2 ∧ (hnd (.go 2)).cutover = true) ∧
    (∃ s : State, s = (((hnd (.ready 2)).setFlag F.COURSE_STATUS_IW_OPEN).setFlag F.COURSE_STATUS_COMMIT_PEND).modCourse
        (fun c => { c with nextCt := 480000 }) ∧ s.flag F.COURSE_STATUS_IW_OPEN = true ∧ 600 ≤ s.iwRemain ∧
      s.flag F.COURSE_STATUS_COMMIT_PEND = true ∧ s.flag F.NVMC_STATUS_BUSY = false ∧ s.flag F.KEYS_STATUS_BUSY = false ∧
      s.flag F.PKE_STATUS_BUSY = false) ∧
    ((hnd (.ready 2)).flag F.COURSE_STATUS_COMMIT_PEND = false ∧ (((hnd (.block 2 24)).setSramHalf 0x2FF006 1).passTo 24).sramHalf 0x2FF006 = 1 ∧
      ((hnd (.block 2 24)).passTo 24).sramHalf 0x2FF006 ≠ 1 ∧ (z.manifest 0).appHashes = (z.manifest 1).appHashes) := by
  refine ⟨by and_intros <;> decide, ⟨_, rfl, ?_⟩, by and_intros <;> decide⟩
  and_intros <;> decide

/-- One copy of an entry of the KEYS stores, of one word. -/
def stored (s : State) (e n : Nat) : State := s.nvPut (storeAt e) (copyWords (storeType e) 1 [half n] 0)

/-- KEYS is READY with a life-cycle state in its store, and a cause of the last reset. -/
def keyed (lc cause : Nat) : State :=
  (stored ((z.setFlag F.KEYS_STATUS_READY).setFlag F.TRNG_STATUS_READY) stLife lc).modSys (fun y => { y with cause := cause })

/-- The boot record of slot 0 confirmed, a manifest there of one part, and a resume record that names its first word. -/
def resumed : State :=
  let img := List.replicate 5 0 ++ [1] ++ List.replicate 82 0xFF ++ [1, 0, 0, 0] ++ beOctets 4 264 ++ beOctets 4 1024
  let a := (slotPlace 0).1 + 264
  let w : List Half := [0xC5E1, half a, half (a / 65536)]
  (((boots (keyed 1 rcShelf)).mramPut (slotPlace 0).1 img).setFld F.ID_LIFECYCLE_STATE 1).setSramWords 0x2FFFF8 (w ++ [half (crc16 0xFFFF (crcOctets w))])

theorem test_resume_point : (resumed.loadRepair.loadCal none).resumePoint = some (1, (slotPlace 0).1 + 264) := by decide +kernel

theorem test_resumed : resumed.storeLc = 1 ∧ resumed.storeIntent = none ∧ resumed.alive = true ∧ resumed.sys.fwRun = false ∧
    resumed.sys.recovery = false ∧ resumed.flag F.KEYS_STATUS_READY = true ∧ (resumed.loadRepair.loadCal none).sys.cause = rcShelf := by
  decide +kernel

/-- The clauses on a set that passes its checks have no concrete witness: its signature stands under the image key, an opaque
constant of Config. -/
theorem test_witness_BootAndMigration :
    ((z.modSys (fun y => { y with fwRun := true })).sys.fwRun = true ∧ z.sys.inReset = false ∧ z.sys.fwRun = false ∧ z.sys.recovery = false) ∧
    (z.alive = true ∧ (keyed 4 0).storeLc = 4 ∧ (keyed 0 0).storeLc = 0 ∧ (keyed 1 0).storeLc = 1 ∧ (keyed 1 0).storeIntent = none ∧
      ((keyed 1 0).loadRepair.loadCal none).sys.cause ≠ rcShelf) ∧
    ((stored (keyed 1 0) stIntent 3).storeIntent = some 3 ∧ (stored (keyed 1 0) stIntent 3).storeLc = 1 ∧
      (stored (keyed 1 0) stIntent 2).storeIntent = some 2 ∧ (keyed 1 0).drbgReady = true ∧
      ((keyed 1 0).setFlag F.TRNG_STATUS_READY false).drbgReady = false) ∧
    z.ownerRecord = false ∧
    (((keyed 1 rcShelf).loadRepair.loadCal none).sys.cause = rcShelf ∧ ((keyed 1 rcShelf).loadRepair.loadCal none).resumePoint = none) ∧
    ((z.bootRec.conf = 0 ∧ z.bootRec.prev = 0) ∧ z.slotState (z.update.runs - 1) ≠ ssConfirmed ∧ z.nvmcTaken = false) := by
  and_intros <;> decide +kernel

/-- A boot record with a slot pending and one with a previous slot, neither of which holds a set. -/
def bootPend : State := (bootsAs { conf := 1, pend := 2 } z).bootRecNote
def bootPrev : State := (bootsAs { conf := 1, prev := 2 } z).bootRecNote

/-- Firmware of slot A, confirmed, and a record that waits. -/
def confirmed : State := (hst.setSlotState 1 ssConfirmed).modUpdate (fun u => { u with runs := 1 })

theorem test_witness_BootAndMigration_record :
    (z.bootRecNote.bootRec.pend = 0 ∧ bootPend.bootRec.pend = 2) ∧ (bootPend.candRead 2 true).setCheck 1 true ≠ upOk ∧
    (bootPrev.bootRec.conf = 1 ∧ bootPrev.bootRec.prev = 2) ∧ (bootPrev.candRead 1 false).cand 1 false = false ∧
    (((bootPrev.candRead 1 false).setSlotState 1 ssFailed).candRead 2 false).cand 2 false = false := by decide +kernel

theorem test_witness_BootAndMigration_migrate :
    (confirmed.sys.fwRun = true ∧ confirmed.slotState (confirmed.update.runs - 1) = ssConfirmed ∧ confirmed.nvmcTaken = false) ∧
    (z.modUpdate (fun u => { u with jobs := [⟨1, [1], .nothing⟩] })).nvmcTaken = true := by decide +kernel

/-- TROWEL in a device of a life-cycle state, its address register set. -/
def twl (lc : Nat) (a : Ptr) : State := (z.setFld F.ID_LIFECYCLE_STATE lc).modDebug (fun d => { d with addr := a })

theorem test_witness_TrowelPort :
    ((twl 0 0).twOn = true ∧ (twl 2 0).twLevel < 1 ∧ (twl 1 0).twLevel = 1 ∧ (twl 3 0).twLevel = 2 ∧
      ((twl 0 0).modDebug (fun d => { d with scan := true })).twOn = false) ∧
    ((0x100001 : BitVec 24).toNat % 2 = 1 ∧ (twl 0 0x100000).twWindow 0x100000 = true ∧ (twl 1 0x100000).twWindow 0x100000 = false ∧
      (twl 0 0x100000).twLocal 0 0x100000 = some 0 ∧ ((twl 0 0x100000).busRead (.trowel true) 0 0x100000 2).1 = .value 0 ∧
      ((twl 1 0xE00000).busRead (.trowel false) 0 0xE00000 2).1 = .refused ∧ (twl 1 0xE00000).twWindow 0xE00000 = true) ∧
    (admitted (.trowel true) 0x100000 2 true = true ∧ ((twl 0 0x100000).busWrite (.trowel true) 0 0x100000 2 5).isSome = true ∧
      admitted (.trowel false) 0xE00000 2 true = false) := by and_intros <;> decide

/-- Thread 0 of application core 2 with its halt, and what is selected. -/
def tt (f : Thread → Thread) : State := z.modThr 2 0 f

theorem test_witness_TrowelThreads :
    (z.twOn = true ∧ z.twLevel = 2 ∧ (z.thr 0 0).halted = false ∧ (z.thr 0 0).st = .run ∧ (z.thr 2 0).st ≠ .run) ∧
    (((tt (fun t => { t with halted := true })).thr 2 0).halted = true ∧ ((tt (fun t => { t with haltReq := true })).thr 2 0).haltReq = true ∧
      ((tt (fun t => { t with haltReq := true })).thr 2 0).slot = none ∧ ((tt (fun t => { t with st := .ready })).thr 2 0).st ≠ .dead ∧
      ((tt (fun t => { t with st := .ready })).thr 2 0).st ≠ .wait) ∧
    (selOf 0x00 = some (.d 0) ∧ selOf 0x0F = some (.d 15) ∧ selOf 0x10 = some (.p 0) ∧ selOf 0x17 = some (.p 7) ∧ selOf 0x18 = some .lr ∧
      selOf 0x19 = some .pc ∧ selOf 0x20 = some (.cr 0) ∧ selOf 0x29 = some (.cr 9) ∧ selOf 0x1A = none ∧ selOf 0x2A = none ∧
      selOf 0x40 = some (.cr 0x20) ∧ selOf 0x5F = some (.cr 0x3F) ∧ selOf 0x60 = none) ∧
    (z.twReadOnly 2 0 0 0x1000 = false ∧ z.twReadOnly 2 0 0x20 0 = true ∧ z.twReadOnly 2 0 0x2F 0 = true ∧ z.twReadOnly 2 0 0x30 0 = false ∧
      (15 : Byte).toNat < 16 ∧ 16 ≤ (16 : Byte).toNat) ∧
    (cpu.cpuThread 0 = some 0 ∧ cpu.bkMatch 0 0 false = none ∧
      (cpu.modCore 0 (fun k => { k with bkpt := #v[(0x100000, true), (0, false), (0, false), (0, false)] })).bkMatch 0 0 false = some 0) := by
  and_intros <;> decide

theorem test_witness_PinsAndBoundaryScan :
    (z.sys.vio = true ∧ z.sys.inReset = false ∧ z.sys.halted = false ∧ z.sys.sleep = .awake ∧ z.gpioLevels = 0) ∧
    ((half ((z.modDebug (fun d => { d with balls := 1 })).gpioLevels).toNat &&& ~~~ half (0 : BitVec 32).toNat &&&
      (z.setReg (A.GPIO_EDGE_R 0) 1).reg (A.GPIO_EDGE_R 0)) = 1) ∧
    (∀ (k : Fin 8) src, z.capOn k src = false ∧ z.tmrSettle k = z) ∧
    ((z.modDebug (fun d => { d with scan := true })).dbg.scan = true ∧ z.dbg.scan = false) := by
  refine ⟨by and_intros <;> decide, by decide, fun k src => ⟨?_, ?_⟩, by and_intros <;> decide⟩
  · have h : z.flag (F.TMR_CTRL_CAP_EN k.val) = false := by revert k; decide
    simp [State.capOn, h]
  · revert k; decide
/-! ## Witnesses: further clauses -/

theorem test_witness_RegisterCommands_faults :
    (z.cpuThread 2 = none ∧ z.accessFault (.core 2) 0x100000 true = some (exDataMpu, some 0x100000) ∧
      z.accessFault (.core 2) 0x100000 false = some (exDataMpu, some 0x100000) ∧ z.accessFault (.core 2) 0xE20000 true = none ∧
      z.accessFault .dma 0x100000 true = none) ∧
    (z.cpuThread 0 = some 0 ∧ z.accessFault (.core 0) 0x100000 true = none ∧ z.accessFault (.core 0) 0xE03000 true = none ∧
      z.accessFault (.core 0) 0xF00000 false = none ∧ z.accessFault (.core 5) 0xFF0000 false = none ∧
      z.accessFault (.core 0) 0xE02000 false = none) ∧
    (∀ c : Fin 6, Master.dma ≠ .core c) := by
  refine ⟨by and_intros <;> decide, by and_intros <;> decide, fun c => Master.noConfusion⟩

theorem test_witness_CourseClock_first :
    ((run.modCourse (fun c => { c with first := true, sel := some false })).course.sel.getD (run.flag F.COURSE_STATUS_COMMIT_PEND) = false ∧
      (run.modCourse (fun c => { c with first := true, sel := some false })).course.first = true) ∧ z.running = false ∧
    ((run.modCourse (fun c => { c with first := true })).running = true ∧ (4 : Fin 9) ≠ 3) := by decide

theorem test_witness_RecorderStates_more :
    ((z.setFld F.REC_STATUS_STATE recArmed).recConfigOk = true ∧
      (((z.setReg A.REC_PRE 0x8000).setReg A.REC_POST 1).setFld F.REC_STATUS_STATE recArmed).recConfigOk = false) ∧
    ((recOn.modRec (fun r => { r with post := 0, fifo := List.replicate 16 (0, 0) })).radio.recd.fifo.length = 16 ∧
      (recOn.modRec (fun r => { r with fifo := [] })).radio.recd.fifo.length < 16) := by and_intros <;> decide

/-- A 50 kbit/s lane in SEARCH, with and without a tone that its notch follows. -/
def searching (t : Option Int) : State := (z.setLaneState 0 laneSearch).modLane 0 (fun l => { l with notch := t })

theorem test_witness_LaneReceptionStates_notch :
    ((searching none).laneState 0 = laneSearch ∧ (searching none).effFld (F.LANE_CTRL_BYP_ACF 0) = 0 ∧ ((searching none).lane 0).notch = none ∧
      (modeOf ((searching none).laneMode 0)).isSome = true) ∧
    ((searching (some 40)).laneState 0 = laneSearch ∧ ((searching (some 40)).lane 0).notch.isSome = true) ∧
    (((z.setReg (A.LANE_CTRL 0) 0xFFFF).commit [A.LANE_CTRL 0]).effFld (F.LANE_CTRL_BYP_ACF 0) = 1) := by and_intros <;> decide

theorem test_witness_FabricLinksAndTime_root :
    ((fab { st := 3, cfg := [1] }).fabric.isRoot = true ∧ (fab { st := 3, cfg := [1], asked := none }).fabric.st = 3) ∧
    ((fab { st := 2, parent := some 7, nbrs := [nb] }).fabric.parent.bind (fab { st := 2, parent := some 7, nbrs := [nb] }).fabric.nbr = some nb) ∧
    ((fab { st := 3, offsets := List.replicate 4 (1, 0), prevMean := some (0, 0), parent := some 7, nbrs := [nb] }).fabric.prevMean =
        some (0, 0) ∧ 4 ≤ (List.replicate 4 ((1 : Int), 0)).length) ∧
    (∀ p a e, ({ typ := 5, hop := 7, payload := [], host := none } : Fmsg).stage ≠ .placed p a e) := by
  refine ⟨by decide, by decide, by decide, fun p a e h => ?_⟩
  cases h

theorem test_witness_AshlarVerdictsAndLeases_gone :
    ((ash { stash := [en], outGone := true }).ashlar.find 1 = some en ∧ (ash { stash := [en], outGone := true }).ashlar.outGone = true) ∧
    ((ash { stash := [{ en with dirty := true }] }).ashlar.find ({ en with dirty := true } : AEntry).leaseRec.eui = some { en with dirty := true } ∧
      ({ en with dirty := true } : AEntry).leaseRec.lease = true ∧ (ash { stash := [{ en with dirty := true }] }).ashlar.outGone = false) ∧
    (ash {}).ashlar.find del.eui = none ∧
    ((z.modNvm (fun n => { n with freeing := some 0xB00000 })).nvm.freeing = some 0xB00000 ∧ z.nvm.freeing = none) := by
  and_intros <;> decide

theorem test_witness_AshlarTableOperations_draw :
    (((ash { wantHk := true }).setFlag F.TRNG_STATUS_READY).drbgReady = true ∧
      ((ash { wantHk := true }).setFlag F.TRNG_STATUS_READY).keysWantsDrbg = false ∧
      (((ash { wantHk := true }).setFlag F.TRNG_STATUS_READY).drbg 16).2.flag F.ASHLAR_STATUS_RESTORE = false ∧
      ((((ash { wantHk := true }).setFlag F.TRNG_STATUS_READY).setFlag F.ASHLAR_STATUS_RESTORE).drbg 16).2.flag F.ASHLAR_STATUS_RESTORE = true) ∧
    ((((ash { wantHk := true }).setFlag F.TRNG_STATUS_READY).modKeys (fun k => { k with cmd := some ⟨3, 0, [], false⟩ })).keysWantsDrbg = true) := by
  and_intros <;> decide

/-- A KEYS command that waits. -/
def keyCmd (op : Nat) (args : List Half := []) : KeysCmd := ⟨op, 0, args, false⟩

theorem test_witness_CryptoJobsAndModes_lease :
    (z.keysMayWrite = true ∧ (z.modNvm (fun n => { n with cur := some .firmware })).keysMayWrite = false ∧
      (z.modNvm (fun n => { n with cur := some .keys })).keysMayWrite = true) ∧
    256 < ((z.setSlot 0 aesCount).slot 0).f := by and_intros <;> decide

/-- A DERIVE by slot 2, counted and its lease used up, its arguments at 0x100000. -/
def derives : State :=
  ((z.setFld F.ID_LIFECYCLE_STATE 1).setSlot 2 { attr0 := 0x4442, attr1 := 1, key := List.replicate 16 0, u := 512, f := 512 }).sramPut 0x100000
    (leOctets 2 0x4442 ++ leOctets 2 1 ++ leOctets 4 0x200 ++ [1, 7])

theorem test_witness_KeysCommands_stores :
    ((z.modKeys (fun k => { k with cmd := some (keyCmd 4) })).keys.cmd = some (keyCmd 4) ∧ (keyCmd 4).stores = true ∧
      ((z.modNvm (fun n => { n with cur := some .firmware })).keysMayWrite = false) ∧ (keyCmd 7).stores = false ∧
      z.keysWaits (keyCmd 6) = false ∧ z.keysMayWrite = true ∧ z.keysNeeds (keyCmd 6) = none) ∧
    z.keysWaits (keyCmd 3) = true ∧ (derives.keysNeeds (keyCmd 2 [0x0302, 0, 0x10, 0])).isSome = true := by and_intros <;> decide

theorem test_witness_PkeAndRandomNumbers_more :
    ((z.modPke (fun p => { p with cmd := some ⟨7, 0, false, 0, 0, 0, 0⟩ })).pke.cmd = some ⟨7, 0, false, 0, 0, 0, 0⟩ ∧
      (z.modNvm (fun n => { n with cur := some .lease })).keysMayWrite = false ∧ z.keysMayWrite = true ∧
      (z.modPke (fun p => { p with cmd := some ⟨7, 0, false, 0, 0, 0, 0⟩ })).pkeWantsDrbg = true) ∧
    ((z.setFlag F.TRNG_STATUS_READY).drbgReady = true ∧ (z.setFlag F.TRNG_STATUS_READY).flag F.TRNG_STATUS_OUT_VALID = false ∧
      (z.setFlag F.TRNG_STATUS_READY).keysWantsDrbg = false ∧ (z.setFlag F.TRNG_STATUS_READY).ashlar.wantHk = false ∧
      (z.setFlag F.TRNG_STATUS_READY).pkeWantsDrbg = false) ∧
    ((z.flag F.TRNG_STATUS_READY = false ∧ z.flag F.TRNG_STATUS_HEALTH_FAIL = false) ∧ ((0 : Nat) :: List.replicate 1023 0).length = 1024) := by
  and_intros <;> decide +kernel

theorem test_witness_CpuLoadsAndStores_illegal :
    (amLegal 4 0 = false ∧ amLegal 3 8 = false ∧ amLegal 3 7 = true ∧ amLegal 2 0xFFFF = true) ∧
    ((cpu.load 0 0 0xE00000 1).1 = .inr (exDataBus, some 0xE00000) ∧ (cpu.load 0 0 0x100002 4).1 = .inr (exAlign, some 0x100002)) ∧
    (cpu.dataFault 0 0 0xE00000 1 true = some (exDataBus, some 0xE00000) ∧ cpu.dataFault 0 0 0x100002 4 true = some (exAlign, some 0x100002) ∧
      cpu.dataFault 0 0 0x100000 4 false = none) := by and_intros <;> decide

theorem test_witness_CpuSystem_windows : crBad 0x23 false 0 0 = false ∧ crBad 0x3F false 0 0 = false ∧ crBad 0x22 false 0 0 = false ∧
    (cpu.thr 0 0).mtcPriv 0x22 = true ∧ crBad 0x32 false 0 0 = false ∧ (cpu.thr 0 0).mtcPriv 0x32 = false ∧ crBad 0 false 0 0 = false := by and_intros <;> decide

/-- NVMC at the end of a firmware command that answers BADOP, with what follows it. -/
def cfgEnd (n : Option FwNext) : State := (z.modNvm (fun v => { v with cmd := some (7, []), cur := some .firmware })).modUpdate (fun u => { u with inCfg := n })

theorem test_witness_NvmcCommands_follow :
    ((cfgEnd none).update.inCfg = none ∧ (cfgEnd (some (.erase 0))).update.inCfg = some (.erase 0) ∧
      nvmcWork (cfgEnd (some (.erase 0))) 7 [] 0 = (nvBadOp, cfgEnd (some (.erase 0)))) ∧
    ((z.modKeys (fun k => { k with lcPhase := .written })).keys.lcPhase ≠ .none ∧ z.keys.lcPhase = .none ∧ z.nvm.cur = none) ∧
    z.sourceRecord .assay = none := by and_intros <;> decide

theorem test_witness_AdsinUpdateClasses_follow :
    (∀ n, n = .erase 0 ∨ n = .pending 1 ∨ n = .withdrawn 1 → ((cfgEnd (some n)).nvmcDone 0).update.inCfg = some n) ∧
    ((cfgEnd none).nvTurn .firmware = true ∧ (cfgEnd none).nvm.cmd.isSome = true) ∧ (counted hst 0).nvmcTaken = false := by
  refine ⟨fun n h => ?_, by and_intros <;> decide, by decide⟩
  rcases h with rfl | rfl | rfl <;> decide

theorem test_witness_AdsinUpdateClasses_prev :
    (counted (bootsAs { conf := 1, prev := 2 } hst) 0).bootRec.prev = 2 ∧ (counted (bootsAs { conf := 1, prev := 2 } hst) 0).bootRec.conf = 1 := by
  decide +kernel

theorem test_witness_AdsinUpdateClasses_abort :
    ((hst.modUpdate (fun u => { u with slots := #v[5, 3] })).update.hand = .none ∧
      [0, 1].find? (fun i : Fin 2 => (hst.modUpdate (fun u => { u with slots := #v[5, 3] })).slotState i = ssPending ∨
        (hst.modUpdate (fun u => { u with slots := #v[5, 3] })).slotState i = ssRunning) = some 1) ∧
    ((∀ j ∈ [0, 1], (hst.modUpdate (fun u => { u with slots := #v[5, 2] })).slotState j ≠ ssPending ∧
        (hst.modUpdate (fun u => { u with slots := #v[5, 2] })).slotState j ≠ ssRunning) ∧
      [0, 1].find? (fun i => (hst.modUpdate (fun u => { u with slots := #v[5, 2] })).slotState i = ssStaging ∨
        (hst.modUpdate (fun u => { u with slots := #v[5, 2] })).slotState i = ssVerified) = some 1) ∧
    655360 < wordAt [1, 10] 0 + 65536 * wordAt [1, 10] 1 := by and_intros <;> decide

theorem test_witness_Resets_more :
    (z.nvWriting = false ∧ (z.modKeys (fun k => { k with cmd := some (keyCmd 6) })).nvWriting = true) ∧
    ((z.modSys (fun y => { y with sleep := .entering 3 false })).sys.sleep = .entering 3 false ∧ ∀ b, z.sys.sleep ≠ .entering 3 b) ∧
    ((2 : Fin 6).val ≥ 2 ∧ (z.reg A.SYSCTL_CORE_CTRL).getLsbD 2 = false ∧ (1 : Fin 6).val < 2 ∧ z.flag (F.WDT_CTRL_EN 2) = false ∧
      (z.setFlag (F.WDT_CTRL_EN 2)).flag (F.WDT_CTRL_EN 2) = true) := by
  refine ⟨by and_intros <;> decide, ⟨by decide, fun b h => ?_⟩, by and_intros <;> decide⟩
  cases h

theorem test_witness_PerformanceLevels_lower :
    (0 < (z.setFld F.PMU_PL_CUR 3).fld F.PMU_PL_CUR ∧ (z.setFld F.PMU_PL_CUR 3).fld F.PMU_PL_CUR ≤ 3 ∧ z.fld F.PMU_PL_CUR ≤ 3) ∧
    ((z.setLaneState 63 laneOut).laneState 63 = laneOut ∧ (z.setLaneState 0 laneSearch).laneState 0 ≠ laneOut) := by and_intros <;> decide

theorem test_witness_SleepStates_vio :
    ((z.modSys (fun y => { y with vio := false })).sys.vio = false ∧ z.sys.vio = true ∧ (4 : Fin 9).val = 4 ∧ (7 : Fin 9).val ≤ 7) ∧
    ((sleeping (.asleep 3) 0).sys.sleep = .asleep 3 ∧ (sleeping (.asleep 3) 0).sys.wakeEn.getLsbD 1 = true) ∧ z.sys.sleep = .awake ∧
    z.sys.inReset = false := by and_intros <;> decide

theorem test_witness_PlinthInputs_loss :
    (z.sys.sleep ≠ .asleep 3 ∧ (pli { powered := false }).plinth.powered = false) ∧
    (((pli { detect := true }).setFld F.PLINTH_MAINS_LOM_CYC 3).sys.fwRun = false ∧
      (pli { detect := true }).flag F.PLINTH_STATUS_LOM = false) := by and_intros <;> decide

/-- A channel whose capture is held, one with an edge that may begin a pulse too short, and one whose pulse has lasted. -/
def tm (t : Timer) (now : Nat) : State := { tmr with hft := now }.modTimer 0 (fun _ => t)

theorem test_witness_TimerCommands_pulses :
    ((tm { held := some 5, heldAt := 6 } 7).timers[(0 : Fin 8)].heldAt < (tm { held := some 5, heldAt := 6 } 7).hft ∧
      (tm { held := some 5, heldAt := 6 } 7).timers[(0 : Fin 8)].due = none ∧ (tm { held := some 5, heldAt := 6 } 6).hft ≤ 6) ∧
    ((tm { edgeAt := some 4, due := some 3 } 7).timers[(0 : Fin 8)].held = none ∧ 4 + 3 ≤ (tm { edgeAt := some 4, due := some 3 } 7).hft ∧
      (tm { edgeAt := some 4, due := some 3 } 6).hft < 4 + 3) ∧
    ((tm { added := some (7, 9) } 7).timers[(0 : Fin 8)].cmpHeld = false ∧
      (tm { added := some (7, 9) } 7).timers[(0 : Fin 8)].added = some ((tm { added := some (7, 9) } 7).hft, 9) ∧
      ∀ lo, (tm { added := some (6, 9) } 7).timers[(0 : Fin 8)].added ≠ some ((tm { added := some (6, 9) } 7).hft, lo)) ∧
    (z.flag (F.TMR_CTRL_CAP_EN 0) = false ∧ (∀ e, (tm {} 7).timers[(0 : Fin 8)].edgeAt = some e → e + 3 ≤ (tm {} 7).hft)) := by
  refine ⟨by and_intros <;> decide, by and_intros <;> decide, ⟨by decide, by decide, fun lo h => ?_⟩, by decide, fun e h => ?_⟩
  · have : (some (6, (9 : Half)) : Option (Nat × Half)) = some (7, lo) := h
    simp at this
  · cases (show (none : Option Nat) = some e from h)

theorem test_witness_QuadSpi_more :
    ((sel hifOn).hostifLive = true ∧ (sel { hifOn with sys := { hifOn.sys with vio := false } }).hostifLive = false) ∧
    (wordAt [4, 0, 0] 0 % 2048 ≠ [(4 : Half), 0, 0].length) ∧
    ((sel (hifOn.setReg A.HOSTIF_OQ_WR 1)).outLen ≤ 1088) := by and_intros <;> decide

theorem test_witness_UartAndChannels_more :
    ((urt { a5 := true }).uart.a5 = true ∧ (urt { a5 := true }).uart.inFrame = false ∧ (urt {}).uart.a5 = false) ∧
    (hst.coresRun = true ∧ hst.sys.fwRun = true ∧ { hst with mbox := vset hst.mbox 0 [3] }.chanBad ⟨2 + (0 : Fin 4).val, by decide⟩ = true) := by
  and_intros <;> decide

/-- An Adsin request of each row, its class and command, on a channel where 2.4 was agreed. -/
theorem test_witness_AdsinRequestOrder_checks :
    (adsinRow (.sysPing 0 hd []) = some (0, hd, 0, 2, [])) ∧
    (¬AdsinHdrOk { hd with kind := 1 } ∧ AdsinHdrOk hd) ∧
    (AdsinKnown hst 0 hd 0 2 ∧ AdsinKnown (hst.modChan 2 (fun c => { c with version := some 0x0204 })) 2 hd 1 1) ∧
    (adsinSince 0 7 = none ∧ (∃ v, adsinSince 1 1 = some v ∧ v ≤ 0x0204) ∧ appMay 1 1 = false ∧ appMay 0 1 = true ∧
      (2 : Fin 6).val ≥ 2) ∧
    (hst.adsin.chans[(0 : Fin 6)].version = some 0x0204 ∧ hst.adsin.chans[(0 : Fin 6)].outstanding.length < 8) ∧
    (hst.adsinState 0 2 = true ∧ hst.cmdState 0 2 = true ∧ adsinLen 0 2 [] = true ∧ adsinLen 0 1 [] = false ∧
      (hst.modSys (fun y => { y with recovery := true })).adsinState 3 1 = false ∧ hst.cmdState 10 3 = false) ∧
    ((hst.modSys (fun y => { y with romSys := true })).sys.romSys = true ∧ hst.sys.romSys = false ∧ hst.sys.recovery = false ∧ hst.storeLc ≠ 3 ∧
      hst.flag F.KEYS_STATUS_KS_LOST = false ∧ (stored hst stLife 3).storeLc = 3) := by
  and_intros
  all_goals first
    | decide +kernel
    | (unfold AdsinHdrOk; decide)
    | (unfold AdsinKnown AdsinHdrOk; decide)
    | exact ⟨_, rfl, by decide⟩

theorem test_witness_AssayRequests_expired :
    (((asy 2 { queue := [(⟨0x10, 0⟩, 0)], checked := true }).setFlag F.COURSE_STATUS_RUNNING).running = true ∧ 0x10 ≤ (⟨0x10, 0⟩ : Slice).slice ∧
      ((asy 2 { queue := [(⟨0x10, 0⟩, 0)], checked := true }).setFlag F.COURSE_STATUS_RUNNING).assay.checked = true) ∧
    ((⟨1, 0⟩ : Slice).slice < 0x10 ∧ (255 : Nat) < 256 ∧ (asy 2 {}).running = false) ∧
    (((asy 2 {}).setFlag F.SYSCTL_CLK_SRC false).flag F.SYSCTL_CLK_SRC = false ∧ 2 ≤ ((asy 2 {}).setFlag F.SYSCTL_CLK_SRC false).fld F.PMU_PL_CUR ∧
      sliceAdmitted ((asy 2 {}).setFlag F.SYSCTL_CLK_SRC false).lcState 1 = true) ∧
    ((asy 2 { running := some ⟨1, 0⟩, isolated := true }).assay.isolated = true) ∧
    (({ mask := [1], period := 2, gone := 2 } : Sched).period ≤ 2 ∧ ({ mask := [1], period := 2, gone := 1 } : Sched).gone < 2) := by
  and_intros <;> decide

theorem test_witness_SliceRuns_band :
    (isBandSlice slIqLoop = true ∧ isBandSlice slAes = false ∧ sliceBudget slIqLoop ≠ none ∧
      (asy 2 { running := some ⟨slIqLoop, 1⟩, isolated := true }).hft ≤
        (asy 2 { running := some ⟨slIqLoop, 1⟩, isolated := true }).assay.tAs + 48 * (sliceBudget slIqLoop).getD 0) ∧
    ((feOn .ism).muted .ism = false ∧ z.muted .ism = true) ∧
    (isLaneSlice slLane = true ∧ (63 : Nat) < 64 ∧ z.slicePass ⟨slTxLoop, 1⟩ false [] = false ∧ (⟨slPkeKat, 0⟩ : Slice).slice = slPkeKat) := by
  and_intros <;> decide

theorem test_witness_Handover_quiet :
    ((hnd (.quiet 2)).update.hand = .quiet 2 ∧ (hnd (.quiet 2)).nvmcTaken = false ∧ (hnd (.quiet 2)).flag F.KEYS_STATUS_BUSY = false ∧
      (hnd (.quiet 2)).flag F.PKE_STATUS_BUSY = false ∧ (hnd (.quiet 2)).cutover = true) ∧
    ((hnd (.quiet 2)).modUpdate (fun u => { u with inCfg := some .nothing })).nvmcTaken = true ∧ (∀ i, z.update.hand ≠ .quiet i) ∧
    (z.flag F.COURSE_STATUS_COMMIT_PEND = false) ∧
    ((cfgEnd (some (.tookOver 2 1))).nvmcDone 0).update.inCfg = some (.tookOver 2 1) := by
  refine ⟨by and_intros <;> decide, by decide, fun i h => ?_, by decide, by decide⟩
  cases h

theorem test_witness_TrowelPort_waits :
    (((twl 0 0x100000).modDebug (fun d => { d with writing := true })).dbg.writing = true ∧ (twl 0 0x100000).dbg.writing = false ∧
      (twl 0 0x100000).twLevel = 2 ∧ (twl 0 0x100000).dbg.held = none ∧ placeOf 0x100000 = .sram ∧ placeOf 0xE00000 = .periph) ∧
    (((twl 0 0x100000).modDebug (fun d => { d with held := some (0x100000, 5) })).dbg.held = some (0x100000, 5)) ∧
    ((twl 0 0xE00000).twWindow 0xE00000 = true ∧ (twl 0 0xE00000).twLocal 0 0xE00000 = some 0 ∧
      (match ((twl 0 0xE00000).busRead (.trowel true) 0 0xE00000 2).1 with | .value _ => true | _ => false) = true) ∧
    (((twl 0 0).modDebug (fun d => { d with scan := true })).dbg.scan = true ∧ (twl 0 0).hostIo = true ∧ (twl 0 0).dbg.scan = false) := by
  and_intros <;> decide

/-- R403: CMD 2 for core 1, thread 3: start bit low, odd parity over CMD, CORE, THREAD and the parity bit, stop bit high. -/
theorem test_trowel_request : twRequest 0b111100100100 = none ∧ twRequest 0b101100100100 = some (2, 1, 3) ∧ twRequest 0b101100100101 = none ∧
    twRequest 0b001100100100 = none := by decide

theorem test_witness_PinsAndBoundaryScan_scan :
    (∀ (k : Fin 8) src, z.capOn k src = false) ∧
    ((z.modDebug (fun d => { d with scan := true })).hostIo = true) ∧
    ([true, true, true, true, true].foldl Tap.next .shiftDr = .testLogicReset ∧ [true, true, true, true].foldl Tap.next .shiftDr ≠ .testLogicReset) := by
  refine ⟨fun k src => ?_, by decide, by and_intros <;> decide⟩
  have h : z.flag (F.TMR_CTRL_CAP_EN k.val) = false := by revert k; decide
  simp [State.capOn, h]
/-! ## WellFormed: each check refuses an ill-formed term -/

theorem test_wf_odd_register_address : Instr.wf (.registerWrite (.core 0) 0xE00001 0) = false ∧ Instr.wf (.rclRead (.core 0) 0xE00001) = false ∧
    Instr.wf (.snapshotRead (.core 0) 0xE00001) = false ∧ Instr.wf (.registerWrite (.core 0) 0xE00000 0) = true := by decide

theorem test_wf_listed_code : Instr.wf (.keysBadop 0 8) = false ∧ Instr.wf (.keysBadop 0 9) = true ∧ Instr.wf (.pkeBadop 0 1) = false ∧
    Instr.wf (.pkeBadop 0 0) = true ∧ Instr.wf (.nvmcBadop 5) = false ∧ Instr.wf (.nvmcBadop 6) = true ∧ Instr.wf (.entryOpBadop 8) = false ∧
    Instr.wf (.entryOpBadop 15) = true := by decide

theorem test_wf_lengths : Instr.wf (.spiWrite (List.replicate 1089 0) false) = false ∧ Instr.wf (.spiWrite (List.replicate 1088 0) false) = true ∧
    Instr.wf (.uartFrame (List.replicate 2179 0)) = false ∧ Instr.wf (.sysPing 0 hd (List.replicate 1085 0)) = false ∧
    Instr.wf (.sysPing 0 hd (List.replicate 1084 0)) = true := by decide +kernel

theorem test_no_table_word : decodeTableWord 16 0 = none ∧ z.withFetchWord 16 0 = z := by exact ⟨rfl, rfl⟩

/-! ## Worked examples of the spec -/

/-- What a command leaves, by a reading of the next state. -/
def after {α : Type} (o : Out) (f : State → α) : Option α := match o with | .next t => some (f t) | _ => none

/-- R49's case: TX_TOTAL +10 dBm and TX_NMAX 8 give a carrier level of -2.25 dBm, in quarters of a dB. -/
theorem test_carrier_level : after (execTxConfigWrite .sub 1 40 (z.setReg (A.RFE_TX_NMAX .sub) 8))
    (fun t => toSigned 9 (t.fld (F.RFE_TX_CARRIER_LEVEL .sub))) = some (-9) := by decide

/-- R39's case: at 54 dB with level -62 and TOP -10 the gain becomes 48 dB; at 48 dB with -80 it rises to 66 dB. -/
theorem test_agc : agcGain 62 9 10 14 = 8 ∧ agcGain 80 8 10 14 = 11 := by decide

/-- R100's case: hop list 0 with LEN 16, CH0 -15,800 kHz, SPACING 2,000 kHz and entry 7 on channel 11 gives ASN 4,660 and CHOFS 3
an OFS of 6,200 kHz. -/
theorem test_hop : ((((((z.setReg (A.COURSE_ACTIVE 0x80) 0x0010).setReg (A.COURSE_ACTIVE 0x81) (half (ofSigned 18 (-15800)))).setReg
    (A.COURSE_ACTIVE 0x82) (half (ofSigned 18 (-15800) / 65536))).setReg (A.COURSE_ACTIVE 0x83) 2000).setReg (A.COURSE_ACTIVE 0x103)
      0x0B00).planOfs false 0x0080 3 4660) = 6200 := by decide

/-- R99's case: 2,059 octets at 50 kbit/s 2-FSK last 329.44 ms. -/
theorem test_airtime : airTicks 0 false 8 2047 = us 329440 := by decide

/-- R161's case: slot 5 with U = F = 16,640 and C = L = 0x0002_0000 waits for F = 16,384 and L = 0x0003_0000. -/
theorem test_lease_need : Slot.leaseNeed { attr0 := 0x5000, u := 16640, f := 16640, c := 0x20000, l := 0x20000 } true true =
    some (16384, 0x30000) := by decide

/-- The worked frame of chapter 05: counter 0x0001_3004 over HWM 0x0001_2FE7 passes and sets LEASE_DIRTY; the lease is 0x0001_3100. -/
theorem test_commit_row : (ash { stash := [{ en with hwm := 0x12FE7, epoch := 3, tenant := 0x2A7 }] }).commitRow
    { chk with counter := 0x13004, keyIndex := 3 } 0 =
      (vPass, some { en with hwm := 0x13004, epoch := 3, tenant := 0x2A7, dirty := true }) ∧
    (({ en with hwm := 0x13004 } : AEntry).leaseRec).value = 0x13100 := by decide

/-- Its acknowledgement carries Frame Pending with the time correction IE: frame control 0x2E52. -/
theorem test_ack_control : (ackPsdu { fr with pending := true } (mhrOf []) true 0).take 2 = [0x52, 0x2E] := by decide +kernel

/-- R194's case: round 0 gives 3.96875 ns, which rounds to 4.00 ns. -/
theorem test_round_distance : roundDist ⟨256, 832, 640, true, true⟩ 0 0 31 = 16 := by decide

/-- R196's case: the fifth failure, 500 s after the first, starts a lock-out of LEVEL 1 that ends at 11,460. -/
theorem test_lockout : ((((z.setReg32 A.PLINTH_LOCK_SEC_LO 10500).setFlag F.PLINTH_LO_STATE_LOCKED false).modPlinth (fun p => { p with
    ring := [10300, 10200, 10100, 10000] })).pushFailure.fld F.PLINTH_LO_STATE_LEVEL = 1) ∧
    ((((z.setReg32 A.PLINTH_LOCK_SEC_LO 10500).setFlag F.PLINTH_LO_STATE_LOCKED false).modPlinth (fun p => { p with
      ring := [10300, 10200, 10100, 10000] })).pushFailure.reg32 A.PLINTH_LO_END_LO = 11460) := by decide

/-- R312's case: a window of 1,024 s that measures 33,554,910 ticks writes RTC_TRIM = -239. -/
theorem test_trim : after (execTrimWindowClose (((pli { winOpen := some 0, closeAt := some 33554910, refs := 1024 }).setFld
    F.PLINTH_CTRL_WIN 10).setFlag F.PLINTH_CTRL_AUTO)) (fun t => toSigned 16 (t.regN A.RTC_TRIM)) = some (-239) := by decide +kernel

/-- R320's case: CMP 99,000 under a count of 100,000 is late, and so is 100,000 under 100,001; 101,000 is 998 ahead of 100,002. -/
theorem test_timer_late : ahead 99000 100000 = false ∧ ahead 100000 100001 = false ∧ ahead 101000 100002 = true := by decide

/-- R320: the late compare fires at the next counting tick and moves on by ADD. -/
theorem test_timer_fire : after (execTimerCompareFire 0 ((((tmr.setReg (A.TMR_CMP_LO 0) (half 99000)).setReg (A.TMR_CMP_HI 0) 1).setReg
    (A.TMR_ADD_LO 0) 1000 |>.commit [A.TMR_CMP_LO 0, A.TMR_CMP_HI 0, A.TMR_ADD_LO 0]).modTimer 0 (fun t => { t with base := 100000, late := true })))
    (fun t => (t.tmrCmp 0, t.timers[(0 : Fin 8)].late, t.flag (F.TMR_STATUS_LATE 0))) = some (100000, true, true) := by decide

/-- R304: a trim of -239 adds 1 until the accumulator falls to -2^24, then 0. -/
theorem test_rtc_step : (rtcStep (z.setReg A.RTC_TRIM (-239))).1 = 1 ∧
    (rtcStep ((pli { acc := -16777000 }).setReg A.RTC_TRIM (-239))).1 = 0 := by decide

/-- Chapter 13's case: HELLO 2.0 to 2.3 is negotiated at 2.3, in a message of 14 words. -/
theorem test_hello : after (execSysHello 0 hd [0x0200, 0x0203] hst) (fun t => (t.adsin.chans[(0 : Fin 6)].version,
    (t.adsin.chans[(0 : Fin 6)].outq.map (fun m => (m.words.length, m.words.take 7))))) =
      some (some 0x0203, [(14, [0x000E, 0x0401, 0x0001, 0x0000, 0x0203, 0x0200, 0x0204])]) := by decide +kernel

/-- Chapter 15's case: lane 17 is remapped to physical lane 64, and ID_CAPS1 goes from 0x440A to 0x4409. -/
theorem test_lane_remap : (((z.setReg A.ID_CAPS1 0x440A).laneRemap 17 64).reg (A.LANE_PHYS 17), ((z.setReg A.ID_CAPS1 0x440A).laneRemap 17
    64).reg A.ID_CAPS1) = (0x4040, 0x4409) := by decide

/-! ## Cores -/

/-- Thread 0 with two data registers set. -/
def cpuD (a b : Half) : State := cpu.modThr 0 0 (fun t => { t with d := (t.d.set 1 a).set 2 b })

/-- What a core's command leaves in D0 and PSW. -/
def d0 (o : Out) : Option (Half × Half) := after o (fun t => ((t.thr 0 0).d[(0 : Fin 16)], (t.thr 0 0).psw))

/-- R212: the sum wraps with C; 0x7FFF + 1 overflows with V and N. PSW bits 3 to 0 are N, Z, C, V in their places. -/
theorem test_add : (add16 0xFFFF 1 false).1 = 0 ∧ (add16 0xFFFF 1 false).2 = ⟨false, true, true, false⟩ ∧
    (add16 0x7FFF 1 false).2 = ⟨true, false, false, true⟩ := by decide

theorem test_add_step : after (exec (.opAdd 0 0 1 2 0) (cpuD 0x7FFF 2)) (fun t => ((t.thr 0 0).d[(0 : Fin 16)], (t.thr 0 0).pc)) =
    some (0x8001, 0x100004) := by decide

/-- The worked routine of chapter 08: CRC of 0x31 over 0xFFFF is 0xC782, and nine octets give 0x29B1. -/
theorem test_crc_step : after (exec (.opCrc 0 1 2 0 0) (cpuD 0xFFFF 0x31)) (fun t => (t.thr 0 0).d[(1 : Fin 16)]) = some 0xC782 := by decide +kernel

theorem test_crc16 : crc16 0xFFFF [0x31, 0x32, 0x33, 0x34, 0x35, 0x36, 0x37, 0x38, 0x39] = 0x29B1 := by decide +kernel

/-- R222: a product is pending for the fourth position on; a load for the third. -/
theorem test_mul_pending : after (exec (.opMul 0 0 1 2 0) (cpuD 3 5)) (fun t => ((t.thr 0 0).d[(0 : Fin 16)], (t.thr 0 0).pend)) =
    some (0, [⟨4, .d 0, 15⟩]) := by decide

/-- R219: a branch executes its delay slot next. -/
theorem test_branch_slot : after (exec (.opJ 0 0 0x40010) cpu) (fun t => ((t.thr 0 0).pc, (t.thr 0 0).slot)) =
    some (0x100004, some (0x100000, 0x100040)) := by decide

/-- R241 to R244: a SYSCALL enters the exception with EPC behind it and the privileged mode. -/
theorem test_syscall : after (exec (.opSyscall 0 0 7) cpu) (fun t => ((t.thr 0 0).epc, (t.thr 0 0).exl, (t.thr 0 0).priv)) =
    some (0x100004, true, true) := by decide

/-- R207: a store puts the low octet at the lower address. -/
theorem test_store : after (exec (.opSth 0 1 0 0 0) (cpuD 0x1234 0)) (fun t => (memGet 0 t.sram 0x100000, memGet 0 t.sram 0x100001)) =
    some (0x34, 0x12) := by decide

/-- The words of chapter 08's routine, R220's NOP, and the two words that R211 calls illegal. -/
theorem test_plynnel_words : plynnel 0 0x40410001 = some (.opLdb 0 1 0 1 1) ∧ plynnel 0 0x0480FFFF = some (.opAddi 0 2 0 0 0xFFFF) ∧
    plynnel 0 0x1800FFFF = some (.opMovi 0 0 0 0 0xFFFF) ∧ plynnel 0 0x90200002 = some (.opLoop 0 0 false 0x200 2) ∧
    plynnel 0 0x00040018 = some (.opCrc 0 0 1 0 0) ∧ plynnel 0 0x8E000000 = some (.opRet 0 0) ∧ plynnel 0 0xF0000000 = some (.opNop 0 0 0) ∧
    plynnel 0 0 = none ∧ plynnel 0 0xFFFFFFFF = none := by and_intros <;> decide

/-! ## Registers, queues and the standard functions that the spec names -/

/-- R17: an OPEN master does not write COURSE. -/
theorem test_open_refused : after (exec (.registerWrite (.core 2) 0xE20000 1) z) (fun t => (t.seen, t.regs)) = some (.refused, []) := by decide

/-- R250: the 33rd word of a mailbox is lost and sets OVF. -/
theorem test_mailbox_full : after (exec (.mailboxWrite 0 2 9) { z with mbox := z.mbox.set 0 (List.replicate 32 0) })
    (fun t => (t.mbox[(0 : Fin 8)].length, t.flag (F.MB_STATUS_OVF 0))) = some (32, true) := by decide

/-- The queue: a step runs the command in front and leaves the rest. -/
theorem test_step : after (step { z with pending := [.mailboxWrite 0 2 9, .xoStable] }) (fun t => (t.mbox[(0 : Fin 8)], t.pending)) =
    some ([9], [.xoStable]) := by decide

/-- FIPS 197, appendix C.1. -/
theorem test_aes : aesEncrypt ((List.range 16).map byte) ((List.range 16).map (fun i => byte (17 * i))) =
    [0x69, 0xC4, 0xE0, 0xD8, 0x6A, 0x7B, 0x04, 0x30, 0xD8, 0xCD, 0xB7, 0x80, 0x70, 0xB4, 0xC5, 0x5A] := by decide +kernel

/-- FIPS 180-4: SHA-256 of "abc". -/
theorem test_sha256 : beNat (sha256 [0x61, 0x62, 0x63]) = 0xBA7816BF8F01CFEA414140DE5DAE2223B00361A396177A9CB410FF61F20015AD := by decide +kernel

/-- SP 800-186: the base point of P-256 lies on the curve. -/
theorem test_base_point : onCurve 0x6B17D1F2E12C4247F8BCE6E563A440F277037D812DEB33A0F4A13945D898C296
    0x4FE342E2FE1A7F9B8EE7EB4A7C0F9E162BCE33576B315ECECBB6406837BF51F5 = true := by decide +kernel

end Sys2Proof.Tests
end

section
/-! SUPPORT. A double fault (R245): a DEAD thread, and every register word that a line does not use, stay as they are while
event lines rise. -/
namespace Sys2Proof.Machine

/-! ## What a change of one thread leaves to the others -/

/-- An element put in a vector leaves the others. -/
theorem vector_set_other {α : Type} {n : Nat} (v : Vector α n) {i j : Fin n} (x : α) (h : i ≠ j) : (v.set j x)[i] = v[i] :=
  Vector.getElem_set_ne j.isLt i.isLt (fun e => h (Fin.ext e.symm))

/-- A write of an MPU window leaves the threads. -/
@[simp] theorem Core.winPut_thr (k : Core) (n v : Nat) : (k.winPut n v).thr = k.thr := by
  unfold Core.winPut
  split <;> rfl

/-- A result that lands leaves the other threads. -/
theorem Core.landOne_thr_other (k : Core) {t u : Fin 4} (p : Pending) (h : t ≠ u) : (k.landOne u p).thr[t] = k.thr[t] := by
  unfold Core.landOne
  cases p.tgt with
  | cr n =>
    rw [Core.winPut_thr]
    exact vector_set_other _ _ h
  | _ => exact vector_set_other _ _ h

/-- Results that land leave the other threads. -/
theorem Core.landAt_thr_other (k : Core) {t u : Fin 4} (pos : Nat) (h : t ≠ u) : (k.landAt u pos).thr[t] = k.thr[t] := by
  have lands : ∀ (l : List Pending) (k : Core), (l.foldl (fun k p => k.landOne u p) k).thr[t] = k.thr[t] := by
    intro l
    induction l with
    | nil => intro k; rfl
    | cons p l ih => intro k; rw [List.foldl_cons, ih, k.landOne_thr_other p h]
  unfold Core.landAt
  rw [lands]
  exact vector_set_other _ _ h

/-- A WAIT that ends leaves the other threads. -/
theorem Core.waitEnds_thr_other (k : Core) {t u : Fin 4} (h : t ≠ u) : (k.waitEnds u).thr[t] = k.thr[t] := by
  unfold Core.waitEnds
  rw [vector_set_other _ _ h, Core.landAt_thr_other _ _ h, vector_set_other _ _ h]

/-- Only a READY thread is next. -/
theorem Core.nextReady_ready {k : Core} {t u : Fin 4} (h : k.nextReady t = some u) : k.thr[u].st = .ready := by
  have := List.find?_some h
  rw [Bool.and_eq_true, beq_iff_eq] at this
  exact this.1

/-- A core that wakes up leaves every thread that is not READY. -/
theorem Core.wakeup_thr {k : Core} {t : Fin 4} (h : k.thr[t].st ≠ .ready) : k.wakeup.thr[t] = k.thr[t] := by
  unfold Core.wakeup
  split
  · rfl
  · split
    next u hu =>
      have hne : t ≠ u := by
        rintro rfl
        exact h (Core.nextReady_ready hu)
      exact vector_set_other _ _ hne
    next => rfl

/-- A killed thread is DEAD and keeps its PC, EPC and CAUSE (R233). -/
theorem Core.kill_thr (k : Core) (t : Fin 4) :
    (k.kill t).thr[t].st = .dead ∧ (k.kill t).thr[t].epc = k.thr[t].epc ∧ (k.kill t).thr[t].cause = k.thr[t].cause ∧
    (k.kill t).thr[t].pc = k.thr[t].pc := by
  unfold Core.kill
  rw [Core.wakeup_thr (by simp)]
  simp

/-! ## What a change of one core leaves to the threads of all -/

section
variable (s : State)

/-- The changed core is changed. -/
@[simp] theorem State.modCore_core_same (c : Fin 6) (f : Core → Core) : (s.modCore c f).cores[c] = f s.cores[c] :=
  Vector.getElem_set_self c.isLt

/-- A changed core leaves the others. -/
theorem State.modCore_core_other {c d : Fin 6} (f : Core → Core) (h : d ≠ c) : (s.modCore c f).cores[d] = s.cores[d] :=
  vector_set_other _ _ h

/-- A change of a core that leaves one of its threads leaves that thread of the state. -/
theorem State.modCore_thr {c d : Fin 6} {t : Fin 4} {f : Core → Core} (h : d = c → (f s.cores[c]).thr[t] = s.thr c t) :
    (s.modCore c f).thr d t = s.thr d t := by
  by_cases e : d = c
  · subst e
    rw [State.thr, State.modCore_core_same, h rfl]
  · rw [State.thr, State.modCore_core_other s f e]

/-- A register write leaves the threads. -/
theorem State.setReg_thr (a : Nat) (v : Half) (d : Fin 6) (t : Fin 4) : (s.setReg a v).thr d t = s.thr d t := rfl

/-- Waking threads leaves a DEAD thread. -/
theorem State.wakeThreads_thr_dead (c : Fin 6) {d : Fin 6} {t : Fin 4} (h : (s.thr d t).st = .dead) :
    (s.wakeThreads c).thr d t = s.thr d t := by
  have ends : ∀ (l : List (Fin 4)) (s : State), (s.thr d t).st = .dead → (forEach l s (fun s t =>
      if (s.thr c t).st == .wait && s.maskMet c t then s.modCore c (fun k => k.waitEnds t) else s)).thr d t = s.thr d t := by
    intro l
    unfold forEach
    induction l with
    | nil => intro s _; rfl
    | cons u l ih =>
      intro s hd
      rw [List.foldl_cons]
      split
      next hw =>
        have waits : (s.thr c u).st = .wait := beq_iff_eq.mp (Bool.and_eq_true_iff.mp hw).1
        have keeps : (s.modCore c (fun k => k.waitEnds u)).thr d t = s.thr d t := s.modCore_thr (by
          rintro rfl
          refine Core.waitEnds_thr_other _ ?_
          rintro rfl
          exact absurd (hd.symm.trans waits) (by decide))
        rw [ih _ (by rw [keeps, hd]), keeps]
      next => exact ih s hd
  unfold State.wakeThreads
  have hd := ends [0, 1, 2, 3] s h
  refine (State.modCore_thr _ ?_).trans hd
  rintro rfl
  refine Core.wakeup_thr ?_
  rw [State.thr] at hd
  rw [hd, h]
  decide

/-- A line that rises on a core leaves a DEAD thread. -/
theorem State.post_thr_dead (c : Fin 6) (l : Nat) {d : Fin 6} {t : Fin 4} (h : (s.thr d t).st = .dead) :
    (s.post c l).thr d t = s.thr d t := by
  unfold State.post
  rw [State.wakeThreads_thr_dead _ c (by rw [State.setReg_thr, h]), State.setReg_thr]

/-- The fault event leaves the threads. -/
theorem State.faultEvent_thr (l : Nat) (d : Fin 6) (t : Fin 4) : (s.faultEvent l).thr d t = s.thr d t := by
  obtain ⟨a, e⟩ := s.faultEvent_parts l
  rw [e]

/-- A line that rises on the Lintel cores leaves a DEAD thread. -/
theorem State.raise_thr_dead (l : Nat) {d : Fin 6} {t : Fin 4} (h : (s.thr d t).st = .dead) :
    (s.raise l).thr d t = s.thr d t := by
  have first := s.post_thr_dead 0 l h
  have second := (s.post 0 l).post_thr_dead 1 l (by rw [first, h])
  unfold State.raise
  rw [State.faultEvent_thr]
  unfold State.postAll forEach lintel
  rw [List.foldl_cons, List.foldl_cons, List.foldl_nil, second, first]

/-- The report of a halted thread leaves a DEAD thread. -/
theorem State.threadHalted_thr_dead (c : Fin 6) {d : Fin 6} {t : Fin 4} (h : (s.thr d t).st = .dead) :
    (s.threadHalted c).thr d t = s.thr d t := by
  have own := s.post_thr_dead c 31 h
  unfold State.threadHalted
  split
  · exact own
  · rw [State.raise_thr_dead _ 30 (by rw [own, h]), own]

/-! ## The words that lines use -/

/-- The pending words of two cores are apart. -/
theorem evuPend_ne {c d : Fin 6} {i j : Nat} (h : c ≠ d) (hi : i < 4) (hj : j < 4) : A.EVU_PEND c i ≠ A.EVU_PEND d j := by
  have : c.val ≠ d.val := fun e => h (Fin.ext e)
  unfold A.EVU_PEND coreKey
  omega

/-- THR_FAULT is no pending word. -/
theorem thrFault_ne_evuPend (c d : Fin 6) {i : Nat} (hi : i < 4) : A.THR_FAULT c ≠ A.EVU_PEND d i := by
  unfold A.THR_FAULT A.EVU_PEND coreKey
  omega

/-- A line that rises on a core is pending there (R236). -/
theorem State.linePending_post_same (c : Fin 6) (l : Nat) : (s.post c l).linePending c l = true := by
  have hl : l % 16 < 16 := Nat.mod_lt _ (by decide)
  unfold State.linePending
  rw [State.reg_post_same, BitVec.getLsbD_or, BitVec.getLsbD_ofNat, Nat.testBit_two_pow_self]
  simp [hl]

/-- Lines follow the pending word. -/
theorem State.linePending_congr {s t : State} {d : Fin 6} {m : Nat}
    (h : t.reg (A.EVU_PEND d (m / 16)) = s.reg (A.EVU_PEND d (m / 16))) : t.linePending d m = s.linePending d m :=
  congrArg (fun v => v.getLsbD (m % 16)) h

/-- The report of a halted thread leaves every register but word 1 of the pending bits of the core and of the Lintel cores. -/
theorem State.reg_threadHalted (c : Fin 6) {a : Nat} (h : a ≠ A.EVU_PEND c 1)
    (hl : 2 ≤ c.val → a ≠ A.EVU_PEND 0 1 ∧ a ≠ A.EVU_PEND 1 1) : (s.threadHalted c).reg a = s.reg a := by
  unfold State.threadHalted
  split
  next => exact s.reg_post c 31 a h
  next hc =>
    obtain ⟨h0, h1⟩ := hl (Nat.le_of_not_lt hc)
    exact (State.reg_raise _ 30 a h0 h1).trans (s.reg_post c 31 a h)

/-- A halted thread raises line 31 on its core (R245). -/
theorem State.threadHalted_own_line (c : Fin 6) : (s.threadHalted c).linePending c 31 = true := by
  have own := s.linePending_post_same c 31
  unfold State.threadHalted
  split
  next => exact own
  next hc =>
    have apart : ∀ d : Fin 6, d.val < 2 → A.EVU_PEND c (31 / 16) ≠ A.EVU_PEND d (30 / 16) := fun d hd =>
      evuPend_ne (fun e => hc (e ▸ hd)) (by decide) (by decide)
    rw [State.linePending_congr (State.reg_raise _ 30 _ (apart 0 (by decide)) (apart 1 (by decide))), own]

/-- A halted thread of an application core raises line 30 on both Lintel cores (R245). -/
theorem State.threadHalted_lintel_line {c : Fin 6} (hc : 2 ≤ c.val) {d : Fin 6} (hd : d = 0 ∨ d = 1) :
    (s.threadHalted c).linePending d 30 = true := by
  unfold State.threadHalted
  rw [if_neg (Nat.not_lt.mpr hc)]
  exact State.pending_raise _ 30 d hd

/-- A halted thread of a Lintel core leaves the lines of the other cores. -/
theorem State.threadHalted_other_lines {c d : Fin 6} (hc : c.val < 2) (hd : d ≠ c) {m : Nat} (hm : m < 64) :
    (s.threadHalted c).linePending d m = s.linePending d m :=
  State.linePending_congr (s.reg_threadHalted c (evuPend_ne hd (by omega) (by decide)) (fun h => absurd hc (Nat.not_lt.mpr h)))

/-! ## The double fault -/

/-- An exception at EXL = 1 is a double fault, whatever its cause and address (R245). -/
theorem State.trap_exl {c : Fin 6} {t : Fin 4} (h : (s.thr c t).exl = true) (code : Nat) (fault : Option Nat) :
    s.trap c t code fault = s.doubleFault c t := by
  unfold State.trap
  exact if_pos h

/-- A double fault leaves its thread as the kill has left it. -/
theorem State.doubleFault_thr (c : Fin 6) (t : Fin 4) : (s.doubleFault c t).thr c t = (s.cores[c].kill t).thr[t] := by
  have killed : (s.modCore c (fun k => k.kill t)).thr c t = (s.cores[c].kill t).thr[t] := by
    rw [State.thr, State.modCore_core_same]
  have dead := (s.cores[c].kill_thr t).1
  unfold State.doubleFault
  rw [State.threadHalted_thr_dead _ c (by rw [State.setReg_thr, killed, dead]), State.setReg_thr, killed]

/-- A double fault sets its thread's bit of THR_FAULT. -/
theorem State.doubleFault_reg_thrFault (c : Fin 6) (t : Fin 4) :
    (s.doubleFault c t).reg (A.THR_FAULT c) = s.reg (A.THR_FAULT c) ||| half (2 ^ t.val) := by
  unfold State.doubleFault
  rw [State.reg_threadHalted _ c (thrFault_ne_evuPend c c (by decide))
    (fun _ => ⟨thrFault_ne_evuPend c 0 (by decide), thrFault_ne_evuPend c 1 (by decide)⟩), State.reg_setReg_same]
  rfl

/-- A double fault on a Lintel core leaves the lines of the other cores. -/
theorem State.doubleFault_other_lines {c d : Fin 6} (t : Fin 4) (hc : c.val < 2) (hd : d ≠ c) {m : Nat} (hm : m < 64) :
    (s.doubleFault c t).linePending d m = s.linePending d m := by
  unfold State.doubleFault
  rw [State.threadHalted_other_lines _ hc hd hm]
  exact State.linePending_congr (State.reg_setReg_other _ _ (thrFault_ne_evuPend c d (by omega)).symm)

end

/-- Settles O35: the kill leaves EPC, CAUSE and PC, a line that rises leaves a DEAD thread, and the pending words lie apart
from THR_FAULT and from each other. -/
theorem doubleFault : Obligations.DoubleFault := by
  unfold Obligations.DoubleFault
  intro s u c t code fault hexl hu
  rw [State.trap_exl s hexl] at hu
  subst hu
  obtain ⟨hst, hepc, hcause, hpc⟩ := s.cores[c].kill_thr t
  rw [State.doubleFault_thr]
  exact ⟨hst, hepc, hcause, hpc, s.doubleFault_reg_thrFault c t, State.threadHalted_own_line _ c,
    fun hc => ⟨State.threadHalted_lintel_line _ hc (.inl rfl), State.threadHalted_lintel_line _ hc (.inr rfl)⟩,
    fun hc d hd m hm => s.doubleFault_other_lines t hc hd hm⟩

end Sys2Proof.Machine
end

section
/-! SUPPORT. The hour shift (R307): a write of RTC_CMD by its key and shift, and a tick boundary (R304) as the state that it leaves
before the alarm, with the alarm's own test read in the state before the boundary. -/
namespace Sys2Proof.Machine

/-! ## What a capture leaves of the Plinth domain -/

/-- The registers of the Plinth domain, and every register in force, stand. -/
def KeepsPlinthRegs (s t : State) : Prop := t.inForce = s.inForce ∧ ∀ a, 0xF00000 ≤ a → a < 0xF01000 → t.reg a = s.reg a

/-- A state keeps its own. -/
theorem KeepsPlinthRegs.refl (s : State) : KeepsPlinthRegs s s := ⟨rfl, fun _ _ _ => rfl⟩

/-- What two changes keep, both together keep. -/
theorem KeepsPlinthRegs.trans {s t u : State} (h : KeepsPlinthRegs s t) (h' : KeepsPlinthRegs t u) : KeepsPlinthRegs s u :=
  ⟨h'.1.trans h.1, fun a lo hi => (h'.2 a lo hi).trans (h.2 a lo hi)⟩

/-- What every turn of a loop keeps, the loop keeps. -/
theorem KeepsPlinthRegs.forEach {α : Type} {f : State → α → State} (h : ∀ s x, KeepsPlinthRegs s (f s x)) (l : List α)
    (s : State) : KeepsPlinthRegs s (forEach l s f) := by
  induction l generalizing s with
  | nil => exact .refl s
  | cons x l ih => exact (h s x).trans (ih (f s x))

section
variable (s : State)

/-- A write of a register outside the domain. -/
theorem keepsPlinthRegs_setReg {b : Nat} (v : Half) (h : b < 0xF00000 ∨ 0xF01000 ≤ b) : KeepsPlinthRegs s (s.setReg b v) :=
  ⟨rfl, fun a _ _ => s.reg_setReg_other v (by omega)⟩

/-- A write of a flag of TMR_STATUS. -/
theorem keepsPlinthRegs_tmrFlag (k : Fin 8) (hi lo : Nat) : KeepsPlinthRegs s (s.setFlag ⟨A.TMR_STATUS k, hi, lo⟩) :=
  have below : A.TMR_STATUS k < 0xF00000 := by unfold A.TMR_STATUS; omega
  keepsPlinthRegs_setReg s _ (.inl below)

/-- A change of a TIMER channel. -/
theorem keepsPlinthRegs_modTimer (k : Fin 8) (f : Timer → Timer) : KeepsPlinthRegs s (s.modTimer k f) := ⟨rfl, fun _ _ _ => rfl⟩

/-- A free value drawn. -/
theorem keepsPlinthRegs_draw (n : Nat) : KeepsPlinthRegs s (s.draw n).2 := ⟨rfl, fun _ _ _ => rfl⟩

/-- A line that rises on a core: its pending words are core-local. -/
theorem keepsPlinthRegs_post (c : Fin 6) (l : Nat) : KeepsPlinthRegs s (s.post c l) := by
  refine ⟨?_, fun a _ hi => s.reg_post c l a (by unfold A.EVU_PEND coreKey; omega)⟩
  obtain ⟨r, k, e⟩ := s.post_parts c l
  rw [e]

/-- A capture that lands. -/
theorem keepsPlinthRegs_tmrLand (k : Fin 8) (t : Nat) : KeepsPlinthRegs s (s.tmrLand k t) := by
  have overwritten : KeepsPlinthRegs s (if s.flag (F.TMR_STATUS_CAP_NEW k) then s.setFlag (F.TMR_STATUS_OVW k) else s) := by
    split
    · exact keepsPlinthRegs_tmrFlag s k 4 4
    · exact .refl s
  exact overwritten.trans <| (keepsPlinthRegs_modTimer _ k _).trans <|
    (keepsPlinthRegs_setReg _ _ (by unfold A.TMR_CAP_LO; omega)).trans <| (keepsPlinthRegs_tmrFlag _ k 6 6).trans <|
    (keepsPlinthRegs_tmrFlag _ k 1 1).trans <| .forEach (fun s c => keepsPlinthRegs_post s c _) _ _

/-- The captures of a channel that time has brought about. -/
theorem keepsPlinthRegs_tmrSettle (k : Fin 8) : KeepsPlinthRegs s (s.tmrSettle k) := by
  have held : KeepsPlinthRegs s (if s.timers[k].heldAt < s.hft then s.tmrHeld k else s) := by
    unfold State.tmrHeld
    split
    · split
      · exact keepsPlinthRegs_tmrLand s k _
      · exact .refl s
    · exact .refl s
  refine held.trans ?_
  unfold State.tmrSettle
  generalize (if s.timers[k].heldAt < s.hft then s.tmrHeld k else s) = t
  dsimp only
  split
  · split
    · refine (keepsPlinthRegs_modTimer t k (fun x => { x with due := none })).trans ?_
      split
      · exact keepsPlinthRegs_tmrFlag _ k 5 5
      · exact keepsPlinthRegs_tmrLand _ k _
    · exact .refl t
  · exact .refl t

/-- A capture (R323). -/
theorem keepsPlinthRegs_capture1 (k : Fin 8) (t : Nat) (coincident : Bool) : KeepsPlinthRegs s (s.capture1 k t coincident) := by
  refine (keepsPlinthRegs_tmrSettle s k).trans ?_
  unfold State.capture1
  dsimp only
  split
  · exact keepsPlinthRegs_tmrFlag _ k 5 5
  · split
    · exact keepsPlinthRegs_modTimer _ k _
    · exact keepsPlinthRegs_tmrLand _ k t

/-- An edge at a ball. -/
theorem keepsPlinthRegs_capPulse (k : Fin 8) (takes : Bool) : KeepsPlinthRegs s (s.capPulse k takes) := by
  have begun : KeepsPlinthRegs s (s.capBegin k takes) := (keepsPlinthRegs_draw s 3).trans (keepsPlinthRegs_modTimer _ k _)
  unfold State.capPulse
  split
  · split
    · exact keepsPlinthRegs_modTimer s k _
    · exact begun
  · exact begun

/-- An edge of a capture source reaches the TIMER channels, and lines of cores, alone (R322). -/
theorem keepsPlinthRegs_capEdge (src : Nat) (rising : Bool) : KeepsPlinthRegs s (s.capEdge src rising) := by
  refine .forEach (fun s k => (keepsPlinthRegs_tmrSettle s k).trans ?_) _ s
  dsimp only
  split
  · exact .refl _
  · split
    · exact (keepsPlinthRegs_draw _ 3).trans <| (keepsPlinthRegs_draw _ _).trans (keepsPlinthRegs_capture1 _ k _ _)
    · exact keepsPlinthRegs_capPulse _ k _

/-- The capture of a tick boundary. -/
theorem keepsPlinthRegs_rtcCap (t : State) : KeepsPlinthRegs t (rtcCap s t) := by
  unfold rtcCap
  split
  · exact keepsPlinthRegs_capEdge t 0x04 true
  · exact .refl t

/-- An Adsin response. -/
theorem keepsPlinthRegs_complete (w : Await) (x y : Nat) (p : List Half) : KeepsPlinthRegs s (s.complete w x y p) := by
  obtain ⟨a, e⟩ := s.complete_parts w x y p
  rw [e]
  exact ⟨rfl, fun _ _ _ => rfl⟩

/-! ## The state that a tick boundary leaves before the alarm -/

/-- The value of a tick boundary before a shift (R304). -/
def State.tickValue (s : State) : Nat := if s.flag F.PLINTH_STATUS_SET_PEND then s.eff48 A.RTC_SET_0 else s.rtc + (rtcStep s).1

/-- A shift waits, and is a backward one below 0 (R307). -/
def State.tickRefused (s : State) : Bool :=
  s.flag F.PLINTH_STATUS_SHIFT_PEND && !s.plinth.shiftFwd && decide (s.tickValue < hourTicks)

/-- The value of a tick boundary after a shift that waits (R304). -/
def State.tickShifted (s : State) : Nat :=
  if !s.flag F.PLINTH_STATUS_SHIFT_PEND then s.tickValue else if s.plinth.shiftFwd then s.tickValue + hourTicks
  else if s.tickRefused then s.tickValue else s.tickValue - hourTicks

/-- The RTC put, and CMD_ERR set where the shift is refused. -/
def State.tickPut (s : State) : State :=
  if s.tickRefused then (rtcAt s (rtcStep s).2 s.tickShifted).plinthEvt F.PLINTH_EVT_CMD_ERR
  else rtcAt s (rtcStep s).2 s.tickShifted

/-- The RTC put, the capture of TIMER, and the answer to who asked for the shift. -/
def State.tickDone (s : State) : State :=
  if s.flag F.PLINTH_STATUS_SHIFT_PEND then
    (rtcCap s s.tickPut).complete .timeShift (if s.tickRefused then stFail else stOk) 0 []
  else rtcCap s s.tickPut

/-- The tick leaves the registers that the alarm reads: it writes the RTC, PLINTH_STATUS and PLINTH_EVT alone. -/
theorem State.tickPut_alarm : s.tickPut.inForce = s.inForce ∧ s.tickPut.reg A.PLINTH_CTRL = s.reg A.PLINTH_CTRL := by
  have put : ∀ acc v, (rtcAt s acc v).inForce = s.inForce ∧ (rtcAt s acc v).reg A.PLINTH_CTRL = s.reg A.PLINTH_CTRL := by
    intro acc v
    refine ⟨rfl, ?_⟩
    unfold rtcAt State.setRtc
    rw [State.reg_setFlag_other _ _ (by decide), State.reg_setFlag_other _ _ (by decide), State.reg_setReg_other _ _ (by decide),
      State.reg_setReg_other _ _ (by decide), State.reg_setReg_other _ _ (by decide)]
    rfl
  obtain ⟨inForce, ctrl⟩ := put (rtcStep s).2 s.tickShifted
  unfold State.tickPut
  split
  · unfold State.plinthEvt State.raiseEvt
    refine ⟨((State.raise_fields _ 19).1).trans inForce, ?_⟩
    rw [State.reg_raise _ _ _ (by decide) (by decide), State.reg_setFlag_other _ _ (by decide), ctrl]
  · exact ⟨inForce, ctrl⟩

/-- A tick boundary leaves the alarm's enable and its value. -/
theorem State.tickDone_alarm :
    s.tickDone.flag F.PLINTH_CTRL_ALM_EN = s.flag F.PLINTH_CTRL_ALM_EN ∧ s.tickDone.eff48 A.RTC_ALM_0 = s.eff48 A.RTC_ALM_0 := by
  have done : KeepsPlinthRegs s.tickPut s.tickDone := by
    unfold State.tickDone
    split
    · exact (keepsPlinthRegs_rtcCap s _).trans (keepsPlinthRegs_complete _ _ _ _ _)
    · exact keepsPlinthRegs_rtcCap s _
  obtain ⟨inForce, ctrl⟩ := s.tickPut_alarm
  constructor
  · unfold State.flag State.fld
    rw [done.2 _ (by decide) (by decide), ctrl]
  · unfold State.eff48 State.eff
    rw [done.1, inForce]

/-- A tick boundary (R304): its state before the alarm, and the alarm by the enable and value from before. -/
theorem State.rtcTick_eq :
    s.rtcTick = if s.flag F.PLINTH_CTRL_ALM_EN = true ∧
        ((s.rtc < s.eff48 A.RTC_ALM_0 ∧ s.eff48 A.RTC_ALM_0 ≤ s.tickDone.rtc) ∨ s.plinth.almLate = true)
      then s.tickDone.alarmFire else s.tickDone := by
  have cap : rtcCap s s.tickPut = if !(half s.rtc).getLsbD 14 && (s.tickPut.reg A.RTC_0).getLsbD 14 then
      s.tickPut.capEdge 0x04 true else s.tickPut := by
    unfold rtcCap
    simp only [Bool.and_eq_true, Bool.not_eq_true']
  have tick : s.rtcTick = if s.tickDone.flag F.PLINTH_CTRL_ALM_EN &&
        ((decide (s.rtc < s.tickDone.eff48 A.RTC_ALM_0) && decide (s.tickDone.eff48 A.RTC_ALM_0 ≤ s.tickDone.rtc)) || s.plinth.almLate)
      then s.tickDone.alarmFire else s.tickDone := by
    unfold State.tickDone
    rw [cap]
    rfl
  obtain ⟨enable, value⟩ := s.tickDone_alarm
  rw [tick, enable, value]
  simp only [Bool.and_eq_true, Bool.or_eq_true, decide_eq_true_eq]

/-- A backward shift below 0 is refused: the RTC takes its value unshifted (R307). -/
theorem State.tickDone_refused (pend : s.flag F.PLINTH_STATUS_SHIFT_PEND = true) (back : s.plinth.shiftFwd = false)
    (below : s.tickValue < hourTicks) :
    s.tickDone = (rtcCap s ((rtcAt s (rtcStep s).2 s.tickValue).plinthEvt F.PLINTH_EVT_CMD_ERR)).complete .timeShift stFail 0 [] := by
  simp [State.tickDone, State.tickPut, State.tickShifted, State.tickRefused, pend, back, below]

/-- A backward shift that is not refused. -/
theorem State.tickDone_back (pend : s.flag F.PLINTH_STATUS_SHIFT_PEND = true) (back : s.plinth.shiftFwd = false)
    (above : hourTicks ≤ s.tickValue) :
    s.tickDone = (rtcCap s (rtcAt s (rtcStep s).2 (s.tickValue - hourTicks))).complete .timeShift stOk 0 [] := by
  simp [State.tickDone, State.tickPut, State.tickShifted, State.tickRefused, pend, back, Nat.not_lt.mpr above]

/-- A forward shift. -/
theorem State.tickDone_forward (pend : s.flag F.PLINTH_STATUS_SHIFT_PEND = true) (fwd : s.plinth.shiftFwd = true) :
    s.tickDone = (rtcCap s (rtcAt s (rtcStep s).2 (s.tickValue + hourTicks))).complete .timeShift stOk 0 [] := by
  simp [State.tickDone, State.tickPut, State.tickShifted, State.tickRefused, pend, fwd]

/-- Read after write of the RTC, in its three words. -/
theorem State.setRtc_rtc (v : Nat) : (s.setRtc v).rtc = v % 2 ^ 48 := by
  have low : (s.setRtc v).reg A.RTC_0 = half v := by
    unfold State.setRtc
    rw [State.reg_setReg_other _ _ (by decide), State.reg_setReg_other _ _ (by decide), State.reg_setReg_same]
  have mid : (s.setRtc v).reg A.RTC_1 = half (v / 65536) := by
    unfold State.setRtc
    rw [State.reg_setReg_other _ _ (by decide), State.reg_setReg_same]
  have high : (s.setRtc v).reg A.RTC_2 = half (v / 2 ^ 32) := State.reg_setReg_same _ _ _
  unfold State.rtc
  rw [State.regN, State.regN, State.regN, low, mid, high]
  simp only [half, BitVec.toNat_ofNat]
  omega

/-- The flags of PLINTH_STATUS are no word of the RTC. -/
theorem State.setPlinthStatus_rtc (hi lo : Nat) (x : Bool) : (s.setFlag ⟨A.PLINTH_STATUS, hi, lo⟩ x).rtc = s.rtc := by
  unfold State.rtc State.regN
  have word : ∀ a, a ≠ A.PLINTH_STATUS → (s.setFlag ⟨A.PLINTH_STATUS, hi, lo⟩ x).reg a = s.reg a :=
    fun _ apart => s.reg_setFlag_other x apart
  rw [word _ (by decide), word _ (by decide), word _ (by decide)]

/-- After a tick boundary the RTC reads as the value it was put at, cut to its 48 bits (R304). -/
theorem State.rtcAt_rtc (acc : Int) (v : Nat) : (rtcAt s acc v).rtc = v % 2 ^ 48 := by
  unfold rtcAt
  rw [State.setPlinthStatus_rtc, State.setPlinthStatus_rtc, State.setRtc_rtc, Nat.mod_mod]

/-! ## Writes of RTC_CMD -/

/-- A write of RTC_CMD that names no shift, or not under the key, is ignored (R307). -/
theorem State.rtcCmdWrite_ignored {w : Half} (h : w.toNat / 256 ≠ 0xB4 ∨ w.toNat % 4 = 0 ∨ w.toNat % 4 = 3) :
    s.rtcCmdWrite w = s := by
  have := w.isLt
  unfold State.rtcCmdWrite
  exact if_pos (by simp only [bits]; omega)

/-- A write of RTC_CMD under the key acts by its shift alone. -/
theorem State.rtcCmdWrite_congr {w v : Half} (key : w.toNat / 256 = v.toNat / 256) (shift : w.toNat % 4 = v.toNat % 4) :
    s.rtcCmdWrite w = s.rtcCmdWrite v := by
  have k : bits w.toNat 15 8 = bits v.toNat 15 8 := congrArg (· % 256) key
  have sh : bits w.toNat 1 0 = bits v.toNat 1 0 := by simpa [bits] using shift
  unfold State.rtcCmdWrite
  rw [k, sh]

/-- RTC_CMD stands in the Plinth domain (R17). -/
theorem placeOf_rtcCmd : placeOf A.RTC_CMD = .plinth := by decide

/-- A 16-bit access of RTC_CMD stays in the domain. -/
theorem placeSpan_rtcCmd : placeSpan A.RTC_CMD 2 = .plinth := by decide

/-- A VAULT master that reaches registers may write RTC_CMD (R17, R20). -/
theorem admitted_rtcCmd {m : Master} (vault : m.vault = true) (reaches : reachesRegs m = true) : admitted m A.RTC_CMD 2 true = true := by
  unfold admitted
  rw [placeSpan_rtcCmd, vault, reaches]
  rfl

/-- No exception stops such a write: RTC_CMD is aligned, and in no memory that the MPU guards. -/
theorem State.accessFault_rtcCmd {m : Master} (vault : m.vault = true) (reaches : reachesRegs m = true) :
    s.accessFault m A.RTC_CMD true = none := by
  unfold State.accessFault
  split
  next c =>
    split
    · unfold State.dataFault
      rw [placeOf_rtcCmd, admitted_rtcCmd vault reaches]
      simp
    · rw [placeOf_rtcCmd]
      simp
  next => rfl

/-- Such a write is one of RTC_CMD (R307). -/
theorem State.busWriteSeen_rtcCmd {m : Master} (vault : m.vault = true) (reaches : reachesRegs m = true) (w : Half) :
    s.busWriteSeen m A.RTC_CMD w = s.rtcCmdWrite w := by
  have word : half w.toNat = w := BitVec.ofNat_toNat 16 w
  have register : s.regWrite m A.RTC_CMD w = s.rtcCmdWrite w := rfl
  have bus : s.busWrite m m.coreOr0 A.RTC_CMD 2 w.toNat = some (s.regWrite m A.RTC_CMD (half w.toNat)) := by
    unfold State.busWrite
    rw [admitted_rtcCmd vault reaches, placeSpan_rtcCmd]
    rfl
  unfold State.busWriteSeen
  rw [s.accessFault_rtcCmd vault reaches, bus, word, register]
  rfl

/-- Such a write, as a command. -/
theorem exec_registerWrite_rtcCmd {m : Master} (vault : m.vault = true) (reaches : reachesRegs m = true) (w : Half) :
    exec (.registerWrite m (BitVec.ofNat 24 A.RTC_CMD) w) s = .next (s.rtcCmdWrite w) :=
  congrArg Host.Outcome.next (s.busWriteSeen_rtcCmd vault reaches w)

/-- A valid write of RTC_CMD while no shift waits (R307). -/
theorem State.rtcCmdWrite_valid {w : Half} (free : s.flag F.PLINTH_STATUS_SHIFT_PEND = false) (key : w.toNat / 256 = 0xB4)
    (shift : w.toNat % 4 = 1 ∨ w.toNat % 4 = 2) :
    s.rtcCmdWrite w = (s.setFlag F.PLINTH_STATUS_SHIFT_PEND).modPlinth (fun p => { p with shiftFwd := w.toNat % 4 = 1 }) := by
  unfold State.rtcCmdWrite
  rw [free]
  simp [bits, key]
  omega

/-- A valid write of RTC_CMD while a shift waits (R307). -/
theorem State.rtcCmdWrite_pending {w : Half} (pend : s.flag F.PLINTH_STATUS_SHIFT_PEND = true) (key : w.toNat / 256 = 0xB4)
    (shift : w.toNat % 4 = 1 ∨ w.toNat % 4 = 2) : s.rtcCmdWrite w = s.plinthEvt F.PLINTH_EVT_CMD_ERR := by
  unfold State.rtcCmdWrite
  rw [pend]
  simp [bits, key]
  omega

end

/-- Settles O43: the writes of RTC_CMD by key and shift, and the tick boundary by the shift that waits. -/
theorem hourShift : Obligations.HourShift := by
  unfold Obligations.HourShift
  intro s
  refine ⟨fun free => ?_, fun free => ?_, fun pend => ⟨?_, ?_⟩, fun m w vault reaches no => ?_, fun m w vault reaches key shift => ?_,
    fun m w vault reaches key shift => ?_, fun st v alm u runs hst pend halm hv refused back forward => ?_, s.rtcAt_rtc⟩
  · exact congrArg Host.Outcome.next (s.rtcCmdWrite_valid (w := 0xB401) free (by decide) (by decide))
  · exact congrArg Host.Outcome.next (s.rtcCmdWrite_valid (w := 0xB402) free (by decide) (by decide))
  · exact congrArg Host.Outcome.next (s.rtcCmdWrite_pending (w := 0xB401) pend (by decide) (by decide))
  · exact congrArg Host.Outcome.next (s.rtcCmdWrite_pending (w := 0xB402) pend (by decide) (by decide))
  · rw [exec_registerWrite_rtcCmd s vault reaches, s.rtcCmdWrite_ignored no]
  · exact (exec_registerWrite_rtcCmd s vault reaches w).trans (congrArg Host.Outcome.next (s.rtcCmdWrite_congr (v := 0xB401) key shift))
  · exact (exec_registerWrite_rtcCmd s vault reaches w).trans (congrArg Host.Outcome.next (s.rtcCmdWrite_congr (v := 0xB402) key shift))
  · have value : v = s.tickValue := hv.trans (by rw [hst]; rfl)
    rw [value, hst] at refused back forward
    have done : u = s.tickDone := by
      cases dir : s.plinth.shiftFwd with
      | true => exact (forward dir).trans (s.tickDone_forward pend dir).symm
      | false =>
        rcases Nat.lt_or_ge s.tickValue hourTicks with below | above
        · exact (refused dir below).trans (s.tickDone_refused pend dir below).symm
        · exact (back dir above).trans (s.tickDone_back pend dir above).symm
    rw [done, halm, ← s.rtcTick_eq, exec_rtcTick, execRtcTick, if_pos runs]

end Sys2Proof.Machine
end

section
/-! SUPPORT. Every operation of the model keeps the canonical form and the queue. -/
namespace Sys2Proof.Machine

-- One proof after the other: the many short ones would else each wait on another in a thread of its own, with a stack of its own.
set_option Elab.async false

/-- What every command keeps: the canonical form, once it holds, and the queue. -/
structure Keeps (s t : State) : Prop where
  canon : Canonical s → Canonical t
  queue : t.pending = s.pending

/-- The fields that the canonical form and the queue speak of are the same. -/
def SameStores (t u : State) : Prop :=
  u.regs = t.regs ∧ u.inForce = t.inForce ∧ u.snap = t.snap ∧ u.sram = t.sram ∧ u.recRam = t.recRam ∧ u.mram = t.mram ∧
    u.mramFlip = t.mramFlip ∧ u.pending = t.pending

/-- A command completes: it answers a next state, with the canonical form and the queue kept. -/
def Completes (s : State) (o : Out) : Prop := ∃ t, o = .next t ∧ Keeps s t

section
variable {s t u w : State}

/-- Nothing changed. -/
theorem Keeps.refl (s : State) : Keeps s s := ⟨id, rfl⟩

/-- One change after another. -/
theorem Keeps.trans (h : Keeps s t) (k : Keeps t u) : Keeps s u := ⟨k.canon ∘ h.canon, k.queue.trans h.queue⟩

/-- A change of other fields. -/
theorem Keeps.frame (h : Keeps s t) (e : SameStores t u := by exact ⟨rfl, rfl, rfl, rfl, rfl, rfl, rfl, rfl⟩) : Keeps s u := by
  obtain ⟨e1, e2, e3, e4, e5, e6, e7, e8⟩ := e
  refine h.trans ⟨fun c => ?_, e8⟩
  unfold Canonical at c ⊢
  rwa [e1, e2, e3, e4, e5, e6, e7]

/-- A command that answers such a state completes. -/
theorem Completes.next (h : Keeps s t) : Completes s (.next t) := ⟨t, rfl, h⟩

/-- One of two changes. -/
theorem Keeps.ite {c : Prop} {_ : Decidable c} (h : Keeps s t) (k : Keeps s u) : Keeps s (if c then t else u) := by
  split
  · exact h
  · exact k

/-- One of two changes, each with a value. -/
theorem Keeps.iteSnd {α : Type} {c : Prop} {_ : Decidable c} {x y : α × State} (h : Keeps s x.2) (k : Keeps s y.2) :
    Keeps s (if c then x else y).2 := by
  split
  · exact h
  · exact k

/-- One of two changes, each with two values. -/
theorem Keeps.iteThd {α β : Type} {c : Prop} {_ : Decidable c} {x y : α × β × State} (h : Keeps s x.2.2) (k : Keeps s y.2.2) :
    Keeps s (if c then x else y).2.2 := by
  split
  · exact h
  · exact k

/-- One of two changes, each by the test. -/
theorem Keeps.dite {c : Prop} {_ : Decidable c} {f : c → State} {g : ¬c → State} (h : ∀ x, Keeps s (f x))
    (k : ∀ x, Keeps s (g x)) :
    Keeps s (if x : c then f x else g x) := by
  split
  · exact h _
  · exact k _

/-- The state of a pair. -/
theorem Keeps.ofEq {α : Type} {p : α × State} {x : α} (h : Keeps s p.2) (e : p = (x, t)) : Keeps s t := by
  subst e
  exact h

/-- A change with a value. -/
theorem Keeps.snd {α : Type} {x : α} (h : Keeps s t) : Keeps s (x, t).2 := h

/-- A change for each element of a list. -/
theorem Keeps.foldl {α : Type} {f : State → α → State} {l : List α} (hf : ∀ u x, Keeps s u → Keeps s (f u x)) (h : Keeps s t) :
    Keeps s (l.foldl f t) := by
  induction l generalizing t with
  | nil => exact h
  | cons x l ih => exact ih (hf t x h)

/-- A change for each element of a list, in the model's spelling. -/
theorem Keeps.forEach {α : Type} {f : State → α → State} {l : List α} (hf : ∀ u x, Keeps s u → Keeps s (f u x))
    (h : Keeps s t) : Keeps s (forEach l t f) := h.foldl hf

/-- A register written. -/
theorem Keeps.setReg (h : Keeps s t) {a v} : Keeps s (t.setReg a v) := by
  refine h.trans ⟨fun ⟨r, rest⟩ => ⟨sparseWf_sparseSet _ _ _ _ r, rest⟩, rfl⟩

/-- A register put in force. -/
theorem Keeps.setEff (h : Keeps s t) {a v} : Keeps s (t.setEff a v) := by
  refine h.trans ⟨fun ⟨r, f, rest⟩ => ⟨r, sparseWf_sparseSet _ _ _ _ f, rest⟩, rfl⟩

/-- Registers reset. -/
theorem Keeps.resetRegs (h : Keeps s t) {lo hi} : Keeps s (t.resetRegs lo hi) := by
  refine h.trans ⟨fun ⟨r, f, n, rest⟩ =>
    ⟨sparseWf_sparseClear _ _ _ _ r, sparseWf_sparseClear _ _ _ _ f, sparseWf_sparseClear _ _ _ _ n, rest⟩, rfl⟩

/-- A snapshot taken. -/
theorem Keeps.takeSnap (h : Keeps s t) {l} : Keeps s (t.takeSnap l) := by
  refine h.trans ⟨fun ⟨r, f, n, rest⟩ => ⟨r, f, sparseWf_foldl_sparseSet _ _ _ _ _ n, rest⟩, rfl⟩

/-- MRAM as another change leaves it. -/
theorem Keeps.mramOf (h : Keeps s t) (k : Keeps s u) {free : Nat} :
    Keeps s { t with mram := u.mram, mramFlip := u.mramFlip, free := free } :=
  ⟨fun c => by
    obtain ⟨r, f, n, sr, rr, -, -⟩ := h.canon c
    obtain ⟨-, -, -, -, -, m, x⟩ := k.canon c
    exact ⟨r, f, n, sr, rr, m, x⟩, h.queue⟩

/-- A commit. -/
theorem Keeps.commit (h : Keeps s t) {l} : Keeps s (t.commit l) := h.foldl fun _ _ h => h.setEff

/-! ## Ops -/

theorem Keeps.setReg32 (h : Keeps s t) {a v} : Keeps s (t.setReg32 a v) := h.setReg.setReg

theorem Keeps.setFld (h : Keeps s t) {f n} : Keeps s (t.setFld f n) := h.setReg

theorem Keeps.setFlag (h : Keeps s t) {f b} : Keeps s (t.setFlag f b) := h.setFld

theorem Keeps.countFld (h : Keeps s t) {f n} : Keeps s (t.countFld f n) := h.setFld

theorem Keeps.count (h : Keeps s t) {a n} : Keeps s (t.count a n) := h.setReg

theorem Keeps.plainWrite (h : Keeps s t) {a w} : Keeps s (t.plainWrite a w) := h.setReg

theorem Keeps.plainRead (h : Keeps s t) {a} : Keeps s (t.plainRead a).2 := .snd h.setReg

theorem Keeps.sramPut (h : Keeps s t) {a l} : Keeps s (t.sramPut a l) := by
  unfold State.sramPut
  split
  · exact h.trans ⟨fun ⟨r, f, n, sr, rest⟩ => ⟨r, f, n, memPut_wf _ _ _ _ sr, rest⟩, rfl⟩
  · exact h

theorem Keeps.setSramHalf (h : Keeps s t) {a v} : Keeps s (t.setSramHalf a v) := h.sramPut

theorem Keeps.setSramWords (h : Keeps s t) {a l} : Keeps s (t.setSramWords a l) := h.sramPut

theorem Keeps.mramPut (h : Keeps s t) {a l} : Keeps s (t.mramPut a l) := by
  unfold State.mramPut
  split
  · exact h.trans ⟨fun ⟨r, f, n, sr, rr, m, rest⟩ => ⟨r, f, n, sr, rr, memPut_wf _ _ _ _ m, rest⟩, rfl⟩
  · exact h

theorem Keeps.draw (h : Keeps s t) {n} : Keeps s (t.draw n).2 := .snd h.frame

theorem Keeps.drawOctets (h : Keeps s t) {n} : Keeps s (t.drawOctets n).2 := .snd h.frame

theorem Keeps.passTo (h : Keeps s t) {t'} : Keeps s (t.passTo t') := h.frame

theorem Keeps.modRadio (h : Keeps s t) {f} : Keeps s (t.modRadio f) := h.frame

theorem Keeps.modRfe (h : Keeps s t) {b f} : Keeps s (t.modRfe b f) := by
  unfold State.modRfe
  exact h.modRadio

theorem Keeps.modLane (h : Keeps s t) {n f} : Keeps s (t.modLane n f) := h.modRadio

theorem Keeps.modFrame (h : Keeps s t) {fid g} : Keeps s (t.modFrame fid g) := h.modRadio

theorem Keeps.dropFrame (h : Keeps s t) {fid} : Keeps s (t.dropFrame fid) := h.modRadio

theorem Keeps.modRec (h : Keeps s t) {f} : Keeps s (t.modRec f) := h.modRadio

theorem Keeps.modCourse (h : Keeps s t) {f} : Keeps s (t.modCourse f) := h.modRadio

theorem Keeps.modHod (h : Keeps s t) {f} : Keeps s (t.modHod f) := h.modRadio

theorem Keeps.modAshlar (h : Keeps s t) {f} : Keeps s (t.modAshlar f) := h.modRadio

theorem Keeps.modCrypto (h : Keeps s t) {f} : Keeps s (t.modCrypto f) := h.frame

theorem Keeps.modKeys (h : Keeps s t) {f} : Keeps s (t.modKeys f) := h.frame

theorem Keeps.modPke (h : Keeps s t) {f} : Keeps s (t.modPke f) := h.frame

theorem Keeps.modTrng (h : Keeps s t) {f} : Keeps s (t.modTrng f) := h.frame

theorem Keeps.modAccess (h : Keeps s t) {f} : Keeps s (t.modAccess f) := h.frame

theorem Keeps.modSess (h : Keeps s t) {f} : Keeps s (t.modSess f) := h.modAccess

theorem Keeps.modCore (h : Keeps s t) {c f} : Keeps s (t.modCore c f) := h.frame

theorem Keeps.modThr (h : Keeps s t) {c t' f} : Keeps s (t.modThr c t' f) := h.modCore

theorem Keeps.modNvm (h : Keeps s t) {f} : Keeps s (t.modNvm f) := h.frame

theorem Keeps.modSys (h : Keeps s t) {f} : Keeps s (t.modSys f) := h.frame

theorem Keeps.modPlinth (h : Keeps s t) {f} : Keeps s (t.modPlinth f) := h.frame

theorem Keeps.modTimer (h : Keeps s t) {k f} : Keeps s (t.modTimer k f) := h.frame

theorem Keeps.modUart (h : Keeps s t) {f} : Keeps s (t.modUart f) := h.frame

theorem Keeps.modAdsin (h : Keeps s t) {f} : Keeps s (t.modAdsin f) := h.frame

theorem Keeps.modChan (h : Keeps s t) {k f} : Keeps s (t.modChan k f) := h.modAdsin

theorem Keeps.modFabric (h : Keeps s t) {f} : Keeps s (t.modFabric f) := h.frame

theorem Keeps.modAssay (h : Keeps s t) {f} : Keeps s (t.modAssay f) := h.frame

theorem Keeps.modUpdate (h : Keeps s t) {f} : Keeps s (t.modUpdate f) := h.frame

theorem Keeps.modDebug (h : Keeps s t) {f} : Keeps s (t.modDebug f) := h.frame

theorem Keeps.see (h : Keeps s t) {x} : Keeps s (t.see x) := h.frame

/-! ## Entropy -/

theorem Keeps.drbg (h : Keeps s t) {n} : Keeps s (t.drbg n).2 := .snd h.modTrng

theorem Keeps.trngFill (h : Keeps s t) : Keeps s t.trngFill := by
  unfold State.trngFill
  dsimp only
  exact .ite h.drbg.setFlag.modTrng h

/-! ## Events -/

theorem Keeps.wakeThreads (h : Keeps s t) {c} : Keeps s (t.wakeThreads c) := by
  unfold State.wakeThreads
  exact .modCore (.forEach (fun _ _ h1 => .ite h1.modCore h1) h)

theorem Keeps.post (h : Keeps s t) {c l} : Keeps s (t.post c l) := h.setReg.wakeThreads

theorem Keeps.postAll (h : Keeps s t) {cs l} : Keeps s (t.postAll cs l) := .forEach (fun _ _ h1 => h1.post) h

theorem Keeps.repost (h : Keeps s t) {c} : Keeps s (t.repost c) := .forEach (fun _ _ h1 => .ite h1.post h1) h

theorem Keeps.event (h : Keeps s t) {chans cls code payload} : Keeps s (t.event chans cls code payload) :=
  .ite (.forEach (fun _ _ h1 => h1.modChan) h) h

theorem Keeps.faultEvent (h : Keeps s t) {l} : Keeps s (t.faultEvent l) := by
  unfold State.faultEvent
  split
  · exact h.event
  · exact h.event
  · exact h.event
  · exact h

theorem Keeps.raise (h : Keeps s t) {l} : Keeps s (t.raise l) := h.postAll.faultEvent

theorem Keeps.threadHalted (h : Keeps s t) {c} : Keeps s (t.threadHalted c) := by
  unfold State.threadHalted
  exact .ite h.post h.post.raise

theorem Keeps.raiseEvt (h : Keeps s t) {f l} : Keeps s (t.raiseEvt f l) := h.setFlag.raise

theorem Keeps.complete (h : Keeps s t) {w status detail payload} : Keeps s (t.complete w status detail payload) :=
  .forEach (fun _ _ h1 => h1.modChan) h

theorem Keeps.cfgPush (h : Keeps s t) {payload next} : Keeps s (t.cfgPush payload next) := by
  unfold State.cfgPush
  exact h.modUpdate

/-! ## Recorder -/

theorem Keeps.latch (h : Keeps s t) {l} : Keeps s (t.latch l) := .forEach (fun _ _ h1 => h1.setEff) h

theorem Keeps.recArm (h : Keeps s t) : Keeps s t.recArm := by
  unfold State.recArm
  exact .ite h (.ite (.modRec (.setFld (.forEach (fun _ _ h1 => h1.setReg) h.commit.latch))) h.setFlag)

theorem Keeps.recStop (h : Keeps s t) : Keeps s t.recStop := by
  unfold State.recStop
  exact .ite h.setFld (.ite h.setFld.setReg h)

theorem Keeps.recTrigger (h : Keeps s t) : Keeps s t.recTrigger := by
  unfold State.recTrigger
  exact .ite h.count (.ite h.setReg32.setReg.setReg.setFld h)

theorem Keeps.recSource (h : Keeps s t) {f} : Keeps s (t.recSource f) := .ite h.recTrigger h

theorem Keeps.recLane (h : Keeps s t) {f n} : Keeps s (t.recLane f n) := .ite h.recSource h

theorem Keeps.recOverload (h : Keeps s t) {b} : Keeps s (t.recOverload b) := by
  unfold State.recOverload
  dsimp only
  exact .ite h.recSource h

theorem Keeps.recStore (h : Keeps s t) {index g} : Keeps s (t.recStore index g) :=
  h.trans ⟨fun ⟨r, f, n, sr, rr, rest⟩ => ⟨r, f, n, sr, memPut_wf _ _ _ _ rr, rest⟩, rfl⟩

theorem Keeps.recGroup (h : Keeps s t) {data} : Keeps s (t.recGroup data) := by
  unfold State.recGroup
  exact .ite (.ite h h.recStore.modRec) (.ite (.ite h.modRec.setReg.recStore (.ite h.modRec.setReg.modRec
      h.modRec.modRec.count.setFlag)) h)

theorem Keeps.recDrain (h : Keeps s t) : Keeps s t.recDrain := by
  unfold State.recDrain
  split
  · exact h
  · exact h.sramPut.modRec

theorem Keeps.execRecDone (h : Keeps s t) : Completes s (execRecDone t) := by
  unfold Machine.execRecDone
  exact .next (.ite h.setFld.raise.event h)

theorem Keeps.recConfigWrite (h : Keeps s t) {a w} : Keeps s (t.recConfigWrite a w) := by
  unfold State.recConfigWrite
  exact .ite h.plainWrite.commit h.plainWrite

theorem Keeps.recCmdWrite (h : Keeps s t) {w} : Keeps s (t.recCmdWrite w) := by
  unfold State.recCmdWrite
  split
  · exact h.recArm
  · exact h.recTrigger
  · exact h
  · exact h.recStop

/-! ## Lane -/

theorem Keeps.setLaneState (h : Keeps s t) {n st} : Keeps s (t.setLaneState n st) := h.setFld

theorem Keeps.enterSearch (h : Keeps s t) {n} : Keeps s (t.enterSearch n) := by
  unfold State.enterSearch
  exact h.commit.modLane.setLaneState

theorem Keeps.retune (h : Keeps s t) {n e} : Keeps s (t.retune n e) := by
  unfold State.retune
  exact .ite h.setReg.setReg.modLane.setLaneState h.setReg.setReg.enterSearch

theorem Keeps.abandon (h : Keeps s t) {n} : Keeps s (t.abandon n) := by
  unfold State.abandon
  dsimp only
  exact .enterSearch (by
  split
  · exact h.dropFrame
  · exact h)

theorem Keeps.laneTick (h : Keeps s t) {n w0 w1} : Keeps s (t.laneTick n w0 w1) := by
  unfold State.laneTick
  dsimp only
  exact .ite h (.ite h.setLaneState (.ite (.ite (.modLane (by
  split
  · exact .modFrame (.ite h.setFlag.raise h)
  · exact .ite h.setFlag.raise h)) (.count (.modLane (by
  split
  · exact .modFrame (.ite h.setFlag.raise h)
  · exact .ite h.setFlag.raise h)))) (.ite (.ite (.retune (.ite h.setFlag.raise h)) (.ite h.setFlag.raise h)) (.ite (.retune
      (.abandon (.count (.ite h.setFlag.raise h)))) (.retune (.ite h.setFlag.raise h))))))

theorem Keeps.afterFrame (h : Keeps s t) {n} : Keeps s (t.afterFrame n) := by
  unfold State.afterFrame
  split
  · exact h.modLane.retune
  · exact h.enterSearch

theorem Keeps.handoffRegs (h : Keeps s t) {n f h'} : Keeps s (t.handoffRegs n f h') := by
  unfold State.handoffRegs
  exact .ite (.recLane (.ite h.setReg.setReg.setReg.setReg.setReg.setReg32.setReg32.count.recLane
      h.setReg.setReg.setReg.setReg.setReg.setReg32.setReg32.count)) (.ite
      h.setReg.setReg.setReg.setReg.setReg.setReg32.setReg32.count.recLane
      h.setReg.setReg.setReg.setReg.setReg.setReg32.setReg32.count)

theorem Keeps.handoff (h : Keeps s t) {n f h'} : Keeps s (t.handoff n f h') := by
  unfold State.handoff
  dsimp only
  split
  · exact .ite (.dropFrame (.ite h.handoffRegs.modAccess h.handoffRegs)) (.modFrame (.ite h.handoffRegs.modAccess
      h.handoffRegs))
  · exact .dropFrame (.ite h.handoffRegs.modAccess h.handoffRegs)

theorem Keeps.cutOctets (h : Keeps s t) {f t'} : Keeps s (t.cutOctets f t').2 := by
  unfold State.cutOctets
  dsimp only
  exact .iteSnd (.snd h.draw) h

theorem Keeps.laneCut (h : Keeps s t) {n} : Keeps s (t.laneCut n) := by
  unfold State.laneCut
  dsimp only
  refine .ite ?_ ?_
  · exact .afterFrame (by
      split
      · exact h.count.dropFrame
      · exact h.count)
  · refine .ite ?_ ?_
    · split
      · exact h.cutOctets.draw.draw.modFrame.handoff.afterFrame
      · exact h.afterFrame
    · exact h

theorem Keeps.laneMuted (h : Keeps s t) {n} : Keeps s (t.laneMuted n) := by
  unfold State.laneMuted
  split
  · exact .ite h h.laneCut
  · exact h.laneCut

theorem Keeps.cutLanes (h : Keeps s t) {b} : Keeps s (t.cutLanes b) := .forEach (fun _ _ h1 => .ite h1.laneMuted h1) h

theorem Keeps.laneLeave (h : Keeps s t) {n st} : Keeps s (t.laneLeave n st) := .ite h h.laneCut.setLaneState.modLane

theorem Keeps.laneMarker (h : Keeps s t) {n c} : Keeps s (t.laneMarker n c) := by
  unfold State.laneMarker
  dsimp only
  refine .ite ?_ ?_
  · exact h
  · refine .ite ?_ ?_
    · exact h.modLane
    · split
      · exact h.modLane
      · exact .ite (.modLane (.ite h.modLane h.modLane.modFrame)) (.ite h.modLane h.modLane.modFrame)

theorem Keeps.markBand (h : Keeps s t) {b c} : Keeps s (t.markBand b c) := .forEach (fun _ _ h1 => .ite h1.laneMarker h1) h

theorem Keeps.adaptTaps (h : Keeps s t) {n dfe} : Keeps s (t.adaptTaps n dfe) := by
  unfold State.adaptTaps
  exact .ite h h.modLane

theorem Keeps.execDgainAdjust (h : Keeps s t) {n lvl} : Completes s (execDgainAdjust n lvl t) := by
  unfold Machine.execDgainAdjust
  exact .next (.ite (.ite h.modLane h) h)

theorem Keeps.execNotchEngage (h : Keeps s t) {x} : Completes s (execNotchEngage x t) := by
  unfold Machine.execNotchEngage
  exact .next (.ite h (.ite h.modLane h))

theorem Keeps.execPreambleDetect (h : Keeps s t) {n x} : Completes s (execPreambleDetect n x t) := by
  unfold Machine.execPreambleDetect
  dsimp only
  exact .next (by
  split
  · exact h
  · exact .ite h.modRadio.modLane.setLaneState h)

theorem Keeps.preambleEnd (h : Keeps s t) {n} : Keeps s (t.preambleEnd n) := .ite h.count.abandon h

theorem Keeps.execSfdFound (h : Keeps s t) {n coded errs} : Completes s (execSfdFound n coded errs t) := by
  unfold Machine.execSfdFound
  dsimp only
  exact .next (by
  refine .ite ?_ ?_
  · split
    · exact h.adaptTaps.modFrame.modLane.setLaneState.recLane
    · exact h
  · exact h)

theorem Keeps.execPhrValid (h : Keeps s t) {n phr octets} : Completes s (execPhrValid n phr octets t) := by
  unfold Machine.execPhrValid
  dsimp only
  exact .next (by
  refine .ite ?_ ?_
  · split
    · exact h.adaptTaps.modFrame.setLaneState
    · exact h
  · exact h)

theorem Keeps.execPhrRejected (h : Keeps s t) {n phr} : Completes s (execPhrRejected n phr t) := by
  unfold Machine.execPhrRejected
  dsimp only
  exact .next (.ite (.afterFrame (by
  split
  · exact h.count.dropFrame
  · exact h.count)) h)

theorem Keeps.handoffWhole (h : Keeps s t) {n f rssi snr err} : Keeps s (t.handoffWhole n f rssi snr err) := by
  unfold State.handoffWhole
  dsimp only
  exact .afterFrame (.ite h.passTo.handoff.setFlag.raise.recLane h.passTo.handoff)

/-! ## Rfe -/

theorem Keeps.femDrive (h : Keeps s t) {b p v} : Keeps s (t.femDrive b p v) := h.modRfe

theorem Keeps.syncMute (h : Keeps s t) {b} : Keeps s (t.syncMute b) := by
  unfold State.syncMute
  exact .ite h.setFlag.cutLanes.modRfe (.ite h.setFlag.modRfe h.setFlag)

theorem Keeps.txDone (h : Keeps s t) {asn e code} : Keeps s (t.txDone asn e code) := by
  unfold State.txDone
  dsimp only
  split
  · exact .event (.modAdsin (.ite h h.modFabric))
  · exact .ite h h.modFabric

theorem Keeps.txResult (h : Keeps s t) {e code} : Keeps s (t.txResult e code) := h.setFld.txDone

theorem Keeps.carrierResult (h : Keeps s t) {b c code} : Keeps s (t.carrierResult b c code) := by
  unfold State.carrierResult
  dsimp only
  split
  · exact h
  · exact .ite (.ite h.modCourse.setFld h.setFlag) h.txResult

theorem Keeps.abortCarriers (h : Keeps s t) {b} : Keeps s (t.abortCarriers b) := by
  unfold State.abortCarriers
  exact .ite (.forEach (fun _ _ h1 => h1.carrierResult) h.modRfe) (.setFlag (.forEach (fun _ _ h1 => h1.carrierResult)
      h.modRfe))

theorem Keeps.applyTx (h : Keeps s t) {b} : Keeps s (t.applyTx b) := by
  unfold State.applyTx
  exact h.commit.setFld

theorem Keeps.txConfigWrite (h : Keeps s t) {b a w} : Keeps s (t.txConfigWrite b a w) := by
  unfold State.txConfigWrite
  exact .ite h.plainWrite h.plainWrite.applyTx

theorem Keeps.addCarrier (h : Keeps s t) {b c} : Keeps s (t.addCarrier b c) := h.modRfe

theorem Keeps.setGain (h : Keeps s t) {b i} : Keeps s (t.setGain b i) := by
  unfold State.setGain
  exact .ite h h.setFld.modRfe.markBand

theorem Keeps.disableNow (h : Keeps s t) {b} : Keeps s (t.disableNow b) := by
  unfold State.disableNow
  exact h.commit.modRfe.setFlag.setFlag.setFlag.syncMute.setFld.commit.applyTx

theorem Keeps.feEnable (h : Keeps s t) {b} : Keeps s (t.feEnable b) := by
  unfold State.feEnable
  exact .ite h.setFlag.modRfe (.ite h.setFlag h.setFlag.commit.modRfe)

theorem Keeps.feDisable (h : Keeps s t) {b} : Keeps s (t.feDisable b) := by
  unfold State.feDisable
  exact .ite h.setFlag (.ite h.setFlag.modRfe h.setFlag.abortCarriers.disableNow)

theorem Keeps.feXoLoss (h : Keeps s t) {b} : Keeps s (t.feXoLoss b) := by
  unfold State.feXoLoss
  exact .ite h.setFlag.abortCarriers.disableNow h.setFlag

theorem Keeps.rfeCtrlWrite (h : Keeps s t) {b w} : Keeps s (t.rfeCtrlWrite b w) := by
  unfold State.rfeCtrlWrite
  exact .ite h.plainWrite.setFld.feEnable h.plainWrite.setFld.feDisable

theorem Keeps.execLoLock (h : Keeps s t) {b} : Completes s (execLoLock b t) := by
  unfold Machine.execLoLock
  exact .next (.ite h (.ite h.modRfe (.ite h.modRfe h)))

theorem Keeps.applyCorrections (h : Keeps s t) {b} : Keeps s (t.applyCorrections b) := h.modRfe

theorem Keeps.execFeCorrectionsApply (h : Keeps s t) {b} : Completes s (execFeCorrectionsApply b t) := by
  unfold Machine.execFeCorrectionsApply
  exact .next (.ite h.passTo.applyCorrections.modRfe h)

theorem Keeps.execFeReady (h : Keeps s t) {b} : Completes s (execFeReady b t) := by
  unfold Machine.execFeReady
  exact .next (.ite h.passTo.setGain.modRfe.setFlag.syncMute.complete (.ite h.passTo.modRfe.syncMute h))

theorem Keeps.execLockFail (h : Keeps s t) {b} : Completes s (execLockFail b t) := by
  unfold Machine.execLockFail
  exact .next (.ite h.passTo.setFlag.complete h)

theorem Keeps.execLockLost (h : Keeps s t) {b} : Completes s (execLockLost b t) := by
  unfold Machine.execLockLost
  dsimp only
  exact .next (.ite h (.event (.raise (.syncMute (.setFlag (.ite h.modRfe.abortCarriers.setFlag h.modRfe.abortCarriers))))))

theorem Keeps.execFeDisableTakesEffect (h : Keeps s t) {b} : Completes s (execFeDisableTakesEffect b t) := by
  unfold Machine.execFeDisableTakesEffect
  dsimp only
  exact .next (by
  split
  · exact .ite h.passTo.disableNow h
  · exact h)

theorem Keeps.spanWrite (h : Keeps s t) {b w} : Keeps s (t.spanWrite b w) := by
  unfold State.spanWrite
  exact .ite h.plainWrite h.plainWrite.commit

theorem Keeps.execLevelWindow (h : Keeps s t) {b lvl} : Completes s (execLevelWindow b lvl t) := by
  unfold Machine.execLevelWindow
  dsimp only
  exact .next (.ite h h.modRfe)

theorem Keeps.execOverload (h : Keeps s t) {x} : Completes s (execOverload x t) := by
  unfold Machine.execOverload
  exact .next (.ite h (.ite h.count.modRfe h.modRfe))

theorem Keeps.execGainStep (h : Keeps s t) {b} : Completes s (execGainStep b t) := by
  unfold Machine.execGainStep
  exact .next (by
  split
  · exact .ite h h.passTo.modRfe
  · exact h)

theorem Keeps.execGainMarker (h : Keeps s t) {b} : Completes s (execGainMarker b t) := by
  unfold Machine.execGainMarker
  exact .next (.ite h.modRfe.setGain.count.recOverload h)

theorem Keeps.rfeTick (h : Keeps s t) {b first} : Keeps s (t.rfeTick b first) := by
  unfold State.rfeTick
  dsimp only
  exact .ite h.setReg.modRfe h.setReg.modRfe.setGain

theorem Keeps.calRequest (h : Keeps s t) {b k} : Keeps s (t.calRequest b k) := h.setFlag

theorem Keeps.calCmdWrite (h : Keeps s t) {b w} : Keeps s (t.calCmdWrite b w) := by
  unfold State.calCmdWrite
  exact .ite (.calRequest (.ite (.calRequest (.ite h.calRequest h)) (.ite h.calRequest h))) (.ite (.calRequest (.ite
      h.calRequest h)) (.ite h.calRequest h))

theorem Keeps.execCalibrationStart (h : Keeps s t) {b} : Completes s (execCalibrationStart b t) := by
  unfold Machine.execCalibrationStart
  dsimp only
  exact .next (by
  split
  · exact h
  · exact .ite h.modRfe.setFlag.syncMute h)

theorem Keeps.calStore (h : Keeps s t) {b k m} : Keeps s (t.calStore b k m) := by
  unfold State.calStore
  dsimp only
  split
  · exact h.setReg.modRfe
  · exact h.modRfe
  · exact h.setReg.setReg.setReg.setReg.modRfe

theorem Keeps.calRan (h : Keeps s t) {b k} : Keeps s (t.calRan b k) := by
  unfold State.calRan
  dsimp only
  exact h.modRfe

theorem Keeps.recalibrate (h : Keeps s t) {b} : Keeps s (t.recalibrate b) := by
  unfold State.recalibrate
  exact .modRfe (.ite (.calRequest (.ite h.calRequest h)) (.ite h.calRequest h))

theorem Keeps.execCalibrationEnd (h : Keeps s t) {b m} : Completes s (execCalibrationEnd b m t) := by
  unfold Machine.execCalibrationEnd
  dsimp only
  exact .next (by
  split
  · exact h
  · exact .event (.syncMute (.setFlag (.modRfe (.ite h.setFlag.calRan.setFlag h.setFlag.calRan.calStore)))))

theorem Keeps.trimWrite (h : Keeps s t) {w} : Keeps s (t.trimWrite w) := by
  unfold State.trimWrite
  exact .ite h.plainWrite h.plainWrite.commit

theorem Keeps.femWrite (h : Keeps s t) {b a w} : Keeps s (t.femWrite b a w) := by
  unfold State.femWrite
  exact .ite h.plainWrite h.plainWrite.commit.modRfe

theorem Keeps.execBurstSequencingStart (h : Keeps s t) {b} : Completes s (execBurstSequencingStart b t) := by
  unfold Machine.execBurstSequencingStart
  dsimp only
  exact .next (by
  refine .ite ?_ ?_
  · exact h
  · split
    · exact h
    · exact h.passTo.modRfe.setFlag.syncMute)

theorem Keeps.execFemTxEdge (h : Keeps s t) {b p} : Completes s (execFemTxEdge b p t) := by
  unfold Machine.execFemTxEdge
  dsimp only
  exact .next (by
  split
  · exact .ite h h.passTo.femDrive.modRfe
  · exact h)

theorem Keeps.execDriverRampUp (h : Keeps s t) {b} : Completes s (execDriverRampUp b t) := by
  unfold Machine.execDriverRampUp
  dsimp only
  exact .next (by
  split
  · exact .ite h.passTo.modRfe h
  · exact h)

theorem Keeps.execCarrierStart (h : Keeps s t) {b} : Completes s (execCarrierStart b t) := by
  unfold Machine.execCarrierStart
  dsimp only
  exact .next (by
  split
  · exact .ite h.passTo.modRfe h
  · exact h)

theorem Keeps.carrierEnd (h : Keeps s t) {b} : Keeps s (t.carrierEnd b) := by
  unfold State.carrierEnd
  dsimp only
  split
  · exact h.passTo.modRfe.carrierResult
  · exact h

theorem Keeps.execBurstEnd (h : Keeps s t) {b} : Completes s (execBurstEnd b t) := by
  unfold Machine.execBurstEnd
  dsimp only
  exact .next (by
  split
  · exact .ite h.modRfe h
  · exact h)

theorem Keeps.execDriverOff (h : Keeps s t) {b} : Completes s (execDriverOff b t) := by
  unfold Machine.execDriverOff
  dsimp only
  exact .next (by
  split
  · split
    · exact h.passTo.modRfe.setFlag.applyTx
    · exact h
  · exact h)

theorem Keeps.execFemRxEdge (h : Keeps s t) {b p} : Completes s (execFemRxEdge b p t) := by
  unfold Machine.execFemRxEdge
  dsimp only
  exact .next (by
  split
  · exact h.passTo.femDrive.modRfe
  · split
    · exact .ite h.passTo.femDrive.modRfe h
    · exact h)

theorem Keeps.execBurstMuteEnd (h : Keeps s t) {b} : Completes s (execBurstMuteEnd b t) := by
  unfold Machine.execBurstMuteEnd
  dsimp only
  exact .next (by
  split
  · split
    · exact .ite h.passTo.disableNow h.passTo.modRfe.syncMute
    · exact h
  · exact h)

/-! ## Timer -/

theorem Keeps.tmrSet (h : Keeps s t) {k c} : Keeps s (t.tmrSet k c) := h.modTimer

theorem Keeps.tmrTest (h : Keeps s t) {k} : Keeps s (t.tmrTest k) := by
  unfold State.tmrTest
  exact h.tmrSet.modTimer

theorem Keeps.putPair (h : Keeps s t) {lo v held} : Keeps s (t.putPair lo v held) := by
  unfold State.putPair
  exact .ite h.setEff.setEff.setReg h.setEff.setEff.setReg.setReg

theorem Keeps.tmrLatch (h : Keeps s t) {k c} : Keeps s (t.tmrLatch k c) := h.setFlag.putPair.tmrSet

theorem Keeps.tmrRaise (h : Keeps s t) {k f} : Keeps s (t.tmrRaise k f) := h.setFlag.postAll

theorem Keeps.execTimerCompareFire (h : Keeps s t) {k} : Completes s (execTimerCompareFire k t) := by
  unfold Machine.execTimerCompareFire
  exact .next (.ite (.ite (.modTimer (.tmrLatch (.ite h.passTo.tmrRaise.count.setFlag h.passTo.tmrRaise.count))) (.modTimer
      (.putPair (.ite h.passTo.tmrRaise.count.setFlag h.passTo.tmrRaise.count)))) h)

theorem Keeps.tmrCntWrite (h : Keeps s t) {k hi w} : Keeps s (t.tmrCntWrite k hi w) := by
  unfold State.tmrCntWrite
  exact .ite h.setReg.modTimer (.ite h.modTimer.setReg.setFlag h.modTimer.setReg.commit.tmrSet)

theorem Keeps.tmrCmpWrite (h : Keeps s t) {k hi w} : Keeps s (t.tmrCmpWrite k hi w) := by
  unfold State.tmrCmpWrite
  dsimp only
  exact .ite h.setReg.modTimer (.tmrTest (.commit (.setReg (.modTimer (by
  split
  · exact .ite h.setReg h
  · exact h)))))

theorem Keeps.tmrWorldWrite (h : Keeps s t) {w} : Keeps s (t.tmrWorldWrite w) :=
  .forEach (fun _ _ h1 => .ite h1.postAll h1) h.plainWrite

theorem Keeps.tmrCtrlWrite (h : Keeps s t) {k w} : Keeps s (t.tmrCtrlWrite k w) := by
  unfold State.tmrCtrlWrite
  exact .ite h.plainWrite.tmrLatch (.ite h.plainWrite.tmrSet.modTimer.tmrTest h.plainWrite.tmrSet.modTimer)

theorem Keeps.tmrLand (h : Keeps s t) {k t'} : Keeps s (t.tmrLand k t') := by
  unfold State.tmrLand
  exact .tmrRaise (.setFlag (.setReg (.modTimer (.ite h.setFlag h))))

theorem Keeps.tmrHeld (h : Keeps s t) {k} : Keeps s (t.tmrHeld k) := by
  unfold State.tmrHeld
  split
  · exact h.tmrLand
  · exact h

theorem Keeps.tmrSettle (h : Keeps s t) {k} : Keeps s (t.tmrSettle k) := by
  unfold State.tmrSettle
  dsimp only
  split
  · exact .ite (.ite (.setFlag (.modTimer (.ite h.tmrHeld h))) (.tmrLand (.modTimer (.ite h.tmrHeld h)))) (.ite h.tmrHeld h)
  · exact .ite h.tmrHeld h

theorem Keeps.capTime (h : Keeps s t) : Keeps s t.capTime.2 := by
  unfold State.capTime
  dsimp only
  exact h.draw

theorem Keeps.capture1 (h : Keeps s t) {k t' coincident} : Keeps s (t.capture1 k t' coincident) := by
  unfold State.capture1
  exact .ite h.tmrSettle.setFlag (.ite h.tmrSettle.modTimer h.tmrSettle.tmrLand)

theorem Keeps.capBegin (h : Keeps s t) {k takes} : Keeps s (t.capBegin k takes) := by
  unfold State.capBegin
  dsimp only
  exact h.capTime.modTimer

theorem Keeps.capPulse (h : Keeps s t) {k takes} : Keeps s (t.capPulse k takes) := by
  unfold State.capPulse
  split
  · exact .ite h.modTimer h.capBegin
  · exact h.capBegin

theorem Keeps.capEdge (h : Keeps s t) {src rising} : Keeps s (t.capEdge src rising) := by
  unfold State.capEdge
  dsimp only
  exact .forEach (fun _ _ h1 => .ite h1.tmrSettle (.ite h1.tmrSettle.capTime.draw.capture1 h1.tmrSettle.capPulse)) h

theorem Keeps.execTimerCapture (h : Keeps s t) {k e} : Completes s (execTimerCapture k e t) := by
  unfold Machine.execTimerCapture
  dsimp only
  exact .next (.ite h.capTime.capture1 h)

theorem Keeps.tmrCapRead (h : Keeps s t) {k} : Keeps s (t.tmrCapRead k).2 := by
  unfold State.tmrCapRead
  exact .snd h.tmrHeld.tmrSettle.modTimer.setReg.setFlag

theorem Keeps.execTimerCapRead (h : Keeps s t) {k} : Completes s (execTimerCapRead k t) := by
  unfold Machine.execTimerCapRead
  dsimp only
  exact .next h.tmrCapRead.see

/-! ## Course -/

theorem Keeps.courseBegin (h : Keeps s t) : Keeps s t.courseBegin := by
  unfold State.courseBegin
  exact .ite h.setFlag.setFlag h.setFlag.setFlag.modCourse

theorem Keeps.courseRun (h : Keeps s t) : Keeps s t.courseRun :=
  .ite h.courseBegin (.ite (.ite h.modCourse h.setFlag.modCourse) h)

theorem Keeps.courseRunClear (h : Keeps s t) : Keeps s t.courseRunClear := .ite h.setFlag.modCourse h.setFlag

theorem Keeps.courseCtrlWrite (h : Keeps s t) {w} : Keeps s (t.courseCtrlWrite w) := by
  unfold State.courseCtrlWrite
  exact .ite h.setFld.courseRun h.setFld.courseRunClear

theorem Keeps.setAsn (h : Keeps s t) {n} : Keeps s (t.setAsn n) := by
  unfold State.setAsn
  exact h.setReg.setReg.setReg.commit

theorem Keeps.planCommit (h : Keeps s t) : Keeps s t.planCommit := .ite h.modCourse h.setFlag.modCourse

theorem Keeps.courseEvent (h : Keeps s t) {code} : Keeps s (t.courseEvent code) := by
  unfold State.courseEvent
  dsimp only
  exact .ite h.plainRead.event h

theorem Keeps.execPlanCheckDone (h : Keeps s t) : Completes s (execPlanCheckDone t) := by
  unfold Machine.execPlanCheckDone
  dsimp only
  exact .next (by
  refine .ite ?_ ?_
  · exact h
  · split
    · exact h.modCourse.setFlag.complete
    · exact h.modCourse.setReg.setFlag.raise.complete.courseEvent)

theorem Keeps.shadowPut (h : Keeps s t) {i w} : Keeps s (t.shadowPut i w) := h.setReg.setFlag.modCourse

theorem Keeps.shadowWrite (h : Keeps s t) {i w} : Keeps s (t.shadowWrite i w) := .ite h (.ite h.modCourse h.shadowPut)

theorem Keeps.unstall (h : Keeps s t) : Keeps s t.unstall := by
  unfold State.unstall
  dsimp only
  exact .forEach (fun _ _ h1 => by
  split
  · exact h1.shadowPut
  · exact h1.planCommit) h.setFlag.modCourse

theorem Keeps.execPlanLock (h : Keeps s t) : Completes s (execPlanLock t) := by
  unfold Machine.execPlanLock
  exact .next (.ite h (.ite h.passTo.modCourse h.passTo.modCourse.modCourse.setFlag))

theorem Keeps.swapPlan (h : Keeps s t) : Keeps s t.swapPlan :=
  h.trans ⟨fun ⟨r, rest⟩ => ⟨sparseWf_foldl_sparseSet _ _ _ _ _ (sparseWf_sparseClear _ _ _ _ r), rest⟩, rfl⟩

theorem Keeps.repeatEntries (h : Keeps s t) : Keeps s t.repeatEntries := .forEach (fun _ _ h1 => .ite h1.txResult h1) h

theorem Keeps.applyPlan (h : Keeps s t) {asn} : Keeps s (t.applyPlan asn) := by
  unfold State.applyPlan
  exact .forEach (fun _ _ h1 => h1.laneTick) h

theorem Keeps.courseEnd (h : Keeps s t) {ct} : Keeps s (t.courseEnd ct) := by
  unfold State.courseEnd
  dsimp only
  split
  · exact h.modCourse
  · exact h.setReg.modCourse
  · exact h.modCourse

theorem Keeps.adjSpent (h : Keeps s t) : Keeps s t.adjSpent := .ite h.setReg.modCourse h

theorem Keeps.crossCarriers (h : Keeps s t) : Keeps s t.crossCarriers := by
  unfold State.crossCarriers
  exact h.modRfe.modRfe

theorem Keeps.txendRead (h : Keeps s t) : Keeps s t.txendRead.2 := by
  unfold State.txendRead
  dsimp only
  split
  · exact .snd h.takeSnap
  · exact .snd h.modCourse.setFld.takeSnap

theorem Keeps.txendReport (h : Keeps s t) : Keeps s t.txendReport := .ite (.forEach (fun _ _ h1 => h1.txendRead.txDone) h) h

theorem Keeps.handQuiet (h : Keeps s t) : Keeps s t.handQuiet := by
  unfold State.handQuiet
  split
  · exact .ite h.modUpdate h
  · exact h

theorem Keeps.handLoud (h : Keeps s t) : Keeps s t.handLoud := by
  unfold State.handLoud
  split
  · exact h.modUpdate
  · exact h

theorem Keeps.iwShut (h : Keeps s t) : Keeps s t.iwShut := h.setFlag.handLoud

theorem Keeps.courseTick (h : Keeps s t) : Keeps s t.courseTick := by
  unfold State.courseTick
  extract_lets c ct first s1 p s2 s3 s4 prevAsn s5 asn s6 s7 s8 s9 r s10 s11 s12 s13 s14 s15 s16 s17 s18 s19 s20
  have begun : Keeps s s9 := h.passTo.adjSpent.crossCarriers.setReg.setReg.modCourse.setAsn.commit.setFld.courseEnd.iwShut
  have plan : Keeps s s10 := .ite begun.swapPlan.setFlag.setFlag.modCourse (.ite begun begun.repeatEntries.count.setFlag.raise)
  have told : Keeps s s18 := plan.applyPlan.rfeTick.rfeTick.commit.setReg.modAshlar.modAdsin.recSource.postAll.capEdge
  have done : Keeps s s20 := .txendReport (.ite told.raise told)
  exact .ite done.courseEvent done

theorem Keeps.courseStop (h : Keeps s t) : Keeps s t.courseStop := by
  unfold State.courseStop
  exact .ite (.courseBegin (.complete (.unstall (.modCourse (.iwShut (.setFlag (.forEach (fun _ _ h1 => h1.laneTick)
      h.passTo.adjSpent.crossCarriers))))))) (.complete (.unstall (.modCourse (.iwShut (.setFlag (.forEach (fun _ _ h1 =>
      h1.laneTick) h.passTo.adjSpent.crossCarriers))))))

theorem Keeps.awaitCopy (h : Keeps s t) : Keeps s t.awaitCopy := by
  unfold State.awaitCopy
  exact .ite h (.ite h.unstall (.ite h.courseStop (.ite h.courseTick.unstall h.courseTick)))

theorem Keeps.courseXoLoss (h : Keeps s t) : Keeps s t.courseXoLoss := by
  unfold State.courseXoLoss
  exact .ite h.modCourse.setFlag.setFlag.iwShut.setFlag.unstall.complete h

theorem Keeps.adjPut (h : Keeps s t) {w} : Keeps s (t.adjPut w) := by
  unfold State.adjPut
  exact .ite h.setReg.modCourse (.ite h.setReg.modCourse h.setReg.modCourse)

theorem Keeps.adjWrite (h : Keeps s t) {w} : Keeps s (t.adjWrite w) := .ite h.adjPut h

theorem Keeps.courseCfgWrite (h : Keeps s t) {a w} : Keeps s (t.courseCfgWrite a w) := by
  unfold State.courseCfgWrite
  exact .ite h.setFlag (.ite h.plainWrite.commit h.plainWrite)

theorem Keeps.execIdleWindowOpen (h : Keeps s t) : Completes s (execIdleWindowOpen t) := by
  unfold Machine.execIdleWindowOpen
  exact .next (.ite h.passTo.setFlag.raise.handQuiet h)

theorem Keeps.execIdleWindowClose (h : Keeps s t) : Completes s (execIdleWindowClose t) := by
  unfold Machine.execIdleWindowClose
  exact .next (.ite h.passTo.iwShut.modAssay h)

theorem Keeps.dutyAdmit (h : Keeps s t) {b ofs ticks} : Keeps s (t.dutyAdmit b ofs ticks).2 := by
  unfold State.dutyAdmit
  exact .iteSnd (.snd (.forEach (fun _ _ h1 => h1.modCourse) h)) (.snd (.forEach (fun _ _ h1 => h1.count) h))

theorem Keeps.execDutyBucketRoll (h : Keeps s t) {k} : Completes s (execDutyBucketRoll k t) := by
  unfold Machine.execDutyBucketRoll
  exact .next (.ite h.passTo.modCourse h)

theorem Keeps.dutyCtrlWrite (h : Keeps s t) {k w} : Keeps s (t.dutyCtrlWrite k w) := by
  unfold State.dutyCtrlWrite
  exact .ite h.plainWrite.commit.modCourse h.plainWrite

theorem Keeps.execCcaWindowEnd (h : Keeps s t) {e dbm} : Completes s (execCcaWindowEnd e dbm t) := by
  unfold Machine.execCcaWindowEnd
  dsimp only
  exact .next (by
  split
  · exact .ite h h.passTo.modCourse
  · exact h)

theorem Keeps.txTest (h : Keeps s t) {e t'} : Keeps s (t.txTest e t').2 := by
  unfold State.txTest
  dsimp only
  exact .iteSnd h (.iteSnd h (.iteSnd h (.iteSnd h (.iteSnd h (.iteSnd (.snd h.dutyAdmit) (.snd h.dutyAdmit))))))

theorem Keeps.execTxEntryTest (h : Keeps s t) {e} : Completes s (execTxEntryTest e t) := by
  unfold Machine.execTxEntryTest
  dsimp only
  exact .next (by
  split
  · exact h
  · refine .ite ?_ ?_
    · exact h
    · split
      · next e =>
          exact ((h.passTo.modCourse.txTest.ofEq e)).txResult
      · next e =>
          exact ((h.passTo.modCourse.txTest.ofEq e)).addCarrier)

theorem Keeps.execCourseTxendRead (h : Keeps s t) : Completes s (execCourseTxendRead t) := by
  unfold Machine.execCourseTxendRead
  dsimp only
  exact .next h.txendRead.see

/-! ## Macf -/

theorem Keeps.hodAlloc (h : Keeps s t) {fid} : Keeps s (t.hodAlloc fid) := by
  unfold State.hodAlloc
  refine .ite ?_ ?_
  · split
    · exact h.modHod.modFrame
    · exact h
  · exact h

theorem Keeps.execMacfDecision (h : Keeps s t) {n} : Completes s (execMacfDecision n t) := by
  unfold Machine.execMacfDecision
  dsimp only
  exact .next (by
  split
  · exact h
  · refine .ite ?_ ?_
    · exact h
    · split
      · exact .modFrame (.count (.ite h h.passTo))
      · exact .hodAlloc (.modFrame (.count (.ite h h.passTo))))

/-! ## Records -/

theorem Keeps.dropLines (h : Keeps s t) {lo hi} : Keeps s (t.dropLines lo hi) := h.frame

theorem Keeps.nvWrite (h : Keeps s t) {a ws} : Keeps s (t.nvWrite a ws) :=
  h.mramPut.dropLines.trans ⟨fun ⟨r, f, n, sr, rr, m, x⟩ => ⟨r, f, n, sr, rr, m, sparseWf_sparseClear _ _ _ _ x⟩, rfl⟩

theorem Keeps.nvTear (h : Keeps s t) {a w how} : Keeps s (t.nvTear a w how) := by
  unfold State.nvTear
  split
  · exact h
  · exact h.nvWrite
  · exact h.trans ⟨fun ⟨r, f, n, sr, rr, m, x⟩ => ⟨r, f, n, sr, rr, m, sparseWf_sparseSet (fun _ => 0) t.mramFlip a 3 x⟩, rfl⟩

theorem Keeps.nvPut (h : Keeps s t) {a ws} : Keeps s (t.nvPut a ws) := by
  unfold State.nvPut
  dsimp only
  split
  · exact h.nvWrite
  · exact .ite h.nvWrite.modNvm h.nvWrite.nvTear.modNvm

theorem Keeps.nvFill (h : Keeps s t) {lo hi w} : Keeps s (t.nvFill lo hi w) := .forEach (fun _ _ h1 => h1.nvPut) h

theorem Keeps.nvErase (h : Keeps s t) {lo hi} : Keeps s (t.nvErase lo hi) := by
  unfold State.nvErase
  split
  · exact h.nvFill
  · exact h.trans ⟨fun ⟨r, f, n, sr, rr, m, x⟩ => ⟨r, f, n, sr, rr, memClear_wf _ _ _ _ m, sparseWf_sparseClear _ _ _ _ x⟩, rfl⟩

theorem Keeps.eccCount (h : Keeps s t) {lo hi} : Keeps s (t.eccCount lo hi) := by
  unfold State.eccCount
  exact .ite h h.count

theorem Keeps.eccBad (h : Keeps s t) {lo hi} : Keeps s (t.eccBad lo hi) := by
  unfold State.eccBad
  dsimp only
  split
  · exact h.setReg.setReg.raiseEvt.event
  · exact h

theorem Keeps.eccNote (h : Keeps s t) {lo hi} : Keeps s (t.eccNote lo hi) := h.eccCount.eccBad

theorem Keeps.nvClear (h : Keeps s t) {lo hi} : Keeps s (t.nvClear lo hi) := .forEach (fun _ _ h1 => h1.nvPut) h.eccNote

theorem Keeps.nvSplit (h : Keeps s t) : Keeps s t.nvSplit := by
  unfold State.nvSplit
  exact h.raiseEvt.count.event

theorem Keeps.regionRead (h : Keeps s t) {r} : Keeps s (t.regionRead r) := .forEach (fun _ _ h1 => h1.eccNote) h

theorem Keeps.setNvPos (h : Keeps s t) {r a} : Keeps s (t.setNvPos r a) := by
  unfold State.setNvPos
  exact h.modNvm

theorem Keeps.nvStart (h : Keeps s t) : Keeps s t.nvStart := by
  unfold State.nvStart
  dsimp only
  exact .forEach (fun _ _ h1 => by
  split <;> exact .setNvPos (.forEach (fun _ _ h2 => h2.eccNote) h1)) h.modNvm

theorem Keeps.openSeg (h : Keeps s t) {r} (e : t.openSeg r = some u) : Keeps s u := by
  unfold State.openSeg at e
  dsimp only at e
  split at e
  · cases e
  · injection e with e
    subst e
    refine .setNvPos (.nvPut (.modNvm (.nvClear ?_)))
    split
    · exact h
    · exact h.draw

theorem Keeps.nvInstance (h : Keeps s t) {r ws} : Keeps s (t.nvInstance r ws) := by
  unfold State.nvInstance
  exact h.nvPut.setNvPos

theorem Keeps.nvAppend (h : Keeps s t) {r ws} (e : t.nvAppend r ws = some u) : Keeps s u := by
  unfold State.nvAppend at e
  split at e
  · injection e with e
    subst e
    exact h.nvInstance
  · obtain ⟨v, ev, rfl⟩ := Option.map_eq_some_iff.mp e
    exact (h.openSeg ev).nvInstance

theorem Keeps.freeSeg (h : Keeps s t) {base} : Keeps s (t.freeSeg base) := h.nvPut.modNvm

/-- Changes that may fail, one for each element of a list. -/
theorem Keeps.foldl_bind {α : Type} {f : α → State → Option State} {l : List α}
    (hf : ∀ x v w, Keeps s v → f x v = some w → Keeps s w) :
    ∀ {o : Option State}, (∀ v, o = some v → Keeps s v) → ∀ v, l.foldl (fun o x => o.bind (f x)) o = some v → Keeps s v := by
  induction l with
  | nil => exact fun h => h
  | cons x l ih =>
    intro o h
    refine ih fun v e => ?_
    obtain ⟨w, ew, ev⟩ := Option.bind_eq_some_iff.mp e
    exact hf x w v (h w ew) ev

theorem Keeps.cfgReclaim (h : Keeps s t) : Keeps s t.cfgReclaim := by
  unfold State.cfgReclaim
  dsimp only
  split
  · exact h.regionRead
  · split
    next e =>
      refine Keeps.freeSeg (Keeps.foldl_bind (fun _ _ _ k e => k.nvAppend e) ?_ _ e)
      intro v ev
      cases ev
      exact h.regionRead
    next => exact h.regionRead

theorem Keeps.cfgAppend (h : Keeps s t) {ws} (e : t.cfgAppend ws = some u) : Keeps s u := by
  unfold State.cfgAppend at e
  split at e
  · injection e with e
    subst e
    exact h.nvInstance
  · split at e
    · cases e
    next opened =>
      exact Keeps.nvAppend (.ite (h.openSeg opened).cfgReclaim (h.openSeg opened)) e

theorem Keeps.evtAppend (h : Keeps s t) {ws} : Keeps s (t.evtAppend ws) := by
  unfold State.evtAppend
  dsimp only
  refine .ite ?_ ?_
  · exact h.nvInstance
  · split
    · next e =>
        exact ((Keeps.openSeg (by
          refine .ite ?_ ?_
          · split
            · exact h.freeSeg
            · exact h
          · exact h) e)).nvInstance
    · refine .ite ?_ ?_
      · split
        · exact h.freeSeg
        · exact h
      · exact h

theorem Keeps.nvPlace (h : Keeps s t) {r ws} (e : t.nvPlace r ws = some u) : Keeps s u := by
  cases r with
  | cfg => exact h.cfgAppend e
  | lease => exact h.nvAppend e
  | evt =>
    injection e with e
    subst e
    exact h.evtAppend

theorem Keeps.nvRecordWrite (h : Keeps s t) {r copy fails} : Keeps s (t.nvRecordWrite r copy fails).2 := by
  unfold State.nvRecordWrite
  dsimp only
  split
  · exact .snd h.raiseEvt
  next v e =>
    have first : Keeps s v := by
      split at e
      · cases e
        exact h
      · exact h.drawOctets.nvPlace e
    split
    · split
      next placed => exact .snd (first.nvPlace placed)
      next => exact .snd first.raiseEvt
    · split
      next placed => exact .snd (first.drawOctets.nvPlace placed).raiseEvt
      next => exact .snd first.raiseEvt

theorem Keeps.nvServe (h : Keeps s t) : Keeps s t.nvServe := by
  unfold State.nvServe
  exact .ite h h.modNvm

theorem Keeps.nvHand (h : Keeps s t) {r} : Keeps s (t.nvHand r) := h.modNvm.nvServe

theorem Keeps.unport (h : Keeps s t) {src} : Keeps s (t.unport src) := h.modNvm.nvServe

/-! ## Ashlar -/

theorem Keeps.rebuildTrigger (h : Keeps s t) : Keeps s t.rebuildTrigger := by
  unfold State.rebuildTrigger
  exact .ite h.setFlag h.setFlag.setFlag.modAshlar

theorem Keeps.ashlarEvent (h : Keeps s t) {code} : Keeps s (t.ashlarEvent code) := h.event

theorem Keeps.ashlarFull (h : Keeps s t) : Keeps s t.ashlarFull := h.raiseEvt.ashlarEvent

theorem Keeps.stashRise (h : Keeps s t) {old} : Keeps s (t.stashRise old) := .ite h.raiseEvt.rebuildTrigger h

theorem Keeps.entryGone (h : Keeps s t) {eui} : Keeps s (t.entryGone eui) := .ite h.modAshlar h

theorem Keeps.insertEntry (h : Keeps s t) {e old} : Keeps s (t.insertEntry e old) := by
  unfold State.insertEntry
  dsimp only
  split
  · exact h.modAshlar
  · exact .ite h.modAshlar.entryGone.ashlarFull h.modAshlar.stashRise

theorem Keeps.ensureHk (h : Keeps s t) : Keeps s t.ensureHk := by
  unfold State.ensureHk
  dsimp only
  exact .ite h.drawOctets.modAshlar h

theorem Keeps.pushDirty (h : Keeps s t) {eui} : Keeps s (t.pushDirty eui) := .ite h.modAshlar h.setFlag

theorem Keeps.modTenant (h : Keeps s t) {t' g} : Keeps s (t.modTenant t' g) := h.modAshlar

theorem Keeps.tcfgWrite (h : Keeps s t) {w} : Keeps s (t.tcfgWrite w) := by
  unfold State.tcfgWrite
  exact h.modTenant

theorem Keeps.tepochWrite (h : Keeps s t) {w} : Keeps s (t.tepochWrite w) := by
  unfold State.tepochWrite
  exact .ite h.modTenant (.ite h.modTenant.rebuildTrigger h.raiseEvt)

theorem Keeps.ashlarCheck (h : Keeps s t) {f inTime} : Keeps s (t.ashlarCheck f inTime).2 := by
  unfold State.ashlarCheck
  dsimp only
  refine .iteSnd ?_ ?_
  · exact h
  · split
    · exact h
    · exact .iteSnd h (.snd h.modTenant)

theorem Keeps.fixVerdict (h : Keeps s t) {f v} : Keeps s (t.fixVerdict f v) := by
  unfold State.fixVerdict
  dsimp only
  refine .ite ?_ ?_
  · exact .ashlarFull (by
      split
      · exact .modTenant (by
          split
          · exact h.modFrame.count
          · exact h.modFrame)
      · split
        · exact h.modFrame.count
        · exact h.modFrame)
  · split
    · exact .modTenant (by
        split
        · exact h.modFrame.count
        · exact h.modFrame)
    · split
      · exact h.modFrame.count
      · exact h.modFrame

theorem Keeps.fixFailed (h : Keeps s t) {fid} : Keeps s (t.fixFailed fid) := by
  unfold State.fixFailed
  dsimp only
  split
  · split
    · exact .ite h.modFrame.dropFrame (.ite h.modFrame.fixVerdict h.modFrame)
    · exact h
  · exact h

theorem Keeps.execAshlarLookup (h : Keeps s t) {n inTime} : Completes s (execAshlarLookup n inTime t) := by
  unfold Machine.execAshlarLookup
  dsimp only
  exact .next (by
  split
  · exact h.ashlarCheck.modFrame.fixFailed
  · exact h)

theorem Keeps.execAshlarMicCheck (h : Keeps s t) {n} : Completes s (execAshlarMicCheck n t) := by
  unfold Machine.execAshlarMicCheck
  dsimp only
  exact .next (by
  split
  · split
    · exact h.modFrame.fixFailed
    · exact h
  · exact h)

theorem Keeps.execVerdictDeadline (h : Keeps s t) {n} : Completes s (execVerdictDeadline n t) := by
  unfold Machine.execVerdictDeadline
  exact .next (by
  split
  · split
    · exact h.passTo.fixVerdict
    · exact h
  · exact h)

theorem Keeps.commitEntry (h : Keeps s t) {e} : Keeps s (t.commitEntry e) := by
  unfold State.commitEntry
  dsimp only
  split
  · exact h.insertEntry.pushDirty
  · exact .ite h.modAshlar.pushDirty h.modAshlar

theorem Keeps.execAshlarCommit (h : Keeps s t) {n} : Completes s (execAshlarCommit n t) := by
  unfold Machine.execAshlarCommit
  dsimp only
  exact .next (by
  split
  · split
    · refine .ite ?_ ?_
      · exact h
      · refine .ite ?_ ?_
        · exact .fixVerdict (by
            split
            · exact .ite h.modFrame h.modFrame.commitEntry
            · exact h.modFrame)
        · refine .ite ?_ ?_
          · exact .dropFrame (by
              refine .ite ?_ ?_
              · exact .count (by
                  split
                  · exact .ite h.modFrame h.modFrame.commitEntry
                  · exact h.modFrame)
              · split
                · exact .ite h.modFrame h.modFrame.commitEntry
                · exact h.modFrame)
          · refine .ite ?_ ?_
            · exact .count (by
                split
                · exact .ite h.modFrame h.modFrame.commitEntry
                · exact h.modFrame)
            · split
              · exact .ite h.modFrame h.modFrame.commitEntry
              · exact h.modFrame
    · exact h
  · exact h)

theorem Keeps.leaseHand (h : Keeps s t) {r fresh} : Keeps s (t.leaseHand r fresh) := h.modAshlar.nvHand

theorem Keeps.execLeaseWrite (h : Keeps s t) : Completes s (execLeaseWrite t) := by
  unfold Machine.execLeaseWrite
  dsimp only
  exact .next (by
  refine .ite ?_ ?_
  · exact h
  · split
    · exact h.modAshlar.leaseHand
    · split
      · exact h.modAshlar.leaseHand
      · exact h.modAshlar)

theorem Keeps.execLeaseSweep (h : Keeps s t) : Completes s (execLeaseSweep t) := by
  unfold Machine.execLeaseSweep
  exact .next (by
  refine .ite ?_ ?_
  · split
    · exact h.leaseHand
    · exact h.setFlag
  · exact h)

theorem Keeps.leaseUnport (h : Keeps s t) : Keeps s t.leaseUnport := h.unport.modAshlar

theorem Keeps.leaseDone (h : Keeps s t) {r} : Keeps s (t.leaseDone r) := by
  unfold State.leaseDone
  split
  · exact .ite h (.ite h.modAshlar h.pushDirty)
  · exact h

theorem Keeps.leaseBack (h : Keeps s t) {r fresh} : Keeps s (t.leaseBack r fresh) := by
  unfold State.leaseBack
  exact .ite h.raiseEvt.ashlarEvent.modAshlar (.ite h.raiseEvt.ashlarEvent.pushDirty h.raiseEvt.ashlarEvent.modAshlar)

theorem Keeps.leaseEnd (h : Keeps s t) {fails} : Keeps s (t.leaseEnd fails) := by
  unfold State.leaseEnd
  dsimp only
  split
  · refine .ite ?_ ?_
    · exact h
    · split
      · next e =>
          exact (((h.nvRecordWrite.ofEq e)).leaseUnport).leaseDone
      · next e =>
          exact (((h.nvRecordWrite.ofEq e)).leaseUnport).leaseBack
      · next e =>
          exact h
  · exact h

theorem Keeps.execLeaseCommitted (h : Keeps s t) : Completes s (execLeaseCommitted t) := by
  unfold Machine.execLeaseCommitted
  dsimp only
  exact .next h.draw.leaseEnd

theorem Keeps.reclaimStart (h : Keeps s t) : Keeps s t.reclaimStart := by
  unfold State.reclaimStart
  dsimp only
  split
  · exact .ite h h.eccNote.modAshlar
  · exact h

theorem Keeps.reclaimNext (h : Keeps s t) : Keeps s t.reclaimNext := by
  unfold State.reclaimNext
  dsimp only
  split
  · exact h
  · split
    · exact h.modAshlar.leaseHand
    · exact h.modAshlar.modNvm

theorem Keeps.execLeaseSegmentReclaim (h : Keeps s t) : Completes s (execLeaseSegmentReclaim t) := by
  unfold Machine.execLeaseSegmentReclaim
  exact .next (by
  split
  · exact h.modNvm.freeSeg
  · exact .ite h.reclaimStart.reclaimNext h)

theorem Keeps.ashlarCtrlWrite (h : Keeps s t) {w} : Keeps s (t.ashlarCtrlWrite w) := by
  unfold State.ashlarCtrlWrite
  exact .ite (.ite h h.setFlag.setFlag) h.setFlag.setReg.modAshlar

theorem Keeps.restoreStart (h : Keeps s t) : Keeps s t.restoreStart := by
  unfold State.restoreStart
  exact .ite h h.setFlag.setFlag.setFlag.modAshlar

theorem Keeps.ashlarCmdWrite (h : Keeps s t) {w} : Keeps s (t.ashlarCmdWrite w) := by
  unfold State.ashlarCmdWrite
  exact .ite (.rebuildTrigger (.ite h.restoreStart h)) (.ite h.restoreStart h)

theorem Keeps.execHkDraw (h : Keeps s t) : Completes s (execHkDraw t) := by
  unfold Machine.execHkDraw
  dsimp only
  exact .next (.ite h.setFlag (.ite (.ite h.drbg.setFlag.modAshlar.setFlag h.drbg.setFlag.modAshlar) h))

theorem Keeps.restoreOne (h : Keeps s t) {c} : Keeps s (t.restoreOne c) := by
  unfold State.restoreOne
  dsimp only
  split
  · exact h.modAshlar
  · exact h.insertEntry
  · exact h.modAshlar

theorem Keeps.nextRebuild (h : Keeps s t) : Keeps s t.nextRebuild := .ite h.setFlag.rebuildTrigger h

theorem Keeps.execRestoreDone (h : Keeps s t) : Completes s (execRestoreDone t) := by
  unfold Machine.execRestoreDone
  exact .next (.ite (.nextRebuild (.ashlarEvent (.raiseEvt (.setFlag (.setFlag (.setFlag (.forEach (fun _ _ h1 =>
      h1.restoreOne) (.forEach (fun _ _ h1 => h1.nvSplit) h.regionRead)))))))) h)

theorem Keeps.rebuildWay (h : Keeps s t) {i} : Keeps s (t.rebuildWay i) := by
  unfold State.rebuildWay
  exact .ite h.insertEntry h

theorem Keeps.rebuildStash (h : Keeps s t) {e} : Keeps s (t.rebuildStash e) := by
  unfold State.rebuildStash
  dsimp only
  refine .ite ?_ ?_
  · split
    · exact h.modAshlar
    · exact .ite h.modAshlar (.ite h.modAshlar.entryGone.ashlarFull h.modAshlar)
  · exact h

theorem Keeps.rebuildTable (h : Keeps s t) : Keeps s t.rebuildTable := .forEach (fun _ _ h1 => h1.rebuildWay) h

theorem Keeps.execRebuildStart (h : Keeps s t) : Completes s (execRebuildStart t) := by
  unfold Machine.execRebuildStart
  exact .next (.ite (.modAshlar (.forEach (fun _ _ h1 => h1.rebuildStash) h.rebuildTable)) h)

theorem Keeps.execRebuildDone (h : Keeps s t) : Completes s (execRebuildDone t) := by
  unfold Machine.execRebuildDone
  exact .next (.ite h.modAshlar.setFlag.count.raiseEvt.ashlarEvent.nextRebuild h)

theorem Keeps.entryChange (h : Keeps s t) {eui g} : Keeps s (t.entryChange eui g).2 := by
  unfold State.entryChange
  dsimp only
  split
  · exact h
  · exact .snd (.ite h.modAshlar.pushDirty h.modAshlar)

theorem Keeps.entryInsert (h : Keeps s t) : Keeps s t.entryInsert.2 := by
  unfold State.entryInsert
  exact .iteSnd h (.iteSnd (.snd h.ashlarFull) (.iteSnd h (.iteSnd h (.snd h.insertEntry.pushDirty))))

theorem Keeps.entryDelete (h : Keeps s t) {eui} : Keeps s (t.entryDelete eui).2 := by
  unfold State.entryDelete
  dsimp only
  split
  · exact h
  · exact .snd h.entryGone.modAshlar

theorem Keeps.entryAct (h : Keeps s t) {op} : Keeps s (t.entryAct op).2 := by
  unfold State.entryAct
  split
  · split
    · exact h
    · exact .snd (.forEach (fun _ _ h1 => h1.setReg) h)
  · exact h.entryInsert
  · exact h.entryDelete
  · exact h.entryChange
  · exact h.entryChange
  · exact h.entryChange
  · exact h.entryChange
  · exact h
  · exact h

theorem Keeps.entryOp (h : Keeps s t) {op} : Keeps s (t.entryOp op) := by
  unfold State.entryOp
  dsimp only
  exact .ite h.setFlag (.modAshlar (.iteSnd (.snd h.setFlag.ensureHk) h.setFlag.ensureHk.entryAct))

theorem Keeps.entryFinish (h : Keeps s t) {r} : Keeps s (t.entryFinish r) := by
  unfold State.entryFinish
  exact h.modAshlar.setReg.setFlag.raiseEvt.complete

theorem Keeps.execEntryOpDone (h : Keeps s t) : Completes s (execEntryOpDone t) := by
  unfold Machine.execEntryOpDone
  exact .next (by
  split
  · exact .ite h h.entryFinish
  · exact h)

theorem Keeps.execPurgeDone (h : Keeps s t) : Completes s (execPurgeDone t) := by
  unfold Machine.execPurgeDone
  dsimp only
  exact .next (by
  split
  · exact .entryFinish (.forEach (fun _ _ h1 => h1.entryDelete) h)
  · exact h)

/-! ## Store -/

theorem Keeps.storeOnce (h : Keeps s t) {e ws} : Keeps s (t.storeOnce e ws) := by
  unfold State.storeOnce
  exact .forEach (fun _ _ h1 => h1.nvPut.nvPut) h

theorem Keeps.storeBad (h : Keeps s t) {e n} : Keeps s (t.storeBad e n) := by
  unfold State.storeBad
  dsimp only
  exact .forEach (fun _ _ h1 => h1.drawOctets.nvPut) h

theorem Keeps.storeBy (h : Keeps s t) {e payload fails} : Keeps s (t.storeBy e payload fails) := by
  unfold State.storeBy
  exact .ite h.storeOnce (.ite h.storeBad.storeOnce h.storeBad.storeBad.raiseEvt)

theorem Keeps.storePut (h : Keeps s t) {e payload} : Keeps s (t.storePut e payload) := h.storeBy

theorem Keeps.storeWrite (h : Keeps s t) {e payload} : Keeps s (t.storeWrite e payload) := by
  unfold State.storeWrite
  dsimp only
  exact h.draw.storeBy

theorem Keeps.storeErase (h : Keeps s t) {lo hi} : Keeps s (t.storeErase lo hi) := h.nvErase

theorem Keeps.nvWipe (h : Keeps s t) {lo hi} : Keeps s (t.nvWipe lo hi) := h.nvFill.nvErase

theorem Keeps.seal (h : Keeps s t) {plain} : Keeps s (t.seal plain).2 := by
  unfold State.seal
  dsimp only
  exact .snd h.drawOctets

theorem Keeps.storeSealBy (h : Keeps s t) {e plain fails} : Keeps s (t.storeSealBy e plain fails) := by
  unfold State.storeSealBy
  dsimp only
  exact h.seal.storeBy

theorem Keeps.storeSeal (h : Keeps s t) {e plain} : Keeps s (t.storeSeal e plain) := by
  unfold State.storeSeal
  dsimp only
  exact h.draw.storeSealBy

theorem Keeps.storeCheck (h : Keeps s t) {mono e} : Keeps s (t.storeCheck mono e) := by
  unfold State.storeCheck
  exact .ite h.eccNote.nvSplit h.eccNote

theorem Keeps.leaseMend (h : Keeps s t) {e} : Keeps s (t.leaseMend e) := by
  unfold State.leaseMend
  dsimp only
  split
  · exact .ite h.storeCheck h.storeCheck.storeWrite
  · exact h.storeCheck

theorem Keeps.storeSlot (h : Keeps s t) {n k} : Keeps s (t.storeSlot n k) := h.storeErase.storeErase.storeSeal

theorem Keeps.storeDrop (h : Keeps s t) {n} : Keeps s (t.storeDrop n) := h.storeErase.storeErase.storeErase

/-! ## Crypto -/

theorem Keeps.setSlot (h : Keeps s t) {n k} : Keeps s (t.setSlot n k) := h.modKeys

theorem Keeps.takeUse (h : Keeps s t) {n} : Keeps s (t.takeUse n) := by
  unfold State.takeUse
  exact .ite (.ite h.setSlot.modKeys h.setSlot) h

theorem Keeps.destroySlot (h : Keeps s t) {n} : Keeps s (t.destroySlot n) := by
  unfold State.destroySlot
  exact .modKeys (.storeDrop (.setSlot (.ite h.unport.modKeys h)))

theorem Keeps.lastUseDestroy (h : Keeps s t) : Keeps s t.lastUseDestroy := .forEach (fun _ _ h1 => .ite h1 h1.destroySlot) h

theorem Keeps.leasePut (h : Keeps s t) {n f l fails} : Keeps s (t.leasePut n f l fails).2 := by
  unfold State.leasePut
  exact .iteSnd (.snd (.setSlot (.ite (.ite h h.storeSealBy) (.storeSealBy (.ite h h.storeSealBy))))) (.snd (.setFlag (.ite
      (.ite h h.storeSealBy) (.storeSealBy (.ite h h.storeSealBy)))))

theorem Keeps.leaseTake (h : Keeps s t) {n f l} : Keeps s (t.leaseTake n f l).2 := by
  unfold State.leaseTake
  dsimp only
  exact h.draw.leasePut

theorem Keeps.advanceRd {n} : ∀ {t}, Keeps s t → Keeps s (t.advanceRd n) := by
  induction n with
  | zero => exact id
  | succ n ih =>
    intro t h
    unfold State.advanceRd
    dsimp only
    split
    · exact ih h.setReg.modCrypto
    · exact h

theorem Keeps.jobWrite (h : Keeps s t) {idx status issued irq} : Keeps s (t.jobWrite idx status issued irq) := by
  unfold State.jobWrite
  dsimp only
  exact .ite (.raiseEvt (.ite (.raiseEvt (.modFabric (.forEach (fun _ _ h1 => h1.modChan) (.advanceRd (.modCrypto
      (.setSramWords (by
  split
  · exact h
  · exact h.draw))))))) (.modFabric (.forEach (fun _ _ h1 => h1.modChan) (.advanceRd (.modCrypto (.setSramWords (by
  split
  · exact h
  · exact h.draw)))))))) (.ite (.raiseEvt (.modFabric (.forEach (fun _ _ h1 => h1.modChan) (.advanceRd (.modCrypto
      (.setSramWords (by
  split
  · exact h
  · exact h.draw))))))) (.modFabric (.forEach (fun _ _ h1 => h1.modChan) (.advanceRd (.modCrypto (.setSramWords (by
  split
  · exact h
  · exact h.draw)))))))

theorem Keeps.cryptoBusy (h : Keeps s t) : Keeps s t.cryptoBusy := h.setFld

theorem Keeps.jobRun (h : Keeps s t) {d core idx} : Keeps s (t.jobRun d core idx) := by
  unfold State.jobRun
  dsimp only
  exact .cryptoBusy (.modCrypto (.draw (.count (.takeUse (.ite h.setSlot h)))))

theorem Keeps.jobStart (h : Keeps s t) : Keeps s t.jobStart := by
  unfold State.jobStart
  dsimp only
  split
  · exact h
  · split
    · exact h.modCrypto.jobWrite
    · split
      · exact h.modKeys
      · exact h.modCrypto.jobRun

theorem Keeps.skipReserved {n} : ∀ {t}, Keeps s t → Keeps s (t.skipReserved n) := by
  induction n with
  | zero => exact id
  | succ n ih =>
    intro t h
    unfold State.skipReserved
    split
    · exact ih h.jobStart
    · exact h

theorem Keeps.jobCommand (h : Keeps s t) {mode} : Keeps s (t.jobCommand mode) := .ite h.jobStart.skipReserved h

theorem Keeps.cryptoCtrlWrite (h : Keeps s t) {w} : Keeps s (t.cryptoCtrlWrite w) := by
  unfold State.cryptoCtrlWrite
  exact .ite (.ite h.modCrypto h.setFlag.latch.setReg.setReg.modCrypto) (.ite h (.ite h.setFlag h.modCrypto))

theorem Keeps.queueWrite (h : Keeps s t) {core w} : Keeps s (t.queueWrite core w) := by
  unfold State.queueWrite
  exact .ite h.setFlag h.setReg.modCrypto.skipReserved

theorem Keeps.execCryptoJobDone (h : Keeps s t) {k} : Completes s (execCryptoJobDone k t) := by
  unfold Machine.execCryptoJobDone
  dsimp only
  exact .next (by
  split
  · exact h
  · exact .skipReserved (.ite h.modCrypto.cryptoBusy.sramPut.jobWrite.lastUseDestroy.setFlag.modCrypto
      h.modCrypto.cryptoBusy.sramPut.jobWrite.lastUseDestroy))

theorem Keeps.keysLease (h : Keeps s t) {fails} : Keeps s (t.keysLease fails) := by
  unfold State.keysLease
  split
  · exact h
  · exact .unport (.ite h.leasePut.modKeys h.leasePut)

theorem Keeps.execKeysLeaseCommit (h : Keeps s t) {ok} : Completes s (execKeysLeaseCommit ok t) := by
  unfold Machine.execKeysLeaseCommit
  dsimp only
  exact .next (.ite h (.ite h.draw.keysLease h.keysLease))

/-! ## Access -/

theorem Keeps.setAc (h : Keeps s t) {st} : Keeps s (t.setAc st) := h.setFld

theorem Keeps.scheduleReset (h : Keeps s t) : Keeps s t.scheduleReset := h.modAccess

theorem Keeps.lockBalls (h : Keeps s t) : Keeps s t.lockBalls := h.modAccess.setFlag

theorem Keeps.cutPulse (h : Keeps s t) : Keeps s t.cutPulse := .ite h.lockBalls.setFlag h

theorem Keeps.accessRecord (h : Keeps s t) {words session} : Keeps s (t.accessRecord words session) := h.modAccess

theorem Keeps.lockoutStart (h : Keeps s t) : Keeps s t.lockoutStart := by
  unfold State.lockoutStart
  dsimp only
  exact h.drawOctets.accessRecord.raiseEvt.event

theorem Keeps.setLocked (h : Keeps s t) {b} : Keeps s (t.setLocked b) := h.setFlag

theorem Keeps.pushFailure (h : Keeps s t) : Keeps s t.pushFailure := by
  unfold State.pushFailure
  exact .ite h.count.setReg32.setReg32.setFld.setFld.setFlag.setLocked.modPlinth.lockoutStart h.count.setFld.modPlinth

theorem Keeps.lockoutCheck (h : Keeps s t) : Keeps s t.lockoutCheck := .ite h.setLocked.setFlag h

theorem Keeps.sessionOver (h : Keeps s t) : Keeps s t.sessionOver := h.lastUseDestroy.scheduleReset

theorem Keeps.enterLog (h : Keeps s t) {v} : Keeps s (t.enterLog v) := by
  unfold State.enterLog
  dsimp only
  exact .raiseEvt (.accessRecord (by
  split <;> exact .snd (.setReg (.setReg (.forEach (fun _ _ h1 => h1.setReg) (.setReg (.ite h.modSess.setAc.pushFailure
    h.modSess.setAc)))))))

theorem Keeps.plumbRestore (h : Keeps s t) : Keeps s t.plumbRestore := by
  unfold State.plumbRestore
  exact .ite h.modAccess.modRfe.setGain h.modAccess

theorem Keeps.plumbLeave (h : Keeps s t) : Keeps s t.plumbLeave := .ite h.plumbRestore.modRfe.syncMute h

theorem Keeps.accessAbort (h : Keeps s t) : Keeps s t.accessAbort := by
  unfold State.accessAbort
  exact .ite h.cutPulse.plumbLeave.enterLog h

theorem Keeps.accessRootCheck (h : Keeps s t) {was} : Keeps s (t.accessRootCheck was) := .ite h.accessAbort h

theorem Keeps.fail (h : Keeps s t) {v} : Keeps s (t.fail v) := h.enterLog

theorem Keeps.knockRefused (h : Keeps s t) {token v} : Keeps s (t.knockRefused token v) := by
  unfold State.knockRefused
  dsimp only
  exact .ite h.count.raiseEvt.draw.draw.accessRecord h.count.raiseEvt

theorem Keeps.knockTake (h : Keeps s t) {p} : Keeps s (t.knockTake p) := by
  unfold State.knockTake
  dsimp only
  split
  · exact h.knockRefused
  · exact .ite h.knockRefused (.ite (.knockRefused (by
      split
      · exact h.leaseTake
      · exact h)) (.setAc (.modAccess (.drbg (.takeUse (by
      split
      · exact h.leaseTake
      · exact h))))))

theorem Keeps.knock (h : Keeps s t) {p} : Keeps s (t.knock p) := by
  unfold State.knock
  exact .ite h.count.scheduleReset.count (.ite h.count.scheduleReset.modAccess h.count.scheduleReset.knockTake)

theorem Keeps.takeWaiting (h : Keeps s t) : Keeps s t.takeWaiting := by
  unfold State.takeWaiting
  exact .forEach (fun _ _ h1 => .ite h1.knockTake h1.count) h.modAccess

theorem Keeps.response (h : Keeps s t) {p} : Keeps s (t.response p) := by
  unfold State.response
  exact .ite h.modSess.fail (.ite h.modSess.fail h.modSess.modAccess.setAc)

theorem Keeps.distWord (h : Keeps s t) {d} : Keeps s (t.distWord d).2 := by
  unfold State.distWord
  dsimp only
  split
  · exact h
  · exact .snd h.draw

theorem Keeps.plumbDecide (h : Keeps s t) {report} : Keeps s (t.plumbDecide report) := by
  unfold State.plumbDecide
  dsimp only
  refine .ite ?_ ?_
  · exact h.distWord.distWord.setReg.setReg.setReg.modSess.fail
  · refine .ite ?_ ?_
    · exact h.distWord.distWord.setReg.setReg.setReg.modSess.fail
    · refine .ite ?_ ?_
      · exact h.distWord.distWord.setReg.setReg.setReg.modSess.fail
      · split <;> exact h.distWord.distWord.setReg.setReg.setReg.modSess.fail

theorem Keeps.accessFrame (h : Keeps s t) {p} : Keeps s (t.accessFrame p) := by
  unfold State.accessFrame
  exact .ite h.knock (.ite h.response (.ite h.plumbDecide (.ite h.fail h.count)))

theorem Keeps.execLaneHandoff (h : Keeps s t) {n rssi snr err} : Completes s (execLaneHandoff n rssi snr err t) := by
  unfold Machine.execLaneHandoff
  dsimp only
  exact .next (by
  split
  · exact .ite (.ite h.handoffWhole.accessFrame h.handoffWhole) h
  · exact h)

theorem Keeps.accessCtrlWrite (h : Keeps s t) {w} : Keeps s (t.accessCtrlWrite w) := by
  unfold State.accessCtrlWrite
  exact .ite h.plainWrite.setAc.scheduleReset (.ite h.plainWrite.cutPulse.plumbLeave.modAccess.setAc.lastUseDestroy
      h.plainWrite)

theorem Keeps.execLfTelegramStart (h : Keeps s t) : Completes s (execLfTelegramStart t) := by
  unfold Machine.execLfTelegramStart
  exact .next (.ite h.passTo.modAccess.setFlag h)

theorem Keeps.execChallengeEnd (h : Keeps s t) : Completes s (execChallengeEnd t) := by
  unfold Machine.execChallengeEnd
  exact .next (.ite h.passTo.modAccess.setAc h)

theorem Keeps.execPlumbSessionStart (h : Keeps s t) {calInt} : Completes s (execPlumbSessionStart calInt t) := by
  unfold Machine.execPlumbSessionStart
  dsimp only
  exact .next (.ite h.commit.drbg.modAccess.modRfe.syncMute.setReg.count.setAc h)

theorem Keeps.ismPins (h : Keeps s t) {w} : Keeps s (t.ismPins w) := h.modRfe

theorem Keeps.execPlumbRound (h : Keeps s t) {coarse pa1 pa2 b detected} : Completes s (execPlumbRound coarse pa1 pa2 b
  detected t) := by
  unfold Machine.execPlumbRound
  exact .next (.ite h.passTo.ismPins.modAccess.passTo.ismPins.passTo.modAccess h)

theorem Keeps.accessLogged (h : Keeps s t) {fails} : Keeps s (t.accessLogged fails) := by
  unfold State.accessLogged
  dsimp only
  split
  · exact h
  · refine .ite ?_ ?_
    · refine .ite ?_ ?_
      · exact .lastUseDestroy (.setAc (.count (.raiseEvt (.setFlag (.modAccess (.ite (.event (.ite
          h.modAccess.nvRecordWrite.unport h.modAccess.nvRecordWrite.unport.setFlag)) (.ite h.modAccess.nvRecordWrite.unport
          h.modAccess.nvRecordWrite.unport.setFlag)))))))
      · exact .sessionOver (.setAc (.ite (.setFld (.modSess (.ite (.event (.ite h.modAccess.nvRecordWrite.unport
          h.modAccess.nvRecordWrite.unport.setFlag)) (.ite h.modAccess.nvRecordWrite.unport
          h.modAccess.nvRecordWrite.unport.setFlag)))) (.ite (.event (.ite h.modAccess.nvRecordWrite.unport
          h.modAccess.nvRecordWrite.unport.setFlag)) (.ite h.modAccess.nvRecordWrite.unport
          h.modAccess.nvRecordWrite.unport.setFlag))))
    · exact .ite (.event (.ite h.modAccess.nvRecordWrite.unport h.modAccess.nvRecordWrite.unport.setFlag)) (.ite
        h.modAccess.nvRecordWrite.unport h.modAccess.nvRecordWrite.unport.setFlag)

theorem Keeps.releaseEnd (h : Keeps s t) : Keeps s t.releaseEnd := h.setAc.sessionOver

theorem Keeps.radioIoOff (h : Keeps s t) : Keeps s t.radioIoOff := .ite h.cutPulse.releaseEnd h

theorem Keeps.execLockReadbackFault (h : Keeps s t) : Completes s (execLockReadbackFault t) := by
  unfold Machine.execLockReadbackFault
  exact .next (.ite h.setFlag.cutPulse.releaseEnd h.setFlag.lockBalls)

theorem Keeps.lfFault (h : Keeps s t) {f n} : Keeps s (t.lfFault f n) := by
  unfold State.lfFault
  exact h.setFld.event

theorem Keeps.execLfBurstEnd (h : Keeps s t) {peakA peakB peakC peakD} : Completes s (execLfBurstEnd peakA peakB peakC peakD
  t) := by
  unfold Machine.execLfBurstEnd
  exact .next (.ite (.setFlag (.modAccess (.forEach (fun _ _ h1 => h1.setFld) h))) h)

theorem Keeps.lfCmdWrite (h : Keeps s t) {w} : Keeps s (t.lfCmdWrite w) := h.modAccess

theorem Keeps.tuneOne (h : Keeps s t) {n code peak} : Keeps s (t.tuneOne n code peak) := .ite (.ite h.lfFault h.setFld) h

theorem Keeps.execLfTuneDone (h : Keeps s t) {a b c d} : Completes s (execLfTuneDone a b c d t) := by
  unfold Machine.execLfTuneDone
  exact .next (.ite (.takeWaiting (.complete (.setFlag (.modAccess (.forEach (fun _ _ h1 => h1.tuneOne) h))))) h)

theorem Keeps.execPollBurst (h : Keeps s t) : Completes s (execPollBurst t) := by
  unfold Machine.execPollBurst
  exact .next (.ite h (.ite h.modAccess.modAccess.setFlag h.modAccess))

theorem Keeps.tblCmdWrite (h : Keeps s t) {w} : Keeps s (t.tblCmdWrite w) := .ite h.latch.commit.setFlag h

theorem Keeps.execAccessTblCopyDone (h : Keeps s t) : Completes s (execAccessTblCopyDone t) := by
  unfold Machine.execAccessTblCopyDone
  dsimp only
  exact .next (by
  refine .ite ?_ ?_
  · split
    · exact h.setFlag.modAccess.setFlag.complete
    · exact h.setFlag.setFlag.complete
  · exact h)

/-! ## Fabric -/

theorem Keeps.modNbr (h : Keeps s t) {e g} : Keeps s (t.modNbr e g) := h.modFabric

theorem Keeps.fabDrop (h : Keeps s t) : Keeps s t.fabDrop := h.modFabric

theorem Keeps.fabEvent (h : Keeps s t) {code w} : Keeps s (t.fabEvent code w) := h.event

theorem Keeps.fabSent (h : Keeps s t) {host result} : Keeps s (t.fabSent host result) := by
  unfold State.fabSent
  split
  · exact h.fabEvent
  · exact h

theorem Keeps.fabQueue (h : Keeps s t) {typ ver hop payload host} : Keeps s (t.fabQueue typ ver hop payload host) :=
  .ite h.fabDrop (.ite h.fabDrop h.modFabric)

theorem Keeps.fabSeq (h : Keeps s t) : Keeps s t.fabSeq.2 := .snd h.modFabric

theorem Keeps.fabToNbr (h : Keeps s t) {typ hop src dst hops flags seq body host} : Keeps s (t.fabToNbr typ hop src dst hops
  flags seq body host) := by
  unfold State.fabToNbr
  split
  · exact h.fabQueue
  · exact h.fabDrop.fabSent

theorem Keeps.fabDeliver (h : Keeps s t) {typ src hops flags seq body} : Keeps s (t.fabDeliver typ src hops flags seq body) :=
  .ite h.fabEvent h.fabEvent

theorem Keeps.fabForward (h : Keeps s t) {typ src dst hops flags seq body host} : Keeps s (t.fabForward typ src dst hops flags
  seq body host) := by
  unfold State.fabForward
  refine .ite ?_ ?_
  · exact h.fabDeliver
  · refine .ite ?_ ?_
    · exact h.fabDrop.fabSent
    · split
      · exact h.fabToNbr
      · exact h.fabDrop.fabSent

theorem Keeps.fabRelay (h : Keeps s t) {desc psdu} : Keeps s (t.fabRelay desc psdu) := by
  unfold State.fabRelay
  dsimp only
  exact .ite h.fabDrop h.fabSeq.fabForward

theorem Keeps.fabGasp (h : Keeps s t) : Keeps s t.fabGasp := by
  unfold State.fabGasp
  dsimp only
  exact .ite h.fabSeq.fabForward h

theorem Keeps.fabFlush (h : Keeps s t) : Keeps s t.fabFlush := .modFabric (.forEach (fun _ _ h1 => h1.fabSent) h)

theorem Keeps.fabDetach (h : Keeps s t) {reason} : Keeps s (t.fabDetach reason) := by
  unfold State.fabDetach
  exact h.modFabric.fabFlush.fabEvent

theorem Keeps.fabRank (h : Keeps s t) : Keeps s t.fabRank := by
  unfold State.fabRank
  split
  · exact .ite h (.ite h.fabDetach h.modFabric)
  · exact h

theorem Keeps.routeAdv (h : Keeps s t) : Keeps s t.routeAdv := by
  unfold State.routeAdv
  dsimp only
  split
  · exact .forEach (fun _ _ h1 => h1.fabSeq.fabToNbr) h
  · exact h

theorem Keeps.joinReq (h : Keeps s t) {p asking} : Keeps s (t.joinReq p asking) := by
  unfold State.joinReq
  dsimp only
  exact h.fabSeq.fabToNbr

theorem Keeps.fabTurn (h : Keeps s t) {old p} : Keeps s (t.fabTurn old p) := by
  unfold State.fabTurn
  dsimp only
  exact .forEach (fun _ _ h1 => h1.fabDrop) h.modFabric

theorem Keeps.fabReparent (h : Keeps s t) {p} : Keeps s (t.fabReparent p) := by
  unfold State.fabReparent
  dsimp only
  exact .ite (.fabEvent (.ite h.modFabric.modNbr.fabTurn.fabRank.joinReq h.modFabric.modNbr.fabTurn.fabRank.routeAdv))
      h.modFabric.modNbr.fabTurn.fabRank

theorem Keeps.parentLost (h : Keeps s t) {out} : Keeps s (t.parentLost out) := by
  unfold State.parentLost
  split
  · exact h.fabReparent
  · exact h.fabDetach

theorem Keeps.fabRestart (h : Keeps s t) {h'} : Keeps s (t.fabRestart h') := by
  unfold State.fabRestart
  exact .courseCtrlWrite (.commit (.setReg32 (.setAsn (.ite h.modCourse.courseStop h))))

theorem Keeps.joinComplete (h : Keeps s t) {p addr} : Keeps s (t.joinComplete p addr) := by
  unfold State.joinComplete
  exact h.setReg.cfgPush.modFabric.fabRestart.fabEvent.fabRank

theorem Keeps.fabTake (h : Keeps s t) {x} : Keeps s (t.fabTake x) := by
  unfold State.fabTake
  dsimp only
  exact .ite h.modFabric h.fabDrop

theorem Keeps.fabNext (h : Keeps s t) {typs x} (e : t.fabNext typs = some (x, u)) : Keeps s u := by
  unfold State.fabNext at e
  split at e
  · cases e
    exact h.modFabric
  · cases e

theorem Keeps.execFabricHelloSend (h : Keeps s t) : Completes s (execFabricHelloSend t) := by
  unfold Machine.execFabricHelloSend
  dsimp only
  exact .next (.ite (.forEach (fun _ _ h1 => h1.fabSeq.modFabric) h) h)

theorem Keeps.fabVersion (h : Keeps s t) {n} : Keeps s (t.fabVersion n) := .ite h (.ite h.modNbr.fabEvent h)

theorem Keeps.fabOffset (h : Keeps s t) {x n} : Keeps s (t.fabOffset x n) := by
  unfold State.fabOffset
  exact .ite h.modFabric h

theorem Keeps.helloFollow (h : Keeps s t) {x n} : Keeps s (t.helloFollow x n) := by
  unfold State.helloFollow
  exact .ite h (.ite (.ite h.parentLost h.modFabric.fabOffset.fabRank) (.ite h.fabReparent h))

theorem Keeps.execFabricHelloReceive (h : Keeps s t) : Completes s (execFabricHelloReceive t) := by
  unfold Machine.execFabricHelloReceive
  dsimp only
  exact .next (by
  split
  · exact h
  · next e =>
      refine .ite ?_ ?_
      · exact ((h.fabNext e)).fabDrop
      · split
        · exact ((((h.fabNext e)).modNbr).fabVersion).helloFollow
        · refine .ite ?_ ?_
          · exact ((((h.fabNext e)).modFabric).fabVersion).helloFollow
          · split
            · exact .ite ((h.fabNext e)) (((((h.fabNext e)).modFabric).fabVersion).helloFollow)
            · exact (h.fabNext e))

theorem Keeps.execNeighbourRemove (h : Keeps s t) : Completes s (execNeighbourRemove t) := by
  unfold Machine.execNeighbourRemove
  exact .next (.modFabric (.ite h.parentLost h))

theorem Keeps.execJoinReqSend (h : Keeps s t) : Completes s (execJoinReqSend t) := by
  unfold Machine.execJoinReqSend
  dsimp only
  exact .next (by
  refine .ite ?_ ?_
  · split
    · exact h.modFabric.modNbr.joinReq
    · exact h
  · exact h)

theorem Keeps.routePut (h : Keeps s t) {r} : Keeps s (t.routePut r) := by
  unfold State.routePut
  exact .ite h h.modFabric

theorem Keeps.joinRsp (h : Keeps s t) {joiner status addr src hops seq} : Keeps s (t.joinRsp joiner status addr src hops seq) :=
  by
  unfold State.joinRsp
  dsimp only
  split
  · exact .fabQueue (.ite h.modFabric.routePut h.modFabric)
  · exact h.fabDrop

theorem Keeps.execJoinReqRelay (h : Keeps s t) : Completes s (execJoinReqRelay t) := by
  unfold Machine.execJoinReqRelay
  dsimp only
  exact .next (by
  split
  · exact h
  · next e =>
      refine .ite ?_ ?_
      · exact ((h.fabNext e)).fabDrop
      · refine .ite ?_ ?_
        · exact .joinRsp (.fabSeq (.ite (((((h.fabNext e)).modFabric).modFabric).cfgPush) ((((h.fabNext
            e)).modFabric).modFabric)))
        · refine .ite ?_ ?_
          · exact (((h.fabNext e)).modFabric).fabDrop
          · split
            · exact (((h.fabNext e)).modFabric).fabToNbr
            · exact (((h.fabNext e)).modFabric).fabDrop)

theorem Keeps.joinRetry (h : Keeps s t) : Keeps s t.joinRetry := h.modFabric

theorem Keeps.execJoinRspReceive (h : Keeps s t) : Completes s (execJoinRspReceive t) := by
  unfold Machine.execJoinRspReceive
  dsimp only
  exact .next (by
  split
  · exact h
  · next e =>
      refine .ite ?_ ?_
      · exact (h.fabNext e)
      · refine .ite ?_ ?_
        · split
          · exact ((h.fabNext e)).joinComplete
          · exact ((h.fabNext e)).joinRetry
        · exact .ite (((h.fabNext e)).fabDrop) (((h.fabNext e)).joinRsp))

theorem Keeps.execJoinTimeout (h : Keeps s t) : Completes s (execJoinTimeout t) := by
  unfold Machine.execJoinTimeout
  exact .next (by
  split
  · exact h.passTo.joinRetry
  · exact h)

theorem Keeps.execRouteAdvSend (h : Keeps s t) : Completes s (execRouteAdvSend t) := by
  unfold Machine.execRouteAdvSend
  exact .next (by
  split
  · exact .ite h.routeAdv h
  · exact h)

theorem Keeps.execRouteAdvReceive (h : Keeps s t) : Completes s (execRouteAdvReceive t) := by
  unfold Machine.execRouteAdvReceive
  exact .next (by
  split
  · exact h
  · next e =>
      exact .forEach (fun _ _ h1 => .ite h1 h1.routePut) ((h.fabNext e)))

theorem Keeps.execDataForward (h : Keeps s t) : Completes s (execDataForward t) := by
  unfold Machine.execDataForward
  dsimp only
  exact .next (by
  split
  · exact h
  · next e =>
      exact .ite (((h.fabNext e)).fabDrop) (.ite ((h.fabNext e)) ((((h.fabNext e)).modFabric).fabForward)))

theorem Keeps.execParentLost (h : Keeps s t) : Completes s (execParentLost t) := by
  unfold Machine.execParentLost
  exact .next (by
  split
  · exact .ite h.parentLost h
  · exact h)

theorem Keeps.execTimeOffsetUpdate (h : Keeps s t) : Completes s (execTimeOffsetUpdate t) := by
  unfold Machine.execTimeOffsetUpdate
  dsimp only
  exact .next (by
  refine .ite ?_ ?_
  · refine .ite ?_ ?_
    · split
      · exact h.modFabric.fabRestart
      · exact h.modFabric
    · split
      · exact h.modFabric.adjWrite.trimWrite
      · exact h.modFabric.adjWrite
  · exact h)

theorem Keeps.fabCarrier (h : Keeps s t) {asn entry} : Keeps s (t.fabCarrier asn entry) := by
  unfold State.fabCarrier
  dsimp only
  split
  · exact .ite h.draw.modFabric.modNbr.fabSent (.ite h.draw.modFabric.modNbr.fabSent h.draw.modFabric)
  · exact h

theorem Keeps.execCarrierEnd (h : Keeps s t) {b} : Completes s (execCarrierEnd b t) := by
  unfold Machine.execCarrierEnd
  exact .next (by
  split
  · split
    · exact h.carrierEnd.fabCarrier
    · exact h.carrierEnd
  · exact h)

theorem Keeps.fabStart (h : Keeps s t) : Keeps s t.fabStart := by
  unfold State.fabStart
  dsimp only
  exact .ite h (.ite h.modFabric.setReg.modFabric.drawOctets.fabEvent h.modFabric.modFabric)

theorem Keeps.fabStop (h : Keeps s t) : Keeps s t.fabStop := by
  unfold State.fabStop
  exact .ite (.fabEvent (.modFabric (.fabFlush (.planCommit (.forEach (fun _ _ h1 => h1.shadowWrite) h))))) h

theorem Keeps.fabStatus (h : Keeps s t) : Keeps s t.fabStatus.2 := by
  unfold State.fabStatus
  exact .snd (.modFabric (by
  split
  · exact h
  · exact .snd h.drawOctets))

/-! ## Assay -/

theorem Keeps.markFailed (h : Keeps s t) {p} : Keeps s (t.markFailed p) := h.setReg

theorem Keeps.laneRemap (h : Keeps s t) {n p} : Keeps s (t.laneRemap n p) := by
  unfold State.laneRemap
  exact .forEach (fun _ _ h1 => h1.setReg) h.setReg.setFld

theorem Keeps.laneWithdraw (h : Keeps s t) {n} : Keeps s (t.laneWithdraw n) := h.setReg.setLaneState

theorem Keeps.assayCmdWrite (h : Keeps s t) {w} : Keeps s (t.assayCmdWrite w) := by
  unfold State.assayCmdWrite
  exact .ite h (.ite h.setFlag h.modAssay.setFld)

theorem Keeps.assayReport (h : Keeps s t) {q outcome action} : Keeps s (t.assayReport q outcome action) := by
  unfold State.assayReport
  dsimp only
  exact .ite h h.modAdsin.event

theorem Keeps.sliceResult (h : Keeps s t) {q outcome action detail} : Keeps s (t.sliceResult q outcome action detail) := by
  unfold State.sliceResult
  exact h.setReg.setReg.setReg32.raiseEvt.assayReport

theorem Keeps.assayPop (h : Keeps s t) : Keeps s t.assayPop := by
  unfold State.assayPop
  exact h.modAssay.setFld

theorem Keeps.execAssayRequestCheck (h : Keeps s t) : Completes s (execAssayRequestCheck t) := by
  unfold Machine.execAssayRequestCheck
  exact .next (by
  split
  · refine .ite ?_ ?_
    · exact h
    · split
      · exact h.assayPop.sliceResult
      · exact h.modAssay
  · exact h)

theorem Keeps.execRequestExpired (h : Keeps s t) : Completes s (execRequestExpired t) := by
  unfold Machine.execRequestExpired
  exact .next (by
  split
  · exact .ite h.assayPop.sliceResult h
  · exact h)

theorem Keeps.execSliceStart (h : Keeps s t) : Completes s (execSliceStart t) := by
  unfold Machine.execSliceStart
  dsimp only
  exact .next (by
  split
  · exact .ite h.assayPop.modAssay.setFlag.count h
  · exact h)

theorem Keeps.marchRuns (h : Keeps s t) {k} : Keeps s (t.marchRuns k) := by
  unfold State.marchRuns
  dsimp only
  exact .forEach (fun _ _ h1 => .ite h1.draw h1.draw.setSramHalf) h

theorem Keeps.marchLeaves (h : Keeps s t) {k known} : Keeps s (t.marchLeaves k known) := by
  have cleared : Keeps s { t with sram := t.sram.filter (fun p => !t.inTest k p.1) } :=
    h.trans ⟨fun ⟨r, f, n, sr, rest⟩ => ⟨r, f, n, memFilter_wf _ _ _ sr, rest⟩, rfl⟩
  unfold State.marchLeaves
  dsimp only
  split
  · exact cleared
  · exact .forEach (fun _ _ h => h.draw.setSramHalf) cleared

theorem Keeps.isolate (h : Keeps s t) {q} : Keeps s (t.isolate q) := by
  unfold State.isolate
  exact .ite (.ite h.modAssay.laneLeave h.modAssay) (.ite h.modAssay.setFld (.ite h.modAssay.modRfe.syncMute (.ite
      h.modAssay.marchRuns h.modAssay)))

theorem Keeps.sliceEnd (h : Keeps s t) {q outcome action detail} : Keeps s (t.sliceEnd q outcome action detail) := by
  unfold State.sliceEnd
  exact .ite h.modAssay.setFlag.sliceResult.takeWaiting h.modAssay.setFlag.sliceResult

theorem Keeps.execSupplyCheckEnd (h : Keeps s t) {mv} : Completes s (execSupplyCheckEnd mv t) := by
  unfold Machine.execSupplyCheckEnd
  dsimp only
  exact .next (by
  split
  · exact .ite h (.ite h.passTo.setReg.sliceEnd h.passTo.setReg.isolate)
  · exact h)

theorem Keeps.giveBack (h : Keeps s t) {q known} : Keeps s (t.giveBack q known) := by
  unfold State.giveBack
  exact .ite (.ite h.modAssay.modLane.setLaneState h.modAssay) (.ite h.modAssay.setFld (.ite h.modAssay.modRfe.syncMute (.ite
      h.modAssay.marchLeaves h.modAssay)))

theorem Keeps.repairRecord (h : Keeps s t) : Keeps s t.repairRecord := by
  unfold State.repairRecord
  exact h.modAssay

theorem Keeps.sliceRepair (h : Keeps s t) {q short} : Keeps s (t.sliceRepair q short).2 := by
  unfold State.sliceRepair
  dsimp only
  refine .iteSnd ?_ ?_
  · refine .iteSnd ?_ ?_
    · split
      · exact .snd h.markFailed.laneRemap.repairRecord
      · exact .snd h.markFailed.laneWithdraw.repairRecord
    · exact .snd h.markFailed.repairRecord
  · exact .iteSnd (.iteSnd h (.snd h.setFld.setFld.repairRecord)) (.iteSnd (.snd h.lfFault) (.iteSnd (.snd h.calRequest)
      (.iteSnd (.snd h.calRequest) h)))

theorem Keeps.scanNotes (h : Keeps s t) {q} : Keeps s (t.scanNotes q) := .ite h.eccNote h

theorem Keeps.returnAt (h : Keeps s t) {q t'} : Keeps s (t.returnAt q t') := by
  unfold State.returnAt
  exact .passTo (.ite (.ite h.passTo.modRfe.syncMute h.passTo.modRfe.syncMute.modRfe) h)

theorem Keeps.execSliceReturn (h : Keeps s t) {m d short} : Completes s (execSliceReturn m d short t) := by
  unfold Machine.execSliceReturn
  dsimp only
  exact .next (by
  split
  · exact .ite h (.ite h.returnAt.giveBack.scanNotes.sliceEnd h.returnAt.giveBack.scanNotes.sliceRepair.count.sliceEnd)
  · exact h)

theorem Keeps.execSliceOverrun (h : Keeps s t) : Completes s (execSliceOverrun t) := by
  unfold Machine.execSliceOverrun
  exact .next (by
  split
  · exact .ite h h.returnAt.giveBack.sliceEnd
  · exact h)

theorem Keeps.sliceAbort (h : Keeps s t) : Keeps s t.sliceAbort := by
  unfold State.sliceAbort
  split
  · exact .sliceEnd (.ite h.giveBack h)
  · exact h

theorem Keeps.assayCtrlWrite (h : Keeps s t) {w} : Keeps s (t.assayCtrlWrite w) := by
  unfold State.assayCtrlWrite
  exact .ite h.plainWrite h.plainWrite.modAssay.setFld.sliceAbort

theorem Keeps.execAssayScheduleTick (h : Keeps s t) {slice} : Completes s (execAssayScheduleTick slice t) := by
  unfold Machine.execAssayScheduleTick
  dsimp only
  exact .next (by
  refine .ite ?_ ?_
  · exact h
  · split
    · exact h.modAdsin.assayCmdWrite
    · exact h)

/-! ## Keys -/

theorem Keeps.pickCode (h : Keeps s t) {l} : Keeps s (t.pickCode l).2 := by
  unfold State.pickCode
  dsimp only
  split
  · exact h
  · exact h
  · exact .snd h.draw

theorem Keeps.loadSlot (h : Keeps s t) {n k} : Keeps s (t.loadSlot n k) := .setSlot (.ite h.storeSlot h)

theorem Keeps.keysHold (h : Keeps s t) : Keeps s t.keysHold := by
  unfold State.keysHold
  split
  · exact .ite h.modPke.setFlag h
  · exact h

theorem Keeps.keysImport (h : Keeps s t) {args} : Keeps s (t.keysImport args).2 := by
  unfold State.keysImport
  dsimp only
  refine .iteSnd ?_ ?_
  · exact h
  · refine .iteSnd ?_ ?_
    · exact h
    · refine .iteSnd ?_ ?_
      · exact h
      · refine .iteSnd ?_ ?_
        · exact h
        · refine .iteSnd ?_ ?_
          · exact h
          · refine .iteSnd ?_ ?_
            · exact h
            · refine .iteSnd ?_ ?_
              · exact h
              · refine .iteSnd ?_ ?_
                · exact h
                · split
                  · exact h
                  · exact .iteSnd h (.snd h.loadSlot.storeWrite)

theorem Keeps.keysDerive (h : Keeps s t) {core args} : Keeps s (t.keysDerive core args).2 := by
  unfold State.keysDerive
  dsimp only
  split
  · exact .snd h.pickCode
  · exact .snd h.pickCode.takeUse.loadSlot.lastUseDestroy

theorem Keeps.keysGenerate (h : Keeps s t) {args} : Keeps s (t.keysGenerate args).2 := by
  unfold State.keysGenerate
  dsimp only
  split
  · exact .snd h.pickCode
  · exact .snd h.pickCode.drbg.loadSlot

theorem Keeps.keysTransfer (h : Keeps s t) {args} : Keeps s (t.keysTransfer args).2 := by
  unfold State.keysTransfer
  dsimp only
  exact .iteSnd h (.iteSnd (.snd h.pickCode) (.snd h.modTenant.storeSeal.destroySlot))

theorem Keeps.keysDrop (h : Keeps s t) {args} : Keeps s (t.keysDrop args).2 := by
  unfold State.keysDrop
  exact .snd h.modTenant.storeErase

theorem Keeps.keysAct (h : Keeps s t) {c} : Keeps s (t.keysAct c).2 := by
  unfold State.keysAct
  dsimp only
  refine .iteSnd ?_ ?_
  · exact h
  · split
    · exact h.keysImport
    · exact h.keysDerive
    · exact h.keysGenerate
    · exact .iteSnd h (.snd h.destroySlot)
    · exact h.keysTransfer
    · exact h.keysDrop
    · exact .snd h.drbg.modKeys
    · exact h
    · exact h

theorem Keeps.keysRun (h : Keeps s t) {c} : Keeps s (t.keysRun c).2 := by
  unfold State.keysRun
  refine .iteSnd ?_ ?_
  · exact .snd (.keysAct (by
      split
      · exact h.leaseTake
      · exact h))
  · split
    · exact h.leaseTake
    · exact h

theorem Keeps.keysUnport (h : Keeps s t) : Keeps s t.keysUnport := .ite h h.unport

theorem Keeps.execKeysCmdDone (h : Keeps s t) : Completes s (execKeysCmdDone t) := by
  unfold Machine.execKeysCmdDone
  dsimp only
  exact .next (by
  split
  · exact h
  · refine .ite ?_ ?_
    · exact h
    · split
      · next e =>
          exact ((h.keysRun.ofEq e)).keysUnport
      · next e =>
          exact .ite (.complete (.accessRootCheck (.raise (.setFlag (.setFld (.ite (.setFlag (.modPke (.ite ((((h.keysRun.ofEq
              e)).modKeys).keysUnport) (((h.keysRun.ofEq e)).modKeys)))) (.ite ((((h.keysRun.ofEq e)).modKeys).keysUnport)
              (((h.keysRun.ofEq e)).modKeys)))))))) (.complete (.accessRootCheck (.raise (.setFlag (.setFld (.ite (.setFlag
              (.modPke (.ite ((((h.keysRun.ofEq e)).modKeys).keysUnport) (((h.keysRun.ofEq e)).modKeys)))) (.ite
              ((((h.keysRun.ofEq e)).modKeys).keysUnport) (((h.keysRun.ofEq e)).modKeys)))))))))

theorem Keeps.transitionCert (h : Keeps s t) : Keeps s t.transitionCert.2 := by
  unfold State.transitionCert
  dsimp only
  split <;> exact .snd h.drbg

theorem Keeps.lcBegin (h : Keeps s t) {target} : Keeps s (t.lcBegin target) := by
  unfold State.lcBegin
  dsimp only
  exact .complete (.modKeys (.iteSnd h.accessAbort.sliceAbort.transitionCert (.snd h.accessAbort.sliceAbort)))

theorem Keeps.keysJudge (h : Keeps s t) : Keeps s t.keysJudge := by
  unfold State.keysJudge
  dsimp only
  split
  · exact .ite h (.ite h.modKeys.lcBegin h.modKeys.modPke.setFlag.modKeys)
  · exact h

theorem Keeps.keysCmdWrite (h : Keeps s t) {core op} : Keeps s (t.keysCmdWrite core op) := by
  unfold State.keysCmdWrite
  exact .ite h.setFlag h.setFlag.modKeys.keysHold.keysJudge

theorem Keeps.setPkeOp (h : Keeps s t) {w v} : Keeps s (t.setPkeOp w v) := .forEach (fun _ _ h1 => h1.setReg) h

theorem Keeps.pkeUpdate (h : Keeps s t) {c} : Keeps s (t.pkeUpdate c).2 := by
  unfold State.pkeUpdate
  dsimp only
  split
  · exact .snd h.pickCode.modPke
  · exact .snd h.pickCode
  · exact .snd h.pickCode

theorem Keeps.pkeFinal (h : Keeps s t) : Keeps s t.pkeFinal.2 := by
  unfold State.pkeFinal
  dsimp only
  split
  · exact h
  · exact .snd h.setPkeOp.modPke

theorem Keeps.pkeSign (h : Keeps s t) {c} : Keeps s (t.pkeSign c).2 := by
  unfold State.pkeSign
  dsimp only
  split
  · exact .snd h.pickCode
  · exact .snd h.pickCode.drbg.setPkeOp.setPkeOp

theorem Keeps.pkeEcdh (h : Keeps s t) {c} : Keeps s (t.pkeEcdh c).2 := by
  unfold State.pkeEcdh
  dsimp only
  refine .iteSnd ?_ ?_
  · exact h
  · refine .iteSnd ?_ ?_
    · exact h
    · split
      · exact .snd h.pickCode
      · exact .snd h.pickCode.loadSlot

theorem Keeps.pkeKeygen (h : Keeps s t) {c} : Keeps s (t.pkeKeygen c).2 := by
  unfold State.pkeKeygen
  dsimp only
  split
  · exact .snd h.pickCode
  · exact .snd h.pickCode.drbg.loadSlot.setPkeOp.setPkeOp

theorem Keeps.pkeAct (h : Keeps s t) {c} : Keeps s (t.pkeAct c).2 := by
  unfold State.pkeAct
  dsimp only
  split
  · exact .snd h.modPke
  · exact h.pkeUpdate
  · exact h.pkeFinal
  · exact .iteSnd h h
  · exact h.pkeSign
  · exact h.pkeEcdh
  · exact h.pkeKeygen
  · exact h
  · exact h

theorem Keeps.pkeCmdWrite (h : Keeps s t) {core w} : Keeps s (t.pkeCmdWrite core w) := by
  unfold State.pkeCmdWrite
  exact .ite h.setFlag h.setFlag.modPke

theorem Keeps.execPkeOpDone (h : Keeps s t) : Completes s (execPkeOpDone t) := by
  unfold Machine.execPkeOpDone
  dsimp only
  exact .next (by
  split
  · exact h
  · exact .ite h (.raise (.keysJudge (.keysHold (.setFlag (.setFld (.ite h.pkeAct.modPke.keysUnport h.pkeAct.modPke)))))))

theorem Keeps.trngCtrlWrite (h : Keeps s t) {w} : Keeps s (t.trngCtrlWrite w) := by
  unfold State.trngCtrlWrite
  exact .ite (.setFlag (.setFlag (.setFlag (.ite h.modTrng h)))) (.ite h.modTrng h)

theorem Keeps.healthFail (h : Keeps s t) {rct apt} : Keeps s (t.healthFail rct apt) := by
  unfold State.healthFail
  exact h.count.count.setReg.modTrng.raise

theorem Keeps.execTrngStartupDone (h : Keeps s t) {first rest} : Completes s (execTrngStartupDone first rest t) := by
  unfold Machine.execTrngStartupDone
  exact .next (.ite (.ite h.setReg.modTrng.keysJudge.trngFill h.healthFail) h)

theorem Keeps.execHealthTestFail (h : Keeps s t) {samples} : Completes s (execHealthTestFail samples t) := by
  unfold Machine.execHealthTestFail
  exact .next (.ite h h.healthFail)

theorem Keeps.trngRead (h : Keeps s t) : Keeps s t.trngRead.2 := .iteSnd (.snd h.setFlag.trngFill) (.snd h.setFlag)

theorem Keeps.execTrngOutRead (h : Keeps s t) : Completes s (execTrngOutRead t) := by
  unfold Machine.execTrngOutRead
  dsimp only
  exact .next h.trngRead.see

/-! ## Nvmc -/

theorem Keeps.nvmcCmdWrite (h : Keeps s t) {op} : Keeps s (t.nvmcCmdWrite op) := by
  unfold State.nvmcCmdWrite
  exact .ite h.setFlag h.setFlag.modNvm.nvServe

theorem Keeps.nvRecord (h : Keeps s t) {typ args fails} : Keeps s (t.nvRecord typ args fails).2 := by
  unfold State.nvRecord
  dsimp only
  exact .iteSnd h (.iteSnd h (.snd h.nvRecordWrite))

theorem Keeps.nvCfgRead (h : Keeps s t) {args} : Keeps s (t.nvCfgRead args).2 := by
  unfold State.nvCfgRead
  dsimp only
  split
  · exact .snd h.regionRead
  · exact .snd h.regionRead.nvSplit
  · exact .iteSnd (.snd h.regionRead) (.iteSnd (.snd h.regionRead) (.snd h.regionRead.setSramWords.setReg.setReg))

theorem Keeps.nvImgWrite (h : Keeps s t) {args ok} : Keeps s (t.nvImgWrite args ok).2 := by
  unfold State.nvImgWrite
  dsimp only
  split
  · exact .iteSnd h (.iteSnd h (.iteSnd h (.iteSnd (.snd h.nvPut) (.snd h.drawOctets.nvPut.raiseEvt))))
  · exact h

theorem Keeps.nvImgErase (h : Keeps s t) {args} : Keeps s (t.nvImgErase args).2 := by
  unfold State.nvImgErase
  exact .iteSnd h (.snd h.nvErase)

theorem Keeps.nvmcDone (h : Keeps s t) {fails} : Keeps s (t.nvmcDone fails) := by
  unfold State.nvmcDone
  dsimp only
  split
  · exact h
  · exact .raiseEvt (.setFlag (.setFld (.unport (.modNvm (by
      split
      · exact h.nvRecord
      · exact h.nvCfgRead
      · exact h.nvRecord
      · exact h.nvImgWrite
      · exact h.nvImgErase
      · exact h)))))

theorem Keeps.scratch (h : Keeps s t) {n} : Keeps s (t.scratch n).2 := by
  unfold State.scratch
  dsimp only
  exact h.draw

theorem Keeps.cfgAsk (h : Keeps s t) {ver payload seq} : Keeps s (t.cfgAsk ver payload seq) := by
  unfold State.cfgAsk
  dsimp only
  exact .nvmcCmdWrite (.forEach (fun _ _ h1 => h1.setReg) h.scratch.setSramWords)

theorem Keeps.execNvmcPortRecord (h : Keeps s t) {src} : Completes s (execNvmcPortRecord src t) := by
  unfold Machine.execNvmcPortRecord
  dsimp only
  exact .next (by
  refine .ite ?_ ?_
  · exact h
  · split
    · exact h.nvHand
    · exact h)

theorem Keeps.repairDone (h : Keeps s t) {fails} : Keeps s (t.repairDone fails) := by
  unfold State.repairDone
  dsimp only
  split
  · exact .ite h.modAssay.nvRecordWrite.unport h.modAssay.nvRecordWrite.unport.setFlag
  · exact h

theorem Keeps.execNvmcRecordDone (h : Keeps s t) {src fails} : Completes s (execNvmcRecordDone src fails t) := by
  unfold Machine.execNvmcRecordDone
  dsimp only
  exact .next (by
  refine .ite ?_ ?_
  · split
    · exact h.keysLease
    · exact h.repairDone
    · exact h.accessLogged
    · exact h.leaseEnd
  · exact h)

theorem Keeps.execSegmentEraseDone (h : Keeps s t) : Completes s (execSegmentEraseDone t) := by
  unfold Machine.execSegmentEraseDone
  exact .next (by
  split
  · exact h.nvClear.modNvm
  · exact h)

theorem Keeps.admitWrite (h : Keeps s t) {w} : Keeps s (t.admitWrite w) := by
  unfold State.admitWrite
  exact .ite (.setFlag (.ite h.setFlag h)) (.setFld (.ite h.setFlag h))

/-! ## Threads -/

theorem Keeps.enter (h : Keeps s t) {c t' code epc ds} : Keeps s (t.enter c t' code epc ds) := by
  unfold State.enter
  dsimp only
  exact h.modCore

theorem Keeps.doubleFault (h : Keeps s t) {c t'} : Keeps s (t.doubleFault c t') := by
  unfold State.doubleFault
  exact h.modCore.setReg.threadHalted

theorem Keeps.trap (h : Keeps s t) {c t' code fault} : Keeps s (t.trap c t' code fault) := by
  unfold State.trap
  dsimp only
  refine .ite ?_ ?_
  · exact h.doubleFault
  · split <;> exact .enter (by
      split
      · exact h.setReg.setReg
      · exact h)

theorem Keeps.raiseInstr (h : Keeps s t) {c t' code addr} : Keeps s (t.raiseInstr c t' code addr) := h.trap.modThr

theorem Keeps.async (h : Keeps s t) {c t' code} : Keeps s (t.async c t' code) := by
  unfold State.async
  dsimp only
  refine .ite ?_ ?_
  · exact h.modThr
  · split <;> exact h.modThr.enter

theorem Keeps.takeHeld (h : Keeps s t) {c t'} : Keeps s (t.takeHeld c t') := by
  unfold State.takeHeld
  exact .ite h (.ite h.async (.ite h.async h))

theorem Keeps.startThread (h : Keeps s t) {c t'} : Keeps s (t.startThread c t') := by
  unfold State.startThread
  exact .ite h.modThr.modCore h

theorem Keeps.thrStartWrite (h : Keeps s t) {c w} : Keeps s (t.thrStartWrite c w) := .forEach (fun _ _ h1 => h1.startThread) h

theorem Keeps.thrKillWrite (h : Keeps s t) {c w} : Keeps s (t.thrKillWrite c w) := .forEach (fun _ _ h1 => h1.modCore) h

theorem Keeps.pendWrite (h : Keeps s t) {c w v} : Keeps s (t.pendWrite c w v) := by
  unfold State.pendWrite
  exact .forEach (fun _ _ h1 => .ite h1.post h1) h.setReg

theorem Keeps.execStall (h : Keeps s t) {c} : Completes s (execStall c t) := by
  unfold Machine.execStall
  exact .next (by
  split
  · exact .ite h.count.async h
  · exact h)

theorem Keeps.mbWrite (h : Keeps s t) {k c w} : Keeps s (t.mbWrite k c w) := by
  unfold State.mbWrite
  exact .ite h (.ite h.setFlag h.frame.postAll)

theorem Keeps.mbRead (h : Keeps s t) {k c} : Keeps s (t.mbRead k c).2 := by
  unfold State.mbRead
  refine .iteSnd ?_ ?_
  · exact h
  · split
    · exact .snd h.setFlag
    · exact .snd h.frame

theorem Keeps.execMailboxRead (h : Keeps s t) {k c} : Completes s (execMailboxRead k c t) := by
  unfold Machine.execMailboxRead
  dsimp only
  exact .next h.mbRead.see

theorem Keeps.bell (h : Keeps s t) {c w} : Keeps s (t.bell c w) := h.postAll

theorem Keeps.wdStart (h : Keeps s t) {c} : Keeps s (t.wdStart c) := by
  unfold State.wdStart
  exact h.commit.setFld.modCore

theorem Keeps.wdtCtrlWrite (h : Keeps s t) {c w} : Keeps s (t.wdtCtrlWrite c w) := .ite h.setFlag.wdStart h

theorem Keeps.kick (h : Keeps s t) {c w} : Keeps s (t.kick c w) := .ite h.wdStart h

theorem Keeps.execWdtStage1Expiry (h : Keeps s t) {c} : Completes s (execWdtStage1Expiry c t) := by
  unfold Machine.execWdtStage1Expiry
  dsimp only
  exact .next (by
  refine .ite ?_ ?_
  · split
    · exact h.modCore.setFld.async
    · exact h.modCore.setFld
  · exact h)

/-! ## Reset -/

theorem Keeps.kept (h : Keeps s t) {ram} (wf : Canonical t → Memory.wf ram 0 = true) : Keeps s (t.kept ram) :=
  h.trans ⟨fun c => by
    obtain ⟨r, f, n, sr, rr, m, x⟩ := c
    exact ⟨sparseWf_filter _ _ _ r, sparseWf_filter _ _ _ f, sparseWf_filter _ _ _ n, wf ⟨r, f, n, sr, rr, m, x⟩, rfl, m, x⟩,
        rfl⟩

theorem Keeps.lcWrites (h : Keeps s t) {target cert} : Keeps s (t.lcWrites target cert) := by
  unfold State.lcWrites
  exact .storePut (.ite (.nvWipe (.nvWipe (.ite (.ite h h.storePut) (.storePut (.ite h h.storePut))))) (.nvWipe (.nvWipe
      (.nvWipe (.nvWipe (.nvWipe (.ite (.ite h h.storePut) (.storePut (.ite h h.storePut)))))))))

theorem Keeps.nvWorkOf (h : Keeps s t) {fails x} : Keeps s (t.nvWorkOf fails x) := by
  unfold State.nvWorkOf
  split
  · exact h.keysLease
  · exact h.repairDone
  · exact h.accessLogged
  · exact h.leaseEnd
  · exact h.nvmcDone

theorem Keeps.nvCurWork (h : Keeps s t) {fails} : Keeps s (t.nvCurWork fails) := by
  unfold State.nvCurWork
  split
  · exact h.nvWorkOf
  · exact h

theorem Keeps.keysWork (h : Keeps s t) : Keeps s t.keysWork := by
  unfold State.keysWork
  dsimp only
  split
  · exact h.lcWrites
  · exact h
  · split
    · refine .ite ?_ ?_
      · split
        · exact .ite h h.keysRun
        · exact h
      · exact .pkeAct (by
          split
          · exact .ite h h.keysRun
          · exact h)
    · split
      · exact .ite h h.keysRun
      · exact h

theorem Keeps.nvBound (h : Keeps s t) {n how} : Keeps s (t.nvBound n how) := h.modNvm

theorem Keeps.nvCut (h : Keeps s t) {how} : Keeps s (t.nvCut how) := by
  unfold State.nvCut
  refine .ite h ?_
  dsimp -zeta only
  have drawn := fun n n' n'' n3 n4 n5 => (h.draw (n := n)).draw (n := n') |>.draw (n := n'') |>.draw (n := n3) |>.draw (n := n4)
    |>.draw (n := n5)
  extract_lets at_ erased freed wrote worked
  have e : Keeps s erased := by
    dsimp only [erased]
    split
    · exact .nvClear (.nvBound (drawn ..))
    · exact drawn ..
  have f : Keeps s freed := by
    dsimp only [freed]
    split
    · exact e.nvBound.freeSeg
    · exact e
  have w : Keeps s wrote := by
    dsimp only [wrote]
    split
    · exact .ite f.nvBound (.ite f.nvBound.nvmcDone.nvBound.nvWorkOf.keysWork f.nvBound.nvmcDone.nvBound.nvWorkOf)
    · exact f.nvBound
  exact .mramOf (drawn ..) (.ite w w.nvCurWork.keysWork)

theorem Keeps.stageLost (h : Keeps s t) : Keeps s t.stageLost := h.modUpdate

theorem Keeps.deviceReset (h : Keeps s t) {cause core} : Keeps s (t.deviceReset cause core) := by
  unfold State.deviceReset
  dsimp only
  refine .ite h (.setFld (.setFld (.setReg (.modSys (.kept ?_ ?_)))))
  · exact .ite (.stageLost (.nvCut (.iteSnd h.draw h))) (.nvCut (.iteSnd h.draw h))
  · rintro ⟨_, _, _, sram, _⟩
    split
    · exact memFilter_wf _ _ _ sram
    · rfl

theorem Keeps.rstWrite (h : Keeps s t) {w} : Keeps s (t.rstWrite w) := .ite h.deviceReset h

theorem Keeps.resetOrWake (h : Keeps s t) {cause} : Keeps s (t.resetOrWake cause) := by
  unfold State.resetOrWake
  split
  · exact h.deviceReset
  · exact h.modSys
  · exact h.deviceReset

theorem Keeps.sag (h : Keeps s t) {how} : Keeps s (t.sag how) := by
  unfold State.sag
  exact .ite h h.radioIoOff.nvCut.modNvm.modKeys.modPke.modSys

theorem Keeps.keysStart (h : Keeps s t) : Keeps s t.keysStart := by
  unfold State.keysStart
  exact .setFlag (.ite (.setFlag (.setFld (.forEach (fun _ _ h1 => h1.storeCheck) h))) (.forEach (fun _ _ h1 =>
      h1.storeCheck.modTenant) (.forEach (fun _ _ h1 => h1.storeCheck.leaseMend.leaseMend.setSlot) (.setFld (.forEach (fun _ _
      h1 => h1.storeCheck) h)))))

theorem Keeps.execResetRelease (h : Keeps s t) : Completes s (execResetRelease t) := by
  unfold Machine.execResetRelease
  exact .next (.ite h.modSys.setFld.modThr.setFlag.keysStart.nvStart.repost h)

theorem Keeps.lcCarry (h : Keeps s t) {target cert} : Keeps s (t.lcCarry target cert) := by
  unfold State.lcCarry
  dsimp only
  exact .setFld (.lcWrites (.modAshlar (.modKeys (.modNvm (.mramOf h.draw h.draw.nvCurWork)))))

theorem Keeps.lcDue (h : Keeps s t) : Keeps s t.lcDue := .ite h.deviceReset h

theorem Keeps.lcFinish (h : Keeps s t) {target cert} : Keeps s (t.lcFinish target cert) := h.lcCarry.lcDue

theorem Keeps.execLcTransitionDone (h : Keeps s t) : Completes s (execLcTransitionDone t) := by
  unfold Machine.execLcTransitionDone
  exact .next (by
  split
  · exact h.lcFinish
  · exact h.lcDue
  · exact h)

theorem Keeps.coreReset (h : Keeps s t) {c} : Keeps s (t.coreReset c) := by
  unfold State.coreReset
  exact h.modCore.setFld.resetRegs

theorem Keeps.coreStop (h : Keeps s t) {n} : Keeps s (t.coreStop n) := .dite (fun _ => h.setReg.coreReset) (fun _ => h)

theorem Keeps.loadFence (h : Keeps s t) {c} : Keeps s (t.loadFence c) := by
  unfold State.loadFence
  exact .forEach (fun _ _ h1 => h1.modCore) h

theorem Keeps.coreStart (h : Keeps s t) {n} : Keeps s (t.coreStart n) := by
  unfold State.coreStart
  exact .dite (fun _ => .ite h (.ite (.wdStart (.repost (.modThr (.ite (.loadFence (.forEach (fun _ _ h1 => h1.setReg)
      h.setReg)) (.forEach (fun _ _ h1 => h1.setReg) h.setReg))))) (.repost (.modThr (.ite (.loadFence (.forEach (fun _ _ h1
      => h1.setReg) h.setReg)) (.forEach (fun _ _ h1 => h1.setReg) h.setReg)))))) (fun _ => h)

theorem Keeps.coreCtrlWrite (h : Keeps s t) {w} : Keeps s (t.coreCtrlWrite w) :=
  .forEach (fun _ _ h1 => .ite h1.coreStart (.ite h1.coreStop h1)) h

theorem Keeps.execWdtStage2Expiry (h : Keeps s t) {c} : Completes s (execWdtStage2Expiry c t) := by
  unfold Machine.execWdtStage2Expiry
  exact .next (.ite (.ite h.deviceReset h.setFld.coreReset.raise) h)

/-! ## Power -/

theorem Keeps.plReqWrite (h : Keeps s t) {t'} : Keeps s (t.plReqWrite t') :=
  .ite h.setFld (.ite h.modSys.setFlag.setFld h.modSys.setFlag)

theorem Keeps.plBegin (h : Keeps s t) {t'} : Keeps s (t.plBegin t') := by
  unfold State.plBegin
  exact .ite (.forEach (fun _ _ h1 => h1.laneLeave) h.modSys.setFlag.setFld) h.modSys.setFlag.setFld

theorem Keeps.execPlChangeStart (h : Keeps s t) : Completes s (execPlChangeStart t) := by
  unfold Machine.execPlChangeStart
  dsimp only
  exact .next (by
  split
  · refine .ite ?_ ?_
    · split
      · exact h.modSys.setFlag.setFld.raiseEvt.complete
      · exact h.modSys.setFlag.plBegin
    · exact h
  · exact h)

theorem Keeps.execPlDividerSwitch (h : Keeps s t) : Completes s (execPlDividerSwitch t) := by
  unfold Machine.execPlDividerSwitch
  dsimp only
  exact .next (by
  split
  · exact .forEach (fun _ _ h1 => .ite h1.setLaneState h1) h.modSys.setFld
  · exact h)

theorem Keeps.execPlChangeDone (h : Keeps s t) : Completes s (execPlChangeDone t) := by
  unfold Machine.execPlChangeDone
  dsimp only
  exact .next (by
  split
  · exact h.modSys.setFlag.setFld.setFld.raiseEvt.complete
  · exact h)

theorem Keeps.sleepWrite (h : Keeps s t) {w} : Keeps s (t.sleepWrite w) := by
  unfold State.sleepWrite
  dsimp only
  refine .ite ?_ ?_
  · exact h
  · split
    · exact h.setFlag.setFld
    · exact h.modSys

theorem Keeps.wakeRise (h : Keeps s t) {src} : Keeps s (t.wakeRise src) := by
  unfold State.wakeRise
  dsimp only
  refine .ite ?_ ?_
  · exact h
  · split
    · exact .ite h.modSys h
    · exact h.modSys.modSys
    · exact .ite h.modSys.deviceReset (.ite h.modSys.deviceReset h.modSys)

theorem Keeps.execSleepTimerExpiry (h : Keeps s t) : Completes s (execSleepTimerExpiry t) := by
  unfold Machine.execSleepTimerExpiry
  exact .next (by
  split
  · exact h.wakeRise
  · exact h)

theorem Keeps.execSleepEntryDone (h : Keeps s t) : Completes s (execSleepEntryDone t) := by
  unfold Machine.execSleepEntryDone
  dsimp only
  exact .next (by
  split
  · exact .ite h.radioIoOff.modSys.setFlag.setReg h.radioIoOff.modSys.setFlag.setReg.deviceReset
  · exact h)

theorem Keeps.execSleepAbandon (h : Keeps s t) : Completes s (execSleepAbandon t) := by
  unfold Machine.execSleepAbandon
  exact .next (by
  split
  · exact .ite h h.modSys.count.event
  · exact h)

theorem Keeps.execNapResume (h : Keeps s t) : Completes s (execNapResume t) := by
  unfold Machine.execNapResume
  dsimp only
  exact .next (by
  split
  · exact .ite h (.event (.raiseEvt (.forEach (fun _ _ h1 => h1.laneLeave) h.setReg.modSys.setFld.setFld.setFlag.setFld)))
  · exact h)

theorem Keeps.clkWrite (h : Keeps s t) {w} : Keeps s (t.clkWrite w) := by
  unfold State.clkWrite
  dsimp only
  refine .ite ?_ ?_
  · exact .setFlag (.ite (.setFlag (.modSys (.setFlag (.ite h.setFlag.modSys h.setFlag.modSys.setFlag)))) (.ite (.modSys
      (.setFlag (.ite h.setFlag.modSys h.setFlag.modSys.setFlag))) (.setFlag (.ite h.setFlag.modSys h.setFlag.modSys.setFlag))))
  · exact .ite (.setFlag (.ite (.setFlag (.modSys (.setFlag (.ite h.setFlag.modSys h.setFlag.modSys.setFlag)))) (.ite (.modSys
      (.setFlag (.ite h.setFlag.modSys h.setFlag.modSys.setFlag))) (.setFlag (.ite h.setFlag.modSys
      h.setFlag.modSys.setFlag))))) (.setFlag (.ite (.setFlag (.modSys (.setFlag (.ite h.setFlag.modSys
      h.setFlag.modSys.setFlag)))) (.ite (.modSys (.setFlag (.ite h.setFlag.modSys h.setFlag.modSys.setFlag))) (.setFlag (.ite
      h.setFlag.modSys h.setFlag.modSys.setFlag)))))

theorem Keeps.execXoHfLoss (h : Keeps s t) : Completes s (execXoHfLoss t) := by
  unfold Machine.execXoHfLoss
  exact .next (.ite h.modSys.setFlag.setReg.feXoLoss.feXoLoss.courseXoLoss.accessAbort.sliceAbort.setFlag.raise h)

theorem Keeps.dmaCopy (h : Keeps s t) {k n} : Keeps s (t.dmaCopy k n) := by
  unfold State.dmaCopy
  dsimp only
  exact .forEach (fun _ _ h1 => h1.setSramHalf) (.ite h.eccCount h)

theorem Keeps.dmaCtrlWrite (h : Keeps s t) {k w} : Keeps s (t.dmaCtrlWrite k w) := by
  unfold State.dmaCtrlWrite
  dsimp only
  exact .ite h.plainWrite.modSys (.ite h.plainWrite.draw.dmaCopy h.plainWrite)

theorem Keeps.execDmaStopError (h : Keeps s t) {k} : Completes s (execDmaStopError k t) := by
  unfold Machine.execDmaStopError
  dsimp only
  exact .next (by
  split
  · exact h.dmaCopy.eccNote.setFlag.setFlag
  · exact h)

theorem Keeps.execTempConversion (h : Keeps s t) {deg} : Completes s (execTempConversion deg t) := by
  unfold Machine.execTempConversion
  exact .next (.ite h (.ite h.setReg.recalibrate.recalibrate h.setReg))

/-! ## Update -/

theorem Keeps.bootRecNote (h : Keeps s t) : Keeps s t.bootRecNote := by
  unfold State.bootRecNote
  exact .ite h.regionRead.nvSplit h.regionRead

theorem Keeps.bootPush (h : Keeps s t) {r next} : Keeps s (t.bootPush r next) := h.cfgPush

theorem Keeps.cfgPump (h : Keeps s t) : Keeps s t.cfgPump := by
  unfold State.cfgPump
  dsimp only
  split
  · exact .ite h h.cfgAsk.modUpdate
  · exact h

theorem Keeps.romWrite (h : Keeps s t) {r now next} : Keeps s (t.romWrite r now next).2 := by
  unfold State.romWrite
  exact .iteSnd (.snd h.cfgAsk.nvmcDone) (.snd h.cfgAsk.modUpdate)

theorem Keeps.setRead (h : Keeps s t) {i nine} : Keeps s (t.setRead i nine) := by
  unfold State.setRead
  exact .ite (.forEach (fun _ _ h1 => h1.eccNote) h.eccNote) h.eccNote

theorem Keeps.setSlotState (h : Keeps s t) {k st} : Keeps s (t.setSlotState k st) := .ite h h.modUpdate

theorem Keeps.loadRepair (h : Keeps s t) : Keeps s t.loadRepair := by
  unfold State.loadRepair
  dsimp only
  split
  · split
    · exact h
    · exact .snd h.nvSplit
    · exact h
  · exact .modAssay (.setFld (.setFld (.setFld (.forEach (fun _ _ h1 => h1.setReg) (.forEach (fun _ _ h1 => .ite
      h1.laneWithdraw h1.setReg) (by
      split
      · exact h
      · exact .snd h.nvSplit
      · exact h))))))

theorem Keeps.loadCal (h : Keeps s t) {c} : Keeps s (t.loadCal c) := by
  unfold State.loadCal
  dsimp only
  split
  · exact .ite (.modUpdate (.forEach (fun _ _ h1 => h1.setFld) (.commit (.setReg (.forEach (fun _ _ h1 => .ite h1.calStore h1)
      (.forEach (fun _ _ h1 => .ite h1.calStore h1) h)))))) h
  · exact h

theorem Keeps.bootCal (h : Keeps s t) {b m} : Keeps s (t.bootCal b m) := by
  unfold State.bootCal
  exact .forEach (fun _ _ h1 => .ite h1.setFlag.calStore h1.setFlag.setFlag) h

theorem Keeps.bootClocks (h : Keeps s t) {sub ism} : Keeps s (t.bootClocks sub ism) := by
  unfold State.bootClocks
  exact h.setReg.setReg.modSys.setFld.setFld.bootCal.bootCal

theorem Keeps.calDefaults (h : Keeps s t) {k} : Keeps s (t.calDefaults k) := by
  unfold State.calDefaults
  dsimp only
  split
  · exact .ite h (.forEach (fun _ _ h1 => h1.setFld) (.commit (.setReg (.forEach (fun _ _ h1 => .ite h1.calStore h1) (.forEach
      (fun _ _ h1 => .ite h1.calStore h1) h)))))
  · exact h

theorem Keeps.fwStarts (h : Keeps s t) {k} : Keeps s (t.fwStarts k) := by
  unfold State.fwStarts
  exact h.modUpdate

theorem Keeps.bootJump (h : Keeps s t) {k pc} : Keeps s (t.bootJump k pc) := by
  unfold State.bootJump
  exact h.wdtCtrlWrite.setSramWords.modThr.fwStarts.modUpdate.modSys.event

theorem Keeps.loadFences (h : Keeps s t) {part} : Keeps s (t.loadFences part) := by
  unfold State.loadFences
  exact .forEach (fun _ _ h1 => h1.setReg.setReg.setReg.setReg.commit.setReg) h

theorem Keeps.appsRelease (h : Keeps s t) {k} : Keeps s (t.appsRelease k) := by
  unfold State.appsRelease
  dsimp only
  exact .coreCtrlWrite (.forEach (fun _ _ h1 => h1.setReg.setReg.commit) (by
  split
  · exact h.loadFences
  · exact h))

theorem Keeps.romServe (h : Keeps s t) {recov} : Keeps s (t.romServe recov) := by
  unfold State.romServe
  dsimp only
  exact h.draw.draw.setReg.setReg.commit.setReg.setReg.commit.latch.setReg.commit.setReg.setFlag

theorem Keeps.enterRecovery (h : Keeps s t) : Keeps s t.enterRecovery := h.romServe.modSys

theorem Keeps.serveSys (h : Keeps s t) : Keeps s t.serveSys := h.romServe.modSys

theorem Keeps.bootBlank (h : Keeps s t) : Keeps s t.bootBlank := by
  unfold State.bootBlank
  dsimp only
  exact .ite h.serveSys (.ite h h.drbg.storePut.storePut.deviceReset)

theorem Keeps.candRead (h : Keeps s t) {k nine} : Keeps s (t.candRead k nine) := .ite h h.setRead

theorem Keeps.bootSet (h : Keeps s t) {k} : Keeps s (t.bootSet k) := by
  unfold State.bootSet
  dsimp only
  exact h.setSlotState.setReg.calDefaults.bootJump.appsRelease

theorem Keeps.bootWith (h : Keeps s t) {r k now} : Keeps s (t.bootWith r k now) := by
  unfold State.bootWith
  dsimp only
  exact .ite h.romWrite.bootSet h.romWrite

theorem Keeps.bootConf (h : Keeps s t) {r now} : Keeps s (t.bootConf r now) := by
  unfold State.bootConf
  dsimp only
  refine .ite ?_ ?_
  · exact h.candRead.bootSet
  · refine .ite ?_ ?_
    · exact h.candRead.setSlotState.candRead.bootWith
    · refine .ite ?_ ?_
      · split
        · exact .bootWith (.forEach (fun _ _ h1 => h1.candRead) h.candRead.setSlotState.candRead)
        · exact .enterRecovery (.forEach (fun _ _ h1 => h1.candRead) h.candRead.setSlotState.candRead)
      · exact h.candRead.setSlotState.candRead.enterRecovery

theorem Keeps.unpend (h : Keeps s t) : Keeps s t.unpend := h.modUpdate

theorem Keeps.bootSelect (h : Keeps s t) {now} : Keeps s (t.bootSelect now) := by
  unfold State.bootSelect
  dsimp only
  exact .ite h.bootRecNote.candRead.unpend.bootConf (.ite h.bootRecNote.candRead.setSlotState.bootWith (.ite
      h.bootRecNote.candRead.setSlotState.romWrite.bootConf h.bootRecNote.candRead.setSlotState.romWrite))

theorem Keeps.bootRest (h : Keeps s t) {clkOk nvOk sub ism} : Keeps s (t.bootRest clkOk nvOk sub ism) :=
  .bootSelect (.ite h.bootClocks h)

theorem Keeps.execBootRomSequence (h : Keeps s t) {clkOk nvOk run cal} : Completes s (execBootRomSequence clkOk nvOk run cal
  t) := by
  unfold Machine.execBootRomSequence
  dsimp only
  exact .next (by
  refine .ite ?_ ?_
  · exact h
  · split
    · exact .ite (.lcFinish (.ite h h.keysStart.nvStart)) (.ite (.ite h h.keysStart.nvStart) (.lcFinish (.transitionCert (.ite
        h h.keysStart.nvStart))))
    · refine .ite ?_ ?_
      · exact .serveSys (.ite h h.keysStart.nvStart)
      · refine .ite ?_ ?_
        · exact .bootBlank (.ite h h.keysStart.nvStart)
        · refine .ite ?_ ?_
          · split
            · exact .event (.modSys (.fwStarts (.eccNote (.modThr (.setReg (.loadCal (.loadRepair (.regionRead (.ite h
                h.keysStart.nvStart)))))))))
            · exact .bootRest (.setReg (.loadCal (.loadRepair (.regionRead (.ite h h.keysStart.nvStart)))))
          · exact .bootRest (.loadCal (.loadRepair (.regionRead (.ite h h.keysStart.nvStart)))))

theorem Keeps.activated (h : Keeps s t) {code} : Keeps s (t.activated code) := h.event

theorem Keeps.ring (h : Keeps s t) {c g} : Keeps s (t.ring c g) := h.bell

theorem Keeps.standbyLoop (h : Keeps s t) {c} : Keeps s (t.standbyLoop c) := by
  unfold State.standbyLoop
  dsimp only
  exact .modUpdate (.forEach (fun _ _ h1 => h1.modThr) h.draw.modThr)

theorem Keeps.loopEnds (h : Keeps s t) {c} : Keeps s (t.loopEnds c) := h.modUpdate

theorem Keeps.loopKicks (h : Keeps s t) : Keeps s t.loopKicks := .ite (.forEach (fun _ _ h1 => h1.kick) h) h

theorem Keeps.standbyStart (h : Keeps s t) {pc} : Keeps s (t.standbyStart pc) := by
  unfold State.standbyStart
  exact .ite h.setReg.setReg.commit.loopEnds.coreStop.coreStart h.loopEnds.modThr.modCore

theorem Keeps.standbyPark (h : Keeps s t) : Keeps s t.standbyPark := .ite h.loopEnds.coreStop h.standbyLoop

theorem Keeps.activate (h : Keeps s t) {hand} : Keeps s (t.activate hand) := by
  unfold State.activate
  dsimp only
  split
  · exact h.activated
  · refine .ite ?_ ?_
    · split
      · exact .ite h.standbyStart.modUpdate h.activated
      · exact h.activated
    · exact h.bootPush

theorem Keeps.setHand (h : Keeps s t) {h'} : Keeps s (t.setHand h') := h.modUpdate

theorem Keeps.execHandoverStandbyReady (h : Keeps s t) : Completes s (execHandoverStandbyReady t) := by
  unfold Machine.execHandoverStandbyReady
  exact .next (by
  split
  · exact .ite h.ring.setHand h
  · exact h)

theorem Keeps.execHandoverReadyTimeout (h : Keeps s t) : Completes s (execHandoverReadyTimeout t) := by
  unfold Machine.execHandoverReadyTimeout
  exact .next (by
  split
  · exact h.passTo.standbyPark.setHand.activated
  · exact h)

theorem Keeps.writeBlock (h : Keeps s t) : Keeps s t.writeBlock := by
  unfold State.writeBlock
  dsimp only
  exact h.draw.draw.drawOctets.setSramWords

theorem Keeps.execHandoverCutoverStart (h : Keeps s t) : Completes s (execHandoverCutoverStart t) := by
  unfold Machine.execHandoverCutoverStart
  exact .next (by
  split
  · exact .ite h.writeBlock.ring.setHand h
  · exact h)

theorem Keeps.handAbandon (h : Keeps s t) : Keeps s t.handAbandon := h.setSramHalf.standbyLoop

theorem Keeps.execHandoverAccept (h : Keeps s t) {accepts} : Completes s (execHandoverAccept accepts t) := by
  unfold Machine.execHandoverAccept
  exact .next (by
  split
  · exact .ite h (.ite h.setSramHalf.ring.setHand h.handAbandon.setHand.activated)
  · exact h)

theorem Keeps.handDecide (h : Keeps s t) {k} : Keeps s (t.handDecide k) :=
  .ite h.setSramHalf.ring.standbyLoop.setHand h.handAbandon.setHand.activated

theorem Keeps.execHandoverDecision (h : Keeps s t) : Completes s (execHandoverDecision t) := by
  unfold Machine.execHandoverDecision
  exact .next (by
  split
  · exact h.passTo.handDecide
  · exact h.handDecide
  · exact h)

theorem Keeps.chanReset (h : Keeps s t) {k} : Keeps s (t.chanReset k) := by
  unfold State.chanReset
  exact .event (.modChan (.ite (.setFlag (.ite h.frame h)) (.ite h.frame h)))

theorem Keeps.appsSwitch (h : Keeps s t) {old new} : Keeps s (t.appsSwitch old new) := by
  unfold State.appsSwitch
  exact .ite h (.appsRelease (.forEach (fun _ _ h1 => h1.chanReset) h.coreCtrlWrite.frame))

theorem Keeps.execHandoverTakeover (h : Keeps s t) {x} : Completes s (execHandoverTakeover x t) := by
  unfold Machine.execHandoverTakeover
  dsimp only
  exact .next (by
  split
  · exact h.wdtCtrlWrite.modUpdate.planCommit.setSlotState.bootPush.cfgPump
  · exact h)

theorem Keeps.tookOver (h : Keeps s t) {k old done} : Keeps s (t.tookOver k old done) := by
  unfold State.tookOver
  exact h.setReg.activated.appsSwitch

theorem Keeps.migrated (h : Keeps s t) {p} : Keeps s (t.migrated p).2 := by
  unfold State.migrated
  dsimp only
  exact .iteSnd h (.snd h.draw.drawOctets)

theorem Keeps.execRecordMigration (h : Keeps s t) : Completes s (execRecordMigration t) := by
  unfold Machine.execRecordMigration
  dsimp only
  exact .next (.ite (.cfgPump (.forEach (fun _ _ h1 => h1.migrated.cfgPush) h)) h)

/-! ## Plinth -/

theorem Keeps.execPlinthPowerUp (h : Keeps s t) : Completes s (execPlinthPowerUp t) := by
  have cleared : Keeps s { t.resetRegs 0xF00000 0xF01000 with
      snap :=
        sparseClear (t.resetRegs 0xF00000 0xF01000).snap 0xF00000 0xF01000 } := h.resetRegs.trans ⟨fun ⟨r, f, n, rest⟩ => ⟨r,
        f, sparseWf_sparseClear _ _ _ _ n, rest⟩, rfl⟩
  exact .next cleared.modPlinth.setFld.deviceReset

theorem Keeps.execPlinthSupplyLoss (h : Keeps s t) : Completes s (execPlinthSupplyLoss t) := by
  unfold Machine.execPlinthSupplyLoss
  dsimp only
  exact .next h.draw.sag.resetRegs.modPlinth

theorem Keeps.plinthEvt (h : Keeps s t) {f} : Keeps s (t.plinthEvt f) := h.raiseEvt

theorem Keeps.setRtc (h : Keeps s t) {v} : Keeps s (t.setRtc v) := h.setReg.setReg.setReg

theorem Keeps.alarmFire (h : Keeps s t) : Keeps s t.alarmFire := h.plinthEvt.event.wakeRise

theorem Keeps.rtcTick (h : Keeps s t) : Keeps s t.rtcTick := by
  unfold State.rtcTick
  dsimp only
  refine .ite ?_ ?_
  · exact .alarmFire (.ite (.complete (.ite (.capEdge (.ite h.modPlinth.setRtc.setFlag.setFlag.plinthEvt
      h.modPlinth.setRtc.setFlag.setFlag)) (.ite h.modPlinth.setRtc.setFlag.setFlag.plinthEvt
      h.modPlinth.setRtc.setFlag.setFlag))) (.ite (.capEdge (.ite h.modPlinth.setRtc.setFlag.setFlag.plinthEvt
      h.modPlinth.setRtc.setFlag.setFlag)) (.ite h.modPlinth.setRtc.setFlag.setFlag.plinthEvt
      h.modPlinth.setRtc.setFlag.setFlag)))
  · exact .ite (.complete (.ite (.capEdge (.ite h.modPlinth.setRtc.setFlag.setFlag.plinthEvt
      h.modPlinth.setRtc.setFlag.setFlag)) (.ite h.modPlinth.setRtc.setFlag.setFlag.plinthEvt
      h.modPlinth.setRtc.setFlag.setFlag))) (.ite (.capEdge (.ite h.modPlinth.setRtc.setFlag.setFlag.plinthEvt
      h.modPlinth.setRtc.setFlag.setFlag)) (.ite h.modPlinth.setRtc.setFlag.setFlag.plinthEvt
      h.modPlinth.setRtc.setFlag.setFlag))

theorem Keeps.rtcSetWrite (h : Keeps s t) {a w} : Keeps s (t.rtcSetWrite a w) := by
  unfold State.rtcSetWrite
  exact .ite h.plainWrite.commit.setFlag h.plainWrite

theorem Keeps.rtcCmdWrite (h : Keeps s t) {w} : Keeps s (t.rtcCmdWrite w) := by
  unfold State.rtcCmdWrite
  exact .ite h (.ite h.plinthEvt h.setFlag.modPlinth)

theorem Keeps.almTest (h : Keeps s t) : Keeps s t.almTest := h.modPlinth

theorem Keeps.rtcAlmWrite (h : Keeps s t) {a w} : Keeps s (t.rtcAlmWrite a w) := by
  unfold State.rtcAlmWrite
  exact .ite h.plainWrite.commit.almTest h.plainWrite

theorem Keeps.trimVoid (h : Keeps s t) : Keeps s t.trimVoid := .ite h.modPlinth.plinthEvt h

theorem Keeps.trimClose (h : Keeps s t) : Keeps s t.trimClose := by
  unfold State.trimClose
  dsimp only
  split
  · exact .event (.plinthEvt (.ite h.setReg32.modPlinth.setReg h.setReg32.modPlinth))
  · exact h

theorem Keeps.refEdge (h : Keeps s t) {second} : Keeps s (t.refEdge second) := by
  unfold State.refEdge
  exact .ite h.trimClose.modPlinth (.ite h.trimClose (.ite h.trimClose.modPlinth h.trimClose.modPlinth))

theorem Keeps.execPpsInEdge (h : Keeps s t) : Completes s (execPpsInEdge t) := by
  unfold Machine.execPpsInEdge
  dsimp only
  exact .next (.ite h.capEdge (.ite h.capEdge.modPlinth.trimVoid (.ite h.capEdge.modPlinth.refEdge h.capEdge.modPlinth)))

theorem Keeps.plinthCtrlWrite (h : Keeps s t) {w} : Keeps s (t.plinthCtrlWrite w) := by
  unfold State.plinthCtrlWrite
  exact .ite (.almTest (.ite h.plainWrite.trimVoid h.plainWrite)) (.ite h.plainWrite.trimVoid h.plainWrite)

theorem Keeps.mainsBack (h : Keeps s t) : Keeps s t.mainsBack := by
  unfold State.mainsBack
  exact h.setFlag.modPlinth.plinthEvt.event

theorem Keeps.execMainsEdge (h : Keeps s t) : Completes s (execMainsEdge t) := by
  unfold Machine.execMainsEdge
  dsimp only
  exact .next (.ite h.capEdge (.ite (.trimVoid (.ite h.capEdge.modPlinth.mainsBack h.capEdge.modPlinth)) (.ite (.refEdge
      (.modPlinth (.ite h.capEdge.modPlinth.mainsBack h.capEdge.modPlinth))) (.ite h.capEdge.modPlinth.mainsBack
      h.capEdge.modPlinth))))

theorem Keeps.mainsWrite (h : Keeps s t) {w} : Keeps s (t.mainsWrite w) := h.plainWrite.setFlag.modPlinth

theorem Keeps.execTamperEdge (h : Keeps s t) {n rising} : Completes s (execTamperEdge n rising t) := by
  unfold Machine.execTamperEdge
  exact .next (.ite (.wakeRise (.event (.scheduleReset (.countFld (.plinthEvt (.ite h h.setReg.setReg.setReg)))))) h)

theorem Keeps.trickleWrite (h : Keeps s t) {w} : Keeps s (t.trickleWrite w) := .ite h.plainWrite h

/-! ## OutQueue -/

theorem Keeps.oqClean {n} : ∀ {t}, Keeps s t → Keeps s (t.oqClean n) := by
  induction n with
  | zero => exact id
  | succ n ih =>
    intro t h
    unfold State.oqClean
    dsimp only
    split
    · exact h
    · exact ih h.setFld.raiseEvt

theorem Keeps.oqWrite (h : Keeps s t) {w} : Keeps s (t.oqWrite w) := by
  unfold State.oqWrite
  exact .ite h.raiseEvt (.ite (.oqClean (.ite h.setFld.modSys h.setFld)) (.ite h.setFld.modSys h.setFld))

/-! ## Adsin -/

theorem Keeps.verified (h : Keeps s t) {code} : Keeps s (t.verified code) :=
  .ite (.forEach (fun _ _ h1 => h1.modChan) h) h.event

theorem Keeps.verifySet (h : Keeps s t) : Keeps s t.verifySet := by
  unfold State.verifySet
  dsimp only
  split
  · exact h
  · exact .ite h.setRead.setSlotState.verified (.ite h.setRead.setSlotState.bootPush h.setRead.setSlotState.verified)

theorem Keeps.adsinNext (h : Keeps s t) {cls cmd p} : Keeps s (t.adsinNext cls cmd p) := by
  unfold State.adsinNext
  dsimp only
  split
  · exact h.fabStart
  · exact h.fabStop
  · exact h.fabForward
  · exact h.verifySet
  · exact h.activate
  · exact h

theorem Keeps.noteReset (h : Keeps s t) : Keeps s t.noteReset := .ite h.modAdsin h

theorem Keeps.adsinReq {act} (hf : ∀ v, Keeps s v → Keeps s (act v).2) (h : Keeps s t) {k h' cls cmd p} : Keeps s (t.adsinReq
  k h' cls cmd p act) := by
  unfold State.adsinReq
  dsimp only
  exact .ite h (.ite (.adsinNext (.noteReset (.modChan (by
  split
  · exact .snd h.modChan
  · exact .iteSnd (.snd h.modChan) (hf _ h.modChan))))) (.noteReset (.modChan (by
  split
  · exact .snd h.modChan
  · exact .iteSnd (.snd h.modChan) (hf _ h.modChan)))))

theorem Keeps.adsinDeliver (h : Keeps s t) {k m} : Keeps s (t.adsinDeliver k m) := by
  unfold State.adsinDeliver
  exact .ite h (.adsinReq (fun _ h1 => h1) h)

theorem Keeps.pullApp {k n} : ∀ {t}, Keeps s t → Keeps s (t.pullApp k n) := by
  induction n with
  | zero => exact id
  | succ n ih =>
    intro t h
    unfold State.pullApp
    dsimp only
    split
    · exact h.chanReset
    · split
      · exact h
      · split
        · exact ih h.mbRead.modChan.adsinDeliver
        · exact ih h.mbRead.modChan

theorem Keeps.adsinLeft (h : Keeps s t) {m} : Keeps s (t.adsinLeft m) := by
  unfold State.adsinLeft
  dsimp only
  split
  · exact h.modAdsin.deviceReset
  · exact h.lcDue
  · exact h.plainWrite.setReg32.commit.sleepWrite
  · exact h

theorem Keeps.spiTakeBack (h : Keeps s t) : Keeps s t.spiTakeBack := by
  unfold State.spiTakeBack
  exact .ite h.oqWrite.modAdsin h

theorem Keeps.adsinPop (h : Keeps s t) {k} : Keeps s (t.adsinPop k) := by
  unfold State.adsinPop
  split
  · exact h.modChan.adsinLeft
  · exact h

theorem Keeps.adsinRead (h : Keeps s t) {ws} : Keeps s (t.adsinRead ws) := by
  unfold State.adsinRead
  dsimp only
  split
  · exact h.modChan.adsinLeft
  · exact h

/-! ## Hostif -/

theorem Keeps.spiShow (h : Keeps s t) : Keeps s t.spiShow := h.modSys

theorem Keeps.drive (h : Keeps s t) {l} : Keeps s (t.drive l) := h.modSys

theorem Keeps.spiBad (h : Keeps s t) {f} : Keeps s (t.spiBad f) := h.raiseEvt.count.modSys

theorem Keeps.spi {f} (hf : ∀ v, Keeps s v → Keeps s (f v)) (h : Keeps s t) : Keeps s (t.spi f) := by
  unfold State.spi
  exact .ite (hf _ (.drive (.ite h.wakeRise h))) (.drive (.ite h.wakeRise h))

theorem Keeps.execSpiStatus (h : Keeps s t) : Completes s (execSpiStatus t) := by
  unfold Machine.execSpiStatus
  dsimp only
  exact .next (.spi (fun _ h1 => h1.draw.spiShow.drive.see) h)

theorem Keeps.execSpiWrite (h : Keeps s t) {data frac} : Completes s (execSpiWrite data frac t) := by
  unfold Machine.execSpiWrite
  exact .next (.spi (fun _ h1 => .ite h1.spiShow.drive.see.spiBad (.ite h1.spiShow.drive.see.spiBad.modChan
      h1.spiShow.drive.see.setSramWords.setFld.raiseEvt.count.adsinDeliver)) h)

theorem Keeps.oqDone (h : Keeps s t) {ws} : Keeps s (t.oqDone ws) := by
  unfold State.oqDone
  exact .ite h.setFld.raiseEvt.count.modSys.oqClean.modAdsin.adsinRead h.setFld.raiseEvt.count.modSys.oqClean

theorem Keeps.execSpiRead (h : Keeps s t) {n} : Completes s (execSpiRead n t) := by
  unfold Machine.execSpiRead
  exact .next (.spi (fun _ h1 => .ite h1.spiShow.drive.see.oqDone h1.spiShow.drive.see) h)

theorem Keeps.hostifStatusWrite (h : Keeps s t) {w} : Keeps s (t.hostifStatusWrite w) := h.plainWrite

theorem Keeps.hostifCtrlWrite (h : Keeps s t) {w} : Keeps s (t.hostifCtrlWrite w) := by
  unfold State.hostifCtrlWrite
  exact .ite (.ite h.plainWrite.latch.commit.setReg.setReg.setFlag.modSys h.plainWrite.setFlag.raiseEvt) h.plainWrite

theorem Keeps.uartBaud (h : Keeps s t) : Keeps s t.uartBaud := .ite h.commit h

theorem Keeps.uartCtrlWrite (h : Keeps s t) {w} : Keeps s (t.uartCtrlWrite w) := by
  unfold State.uartCtrlWrite
  exact .uartBaud (.ite (.raise (.ite h.plainWrite h.plainWrite.modUart)) (.ite h.plainWrite h.plainWrite.modUart))

theorem Keeps.uartBaudWrite (h : Keeps s t) {w} : Keeps s (t.uartBaudWrite w) := h.plainWrite.uartBaud

theorem Keeps.uartDiscard (h : Keeps s t) : Keeps s t.uartDiscard := .ite h.modUart.modChan h

theorem Keeps.uartWhole (h : Keeps s t) {l} : Keeps s (t.uartWhole l) := by
  unfold State.uartWhole
  exact .ite h.modUart.adsinDeliver h.modUart.modChan

theorem Keeps.uartTake (h : Keeps s t) {b} : Keeps s (t.uartTake b) := by
  unfold State.uartTake
  exact .ite h.modUart (.ite h.uartDiscard (.ite h.uartWhole h.modUart))

theorem Keeps.uartDataWrite (h : Keeps s t) {w} : Keeps s (t.uartDataWrite w) := .ite h.modUart h

theorem Keeps.uartDataRead (h : Keeps s t) : Keeps s t.uartDataRead.2 := by
  unfold State.uartDataRead
  split
  · exact .snd h.modUart.uartBaud
  · exact h

theorem Keeps.execUartDataRead (h : Keeps s t) : Completes s (execUartDataRead t) := by
  unfold Machine.execUartDataRead
  dsimp only
  exact .next h.uartDataRead.see

theorem Keeps.execUartOctetReceived (h : Keeps s t) {b ferr} : Completes s (execUartOctetReceived b ferr t) := by
  unfold Machine.execUartOctetReceived
  exact .next (.ite h.wakeRise (.ite h.wakeRise.raiseEvt (.ite h.wakeRise.raiseEvt.uartDiscard (.uartTake (.ite
      h.wakeRise.modUart.raise h.wakeRise.modUart)))))

theorem Keeps.execChannelReset (h : Keeps s t) {k} : Completes s (execChannelReset k t) := by
  unfold Machine.execChannelReset
  exact .next (.ite h.chanReset h)

/-! ## Gpio -/

theorem Keeps.gpioSettle (h : Keeps s t) {old} : Keeps s (t.gpioSettle old) := by
  unfold State.gpioSettle
  exact .ite h (.forEach (fun _ _ h1 => .ite h1 (.ite (.wakeRise (.ite (.postAll (.ite h1.setReg.postAll h1.setReg)) (.ite
      h1.setReg.postAll h1.setReg))) (.ite (.postAll (.ite h1.setReg.postAll h1.setReg)) (.ite h1.setReg.postAll h1.setReg))))
      (.forEach (fun _ _ h1 => .ite h1 h1.capEdge) h))

theorem Keeps.execGpioEdge (h : Keeps s t) {n rising} : Completes s (execGpioEdge n rising t) := by
  unfold Machine.execGpioEdge
  exact .next h.modDebug.gpioSettle

theorem Keeps.gpioWrite (h : Keeps s t) {a w vault} : Keeps s (t.gpioWrite a w vault) := by
  unfold State.gpioWrite
  exact .gpioSettle (.ite h (.ite h.setReg (.ite h.setReg (.ite h.setReg h.setReg))))

theorem Keeps.gpioWorldWrite (h : Keeps s t) {a w} : Keeps s (t.gpioWorldWrite a w) := by
  unfold State.gpioWorldWrite
  exact .forEach (fun _ _ h1 => .ite (.postAll (.ite h1.postAll h1)) (.ite h1.postAll h1)) h.plainWrite

theorem Keeps.tapClocks (h : Keeps s t) {tms} : Keeps s (t.tapClocks tms) := by
  unfold State.tapClocks
  exact h.modDebug.gpioSettle

theorem Keeps.irScan (h : Keeps s t) {code} : Keeps s (t.irScan code) := by
  unfold State.irScan
  exact h.modDebug.gpioSettle

theorem Keeps.scanPass (h : Keeps s t) {code ext shifted} : Keeps s (t.scanPass code ext shifted) := by
  unfold State.scanPass
  exact .ite h h.irScan.modDebug.gpioSettle.see

/-! ## Hod -/

theorem Keeps.execHodIngest (h : Keeps s t) {n} : Completes s (execHodIngest n t) := by
  unfold Machine.execHodIngest
  exact .next (by
  split
  · exact h.modFrame.fixFailed
  · exact h)

theorem Keeps.ackCorrection (h : Keeps s t) {f} : Keeps s (t.ackCorrection f).2 := by
  unfold State.ackCorrection
  dsimp only
  exact .iteSnd (.snd h.draw) h

theorem Keeps.addGrant (h : Keeps s t) {f h'} : Keeps s (t.addGrant f h') := by
  unfold State.addGrant
  split
  · exact h.countFld
  · exact h.countFld
  · exact h.modCourse
  · exact h.modCourse

theorem Keeps.ackGrant (h : Keeps s t) {f h' m} : Keeps s (t.ackGrant f h' m).2.2 := by
  unfold State.ackGrant
  dsimp only
  exact .iteThd h (.iteThd (.snd h.count) (.iteThd (.snd h.ackCorrection.count) (.iteThd (.snd h.ackCorrection.dutyAdmit)
      (.snd h.ackCorrection.dutyAdmit.addCarrier.addGrant.modHod.count))))

theorem Keeps.ackStatus (h : Keeps s t) {f h'} : Keeps s (t.ackStatus f h').2.2 := by
  unfold State.ackStatus
  dsimp only
  exact .iteThd h (.iteThd h (.iteThd h (.iteThd (.snd h.count) h.ackGrant)))

theorem Keeps.freeBuf (h : Keeps s t) {b} : Keeps s (t.freeBuf b) := by
  unfold State.freeBuf
  split
  · exact h.modHod
  · exact h

theorem Keeps.writeDesc (h : Keeps s t) {ws buf} : Keeps s (t.writeDesc ws buf) := by
  unfold State.writeDesc
  dsimp only
  refine .ite ?_ ?_
  · exact .raise (by
      split
      · exact h.setSramWords.setReg.modHod
      · exact h.setSramWords.setReg)
  · split
    · exact h.setSramWords.setReg.modHod
    · exact h.setSramWords.setReg

theorem Keeps.deliver (h : Keeps s t) {f h' ws ackst} : Keeps s (t.deliver f h' ws ackst) := by
  unfold State.deliver
  dsimp only
  refine .ite ?_ ?_
  · exact h
  · refine .ite ?_ ?_
    · split
      · exact .ite h.fabTake h
      · exact h
    · exact .ite h (.dite (fun _ => h.event) (fun _ => .ite h.fabRelay h))

theorem Keeps.settled (h : Keeps s t) {f} : Keeps s (t.settled f) := .ite h.modFrame h.dropFrame

theorem Keeps.settle (h : Keeps s t) {f h'} : Keeps s (t.settle f h') := by
  unfold State.settle
  dsimp only
  exact .ite h.freeBuf.settled (.ite (.settled (.freeBuf (.setFlag (.count (by
  split
  · exact h.sramPut
  · exact h))))) (.ite (.settled (.freeBuf (.count (by
  split
  · exact h.sramPut
  · exact h)))) (.settled (.deliver (.writeDesc (by
  refine .iteThd ?_ ?_
  · split
    · exact h.sramPut
    · exact h
  · exact .ackStatus (by
      split
      · exact h.sramPut
      · exact h)))))))

theorem Keeps.execHodSettle (h : Keeps s t) {n} : Completes s (execHodSettle n t) := by
  unfold Machine.execHodSettle
  exact .next (by
  split
  · split
    · exact .ite h h.settle
    · exact h
  · exact h)

theorem Keeps.hodRdWrite (h : Keeps s t) {w} : Keeps s (t.hodRdWrite w) := by
  unfold State.hodRdWrite
  exact .ite h.setFlag h.setReg.modHod

theorem Keeps.hodCtrlWrite (h : Keeps s t) {w} : Keeps s (t.hodCtrlWrite w) := by
  unfold State.hodCtrlWrite
  exact .ite (.ite h.plainWrite.latch.commit.setReg.setReg.modHod.modRadio h.plainWrite.setFlag.setFlag) h.plainWrite

/-! ## Regs -/

theorem Keeps.clearCounters (h : Keeps s t) {a} : Keeps s (t.clearCounters a) :=
  .ite (.forEach (fun _ _ h1 => h1.setReg) h) (.ite h.modTenant h)

theorem Keeps.regRead (h : Keeps s t) {m a} : Keeps s (t.regRead m a).2 := by
  unfold State.regRead
  dsimp only
  refine .iteSnd ?_ ?_
  · exact h.txendRead
  · refine .iteSnd ?_ ?_
    · exact .snd h.awaitCopy
    · refine .iteSnd ?_ ?_
      · exact h.trngRead
      · refine .iteSnd ?_ ?_
        · exact .snd h.draw
        · refine .iteSnd ?_ ?_
          · exact .snd h.draw
          · refine .iteSnd ?_ ?_
            · exact h.uartDataRead
            · refine .iteSnd ?_ ?_
              · split
                · exact .iteSnd h.mbRead (.iteSnd h h)
                · exact .iteSnd h h
              · refine .iteSnd ?_ ?_
                · exact h.tmrCapRead
                · refine .iteSnd ?_ ?_
                  · exact .snd h.tmrSettle
                  · refine .iteSnd ?_ ?_
                    · exact h
                    · refine .iteSnd ?_ ?_
                      · exact h
                      · refine .iteSnd ?_ ?_
                        · exact .snd (.takeSnap (.iteSnd h h.draw))
                        · split
                          · exact .iteSnd (.snd h.takeSnap.clearCounters) h
                          · exact .snd h.setReg

theorem Keeps.fieldWrite (h : Keeps s t) {a w} : Keeps s (t.fieldWrite a w) := h.plainWrite.commit

theorem Keeps.rfeWrite (h : Keeps s t) {b a w} : Keeps s (t.rfeWrite b a w) := by
  unfold State.rfeWrite
  exact .ite h.rfeCtrlWrite (.ite h.spanWrite (.ite h.calCmdWrite (.ite h.modRfe (.ite h.modRfe (.ite h.trimWrite (.ite
      h.txConfigWrite h.fieldWrite))))))

theorem Keeps.courseWrite (h : Keeps s t) {a w} : Keeps s (t.courseWrite a w) := by
  unfold State.courseWrite
  exact .ite h.courseCtrlWrite (.ite h.adjWrite (.ite (.ite h.planCommit h) (.ite h.courseCfgWrite (.ite h.dutyCtrlWrite (.ite
      h.shadowWrite h.fieldWrite)))))

theorem Keeps.ashlarWrite (h : Keeps s t) {a w} : Keeps s (t.ashlarWrite a w) :=
  .ite h.ashlarCtrlWrite (.ite h.ashlarCmdWrite (.ite h.entryOp (.ite h.tcfgWrite (.ite h.tepochWrite (.ite h.modTenant (.ite
  h.modTenant h.fieldWrite))))))

theorem Keeps.plinthWrite (h : Keeps s t) {a w} : Keeps s (t.plinthWrite a w) :=
  .ite h.rtcSetWrite (.ite h.rtcCmdWrite (.ite h.rtcAlmWrite (.ite h.plinthCtrlWrite (.ite h.mainsWrite (.ite h.trickleWrite
  h.fieldWrite)))))

theorem Keeps.timerWrite (h : Keeps s t) {m a w} : Keeps s (t.timerWrite m a w) := by
  unfold State.timerWrite
  dsimp only
  refine .ite ?_ ?_
  · refine .ite ?_ ?_
    · exact h
    · split
      · exact h.tmrCtrlWrite
      · exact h.tmrCntWrite
      · exact h.tmrCntWrite
      · exact h.tmrCmpWrite
      · exact h.tmrCmpWrite
      · exact h.fieldWrite
  · exact .ite h (.ite h.tmrWorldWrite h.fieldWrite)

theorem Keeps.coreWrite (h : Keeps s t) {c a w} : Keeps s (t.coreWrite c a w) := by
  unfold State.coreWrite
  exact .ite h.thrStartWrite (.ite h.thrKillWrite (.ite h.kick (.ite h.fieldWrite.wakeThreads (.ite h.pendWrite h.fieldWrite))))

theorem Keeps.regWrite (h : Keeps s t) {m a w} : Keeps s (t.regWrite m a w) := by
  unfold State.regWrite
  dsimp only
  refine .ite ?_ ?_
  · exact h.coreWrite
  · split
    · exact .ite h.rstWrite (.ite h.clkWrite (.ite h.coreCtrlWrite (.ite h.admitWrite (.ite h.dmaCtrlWrite h.fieldWrite))))
    · exact .ite h.plReqWrite (.ite h.sleepWrite h.fieldWrite)
    · exact h.timerWrite
    · exact .ite h.wdtCtrlWrite h.fieldWrite
    · exact h.rfeWrite
    · exact h.rfeWrite
    · exact .ite h (.ite h.femWrite h.femWrite)
    · exact .ite h.recCmdWrite (.ite h.recConfigWrite h.fieldWrite)
    · exact h.courseWrite
    · exact .ite h.hodCtrlWrite (.ite h.hodRdWrite h.fieldWrite)
    · exact h.ashlarWrite
    · exact .ite h.cryptoCtrlWrite (.ite h.queueWrite h.fieldWrite)
    · exact .ite h.keysCmdWrite h.fieldWrite
    · exact .ite h.pkeCmdWrite (.ite h h.fieldWrite)
    · exact .ite h.trngCtrlWrite h.fieldWrite
    · exact .ite h.lfCmdWrite h.fieldWrite
    · exact .ite h.accessCtrlWrite (.ite h.tblCmdWrite h.fieldWrite)
    · refine .ite ?_ ?_
      · exact h.bell
      · refine .ite ?_ ?_
        · split
          · exact h.mbWrite
          · exact h
        · exact h.fieldWrite
    · exact .ite h.hostifCtrlWrite (.ite h.oqWrite h.fieldWrite)
    · exact .ite h.assayCtrlWrite (.ite h.assayCmdWrite h.fieldWrite)
    · exact .ite h.nvmcCmdWrite h.fieldWrite
    · exact .ite (.ite h.gpioWrite h) (.ite h.gpioWorldWrite h)
    · exact .ite h.uartCtrlWrite (.ite h.uartBaudWrite (.ite h.uartDataWrite h.fieldWrite))
    · exact h.plinthWrite
    · exact h.fieldWrite

/-! ## Bus -/

theorem Keeps.busRead (h : Keeps s t) {m core a n} : Keeps s (t.busRead m core a n).2 := by
  unfold State.busRead
  dsimp only
  refine .iteSnd ?_ ?_
  · exact h
  · split
    · refine .iteSnd ?_ ?_
      · exact h
      · split
        · exact .snd h.regRead
        · exact h
    · refine .iteSnd ?_ ?_
      · exact h
      · split
        · exact .snd h.regRead
        · exact h
    · refine .iteSnd ?_ ?_
      · exact h
      · split
        · exact .snd h.regRead
        · exact h
    · exact .iteSnd (.snd h.eccNote) (.snd h.eccNote)
    · exact h

theorem Keeps.busWrite (h : Keeps s t) {m core a n v} (e : t.busWrite m core a n v = some u) : Keeps s u := by
  unfold State.busWrite at e
  dsimp only at e
  split at e
  · cases e
  · split at e
    · cases e
      exact h.sramPut
    · cases e
      exact h.trans ⟨fun ⟨r, f, n, sr, rr, rest⟩ => ⟨r, f, n, sr, memPut_wf _ _ _ _ rr, rest⟩, rfl⟩
    · cases e
      exact h.modAshlar
    · split at e
      · cases e
        exact h.regWrite
      · cases e
        exact h

theorem Keeps.busError (h : Keeps s t) {m e} : Keeps s (t.busError m e) := by
  unfold State.busError
  dsimp only
  split
  · split
    · exact h.see.raiseInstr
    · exact h.see
  · exact h.see

theorem Keeps.busReadSeen (h : Keeps s t) {m a} : Keeps s (t.busReadSeen m a) := by
  unfold State.busReadSeen
  split
  · exact h.busError
  · split
    · next e =>
        exact ((h.busRead.ofEq e)).see
    · next e =>
        exact ((h.busRead.ofEq e)).busError
    · next e =>
        exact ((h.busRead.ofEq e)).busError

theorem Keeps.busWriteSeen (h : Keeps s t) {m a w} : Keeps s (t.busWriteSeen m a w) := by
  unfold State.busWriteSeen
  split
  · exact h.busError
  · cases e : t.busWrite m m.coreOr0 a 2 w.toNat with
    | none => exact h.busError
    | some v => exact h.busWrite e

/-! ## AdsinSys -/

theorem Keeps.fwWrite (h : Keeps s t) {l} : Keeps s (t.fwWrite l) := .forEach (fun _ _ h1 => h1.regWrite) h

theorem Keeps.fwRead {l} : ∀ {t}, Keeps s t → Keeps s (t.fwRead l).2 := by
  induction l with
  | nil => exact id
  | cons a l ih => exact fun h => ih h.regRead

theorem Keeps.jobAsk (h : Keeps s t) {w0 tail octets} : Keeps s (t.jobAsk w0 tail octets).2.2 := by
  unfold State.jobAsk
  exact .snd h.scratch.scratch.sramPut.setSramWords.fwWrite

theorem Keeps.noteAdmitted (h : Keeps s t) : Keeps s t.noteAdmitted := by
  unfold State.noteAdmitted
  exact .ite h h.fwWrite

theorem Keeps.admission {act} (hf : ∀ v, Keeps s v → Keeps s (act v).2) (h : Keeps s t) : Keeps s (t.admission act).2 := by
  unfold State.admission
  dsimp only
  exact .iteSnd h (.snd (.noteAdmitted (hf _ h)))

theorem Keeps.sysHello (h : Keeps s t) {k p} : Keeps s (t.sysHello k p).2 := by
  unfold State.sysHello
  exact .iteSnd (.snd (.modChan (.ite h.spiTakeBack h))) (.snd h.modChan)

theorem Keeps.sysInfo (h : Keeps s t) : Keeps s t.sysInfo.2 := by
  unfold State.sysInfo
  dsimp only
  exact .snd (.iteSnd h.draw h)

theorem Keeps.sysEvtMask (h : Keeps s t) {k p} : Keeps s (t.sysEvtMask k p).2 := by
  unfold State.sysEvtMask
  exact .snd h.modChan

theorem Keeps.sysReset (h : Keeps s t) {p} : Keeps s (t.sysReset p).2 := h

theorem Keeps.sysStats (h : Keeps s t) {k} : Keeps s (t.sysStats k).2 := by
  unfold State.sysStats
  exact h

theorem Keeps.pwrPlSet (h : Keeps s t) {p} : Keeps s (t.pwrPlSet p).2 := by
  unfold State.pwrPlSet
  exact .iteSnd h (.iteSnd (.snd h.noteAdmitted.plReqWrite) (.iteSnd (.snd h.noteAdmitted.plReqWrite.complete) (.snd
      h.noteAdmitted.plReqWrite)))

theorem Keeps.pwrPlGet (h : Keeps s t) : Keeps s t.pwrPlGet.2 := by
  unfold State.pwrPlGet
  exact .snd h.noteAdmitted

theorem Keeps.pwrSleep (h : Keeps s t) {p} : Keeps s (t.pwrSleep p).2 := by
  unfold State.pwrSleep
  dsimp only
  refine .iteSnd ?_ ?_
  · exact h
  · split
    · exact .snd h.setFlag.setFld
    · exact h

theorem Keeps.pwrMains (h : Keeps s t) {p} : Keeps s (t.pwrMains p).2 := by
  unfold State.pwrMains
  exact .iteSnd (.snd h.fwWrite) h

theorem Keeps.timeGet (h : Keeps s t) : Keeps s t.timeGet.2 := h

theorem Keeps.timeShift (h : Keeps s t) {p} : Keeps s (t.timeShift p).2 := by
  unfold State.timeShift
  exact .iteSnd h (.snd h.fwWrite)

theorem Keeps.timeTrim (h : Keeps s t) {p} : Keeps s (t.timeTrim p).2 := by
  unfold State.timeTrim
  dsimp only
  exact .iteSnd h (.snd h.fwWrite.fwRead)

theorem Keeps.timeAlarm (h : Keeps s t) {p} : Keeps s (t.timeAlarm p).2 := by
  unfold State.timeAlarm
  exact .iteSnd h (.snd h.fwWrite.fwWrite)

/-! ## AdsinRadio -/

theorem Keeps.errs {act} (hf : ∀ v, Keeps s v → Keeps s (act v)) (h : Keeps s t) {f} : Keeps s (t.errs f act).2 := by
  unfold State.errs
  exact .snd (.setFlag (hf _ h.setFlag))

theorem Keeps.radioFeCfg (h : Keeps s t) {p} : Keeps s (t.radioFeCfg p).2 := by
  unfold State.radioFeCfg
  dsimp only
  split
  · exact h
  · exact .iteSnd h (.snd h.fwWrite)

theorem Keeps.radioFeEn (h : Keeps s t) {p} : Keeps s (t.radioFeEn p).2 := by
  unfold State.radioFeEn
  dsimp only
  split
  · exact .iteSnd (.snd h.fwWrite.complete) (.iteSnd (.snd h.fwWrite) (.snd h.fwWrite))
  · exact h

theorem Keeps.radioCal (h : Keeps s t) {p} : Keeps s (t.radioCal p).2 := by
  unfold State.radioCal
  split
  · exact .iteSnd (.snd h.fwWrite) h
  · exact h

theorem Keeps.radioRoute (h : Keeps s t) {p} : Keeps s (t.radioRoute p).2 := by
  unfold State.radioRoute
  exact .iteSnd h (.snd h.modAdsin)

theorem Keeps.radioSend (h : Keeps s t) {k p} : Keeps s (t.radioSend k p).2 := by
  unfold State.radioSend
  dsimp only
  refine .iteSnd ?_ ?_
  · exact h
  · split
    · exact h
    · exact .snd h.modAdsin

theorem Keeps.placeOne (h : Keeps s t) {x} : Keeps s (t.placeOne x) := by
  unfold State.placeOne
  dsimp only
  exact h.draw.sramPut.shadowWrite.shadowWrite.shadowWrite.shadowWrite.modAdsin

theorem Keeps.radioLaneStats (h : Keeps s t) {p} : Keeps s (t.radioLaneStats p).2 := by
  unfold State.radioLaneStats
  dsimp only
  exact .iteSnd h (.snd h.fwRead)

theorem Keeps.radioRecord (h : Keeps s t) {p} : Keeps s (t.radioRecord p).2 := by
  unfold State.radioRecord
  dsimp only
  exact .iteSnd h (.admission (fun _ h1 => .snd (.errs (fun _ h2 => h2.fwWrite) h1)) h)

theorem Keeps.radioRecRead (h : Keeps s t) {p} : Keeps s (t.radioRecRead p).2 := by
  unfold State.radioRecRead
  exact .iteSnd h h

theorem Keeps.courseCfgReq (h : Keeps s t) {p} : Keeps s (t.courseCfgReq p).2 := by
  unfold State.courseCfgReq
  exact .iteSnd (.snd h.fwWrite) h

theorem Keeps.courseStartReq (h : Keeps s t) {p} : Keeps s (t.courseStartReq p).2 := by
  unfold State.courseStartReq
  dsimp only
  exact .iteSnd h (.snd (.errs (fun _ h1 => h1.fwWrite) h))

theorem Keeps.courseStopReq (h : Keeps s t) : Keeps s t.courseStopReq.2 := by
  unfold State.courseStopReq
  exact .snd h.fwWrite

theorem Keeps.courseLanes (h : Keeps s t) {p} : Keeps s (t.courseLanes p).2 := by
  unfold State.courseLanes
  exact .iteSnd h (.iteSnd h (.admission (fun _ h1 => .snd (.planCommit (.forEach (fun _ _ h2 => h2.shadowWrite.shadowWrite)
      h1))) h))

theorem Keeps.courseHoplist (h : Keeps s t) {p} : Keeps s (t.courseHoplist p).2 := by
  unfold State.courseHoplist
  exact .iteSnd h (.snd (.forEach (fun _ _ h1 => h1.shadowWrite) (.forEach (fun _ _ h1 => h1.shadowWrite) h)))

theorem Keeps.courseDuty (h : Keeps s t) {p} : Keeps s (t.courseDuty p).2 := by
  unfold State.courseDuty
  dsimp only
  exact .iteSnd h (.snd h.fwWrite.fwRead)

theorem Keeps.ashlarTenant (h : Keeps s t) {p} : Keeps s (t.ashlarTenant p).2 := by
  unfold State.ashlarTenant
  exact .iteSnd (.snd h.fwWrite) h

theorem Keeps.ashlarEpoch (h : Keeps s t) {p} : Keeps s (t.ashlarEpoch p).2 := by
  unfold State.ashlarEpoch
  dsimp only
  exact .iteSnd h (.snd (.errs (fun _ h1 => h1.fwWrite) h))

theorem Keeps.ashlarEntryReq (h : Keeps s t) {p} : Keeps s (t.ashlarEntryReq p).2 := by
  unfold State.ashlarEntryReq
  exact .iteSnd h (.iteSnd h (.snd h.fwWrite))

theorem Keeps.ashlarCounters (h : Keeps s t) {p} : Keeps s (t.ashlarCounters p).2 := by
  unfold State.ashlarCounters
  dsimp only
  exact .iteSnd (.snd h.fwRead) (.iteSnd h (.snd h.fwWrite.fwRead))

/-! ## FabricSend -/

theorem Keeps.fabSecure (h : Keeps s t) {hop payload} : Keeps s (t.fabSecure hop payload).2 := by
  unfold State.fabSecure
  dsimp only
  exact .iteSnd h (.iteSnd h (.snd h.draw.jobAsk))

theorem Keeps.fabNextJob (h : Keeps s t) : Keeps s t.fabNextJob := by
  unfold State.fabNextJob
  dsimp only
  split
  · exact h
  · exact .ite h h.fabSecure.modFabric

theorem Keeps.fabRecheck (h : Keeps s t) : Keeps s t.fabRecheck := by
  unfold State.fabRecheck
  exact .forEach (fun _ _ h1 => h1.fabDrop.fabSent) h.modFabric

theorem Keeps.fabPump (h : Keeps s t) : Keeps s t.fabPump := by
  unfold State.fabPump
  dsimp only
  exact .ite h (.fabNextJob (.forEach (fun _ _ h1 => h1.fabSecure.modFabric) (.forEach (fun _ _ h1 => h1.fabSent)
      h.modFabric.fabRecheck.modFabric.modFabric)))

theorem Keeps.placeHello (h : Keeps s t) {a h'} : Keeps s (t.placeHello a h') := by
  unfold State.placeHello
  dsimp only
  split
  · exact h.modFabric.placeOne
  · exact h.modFabric

theorem Keeps.placeUnicast (h : Keeps s t) {a m p} : Keeps s (t.placeUnicast a m p) := by
  unfold State.placeUnicast
  dsimp only
  split
  · exact h.placeOne.modFabric
  · exact h

theorem Keeps.placeSends (h : Keeps s t) : Keeps s t.placeSends := by
  unfold State.placeSends
  dsimp only
  exact .ite h (.ite (.forEach (fun _ _ h1 => h1.txDone) h.modAdsin) (.planCommit (.forEach (fun _ _ h1 => h1.shadowWrite) (by
  split
  · exact .placeUnicast (.forEach (fun _ _ h1 => h1.placeHello) (.forEach (fun _ _ h1 => h1.placeOne) (.modAdsin (.forEach
      (fun _ _ h1 => h1.shadowWrite) (.forEach (fun _ _ h1 => h1.txDone) h.modAdsin)))))
  · exact .forEach (fun _ _ h1 => h1.placeHello) (.forEach (fun _ _ h1 => h1.placeOne) (.modAdsin (.forEach (fun _ _ h1 =>
      h1.shadowWrite) (.forEach (fun _ _ h1 => h1.txDone) h.modAdsin))))))))

/-! ## AdsinKey -/

theorem Keeps.keysAsk (h : Keeps s t) {op arg0 arg3 octets} : Keeps s (t.keysAsk op arg0 arg3 octets).2 := by
  unfold State.keysAsk
  dsimp only
  exact .iteSnd h (.iteSnd (.snd h.scratch.sramPut.fwWrite) (.snd h.scratch.sramPut.fwWrite))

theorem Keeps.keyDerive (h : Keeps s t) {p} : Keeps s (t.keyDerive p).2 := .iteSnd h h.keysAsk

theorem Keeps.keyGenerate (h : Keeps s t) {p} : Keeps s (t.keyGenerate p).2 := .iteSnd h h.keysAsk

theorem Keeps.keyDestroy (h : Keeps s t) {p} : Keeps s (t.keyDestroy p).2 := .iteSnd h h.keysAsk

theorem Keeps.keyTransfer (h : Keeps s t) {p} : Keeps s (t.keyTransfer p).2 := .iteSnd h h.keysAsk

theorem Keeps.keyDrop (h : Keeps s t) {p} : Keeps s (t.keyDrop p).2 := .iteSnd h h.keysAsk

theorem Keeps.keyAttr (h : Keeps s t) {p} : Keeps s (t.keyAttr p).2 := by
  unfold State.keyAttr
  dsimp only
  exact .iteSnd h (.snd h.fwWrite.fwRead)

theorem Keeps.keyIdpub (h : Keeps s t) : Keeps s t.keyIdpub.2 := by
  unfold State.keyIdpub
  dsimp only
  exact h.fwRead

theorem Keeps.keyLcChange (h : Keeps s t) {p} : Keeps s (t.keyLcChange p).2 := .iteSnd h h.keysAsk

theorem Keeps.keyCipher (h : Keeps s t) {k p} : Keeps s (t.keyCipher k p).2 := by
  unfold State.keyCipher
  dsimp only
  exact .iteSnd h (.iteSnd h (.iteSnd (.snd h.jobAsk) (.snd h.jobAsk)))

theorem Keeps.accessCfg (h : Keeps s t) {p} : Keeps s (t.accessCfg p).2 := by
  unfold State.accessCfg
  exact .iteSnd (.snd h.fwWrite) h

theorem Keeps.accessTablePut (h : Keeps s t) {p} : Keeps s (t.accessTablePut p).2 := by
  unfold State.accessTablePut
  exact .iteSnd h (.snd h.setSramWords)

theorem Keeps.accessTableLoad (h : Keeps s t) {p} : Keeps s (t.accessTableLoad p).2 := by
  unfold State.accessTableLoad
  exact .iteSnd h (.iteSnd h (.snd h.fwWrite))

theorem Keeps.accessStatusReq (h : Keeps s t) : Keeps s t.accessStatusReq.2 := by
  unfold State.accessStatusReq
  dsimp only
  exact h.fwRead

theorem Keeps.accessTune (h : Keeps s t) {p} : Keeps s (t.accessTune p).2 := by
  unfold State.accessTune
  exact .iteSnd h (.iteSnd h (.iteSnd h (.snd h.fwWrite)))

theorem Keeps.accessPlumbCal (h : Keeps s t) {p} : Keeps s (t.accessPlumbCal p).2 := by
  unfold State.accessPlumbCal
  exact .iteSnd (.snd h.fwWrite) h

theorem Keeps.fabricCfg (h : Keeps s t) {p} : Keeps s (t.fabricCfg p).2 := .iteSnd (.snd h.modFabric) h

theorem Keeps.fabricStart (h : Keeps s t) : Keeps s t.fabricStart.2 := h

theorem Keeps.fabricStatus (h : Keeps s t) : Keeps s t.fabricStatus.2 := by
  unfold State.fabricStatus
  dsimp only
  exact .snd h.fabStatus

theorem Keeps.fabricNeighbours (h : Keeps s t) {p} : Keeps s (t.fabricNeighbours p).2 := by
  unfold State.fabricNeighbours
  dsimp only
  exact .iteSnd h (.snd h.drawOctets)

theorem Keeps.fabricSend (h : Keeps s t) : Keeps s t.fabricSend.2 := by
  unfold State.fabricSend
  dsimp only
  exact .iteSnd h (.snd h.fabSeq)

theorem Keeps.fabricRoutes (h : Keeps s t) {p} : Keeps s (t.fabricRoutes p).2 := by
  unfold State.fabricRoutes
  exact .iteSnd h h

theorem Keeps.assayRun (h : Keeps s t) {p} : Keeps s (t.assayRun p).2 := .iteSnd h (.iteSnd h (.snd h.fwWrite))

theorem Keeps.assaySchedule (h : Keeps s t) {p} : Keeps s (t.assaySchedule p).2 := by
  unfold State.assaySchedule
  exact .iteSnd h (.snd h.modAdsin)

theorem Keeps.assayResults (h : Keeps s t) {p} : Keeps s (t.assayResults p).2 := by
  unfold State.assayResults
  dsimp only
  exact .iteSnd h h

/-! ## AdsinUpdate -/

theorem Keeps.stageErase (h : Keeps s t) {i} : Keeps s (t.stageErase i) := h.setSlotState.fwWrite

theorem Keeps.updateBegin (h : Keeps s t) {p} : Keeps s (t.updateBegin p).2 := by
  unfold State.updateBegin
  exact .iteSnd h (.iteSnd h (.snd (.ite h.modUpdate.bootPush.cfgPump h.modUpdate.stageErase)))

theorem Keeps.nvmcAsk (h : Keeps s t) {op arg0 arg1 ws} : Keeps s (t.nvmcAsk op arg0 arg1 ws) := by
  unfold State.nvmcAsk
  dsimp only
  exact h.scratch.setSramWords.fwWrite

theorem Keeps.updateChunk (h : Keeps s t) {p} : Keeps s (t.updateChunk p).2 := by
  unfold State.updateChunk
  exact .iteSnd h (.iteSnd h (.snd h.setSlotState.nvmcAsk))

theorem Keeps.updateVerify (h : Keeps s t) : Keeps s t.updateVerify.2 := h

theorem Keeps.updateActivate (h : Keeps s t) {p} : Keeps s (t.updateActivate p).2 := h

theorem Keeps.updateState (h : Keeps s t) : Keeps s t.updateState.2 := by
  unfold State.updateState
  exact h

theorem Keeps.updateAbort (h : Keeps s t) : Keeps s t.updateAbort.2 := by
  unfold State.updateAbort
  dsimp only
  refine .iteSnd ?_ ?_
  · exact h
  · split
    · exact .snd (.cfgPump (.bootPush (.ite h h.standbyPark.setHand.activated)))
    · split
      · exact .snd (.setSlotState (.ite h h.standbyPark.setHand.activated))
      · exact .snd (.ite h h.standbyPark.setHand.activated)

theorem Keeps.logRead (h : Keeps s t) {p} : Keeps s (t.logRead p).2 := by
  unfold State.logRead
  dsimp only
  exact .iteSnd h (.snd h.regionRead)

theorem Keeps.logWrite (h : Keeps s t) {k p} : Keeps s (t.logWrite k p).2 := by
  unfold State.logWrite
  exact .iteSnd h (.iteSnd h (.snd h.nvmcAsk))

theorem Keeps.adsinAct (h : Keeps s t) {k cls cmd p} : Keeps s (t.adsinAct k cls cmd p).2 := by
  match cls, cmd with
  | 0, 1 => exact h.sysHello
  | 0, 3 => exact h.sysInfo
  | 0, 4 => exact h.sysEvtMask
  | 0, 5 => exact h.sysReset
  | 0, 6 => exact h.sysStats
  | 0, 0 | 0, 2 | 0, _ + 7 => exact h
  | 1, 1 => exact h.pwrPlSet
  | 1, 2 => exact h.pwrPlGet
  | 1, 3 => exact h.pwrSleep
  | 1, 4 => exact h.pwrMains
  | 1, 0 | 1, _ + 5 => exact h
  | 2, 1 => exact h.timeGet
  | 2, 2 => exact h.fwWrite
  | 2, 3 => exact h.timeShift
  | 2, 4 => exact h.timeTrim
  | 2, 5 => exact h.timeAlarm
  | 2, 0 | 2, _ + 6 => exact h
  | 3, 1 => exact h.radioFeCfg
  | 3, 2 => exact h.radioFeEn
  | 3, 3 => exact h.radioCal
  | 3, 4 => exact h.radioRoute
  | 3, 5 => exact h.radioSend
  | 3, 6 => exact h.radioLaneStats
  | 3, 7 => exact h.radioRecord
  | 3, 8 => exact h.radioRecRead
  | 3, 0 | 3, _ + 9 => exact h
  | 4, 1 => exact h.courseCfgReq
  | 4, 2 => exact h.courseStartReq
  | 4, 3 => exact h.courseStopReq
  | 4, 4 => exact h.courseLanes
  | 4, 5 => exact h.courseHoplist
  | 4, 6 => exact h.courseDuty
  | 4, 0 | 4, _ + 7 => exact h
  | 5, 1 => exact h.ashlarTenant
  | 5, 2 => exact h.ashlarEpoch
  | 5, 3 => exact h.ashlarEntryReq
  | 5, 4 => exact h.fwWrite
  | 5, 5 => exact h.ashlarCounters
  | 5, 0 | 5, _ + 6 => exact h
  | 6, 1 | 6, 9 => exact h.keysAsk
  | 6, 2 => exact h.keyDerive
  | 6, 3 => exact h.keyGenerate
  | 6, 4 => exact h.keyDestroy
  | 6, 5 => exact h.keyTransfer
  | 6, 6 => exact h.keyDrop
  | 6, 7 => exact h.keyAttr
  | 6, 8 => exact h.keyIdpub
  | 6, 10 => exact h.keyLcChange
  | 6, 11 => exact h.keyCipher
  | 6, 0 | 6, _ + 12 => exact h
  | 7, 1 => exact h.accessCfg
  | 7, 2 => exact h.accessTablePut
  | 7, 3 => exact h.accessTableLoad
  | 7, 4 => exact h.accessStatusReq
  | 7, 5 => exact h.accessTune
  | 7, 6 => exact h.accessPlumbCal
  | 7, 0 | 7, _ + 7 => exact h
  | 8, 1 => exact h.fabricCfg
  | 8, 2 => exact h.fabricStart
  | 8, 4 => exact h.fabricStatus
  | 8, 5 => exact h.fabricNeighbours
  | 8, 6 => exact h.fabricSend
  | 8, 7 => exact h.fabricRoutes
  | 8, 0 | 8, 3 | 8, _ + 8 => exact h
  | 9, 1 => exact h.assayRun
  | 9, 2 => exact h.assaySchedule
  | 9, 3 => exact h.assayResults
  | 9, 0 | 9, _ + 4 => exact h
  | 10, 1 => exact h.updateBegin
  | 10, 2 => exact h.updateChunk
  | 10, 3 => exact h.updateVerify
  | 10, 4 => exact h.updateActivate
  | 10, 5 => exact h.updateState
  | 10, 6 => exact h.updateAbort
  | 10, 0 | 10, _ + 7 => exact h
  | 11, 1 => exact h.logRead
  | 11, 2 => exact h.logWrite
  | 11, 0 | 11, _ + 3 => exact h
  | _ + 12, _ => exact h

theorem Keeps.adsinRetry (h : Keeps s t) {k} : Keeps s (t.adsinRetry k) := by
  unfold State.adsinRetry
  dsimp only
  split
  · exact h
  · exact .ite h.adsinAct (.ite h.adsinAct.modChan.noteReset.adsinNext h.adsinAct.modChan.noteReset)

theorem Keeps.pumpUart (h : Keeps s t) : Keeps s t.pumpUart := by
  unfold State.pumpUart
  dsimp only
  split
  · exact h
  · exact .ite h (.ite (.ite h.adsinPop h) h.modUart.modChan)

theorem Keeps.pumpApp (h : Keeps s t) {k} : Keeps s (t.pumpApp k) := by
  unfold State.pumpApp
  dsimp only
  split
  · exact h
  · exact .ite h (.ite (.adsinPop (.forEach (fun _ _ h1 => h1.mbWrite) h)) (.modChan (.forEach (fun _ _ h1 => h1.mbWrite) h)))

theorem Keeps.oqPut (h : Keeps s t) {i ws} : Keeps s (t.oqPut i ws) := by
  unfold State.oqPut
  dsimp only
  exact h.scratch.setSramWords.setSramWords

theorem Keeps.pumpSpi (h : Keeps s t) : Keeps s t.pumpSpi := by
  unfold State.pumpSpi
  dsimp only
  split
  · exact h
  · exact .ite h (.ite h.modAdsin.oqPut.oqWrite (.ite h.modAdsin.oqPut.modSys h))

theorem Keeps.execMainsLoss (h : Keeps s t) : Completes s (execMainsLoss t) := by
  unfold Machine.execMainsLoss
  exact .next (.ite (.wakeRise (.ite (.pumpSpi (.ite h.setFlag.modPlinth.trimVoid.plinthEvt.event.fabGasp
      h.setFlag.modPlinth.trimVoid.plinthEvt.event)) (.ite h.setFlag.modPlinth.trimVoid.plinthEvt.event.fabGasp
      h.setFlag.modPlinth.trimVoid.plinthEvt.event))) h)

theorem Keeps.pullUart (h : Keeps s t) : Keeps s t.pullUart := .ite h.modUart.uartBaud h

theorem Keeps.resetDue (h : Keeps s t) : Keeps s t.resetDue := by
  unfold State.resetDue
  split
  · exact .ite h.modAdsin.deviceReset h
  · exact h

theorem Keeps.fabLoad (h : Keeps s t) : Keeps s t.fabLoad := by
  unfold State.fabLoad
  dsimp only
  exact h.modFabric

theorem Keeps.tokenLoad (h : Keeps s t) : Keeps s t.tokenLoad := by
  unfold State.tokenLoad
  split
  · exact h
  · exact h.setSramWords.setSramWords.fwWrite

theorem Keeps.fwInit (h : Keeps s t) : Keeps s t.fwInit := by
  unfold State.fwInit
  exact .ite h (.fabLoad (.forEach (fun _ _ h1 => .ite h1.cfgPush h1) h.modUpdate.tokenLoad))

theorem Keeps.cfgNext (h : Keeps s t) {r x} : Keeps s (t.cfgNext r x) := by
  unfold State.cfgNext
  dsimp only
  split
  · exact h
  · exact .ite h.stageErase h.complete
  · exact .ite h.setSlotState.activated h.activated
  · exact .ite h.setSlotState.verified h.verified
  · exact .ite h.setSlotState.complete h.complete
  · exact h.tookOver
  · exact h.bootSet
  · exact h.bootConf

theorem Keeps.execNvmcCmdDone (h : Keeps s t) {fails} : Completes s (execNvmcCmdDone fails t) := by
  unfold Machine.execNvmcCmdDone
  dsimp only
  exact .next (by
  refine .ite ?_ ?_
  · split
    · exact h.nvmcDone.modUpdate.cfgNext
    · exact h.nvmcDone.complete
  · exact h)

theorem Keeps.adsinPump (h : Keeps s t) : Keeps s t.adsinPump := by
  unfold State.adsinPump
  exact .ite (.lcDue (.resetDue (.noteReset (.pumpSpi (.pumpUart (.pullUart (.forEach (fun _ _ h1 => h1.pumpApp) (.ite
      (.forEach (fun _ _ h1 => h1.pullApp) (.ite (.placeSends (.fabPump (.cfgPump (.forEach (fun _ _ h1 => h1.adsinRetry)
      (.ite h.fwInit.noteAdmitted h))))) (.cfgPump (.forEach (fun _ _ h1 => h1.adsinRetry) (.ite h.fwInit.noteAdmitted h)))))
      (.ite (.placeSends (.fabPump (.cfgPump (.forEach (fun _ _ h1 => h1.adsinRetry) (.ite h.fwInit.noteAdmitted h)))))
      (.cfgPump (.forEach (fun _ _ h1 => h1.adsinRetry) (.ite h.fwInit.noteAdmitted h)))))))))))) h

/-! ## Cpu -/

theorem Keeps.haltThread (h : Keeps s t) {c t'} : Keeps s (t.haltThread c t') := by
  unfold State.haltThread
  exact h.modCore

theorem Keeps.bkHalt (h : Keeps s t) {c t' i} : Keeps s (t.bkHalt c t' i) := by
  unfold State.bkHalt
  exact h.haltThread.modCore

theorem Keeps.fetchLine (h : Keeps s t) {c a} : Keeps s (t.fetchLine c a) := by
  unfold State.fetchLine
  exact .ite h h.eccCount.frame

theorem Keeps.pcOf (h : Keeps s t) {a} : Keeps s (t.pcOf a).2 := by
  unfold State.pcOf
  dsimp only
  exact .iteSnd h (.snd h.draw)

theorem Keeps.retire (h : Keeps s t) {c t' d} : Keeps s (t.retire c t' d) := by
  unfold State.retire
  dsimp only
  exact h.pcOf.modCore

theorem Keeps.waitBlocks (h : Keeps s t) {c t'} : Keeps s (t.waitBlocks c t') := by
  unfold State.waitBlocks
  dsimp only
  exact h.pcOf.modThr

theorem Keeps.completeInstr (h : Keeps s t) {c t' d} : Keeps s (t.completeInstr c t' d) := by
  unfold State.completeInstr
  dsimp only
  exact .ite (.modThr (.modCore (.takeHeld (by
  split
  · exact h.retire
  · exact .ite h.retire h.retire.modCore
  · exact .ite h.retire (.ite h.waitBlocks h.waitBlocks.modCore))))) (.takeHeld (by
  split
  · exact h.retire
  · exact .ite h.retire h.retire.modCore
  · exact .ite h.retire (.ite h.waitBlocks h.waitBlocks.modCore)))

theorem Keeps.instr {f} (hf : ∀ v a1 a2, Keeps s v → Keeps s (f v a1 a2).2) (h : Keeps s t) {c shape bad} : Keeps s (t.instr c
  shape bad f) := by
  unfold State.instr
  dsimp only
  split
  · exact h
  · refine .ite ?_ ?_
    · exact h.haltThread
    · split
      · exact h.bkHalt
      · split
        · exact .raiseInstr (.ite h.fetchLine.eccBad h)
        · refine .ite ?_ ?_
          · exact h.fetchLine.raiseInstr
          · split
            · exact .raiseInstr (hf _ _ _ h.fetchLine)
            · exact .ite (hf _ _ _ h.fetchLine) (.completeInstr (hf _ _ _ h.fetchLine))

theorem Keeps.compute (h : Keeps s t) {c bad f} : Keeps s (t.compute c bad f) := .instr (fun _ _ _ h1 => h1) h

theorem Keeps.load (h : Keeps s t) {c t' a n} : Keeps s (t.load c t' a n).2 := by
  unfold State.load
  split
  · exact h
  · refine .iteSnd ?_ ?_
    · exact h
    · split
      · next e =>
          exact .snd ((h.busRead.ofEq e))
      · next e =>
          exact .snd ((h.busRead.ofEq e))
      · next e =>
          exact .snd ((h.busRead.ofEq e))

theorem Keeps.loadInstr (h : Keeps s t) {c bad pb am imm n tgt g} : Keeps s (t.loadInstr c bad pb am imm n tgt g) := by
  unfold State.loadInstr
  dsimp only
  exact .instr (fun _ _ _ h1 => by
  split
  · next e =>
      exact .snd ((h1.load.ofEq e))
  · next e =>
      exact .snd ((h1.load.ofEq e))) h

theorem Keeps.storeInstr (h : Keeps s t) {c bad pb am imm n v} : Keeps s (t.storeInstr c bad pb am imm n v) := by
  unfold State.storeInstr
  dsimp only
  exact .instr (fun _ _ _ h1 => by
  split
  · exact h1
  · split
    · next e =>
        exact .snd ((h1.busWrite e))
    · exact h1) h

/-! ## CpuData -/

theorem Keeps.aluR (h : Keeps s t) {c da db z bad f} : Keeps s (t.aluR c da db z bad f) := h.compute

theorem Keeps.execOpAdd (h : Keeps s t) {c dd da db z} : Completes s (execOpAdd c dd da db z t) := by
  unfold Machine.execOpAdd
  exact .next h.aluR

theorem Keeps.execOpSub (h : Keeps s t) {c dd da db z} : Completes s (execOpSub c dd da db z t) := by
  unfold Machine.execOpSub
  exact .next h.aluR

theorem Keeps.execOpCmp (h : Keeps s t) {c dd da db z} : Completes s (execOpCmp c dd da db z t) := by
  unfold Machine.execOpCmp
  exact .next h.aluR

theorem Keeps.execOpMov (h : Keeps s t) {c dd da db z} : Completes s (execOpMov c dd da db z t) := by
  unfold Machine.execOpMov
  exact .next h.aluR

theorem Keeps.execOpNot (h : Keeps s t) {c dd da db z} : Completes s (execOpNot c dd da db z t) := by
  unfold Machine.execOpNot
  exact .next h.aluR

theorem Keeps.execOpNeg (h : Keeps s t) {c dd da db z} : Completes s (execOpNeg c dd da db z t) := by
  unfold Machine.execOpNeg
  exact .next h.aluR

theorem Keeps.execOpMul (h : Keeps s t) {c dd da db z} : Completes s (execOpMul c dd da db z t) := by
  unfold Machine.execOpMul
  exact .next h.aluR

theorem Keeps.execOpMulhs (h : Keeps s t) {c dd da db z} : Completes s (execOpMulhs c dd da db z t) := by
  unfold Machine.execOpMulhs
  exact .next h.aluR

theorem Keeps.execOpMulhu (h : Keeps s t) {c dd da db z} : Completes s (execOpMulhu c dd da db z t) := by
  unfold Machine.execOpMulhu
  exact .next h.aluR

theorem Keeps.execOpCrc (h : Keeps s t) {c dd da db z} : Completes s (execOpCrc c dd da db z t) := by
  unfold Machine.execOpCrc
  exact .next h.aluR

theorem Keeps.aluI (h : Keeps s t) {c da z bad f} : Keeps s (t.aluI c da z bad f) := h.compute

theorem Keeps.execOpAddi (h : Keeps s t) {c dd da z imm} : Completes s (execOpAddi c dd da z imm t) := by
  unfold Machine.execOpAddi
  exact .next h.aluI

theorem Keeps.execOpCmpi (h : Keeps s t) {c dd da z imm} : Completes s (execOpCmpi c dd da z imm t) := by
  unfold Machine.execOpCmpi
  exact .next h.aluI

theorem Keeps.execOpMovi (h : Keeps s t) {c dd da z imm} : Completes s (execOpMovi c dd da z imm t) := by
  unfold Machine.execOpMovi
  exact .next h.aluI

theorem Keeps.aluBf (h : Keeps s t) {c da pos lm1 z z2 f} : Keeps s (t.aluBf c da pos lm1 z z2 f) := h.compute

theorem Keeps.execOpExtu (h : Keeps s t) {c dd da pos lm1 z z2} : Completes s (execOpExtu c dd da pos lm1 z z2 t) := by
  unfold Machine.execOpExtu
  exact .next h.aluBf

theorem Keeps.execOpExts (h : Keeps s t) {c dd da pos lm1 z z2} : Completes s (execOpExts c dd da pos lm1 z z2 t) := by
  unfold Machine.execOpExts
  exact .next h.aluBf

/-! ## CpuFlow -/

theorem Keeps.branchInstr (h : Keeps s t) {c bad f link} : Keeps s (t.branchInstr c bad f link) := by
  unfold State.branchInstr
  exact .instr (fun _ _ _ h1 => by
  split <;> exact h1) h

theorem Keeps.execOpLoop (h : Keeps s t) {c lvl src count fin} : Completes s (execOpLoop c lvl src count fin t) := by
  unfold Machine.execOpLoop
  exact .next (.instr (fun _ _ _ h1 => h1) h)

theorem Keeps.execOpMtc (h : Keeps s t) {c cr isP r z} : Completes s (execOpMtc c cr isP r z t) := by
  unfold Machine.execOpMtc
  exact .next (.instr (fun _ _ _ h1 => .iteSnd h1 (.iteSnd h1 (.iteSnd h1 (.iteSnd h1 h1)))) h)

theorem Keeps.execOpMfc (h : Keeps s t) {c cr isP r z} : Completes s (execOpMfc c cr isP r z t) := by
  unfold Machine.execOpMfc
  exact .next (.instr (fun _ _ _ h1 => .iteSnd h1 h1) h)

theorem Keeps.execOpSyscall (h : Keeps s t) {c z arg} : Completes s (execOpSyscall c z arg t) := by
  unfold Machine.execOpSyscall
  exact .next (.instr (fun _ _ _ h1 => h1) h)

theorem Keeps.execOpBreak (h : Keeps s t) {c z arg} : Completes s (execOpBreak c z arg t) := by
  unfold Machine.execOpBreak
  exact .next (.instr (fun _ _ _ h1 => h1) h)

/-! ## Trowel -/

theorem Keeps.twFault (h : Keeps s t) {r} : Keeps s (t.twFault r) := h.modDebug.see

theorem Keeps.twCmd {f} (hf : ∀ v, Keeps s v → Keeps s (f v)) (h : Keeps s t) {need good} : Keeps s (t.twCmd need good f) :=
  .ite h (.ite h.twFault (.ite h.modDebug (hf _ h)))

theorem Keeps.twCore {f} (hf : ∀ v a1, Keeps s v → Keeps s (f v a1)) (h : Keeps s t) {core good} : Keeps s (t.twCore core good
  f) := .twCmd (fun _ h1 => .dite (fun _ => .ite h1.twFault (.twCmd (fun _ h2 => hf _ _ h2) h1)) (fun _ => h1.twFault)) h

theorem Keeps.execTrowelStatus (h : Keeps s t) {core} : Completes s (execTrowelStatus core t) := by
  unfold Machine.execTrowelStatus
  exact .next (.twCmd (fun _ h1 => .see (.dite (fun _ => h1.modDebug.modCore) (fun _ => h1.modDebug))) h)

theorem Keeps.twNext (h : Keeps s t) : Keeps s t.twNext := h.modDebug

theorem Keeps.twFree {f} (hf : ∀ v, Keeps s v → Keeps s (f v)) (h : Keeps s t) : Keeps s (t.twFree f) := by
  unfold State.twFree
  dsimp only
  exact .ite (hf _ h) (.ite h.draw.see (hf _ h.draw.modDebug))

theorem Keeps.twGive (h : Keeps s t) {late v} : Keeps s (t.twGive late v) := by
  unfold State.twGive
  dsimp only
  exact .ite h.modDebug.twNext.see (.ite h.draw.modDebug.see h.draw.modDebug.twNext.see)

theorem Keeps.execTrowelRd16 (h : Keeps s t) {core} : Completes s (execTrowelRd16 core t) := by
  unfold Machine.execTrowelRd16
  dsimp only
  exact .next (.twCmd (fun _ h1 => .twFree (fun _ h2 => by
  refine .ite ?_ ?_
  · exact h2.twFault
  · split
    · exact h2.twFault
    · exact .ite h2.twGive h2.twFault
    · split
      · next e =>
          exact ((h2.busRead.ofEq e)).twGive
      · next e =>
          exact ((h2.busRead.ofEq e)).twFault) h1) h)

theorem Keeps.execTrowelWr16 (h : Keeps s t) {core w good} : Completes s (execTrowelWr16 core w good t) := by
  unfold Machine.execTrowelWr16
  dsimp only
  exact .next (.twCmd (fun _ h1 => .twFree (fun _ h2 => by
  refine .ite ?_ ?_
  · exact h2.twFault
  · split
    · exact h2.twFault
    · exact .ite h2.twFault (.twCmd (fun _ h3 => by
        split
        · next e =>
            exact .twNext (.modDebug (.iteSnd (((h3.busWrite e)).draw) (.snd ((h3.busWrite e)))))
        · exact h3) h2)) h1) h)

theorem Keeps.twHalted {f} (hf : ∀ v a1, Keeps s v → Keeps s (f v a1)) (h : Keeps s t) {core t' sel good} : Keeps s
  (t.twHalted core t' sel good f) := .twCore (fun _ _ h1 => .ite h1.twFault (.ite h1.twFault (.twCmd (fun _ h2 => hf _ _ h2)
  h1))) h

theorem Keeps.execTrowelResume (h : Keeps s t) {core t'} : Completes s (execTrowelResume core t' t) := by
  unfold Machine.execTrowelResume
  exact .next (.twHalted (fun _ _ h1 => h1.modCore.takeHeld) h)

theorem Keeps.execTrowelRrd (h : Keeps s t) {core t'} : Completes s (execTrowelRrd core t' t) := by
  unfold Machine.execTrowelRrd
  dsimp only
  exact .next (.twHalted (fun _ _ h1 => by
  split
  · exact h1.see
  · exact h1.twFault) h)

theorem Keeps.execTrowelRwr (h : Keeps s t) {core t' v good} : Completes s (execTrowelRwr core t' v good t) := by
  unfold Machine.execTrowelRwr
  dsimp only
  exact .next (.twHalted (fun _ _ h1 => by
  split
  · exact h1.twFault
  · exact .ite h1.twFault h1.modCore
  · exact h1.modCore
  · exact h1.modCore
  · exact h1.modCore
  · exact h1.pcOf.modThr) h)

theorem Keeps.execTrowelBkpt (h : Keeps s t) {core t' v good} : Completes s (execTrowelBkpt core t' v good t) := by
  unfold Machine.execTrowelBkpt
  exact .next (.twCore (fun _ _ h1 => h1.modCore) h)

theorem Keeps.execBreakpointHit (h : Keeps s t) {c branch} : Completes s (execBreakpointHit c branch t) := by
  unfold Machine.execBreakpointHit
  exact .next (by
  split
  · split
    · exact h.bkHalt
    · exact h
  · exact h)

theorem Keeps.execTrowelScan (h : Keeps s t) : Completes s (execTrowelScan t) := by
  unfold Machine.execTrowelScan
  exact .next (.twCmd (fun _ h1 => h1.modDebug.gpioSettle) h)

/-! ## Idle -/

theorem Keeps.tick (h : Keeps s t) : Keeps s t.tick := .ite (.forEach (fun _ _ h1 => h1.tmrSettle) h.frame.recDrain.trngFill) h

theorem Keeps.idle (h : Keeps s t) : Keeps s t.idle := h.tick.loopKicks.adsinPump

/-! ## Fetch -/

theorem Keeps.noInstr (h : Keeps s t) {c} : Keeps s (t.noInstr c) := .instr (fun _ _ _ h1 => h1) h

/-! ## Every command, and every step -/

/-- A command completes, and keeps what every command keeps. -/
theorem Keeps.exec (h : Keeps s t) {c : Instr} : Completes s (exec c t) := by
  cases c with
  | registerWrite => exact .next h.busWriteSeen
  | rclRead => exact .next h.busReadSeen
  | snapshotRead => exact .next h.busReadSeen
  | ashlarCounterGroupRead => exact .next h.busReadSeen
  | xoHfLoss => exact h.execXoHfLoss
  | feEnable => exact .next h.rfeCtrlWrite
  | loLock => exact h.execLoLock
  | feCorrectionsApply => exact h.execFeCorrectionsApply
  | feReady => exact h.execFeReady
  | lockFail => exact h.execLockFail
  | lockLost => exact h.execLockLost
  | feDisable => exact .next h.rfeCtrlWrite
  | feDisableTakesEffect => exact h.execFeDisableTakesEffect
  | rfeSpanWrite => exact .next h.spanWrite
  | levelWindow => exact h.execLevelWindow
  | overload => exact h.execOverload
  | gainStep => exact h.execGainStep
  | gainMarker => exact h.execGainMarker
  | calRequestRc => exact .next h.calRequest
  | calRequestDc => exact .next h.calRequest
  | calRequestIq => exact .next h.calRequest
  | calibrationStart => exact h.execCalibrationStart
  | calibrationEnd => exact h.execCalibrationEnd
  | xoTrimWrite => exact .next h.trimWrite
  | txConfigWrite => exact .next h.txConfigWrite
  | femRegisterWrite => exact .next h.femWrite
  | burstSequencingStart => exact h.execBurstSequencingStart
  | femTxEdge => exact h.execFemTxEdge
  | driverRampUp => exact h.execDriverRampUp
  | carrierStart => exact h.execCarrierStart
  | carrierEnd => exact h.execCarrierEnd
  | burstEnd => exact h.execBurstEnd
  | driverOff => exact h.execDriverOff
  | femRxEdge => exact h.execFemRxEdge
  | burstMuteEnd => exact h.execBurstMuteEnd
  | dgainAdjust => exact h.execDgainAdjust
  | notchEngage => exact h.execNotchEngage
  | preambleDetect => exact h.execPreambleDetect
  | preambleLost => exact .next (.ite h.preambleEnd h)
  | sfdTimeout => exact .next (.ite h.passTo.preambleEnd h)
  | sfdFound => exact h.execSfdFound
  | phrValid => exact h.execPhrValid
  | phrRejected => exact h.execPhrRejected
  | laneHandoff => exact h.execLaneHandoff
  | dfeAdaptResume => exact .next (.ite h.passTo.modLane h)
  | recArm => exact .next h.recArm
  | recStop => exact .next h.recStop
  | recSwtrig => exact .next h.recTrigger
  | recArmed => exact .next (.ite h.passTo.setFld h)
  | recGroupComplete => exact .next h.recGroup
  | recDone => exact h.execRecDone
  | recConfigWrite => exact .next h.recConfigWrite
  | courseRun => exact .next h.courseCtrlWrite
  | courseRunClear => exact .next h.courseCtrlWrite
  | courseStopTakesEffect => exact .next (.ite h.courseStop h)
  | courseTick => exact .next (.ite h.courseTick h)
  | planLock => exact h.execPlanLock
  | shadowCopyDone => exact .next (.ite h.unstall h)
  | planCommit => exact .next h.planCommit
  | planCheckDone => exact h.execPlanCheckDone
  | shadowWrite => exact .next h.shadowWrite
  | courseAdjWrite => exact .next h.adjWrite
  | courseWallWrite => exact .next h.plainWrite
  | courseCfgWrite => exact .next h.courseCfgWrite
  | idleWindowOpen => exact h.execIdleWindowOpen
  | idleWindowClose => exact h.execIdleWindowClose
  | txEntryTest => exact h.execTxEntryTest
  | ccaWindowEnd => exact h.execCcaWindowEnd
  | courseTxendRead => exact h.execCourseTxendRead
  | dutyBucketRoll => exact h.execDutyBucketRoll
  | dutyAccountEnable => exact .next h.dutyCtrlWrite
  | macfDecision => exact h.execMacfDecision
  | hodIngest => exact h.execHodIngest
  | hodSettle => exact h.execHodSettle
  | hodRdWrite => exact .next h.hodRdWrite
  | hodEnable => exact .next h.hodCtrlWrite
  | hodDisable => exact .next h.hodCtrlWrite
  | ashlarLookup => exact h.execAshlarLookup
  | ashlarMicCheck => exact h.execAshlarMicCheck
  | verdictDeadline => exact h.execVerdictDeadline
  | ashlarCommit => exact h.execAshlarCommit
  | leaseWrite => exact h.execLeaseWrite
  | leaseCommitted => exact h.execLeaseCommitted
  | leaseWriteFailed => exact .next h.leaseEnd
  | leaseSweep => exact h.execLeaseSweep
  | leaseSegmentReclaim => exact h.execLeaseSegmentReclaim
  | ashlarEnable => exact .next h.ashlarCtrlWrite
  | ashlarDisable => exact .next h.ashlarCtrlWrite
  | ashlarCmdRestore => exact .next h.ashlarCmdWrite
  | hkDraw => exact h.execHkDraw
  | restoreDone => exact h.execRestoreDone
  | ashlarCmdRebuild => exact .next h.ashlarCmdWrite
  | rebuildStart => exact h.execRebuildStart
  | rebuildDone => exact h.execRebuildDone
  | tenantEpochWrite => exact .next h.tepochWrite
  | entryOpRead => exact .next h.entryOp
  | entryOpInsert => exact .next h.entryOp
  | entryOpDelete => exact .next h.entryOp
  | entryOpSetPend => exact .next h.entryOp
  | entryOpClrPend => exact .next h.entryOp
  | entryOpSetQuar => exact .next h.entryOp
  | entryOpClrQuar => exact .next h.entryOp
  | entryOpPurge => exact .next h.entryOp
  | entryOpBadop => exact .next (.ite h h.entryOp)
  | entryOpDone => exact h.execEntryOpDone
  | purgeDone => exact h.execPurgeDone
  | cryptoEnable => exact .next h.cryptoCtrlWrite
  | cryptoDisable => exact .next h.cryptoCtrlWrite
  | cryptoQueueWrite => exact .next h.queueWrite
  | jobCbcEnc => exact .next h.jobCommand
  | jobCbcDec => exact .next h.jobCommand
  | jobCfbEnc => exact .next h.jobCommand
  | jobCfbDec => exact .next h.jobCommand
  | jobCtr => exact .next h.jobCommand
  | jobCmac => exact .next h.jobCommand
  | jobCcmEnc => exact .next h.jobCommand
  | jobCcmDec => exact .next h.jobCommand
  | cryptoJobDone => exact h.execCryptoJobDone
  | keysLeaseCommit => exact h.execKeysLeaseCommit
  | pkeShaInit => exact .next h.pkeCmdWrite
  | pkeShaUpdate => exact .next h.pkeCmdWrite
  | pkeShaFinal => exact .next h.pkeCmdWrite
  | pkeVerify => exact .next h.pkeCmdWrite
  | pkeSign => exact .next h.pkeCmdWrite
  | pkeEcdh => exact .next h.pkeCmdWrite
  | pkeKeygen => exact .next h.pkeCmdWrite
  | pkeCheck => exact .next h.pkeCmdWrite
  | pkeBadop => exact .next (.ite h h.pkeCmdWrite)
  | pkeOpDone => exact h.execPkeOpDone
  | trngReseed => exact .next h.trngCtrlWrite
  | trngRestart => exact .next h.trngCtrlWrite
  | trngStartupDone => exact h.execTrngStartupDone
  | drbgAutoReseed => exact .next (.ite h.modTrng h)
  | healthTestFail => exact h.execHealthTestFail
  | trngOutRead => exact h.execTrngOutRead
  | keysImport => exact .next h.keysCmdWrite
  | keysDerive => exact .next h.keysCmdWrite
  | keysGenerate => exact .next h.keysCmdWrite
  | keysDestroy => exact .next h.keysCmdWrite
  | keysTransfer => exact .next h.keysCmdWrite
  | keysDrop => exact .next h.keysCmdWrite
  | keysLcNonce => exact .next h.keysCmdWrite
  | keysLcChange => exact .next h.keysCmdWrite
  | keysBadop => exact .next (.ite h h.keysCmdWrite)
  | keysCmdDone => exact h.execKeysCmdDone
  | lcTransitionDone => exact h.execLcTransitionDone
  | accessEnable => exact .next h.accessCtrlWrite
  | accessDisable => exact .next h.accessCtrlWrite
  | lfTelegramStart => exact h.execLfTelegramStart
  | challengeEnd => exact h.execChallengeEnd
  | responseTimeout => exact .next (.ite h.passTo.fail h)
  | plumbSessionStart => exact h.execPlumbSessionStart
  | plumbRequestTimeout => exact .next (.ite h.passTo.fail h)
  | plumbRound => exact h.execPlumbRound
  | plumbPinsRestore => exact .next (.ite h.passTo.plumbRestore h)
  | plumbEnd => exact .next (.ite h.passTo.modRfe.syncMute.setAc h)
  | reportTimeout => exact .next (.ite h.passTo.plumbDecide h)
  | accessLogCommitted => exact .next (.ite h.accessLogged h)
  | releasePulseEnd => exact .next (.ite h.passTo.lockBalls.releaseEnd h)
  | lockReadbackFault => exact h.execLockReadbackFault
  | lockoutEnd => exact .next h.lockoutCheck
  | lockSecTick => exact .next (.ite h.setReg32.lockoutCheck h)
  | lfOvercurrent => exact .next (.ite h.modAccess.lfFault h)
  | lfOpenCheck => exact .next (.ite h.lfFault h)
  | lfBurstEnd => exact h.execLfBurstEnd
  | vlfLowChange => exact .next h.setFlag
  | lfTuneRequest => exact .next h.lfCmdWrite
  | lfTuneStart => exact .next (.ite h.modAccess.setFlag h)
  | lfTuneDone => exact h.execLfTuneDone
  | pollBurst => exact h.execPollBurst
  | accessTblLoad => exact .next h.tblCmdWrite
  | accessTblCopyDone => exact h.execAccessTblCopyDone
  | opAdd => exact h.execOpAdd
  | opAddc => exact .next h.aluR
  | opSub => exact h.execOpSub
  | opSubc => exact .next h.aluR
  | opAnd => exact .next h.aluR
  | opOr => exact .next h.aluR
  | opXor => exact .next h.aluR
  | opCmp => exact h.execOpCmp
  | opTst => exact .next h.aluR
  | opMov => exact h.execOpMov
  | opNot => exact h.execOpNot
  | opNeg => exact h.execOpNeg
  | opShl => exact .next h.aluR
  | opShr => exact .next h.aluR
  | opSar => exact .next h.aluR
  | opRol => exact .next h.aluR
  | opMul => exact h.execOpMul
  | opMulhs => exact h.execOpMulhs
  | opMulhu => exact h.execOpMulhu
  | opMac => exact .next h.aluR
  | opMacu => exact .next h.aluR
  | opAdds => exact .next h.aluR
  | opSubs => exact .next h.aluR
  | opCrc => exact h.execOpCrc
  | opAddi => exact h.execOpAddi
  | opAndi => exact .next h.aluI
  | opOri => exact .next h.aluI
  | opXori => exact .next h.aluI
  | opCmpi => exact h.execOpCmpi
  | opMovi => exact h.execOpMovi
  | opShi => exact .next h.aluI
  | opExtu => exact h.execOpExtu
  | opExts => exact h.execOpExts
  | opIns => exact .next h.aluBf
  | opAddp => exact .next h.compute
  | opLpl => exact .next h.compute
  | opLph => exact .next h.compute
  | opAddpd => exact .next h.compute
  | opAddpu => exact .next h.compute
  | opMovp => exact .next h.compute
  | opCmpp => exact .next h.compute
  | opDifp => exact .next h.compute
  | opMovdp => exact .next h.compute
  | opMovdph => exact .next h.compute
  | opMovpd => exact .next h.compute
  | opLdb => exact .next h.loadInstr
  | opLdbs => exact .next h.loadInstr
  | opLdh => exact .next h.loadInstr
  | opLdp => exact .next h.loadInstr
  | opStb => exact .next h.storeInstr
  | opSth => exact .next h.storeInstr
  | opStp => exact .next h.storeInstr
  | opBcc => exact .next h.branchInstr
  | opJ => exact .next h.branchInstr
  | opCall => exact .next h.branchInstr
  | opJr => exact .next h.branchInstr
  | opCallr => exact .next h.branchInstr
  | opRet => exact .next h.branchInstr
  | opLoop => exact h.execOpLoop
  | opMtc => exact h.execOpMtc
  | opMfc => exact h.execOpMfc
  | opMfs => exact .next h.compute
  | opNop => exact .next h.compute
  | opYield => exact .next h.compute
  | opWait => exact .next h.compute
  | opSig => exact .next (.instr (fun _ _ _ h1 => .snd h1.post) h)
  | opSyscall c z arg => exact h.execOpSyscall (arg := arg)
  | opBreak c z arg => exact h.execOpBreak (arg := arg)
  | opEret => exact .next (.instr (fun _ _ _ h1 => .iteSnd h1 h1) h)
  | opFence => exact .next h.compute
  | resultLanding => exact .next h.modCore
  | threadStart => exact .next h.thrStartWrite
  | threadKill => exact .next h.thrKillWrite
  | eventLinePost => exact .next h.postAll.faultEvent
  | eventPendClear => exact .next h.pendWrite
  | stall => exact h.execStall
  | mailboxWrite => exact .next h.mbWrite
  | mailboxRead => exact h.execMailboxRead
  | doorbell => exact .next h.bell
  | wdtEnable => exact .next h.wdtCtrlWrite
  | wdtKick => exact .next h.kick
  | wdtStage1Expiry => exact h.execWdtStage1Expiry
  | wdtStage2Expiry => exact h.execWdtStage2Expiry
  | admitWrite => exact .next h.admitWrite
  | nvmcCfgWrite => exact .next h.nvmcCmdWrite
  | nvmcCfgRead => exact .next h.nvmcCmdWrite
  | nvmcEvtWrite => exact .next h.nvmcCmdWrite
  | nvmcImgWrite => exact .next h.nvmcCmdWrite
  | nvmcImgErase => exact .next h.nvmcCmdWrite
  | nvmcBadop => exact .next (.ite h h.nvmcCmdWrite)
  | nvmcCmdDone => exact h.execNvmcCmdDone
  | nvmcPortRecord => exact h.execNvmcPortRecord
  | nvmcRecordDone => exact h.execNvmcRecordDone
  | segmentEraseDone => exact h.execSegmentEraseDone
  | imgLockSet => exact .next h.plainWrite
  | plRequest => exact .next h.plReqWrite
  | plChangeStart => exact h.execPlChangeStart
  | plDividerSwitch => exact h.execPlDividerSwitch
  | plChangeDone => exact h.execPlChangeDone
  | sleepNap => exact .next h.sleepWrite
  | sleepShelf => exact .next h.sleepWrite
  | sleepPlinth => exact .next h.sleepWrite
  | sleepEntryDone => exact h.execSleepEntryDone
  | sleepAbandon => exact h.execSleepAbandon
  | wakeSourceRise => exact .next h.wakeRise
  | sleepTimerExpiry => exact h.execSleepTimerExpiry
  | napResume => exact h.execNapResume
  | xoEnable => exact .next h.clkWrite
  | xoStable => exact .next (.ite h.setFlag h)
  | pllEnable => exact .next h.clkWrite
  | pllLock => exact .next (.ite h.setFlag h)
  | clockSourceSwitch => exact .next h.clkWrite
  | supplySagHalt => exact .next h.sag
  | vbakSwitchover => exact .next h.setFlag
  | powerOnReset => exact .next h.setFlag.resetOrWake
  | pinReset => exact .next h.resetOrWake
  | softwareReset => exact .next h.rstWrite
  | resetRelease => exact h.execResetRelease
  | bootRomSequence => exact h.execBootRomSequence
  | coreRelease => exact .next h.coreStart
  | coreReset => exact .next (.ite h.coreStop h)
  | dmaStart => exact .next h.dmaCtrlWrite
  | dmaDone => exact .next (.ite h.dmaCopy.setFlag.setFlag h)
  | dmaStopError => exact h.execDmaStopError
  | tempConversion => exact h.execTempConversion
  | plinthPowerUp => exact h.execPlinthPowerUp
  | rtcTick => exact .next (.ite h.rtcTick h)
  | rtcSetCommit => exact .next h.rtcSetWrite
  | hourShiftForward => exact .next h.rtcCmdWrite
  | hourShiftBack => exact .next h.rtcCmdWrite
  | xoLfStop => exact .next (.ite h.setFlag.plinthEvt.trimVoid h)
  | xoLfRestart => exact .next (.ite h.setFlag h)
  | rtcAlarmCommit => exact .next h.rtcAlmWrite
  | trimWindowClose => exact .next h.trimClose
  | trimWindowVoid => exact .next h.trimVoid
  | mainsEdge => exact h.execMainsEdge
  | mainsLoss => exact h.execMainsLoss
  | plinthMainsWrite => exact .next h.mainsWrite
  | tamperEdge => exact h.execTamperEdge
  | trickleWrite => exact .next h.trickleWrite
  | timerCompareFire => exact h.execTimerCompareFire
  | timerCntCommit => exact .next h.tmrCntWrite
  | timerCmpCommit => exact .next h.tmrCmpWrite
  | timerRun => exact .next h.tmrCtrlWrite
  | timerStop => exact .next h.tmrCtrlWrite
  | timerCapture => exact h.execTimerCapture
  | timerCapRead => exact h.execTimerCapRead
  | spiStatus => exact h.execSpiStatus
  | spiWrite => exact h.execSpiWrite
  | spiRead => exact h.execSpiRead
  | spiBadop => exact .next (.spi (fun _ h1 => h1.spiBad.drive) h)
  | hostifInRelease => exact .next h.hostifStatusWrite
  | hrdyNotch => exact .next (.ite h.modSys h)
  | hrdyNotchEnd => exact .next h.modSys
  | hostifQueueWrite => exact .next h.oqWrite
  | hostifEnable => exact .next h.hostifCtrlWrite
  | hostifDisable => exact .next h.hostifCtrlWrite
  | uartFrame => exact .next (.ite h.uartWhole h)
  | uartGapTimeout => exact .next h.uartDiscard
  | uartDataWrite => exact .next h.uartDataWrite
  | uartDataRead => exact h.execUartDataRead
  | channelReset => exact h.execChannelReset
  | sysHello => exact .next (.adsinReq (fun _ h1 => h1.sysHello) h)
  | sysPing => exact .next (.adsinReq (fun _ h1 => h1) h)
  | sysInfo => exact .next (.adsinReq (fun _ h1 => h1.sysInfo) h)
  | sysEvtMask => exact .next (.adsinReq (fun _ h1 => h1.sysEvtMask) h)
  | sysReset => exact .next (.adsinReq (fun _ h1 => h1.sysReset) h)
  | sysStats => exact .next (.adsinReq (fun _ h1 => h1.sysStats) h)
  | pwrPlSet => exact .next (.adsinReq (fun _ h1 => h1.pwrPlSet) h)
  | pwrPlGet => exact .next (.adsinReq (fun _ h1 => h1.pwrPlGet) h)
  | pwrSleep => exact .next (.adsinReq (fun _ h1 => h1.pwrSleep) h)
  | pwrMains => exact .next (.adsinReq (fun _ h1 => h1.pwrMains) h)
  | timeGet => exact .next (.adsinReq (fun _ h1 => h1.timeGet) h)
  | timeSet => exact .next (.adsinReq (fun _ h1 => .snd h1.fwWrite) h)
  | timeShift => exact .next (.adsinReq (fun _ h1 => h1.timeShift) h)
  | timeTrim => exact .next (.adsinReq (fun _ h1 => h1.timeTrim) h)
  | timeAlarm => exact .next (.adsinReq (fun _ h1 => h1.timeAlarm) h)
  | radioFeCfg => exact .next (.adsinReq (fun _ h1 => h1.radioFeCfg) h)
  | radioFeEn => exact .next (.adsinReq (fun _ h1 => h1.radioFeEn) h)
  | radioCal => exact .next (.adsinReq (fun _ h1 => h1.radioCal) h)
  | radioRoute => exact .next (.adsinReq (fun _ h1 => h1.radioRoute) h)
  | radioSend => exact .next (.adsinReq (fun _ h1 => h1.radioSend) h)
  | radioLaneStats => exact .next (.adsinReq (fun _ h1 => h1.radioLaneStats) h)
  | radioRecord => exact .next (.adsinReq (fun _ h1 => h1.radioRecord) h)
  | radioRecRead => exact .next (.adsinReq (fun _ h1 => h1.radioRecRead) h)
  | courseCfg => exact .next (.adsinReq (fun _ h1 => h1.courseCfgReq) h)
  | courseStart => exact .next (.adsinReq (fun _ h1 => h1.courseStartReq) h)
  | courseStop => exact .next (.adsinReq (fun _ h1 => h1.courseStopReq) h)
  | courseLanes => exact .next (.adsinReq (fun _ h1 => h1.courseLanes) h)
  | courseHoplist => exact .next (.adsinReq (fun _ h1 => h1.courseHoplist) h)
  | courseDuty => exact .next (.adsinReq (fun _ h1 => h1.courseDuty) h)
  | ashlarTenant => exact .next (.adsinReq (fun _ h1 => h1.ashlarTenant) h)
  | ashlarEpoch => exact .next (.adsinReq (fun _ h1 => h1.ashlarEpoch) h)
  | ashlarEntry => exact .next (.adsinReq (fun _ h1 => h1.ashlarEntryReq) h)
  | ashlarRebuild => exact .next (.adsinReq (fun _ h1 => .snd h1.fwWrite) h)
  | ashlarCounters => exact .next (.adsinReq (fun _ h1 => h1.ashlarCounters) h)
  | keyImport => exact .next (.adsinReq (fun _ h1 => h1.keysAsk) h)
  | keyDerive => exact .next (.adsinReq (fun _ h1 => h1.keyDerive) h)
  | keyGenerate => exact .next (.adsinReq (fun _ h1 => h1.keyGenerate) h)
  | keyDestroy => exact .next (.adsinReq (fun _ h1 => h1.keyDestroy) h)
  | keyTransfer => exact .next (.adsinReq (fun _ h1 => h1.keyTransfer) h)
  | keyDrop => exact .next (.adsinReq (fun _ h1 => h1.keyDrop) h)
  | keyAttr => exact .next (.adsinReq (fun _ h1 => h1.keyAttr) h)
  | keyIdpub => exact .next (.adsinReq (fun _ h1 => h1.keyIdpub) h)
  | keyLcNonce => exact .next (.adsinReq (fun _ h1 => h1.keysAsk) h)
  | keyLcChange => exact .next (.adsinReq (fun _ h1 => h1.keyLcChange) h)
  | keyCipher => exact .next (.adsinReq (fun _ h1 => h1.keyCipher) h)
  | accessCfg => exact .next (.adsinReq (fun _ h1 => h1.accessCfg) h)
  | accessTablePut => exact .next (.adsinReq (fun _ h1 => h1.accessTablePut) h)
  | accessTableLoad => exact .next (.adsinReq (fun _ h1 => h1.accessTableLoad) h)
  | accessStatus => exact .next (.adsinReq (fun _ h1 => h1.accessStatusReq) h)
  | accessTune => exact .next (.adsinReq (fun _ h1 => h1.accessTune) h)
  | accessPlumbCal => exact .next (.adsinReq (fun _ h1 => h1.accessPlumbCal) h)
  | fabricCfg => exact .next (.adsinReq (fun _ h1 => h1.fabricCfg) h)
  | fabricStart => exact .next (.adsinReq (fun _ h1 => h1.fabricStart) h)
  | fabricStop => exact .next (.adsinReq (fun _ h1 => h1) h)
  | fabricStatus => exact .next (.adsinReq (fun _ h1 => h1.fabricStatus) h)
  | fabricNeighbours => exact .next (.adsinReq (fun _ h1 => h1.fabricNeighbours) h)
  | fabricSend => exact .next (.adsinReq (fun _ h1 => h1.fabricSend) h)
  | fabricRoutes => exact .next (.adsinReq (fun _ h1 => h1.fabricRoutes) h)
  | assayRun => exact .next (.adsinReq (fun _ h1 => h1.assayRun) h)
  | assaySchedule => exact .next (.adsinReq (fun _ h1 => h1.assaySchedule) h)
  | assayResults => exact .next (.adsinReq (fun _ h1 => h1.assayResults) h)
  | updateBegin => exact .next (.adsinReq (fun _ h1 => h1.updateBegin) h)
  | updateChunk => exact .next (.adsinReq (fun _ h1 => h1.updateChunk) h)
  | updateVerify => exact .next (.adsinReq (fun _ h1 => h1.updateVerify) h)
  | updateActivate => exact .next (.adsinReq (fun _ h1 => h1.updateActivate) h)
  | updateState => exact .next (.adsinReq (fun _ h1 => h1.updateState) h)
  | updateAbort => exact .next (.adsinReq (fun _ h1 => h1.updateAbort) h)
  | logRead => exact .next (.adsinReq (fun _ h1 => h1.logRead) h)
  | logWrite => exact .next (.adsinReq (fun _ h1 => h1.logWrite) h)
  | fabricHelloSend => exact h.execFabricHelloSend
  | fabricHelloReceive => exact h.execFabricHelloReceive
  | neighbourRemove => exact h.execNeighbourRemove
  | joinReqSend => exact h.execJoinReqSend
  | joinReqRelay => exact h.execJoinReqRelay
  | joinRspReceive => exact h.execJoinRspReceive
  | joinTimeout => exact h.execJoinTimeout
  | routeAdvSend => exact h.execRouteAdvSend
  | routeAdvReceive => exact h.execRouteAdvReceive
  | routeExpiry => exact .next h.modFabric
  | dataForward => exact h.execDataForward
  | parentLost => exact h.execParentLost
  | timeOffsetUpdate => exact h.execTimeOffsetUpdate
  | sliceLane => exact .next h.assayCmdWrite
  | sliceAes => exact .next h.assayCmdWrite
  | sliceLf => exact .next h.assayCmdWrite
  | sliceAdcRef => exact .next h.assayCmdWrite
  | sliceIqLoop => exact .next h.assayCmdWrite
  | sliceSramMarch => exact .next h.assayCmdWrite
  | sliceLaneModes => exact .next h.assayCmdWrite
  | sliceTxLoop => exact .next h.assayCmdWrite
  | slicePkeKat => exact .next h.assayCmdWrite
  | sliceMramScan => exact .next h.assayCmdWrite
  | assayRequestCheck => exact h.execAssayRequestCheck
  | sliceStart => exact h.execSliceStart
  | supplyCheckEnd => exact h.execSupplyCheckEnd
  | sliceReturn => exact h.execSliceReturn
  | sliceOverrun => exact h.execSliceOverrun
  | requestExpired => exact h.execRequestExpired
  | assayDisable => exact .next h.assayCtrlWrite
  | assayScheduleTick => exact h.execAssayScheduleTick
  | handoverStandbyReady => exact h.execHandoverStandbyReady
  | handoverReadyTimeout => exact h.execHandoverReadyTimeout
  | handoverCutoverStart => exact h.execHandoverCutoverStart
  | handoverAccept => exact h.execHandoverAccept
  | handoverDecision => exact h.execHandoverDecision
  | handoverTakeover ok => exact h.execHandoverTakeover (x := ok)
  | recordMigration => exact h.execRecordMigration
  | trowelStatus => exact h.execTrowelStatus
  | trowelAddr => exact .next (.twCmd (fun _ h1 => .ite h1.twFault h1.modDebug) h)
  | trowelRd16 => exact h.execTrowelRd16
  | trowelWr16 => exact h.execTrowelWr16
  | trowelHalt => exact .next (.twCore (fun _ _ h1 => .ite h1 (.ite h1.modThr h1.haltThread)) h)
  | trowelResume => exact h.execTrowelResume
  | trowelStep => exact .next (.twHalted (fun _ _ h1 => .ite h1.twFault (.ite h1 h1.modThr)) h)
  | trowelRsel => exact .next (.twCore (fun _ _ h1 => h1.modThr) h)
  | trowelRrd => exact h.execTrowelRrd
  | trowelRwr => exact h.execTrowelRwr
  | trowelBkpt => exact h.execTrowelBkpt
  | trowelBkctl => exact .next (.twCore (fun _ _ h1 => .ite h1.twFault h1.modCore) h)
  | trowelReset => exact .next (.twCmd (fun _ h1 => h1.deviceReset) h)
  | trowelScan => exact h.execTrowelScan
  | trowelBadcmd => exact .next (.twCmd (fun _ h1 => h1.twFault) h)
  | trowelRequestError => exact .next h
  | trowelLineReset => exact .next (.ite h.tapClocks h)
  | threadHaltTakesEffect => exact .next (.ite h.haltThread h)
  | breakpointHit => exact h.execBreakpointHit
  | jtagExtest => exact .next h.scanPass
  | jtagSamplePreload => exact .next h.scanPass
  | jtagBypass => exact .next (.ite h.irScan.see h)
  | gpioEdge => exact h.execGpioEdge
  | ppsInEdge => exact h.execPpsInEdge
  | uartOctetReceived => exact h.execUartOctetReceived
  | uartOctetSent => exact .next (.ite h.modUart.uartBaud h)
  | vioLoss => exact .next h.modSys.modUart
  | vioReturn => exact .next h.modSys
  | plinthSupplyLoss => exact h.execPlinthSupplyLoss
  | plinthFeedVmain => exact .next h.setFlag

/-- The turn of a core. -/
theorem Keeps.coreTurn (h : Keeps s t) {c} : Keeps s (t.coreTurn c) := by
  unfold State.coreTurn
  split
  · exact h
  · exact h.noInstr
  next i _ =>
    obtain ⟨u, e, k⟩ := h.exec (c := i)
    rw [e]
    exact k

/-- The step on an empty queue. -/
theorem Keeps.idleStep (h : Keeps s t) : Keeps s t.idleStep := .forEach (fun _ _ h => h.coreTurn) h.idle

/-- A step, of a command or idle, answers a next state, and keeps the canonical form. -/
theorem step_keeps (s : State) : ∃ t, step s = .next t ∧ (Canonical s → Canonical t) := by
  unfold step
  split
  · exact ⟨_, rfl, (Keeps.refl s).idleStep.canon⟩
  next c rest _ =>
    obtain ⟨t, e, k⟩ := (Keeps.refl { s with pending := rest }).exec (c := c)
    exact ⟨t, e, k.canon⟩

end

/-- Settles O2: every command completes in every state. -/
theorem everyCommandCompletes : Obligations.EveryCommandCompletes := by
  unfold Obligations.EveryCommandCompletes
  intro c s
  obtain ⟨t, e, k⟩ := (Keeps.refl s).exec (c := c)
  exact ⟨t, e, k.queue⟩

/-- Settles O3: every operation of the model keeps the canonical form, and a step is made of them. -/
theorem stepKeepsCanonicalForm : Obligations.StepKeepsCanonicalForm := by
  unfold Obligations.StepKeepsCanonicalForm
  intro s t wf h
  obtain ⟨u, e, keeps⟩ := step_keeps s
  rw [e] at h
  cases h
  exact keeps wf

end Sys2Proof.Machine
end

section
/-! SUPPORT. Rules about the accessors that several statements use: two changes of one part in a row are one change. -/
namespace Sys2Proof.Machine

-- One proof after the other, as in the first section: the memory of the whole text is bounded.
set_option Elab.async false

variable (s : State)

/-- Two changes of a front end in a row. -/
theorem State.modRfe_modRfe (b : Band) (f g : Rfe → Rfe) : (s.modRfe b f).modRfe b g = s.modRfe b (fun r => g (f r)) := by
  cases b <;> rfl

/-- Two changes of a thread in a row. -/
theorem State.modThr_modThr (c : Fin 6) (t : Fin 4) (f g : Thread → Thread) :
    (s.modThr c t f).modThr c t g = s.modThr c t (fun r => g (f r)) := by
  simp [State.modThr, State.modCore]

/-- An event register's bit with its line leaves every register but that one and the pending words of the line. -/
theorem State.reg_raiseEvt_other (f : Fld) (l : Nat) {a : Nat} (h : a ≠ f.reg) (h0 : a ≠ A.EVU_PEND 0 (l / 16))
    (h1 : a ≠ A.EVU_PEND 1 (l / 16)) : (s.raiseEvt f l).reg a = s.reg a := by
  unfold State.raiseEvt
  rw [State.reg_raise _ l a h0 h1, State.reg_setFlag_other _ _ h]

/-- A one-bit field is that bit of its register. -/
theorem State.flag_bit (a i : Nat) : s.flag ⟨a, i, i⟩ = (s.reg a).getLsbD i := by
  have e : s.fld ⟨a, i, i⟩ = (s.reg a).toNat / 2 ^ i % 2 := by
    simp [State.fld, Fld.of, bits]
  unfold State.flag
  rw [e, ← BitVec.testBit_toNat, Nat.testBit_eq_decide_div_mod_eq]
  rcases Nat.mod_two_eq_zero_or_one ((s.reg a).toNat / 2 ^ i) with h | h <;> simp [h]

end Sys2Proof.Machine
end

section
/-! SUPPORT. A register write field by field: what becomes of each bit. -/
namespace Sys2Proof.Machine

-- One proof after the other, as in the first section: the memory of the whole text is bounded.
set_option Elab.async false

theorem testBit_bits (v hi lo i : Nat) (h : lo ≤ hi) : (bits v hi lo).testBit i = (decide (i ≤ hi - lo) && v.testBit (lo + i)) := by
  unfold bits
  rw [Nat.testBit_mod_two_pow, Nat.testBit_div_two_pow, Nat.add_comm i lo]
  congr 1
  exact decide_eq_decide.2 (by omega)

theorem testBit_putBits (v hi lo n i : Nat) (h : lo ≤ hi) :
    (putBits v hi lo n).testBit i = if lo ≤ i ∧ i ≤ hi then n.testBit (i - lo) else v.testBit i := by
  have hb : n % 2 ^ (hi + 1 - lo) < 2 ^ (hi + 1 - lo) := Nat.mod_lt _ (Nat.two_pow_pos _)
  have hc : v % 2 ^ lo < 2 ^ lo := Nat.mod_lt _ (Nat.two_pow_pos _)
  have hp : 2 ^ (hi + 1) = 2 ^ lo * 2 ^ (hi + 1 - lo) := by rw [← Nat.pow_add]; congr 1; omega
  have e : putBits v hi lo n =
      2 ^ lo * (2 ^ (hi + 1 - lo) * (v / 2 ^ (hi + 1)) + n % 2 ^ (hi + 1 - lo)) + v % 2 ^ lo := by
    rw [putBits_eq v hi lo n (by omega), Nat.mul_add, ← Nat.mul_assoc, ← hp]
    rw [Nat.mul_comm (v / 2 ^ (hi + 1)), Nat.mul_comm (n % 2 ^ (hi + 1 - lo))]
  rw [e, Nat.testBit_two_pow_mul_add _ hc, Nat.testBit_two_pow_mul_add _ hb, Nat.testBit_mod_two_pow, Nat.testBit_mod_two_pow,
    Nat.testBit_div_two_pow]
  by_cases h1 : i < lo
  · simp [h1, Nat.not_le.2 h1]
  · by_cases h2 : i ≤ hi
    · simp [h1, h2, Nat.not_lt.1 h1, show i - lo < hi + 1 - lo by omega]
    · simp [h1, h2, show ¬ i - lo < hi + 1 - lo by omega, show i - lo - (hi + 1 - lo) + (hi + 1) = i by omega]

/-- Bit `i` of a field after a write of `w` over `v`, by the field's access code. -/
def FieldDesc.bitAfter (d : FieldDesc) (v w : Half) (i : Nat) : Bool :=
  match d.acc with
  | .rw => if d.admits (bits w.toNat d.hi d.lo) then w.getLsbD i else v.getLsbD i
  | .w1c => v.getLsbD i && !w.getLsbD i
  | .w1s => v.getLsbD i || w.getLsbD i
  | .ro | .wo | .rcl => v.getLsbD i

theorem testBit_two_pow_sub_one_sub (k n i : Nat) (h : n < 2 ^ k) :
    (2 ^ k - 1 - n).testBit i = (decide (i < k) && !n.testBit i) := by
  rw [Nat.sub_sub, Nat.add_comm 1 n, Nat.testBit_two_pow_sub_succ h]

/-- What a write does to one field: its bits by its access code, the others as they were. -/
theorem writeField_getLsbD (w v : Half) (d : FieldDesc) (i : Nat) (h : d.lo ≤ d.hi) (h16 : d.hi < 16) :
    (writeField w v d).getLsbD i = if d.lo ≤ i ∧ i ≤ d.hi then d.bitAfter v w i else v.getLsbD i := by
  have put : ∀ n, (half (putBits v.toNat d.hi d.lo n)).getLsbD i =
      if d.lo ≤ i ∧ i ≤ d.hi then n.testBit (i - d.lo) else v.getLsbD i := by
    intro n
    unfold half
    rw [BitVec.getLsbD_ofNat, testBit_putBits _ _ _ _ _ h]
    by_cases hi : d.lo ≤ i ∧ i ≤ d.hi
    · simp [hi, show i < 16 by omega]
    · rw [if_neg hi, if_neg hi]
      by_cases h' : i < 16
      · simp [h', BitVec.testBit_toNat]
      · simp [h', BitVec.getLsbD_of_ge v i (by omega)]
  have inside : ∀ x : Half, d.lo ≤ i ∧ i ≤ d.hi → (bits x.toNat d.hi d.lo).testBit (i - d.lo) = x.getLsbD i := by
    intro x hi
    rw [testBit_bits _ _ _ _ h, BitVec.testBit_toNat, show d.lo + (i - d.lo) = i by omega]
    simp [show i - d.lo ≤ d.hi - d.lo by omega]
  have cut : bits w.toNat d.hi d.lo < 2 ^ (d.hi + 1 - d.lo) := Nat.mod_lt _ (Nat.two_pow_pos _)
  by_cases hi : d.lo ≤ i ∧ i ≤ d.hi
  · unfold writeField FieldDesc.bitAfter
    cases d.acc
    case rw =>
      dsimp only
      split <;> simp [put, hi, inside]
    case w1c =>
      simp [put, hi, inside, testBit_two_pow_sub_one_sub _ _ _ cut, Nat.testBit_and, show i - d.lo < d.hi + 1 - d.lo by omega]
    case w1s => simp [put, hi, inside, Nat.testBit_or]
    all_goals simp
  · unfold writeField
    rw [if_neg hi]
    cases d.acc
    case rw =>
      dsimp only
      split <;> simp [put, hi]
    all_goals simp [put, hi]

/-- Fields that lie in a register of 16 bits, no two of them over one bit. -/
def FieldsApart (fs : List FieldDesc) : Prop :=
  fs.Pairwise (fun d e => d.hi < e.lo ∨ e.hi < d.lo) ∧ ∀ d ∈ fs, d.lo ≤ d.hi ∧ d.hi < 16

theorem writeFields_cons (d : FieldDesc) (fs : List FieldDesc) (v w : Half) :
    writeFields (d :: fs) v w = writeFields fs (writeField w v d) w := rfl

/-- A bit of no field stays over a write. -/
theorem writeFields_getLsbD_outside (fs : List FieldDesc) (w v : Half) (i : Nat) (apart : FieldsApart fs)
    (h : ∀ e ∈ fs, i < e.lo ∨ e.hi < i) : (writeFields fs v w).getLsbD i = v.getLsbD i := by
  induction fs generalizing v with
  | nil => rfl
  | cons d fs ih =>
    obtain ⟨pair, wf⟩ := apart
    have hd := h d (by simp)
    obtain ⟨hl, hh⟩ := wf d (by simp)
    rw [writeFields_cons, ih _ ⟨(List.pairwise_cons.1 pair).2, fun e he => wf e (by simp [he])⟩ (fun e he => h e (by simp [he])),
      writeField_getLsbD w v d i hl hh, if_neg (by omega)]

/-- A bit of a field after a write is the one that the field's access code gives. -/
theorem writeFields_getLsbD_inside (fs : List FieldDesc) (w v : Half) (d : FieldDesc) (i : Nat) (apart : FieldsApart fs)
    (hd : d ∈ fs) (hlo : d.lo ≤ i) (hhi : i ≤ d.hi) : (writeFields fs v w).getLsbD i = d.bitAfter v w i := by
  induction fs generalizing v with
  | nil => simp at hd
  | cons e fs ih =>
    obtain ⟨pair, wf⟩ := apart
    obtain ⟨he, pair⟩ := List.pairwise_cons.1 pair
    obtain ⟨hl, hh⟩ := wf e (by simp)
    have rest : FieldsApart fs := ⟨pair, fun x hx => wf x (by simp [hx])⟩
    have step := writeField_getLsbD w v e i hl hh
    rw [writeFields_cons]
    rcases List.mem_cons.1 hd with rfl | hd
    · rw [writeFields_getLsbD_outside fs w _ i rest (fun x hx => by have := he x hx; omega), step, if_pos ⟨hlo, hhi⟩]
    · have far := he d hd
      rw [if_neg (by omega)] at step
      rw [ih _ rest hd]
      unfold FieldDesc.bitAfter
      rw [step]

/-- Whether fields lie apart, as a test. -/
def fieldsApart (fs : List FieldDesc) : Bool :=
  decide (fs.Pairwise (fun d e => d.hi < e.lo ∨ e.hi < d.lo)) && fs.all (fun d => d.lo ≤ d.hi && d.hi < 16)

theorem fieldsApart_iff (fs : List FieldDesc) : fieldsApart fs = true ↔ FieldsApart fs := by
  simp [fieldsApart, FieldsApart]

theorem descIn_mem {off : Nat} {l : List RegDesc} {d : RegDesc} {n : Nat} (h : descIn off l = some (d, n)) : d ∈ l := by
  induction l with
  | nil => simp [descIn] at h
  | cons e l ih =>
    unfold descIn at h
    split at h
    · simp_all
    · simp [ih h]

/-- The fields of every register of the table lie apart. -/
theorem regTable_apart : (regsCore.all (fun d => fieldsApart d.fields)) = true ∧ (regsLane.all (fun d => fieldsApart d.fields)) = true ∧
    (blocks.all (fun b => b.2.all (fun d => fieldsApart d.fields))) = true := by
  refine ⟨?_, ?_, ?_⟩ <;> decide +kernel

theorem fieldsAt_apart (a : Nat) : FieldsApart (fieldsAt a) := by
  obtain ⟨core, lane, rest⟩ := regTable_apart
  have all : ∀ (l : List RegDesc) off d n, l.all (fun d => fieldsApart d.fields) = true → descIn off l = some (d, n) →
      FieldsApart d.fields := by
    intro l off d n hl h
    exact (fieldsApart_iff _).1 (List.all_eq_true.1 hl d (descIn_mem h))
  unfold fieldsAt
  split
  next d n h =>
    unfold regDesc at h
    split at h
    · exact all _ _ _ _ core h
    · split at h
      · exact all _ _ _ _ lane h
      · split at h
        next l hl =>
          refine all _ _ _ _ (List.all_eq_true.1 rest (a / 0x1000 * 0x1000, l) ?_) h
          obtain ⟨l₁, l₂, e, -⟩ := List.lookup_eq_some_iff.1 hl
          simp [e]
        next => cases h
  next => exact ⟨List.Pairwise.nil, by simp⟩

/-- A bit of a field of a register after a write of the register by its access codes. -/
theorem plainWrite_getLsbD (s : State) (a : Nat) (w : Half) (d : FieldDesc) (i : Nat) (hd : d ∈ fieldsAt a) (hlo : d.lo ≤ i)
    (hhi : i ≤ d.hi) : ((s.plainWrite a w).reg a).getLsbD i = d.bitAfter (s.reg a) w i := by
  rw [State.reg_plainWrite, if_pos rfl, writeFields_getLsbD_inside _ _ _ d i (fieldsAt_apart a) hd hlo hhi]

/-- The field of a register after a write of the register, bit by bit. -/
theorem plainWrite_field_testBit (s : State) (a : Nat) (w : Half) (d : FieldDesc) (i : Nat) (hd : d ∈ fieldsAt a) (hi : i ≤ d.hi - d.lo) :
    (bits ((s.plainWrite a w).reg a).toNat d.hi d.lo).testBit i = d.bitAfter (s.reg a) w (d.lo + i) := by
  obtain ⟨hl, hh⟩ := (fieldsAt_apart a).2 d hd
  rw [testBit_bits _ _ _ _ hl, BitVec.testBit_toNat, plainWrite_getLsbD s a w d _ hd (by omega) (by omega)]
  simp [hi]

theorem bits_eq_of_testBit (v hi lo n : Nat) (h : lo ≤ hi) (hn : ∃ x, n = bits x hi lo)
    (e : ∀ i, i ≤ hi - lo → (bits v hi lo).testBit i = n.testBit i) : bits v hi lo = n := by
  obtain ⟨x, rfl⟩ := hn
  apply Nat.eq_of_testBit_eq
  intro i
  by_cases hi : i ≤ hi - lo
  · exact e i hi
  · rw [testBit_bits _ _ _ _ h, testBit_bits _ _ _ _ h]
    simp [hi]

/-- A one-bit field with no reserved encoding takes the bit written. -/
theorem State.flag_plainWrite_rw (s : State) (a : Nat) (w : Half) (i : Nat) (hd : ⟨i, i, .rw, []⟩ ∈ fieldsAt a) :
    (s.plainWrite a w).flag ⟨a, i, i⟩ = w.getLsbD i := by
  rw [State.flag_bit, plainWrite_getLsbD s a w _ i hd (Nat.le_refl _) (Nat.le_refl _)]
  simp [FieldDesc.bitAfter, FieldDesc.admits]

/-- Settles O7: the table's fields lie apart, so a write is what each field's access code makes of its bits. -/
theorem fieldWrites : Obligations.FieldWrites := by
  unfold Obligations.FieldWrites
  refine ⟨fun a => fieldsAt_apart a, ?_⟩
  rintro s a w d n o v hd rfl rfl rfl
  obtain ⟨hl, hh⟩ := (fieldsAt_apart a).2 d hd
  have old : ∀ x : Half, ∀ i, i ≤ d.hi - d.lo → (bits x.toNat d.hi d.lo).testBit i = x.getLsbD (d.lo + i) := by
    intro x i hi
    rw [testBit_bits _ _ _ _ hl, BitVec.testBit_toNat]
    simp [hi]
  have new := fun i hi => plainWrite_field_testBit s a w d i hd hi
  refine ⟨?_, ?_, ?_, ?_, ?_, ?_, ?_⟩
  · intro acc admits
    refine bits_eq_of_testBit _ _ _ _ hl ⟨_, rfl⟩ fun i hi => ?_
    rw [new i hi, old w i hi]
    simp [FieldDesc.bitAfter, acc, admits]
  · intro acc admits
    refine bits_eq_of_testBit _ _ _ _ hl ⟨_, rfl⟩ fun i hi => ?_
    rw [new i hi, old _ i hi]
    simp [FieldDesc.bitAfter, acc, admits]
  · intro acc i hi
    rw [new i hi, old _ i hi, old _ i hi]
    simp [FieldDesc.bitAfter, acc]
  · intro acc i hi
    rw [new i hi, old _ i hi, old _ i hi]
    simp [FieldDesc.bitAfter, acc]
  · intro acc
    refine bits_eq_of_testBit _ _ _ _ hl ⟨_, rfl⟩ fun i hi => ?_
    rw [new i hi, old _ i hi]
    rcases acc with acc | acc | acc <;> simp [FieldDesc.bitAfter, acc]
  · intro i hi
    rw [State.reg_plainWrite, if_pos rfl, writeFields_getLsbD_outside _ _ _ i (fieldsAt_apart a) hi]
  · intro b hb
    rw [State.reg_plainWrite, if_neg (by simpa using hb)]

end Sys2Proof.Machine
end

section
/-! SUPPORT. The statements about the front ends and the recorder. -/
namespace Sys2Proof.Machine

-- One proof after the other, as in the first section: the memory of the whole text is bounded.
set_option Elab.async false

/-- The registers of TX_CONFIG_WRITE lie apart from the status register of the band. -/
theorem txConfigReg_ne_status (b : Band) (r : Fin 34) : (F.RFE_STATUS_TX_ACTIVE b).reg ≠ txConfigReg b r := by
  revert r
  cases b <;> decide

/-- Settles O10: the enable sequence, then EN = 0 and the held writes. -/
theorem frontEndEnableAndDisable : Obligations.FrontEndEnableAndDisable := by
  unfold Obligations.FrontEndEnableAndDisable
  refine ⟨?_, ?_⟩
  · intro s b
    refine ⟨?_, ?_, ?_, ?_, ?_, ?_, ?_⟩
    · rintro w x phase disablePend rfl
      simp [execFeEnable, State.rfeCtrlWrite, State.feEnable, Rfe.enabled, phase, disablePend]
    · rfl
    · rfl
    · intro phase loLocked
      simp [execLoLock, phase, loLocked]
    · intro phase loLocked
      simp [execFeCorrectionsApply, State.applyCorrections, us, phase, loLocked, State.modRfe_modRfe]
    · intro phase loLocked
      refine ⟨_, rfl, ?_⟩
      simp [execFeReady, phase, loLocked]
    · intro phase
      refine ⟨_, rfl, ?_⟩
      simp [execLockFail, phase]
  · intro s b
    refine ⟨?_, ?_, ?_, ?_, ?_, ?_, ?_, ?_⟩
    · rintro w x rfl enabled
      simp [execFeDisable, State.rfeCtrlWrite, State.feDisable, enabled]
    · intro k t burst eot disablePend
      simp [execFeDisableTakesEffect, burst, eot, disablePend]
    · intro w
      rfl
    · intro w
      simp (disch := decide) [execXoTrimWrite, State.trimWrite, State.flag_plainWrite_other]
    · intro r w active
      simp [execTxConfigWrite, State.txConfigWrite, s.flag_plainWrite_other w _ (txConfigReg_ne_status b r), active]
    · intro r w active
      simp [execTxConfigWrite, State.txConfigWrite, s.flag_plainWrite_other w _ (txConfigReg_ne_status b r), active]
    · intro p k w enabled
      simp [execFemRegisterWrite, State.femWrite, enabled]
    · rintro p k w t enabled rfl
      simp [execFemRegisterWrite, State.femWrite, enabled]

/-- Settles O12: loss of lock, level windows and overloads, then the instants of a burst. -/
theorem lossGainAndBursts : Obligations.LossGainAndBursts := by
  unfold Obligations.LossGainAndBursts
  refine ⟨?_, ?_⟩
  · intro s b
    refine ⟨?_, ?_, ?_, ?_, ?_, ?_, ?_, ?_⟩
    · rintro x y loLocked rfl rfl
      refine ⟨_, rfl, ?_⟩
      simp [execLockLost, loLocked]
      rfl
    · intro lvl running muted cal gainMoved muteIn
      simp [execLevelWindow, State.levelExcluded, running, muted, cal, gainMoved, muteIn] <;> rfl
    · intro lvl running either
      simp [execLevelWindow, State.levelExcluded, running]
      split <;> simp_all
    · intro clips detects overloads idx
      simp [execOverload, detects, overloads, idx]
    · intro clips detects overloads idx
      simp [execOverload, detects, overloads, idx]
    · intro clips either
      have none : (s.detects b && s.overloads b clips) = false := by
        rcases either with muted | quiet | ⟨running, now⟩
        · simp [State.detects, show s.flag (F.RFE_STATUS_MUTE b) = true from muted]
        · simp [quiet]
        · simp [State.detects, running, now]
      simp only [exec_overload, execOverload]
      simp_all
    · intro t ovl ovlStepped
      simp [execGainStep, ovl, ovlStepped]
    · intro t ovl ovlStepped
      simp [execGainMarker, ovl, ovlStepped]
  · intro s b
    refine ⟨?_, ?_, ?_, ?_, ?_, ?_, ?_, ?_, ?_, ?_, ?_, ?_, ?_⟩
    · intro t bursting enabled firstStart
      simp [execBurstSequencingStart, bursting, enabled, firstStart]
    · intro p k burst eot ofNat femLevel
      simp [execFemTxEdge, State.femTicks, burst, eot, femLevel] at ofNat ⊢
      simp [ofNat]
      rfl
    · intro k burst phase
      simp [execDriverRampUp, burst, phase]
    · intro k t burst phase firstStart
      simp [execCarrierStart, burst, phase, firstStart]
    · intro k burst phase carriers
      simp [execBurstEnd, burst, phase, carriers]
    · intro k t burst phase eot
      simp [execDriverOff, burst, phase, eot]
    · rintro c x firstStop rfl
      simp [execCarrierEnd, State.carrierEnd, firstStop] <;> rfl
    · intro p d find
      simp [execFemRxEdge, find]
    · intro p k t find burst eot ofNat
      simp [execFemRxEdge, find, burst, eot, ofNat]
      rfl
    · intro k t burst phase eot disablePend
      simp [execBurstMuteEnd, burst, phase, eot, disablePend]
    · intro k t burst phase eot disablePend
      simp [execBurstMuteEnd, burst, phase, eot, disablePend]
    · intro k burst phase eot
      simp [State.driverAmp, burst, phase, eot]
      rfl
    · intro k e burst phase eot bound bound2
      simp [State.driverAmp, burst, phase, eot, bound]
      rfl

/-- Settles O11: the requests, the first pending calibration, and its end. -/
theorem calibrationsRunInOrder : Obligations.CalibrationsRunInOrder := by
  unfold Obligations.CalibrationsRunInOrder
  intro s b
  refine ⟨?_, ?_, ?_, ?_, ?_⟩
  · rfl
  · rfl
  · rfl
  · rintro k rfl calpend cal ready mutePlumb windowFor
    simp [execCalibrationStart]
    grind
  · rintro k m x cal rfl
    refine ⟨_, rfl, ?_⟩
    simp [execCalibrationEnd, cal]

/-- Of the recorder's configuration registers the sixth alone is the high word of the extension's base. -/
theorem recConfigReg_extBaseHi (r : Fin 7) : recConfigReg r = A.REC_EXT_BASE_HI ↔ r = 5 := by
  revert r
  decide

/-- Settles O14: REC_CMD, triggers, groups and configuration writes in each state of the recorder. -/
theorem recorderStates : Obligations.RecorderStates := by
  unfold Obligations.RecorderStates
  intro s
  refine ⟨?_, ?_, ?_, ?_, ?_, ?_, ?_, ?_, ?_, ?_, ?_, ?_, ?_, ?_, ?_⟩
  · rintro (state | state | state) recConfigOk <;>
      simp [execRecArm, State.recArm, state, recConfigOk, recIdle, recDone, recArmed, recTriggered, recArming] <;> rfl
  · intro either recConfigOk
    simp [execRecArm, State.recArm]
    grind
  · intro either
    simp [execRecArm, State.recArm, either]
  · intro state
    simp [execRecArmed, state]
  · intro state
    simp [execRecSwtrig, State.recTrigger, state]
  · intro state
    simp [execRecSwtrig, State.recTrigger, state]
  · intro either
    simp [execRecSwtrig, State.recTrigger]
    grind
  · intro either
    simp [execRecStop, State.recStop, either]
  · intro either
    simp [execRecStop, State.recStop]
    grind
  · intro state
    simp [execRecStop, State.recStop, state, recTriggered, recArming, recArmed]
  · rintro data g state ofNat rfl
    simp [execRecGroupComplete, State.recGroup, state, ofNat]
  · rintro data g i t u state bound rfl rfl rfl rfl
    simp [execRecGroupComplete, State.recGroup, state, bound]
  · intro data either
    simp [execRecGroupComplete, State.recGroup]
    grind
  · intro state bound
    refine ⟨_, rfl, ?_⟩
    simp [execRecDone, state, bound]
  · intro r w
    by_cases h : r = 5
    · subst h
      rfl
    · simp [execRecConfigWrite, State.recConfigWrite, recConfigReg_extBaseHi, h]

end Sys2Proof.Machine
end

section
/-! SUPPORT. The statements about the queue and about threads and event lines. -/
namespace Sys2Proof.Machine

-- One proof after the other, as in the first section: the memory of the whole text is bounded.
set_option Elab.async false

/-- Settles O1: a step on a queue, on an empty one, and the turn of a core by what stands at its PC. -/
theorem stepRunsFrontCommand : Obligations.StepRunsFrontCommand := by
  unfold Obligations.StepRunsFrontCommand
  refine ⟨?_, ?_, ?_, ?_, ?_, ?_⟩
  · intro s c rest pending
    simp [step, pending]
  · intro s pending
    simp [step, pending]
    rfl
  · intro s c cpuThread
    simp [State.coreTurn, State.turn, cpuThread]
  · rintro s c t a w i u cpuThread rfl either plynnel exec
    simp [State.coreTurn, State.turn]
    grind
  · rintro s c t a w cpuThread rfl either plynnel
    simp [State.coreTurn, State.turn]
    grind
  · rintro s c t a cpuThread rfl
    refine ⟨?_, ?_⟩
    · rintro ⟨placeSpan, bound⟩
      simp [State.coreTurn, State.turn]
      split <;> simp_all
    · intro h placeSpan placeSpan2
      simp [State.coreTurn, State.turn]
      grind

/-- Settles O36: start and kill by mask, lines and doorbells, STALL, mailboxes and the watchdog, clause by clause. -/
theorem threadsAndEvents : Obligations.ThreadsAndEvents := by
  unfold Obligations.ThreadsAndEvents
  intro s c
  refine ⟨?_, ?_, ?_, ?_, ?_, ?_, ?_, ?_, ?_, ?_, ?_, ?_, ?_, ?_, ?_, ?_, ?_, ?_⟩
  · intro mask
    simp [execThreadStart]
    rfl
  · intro t st lowestLive
    simp [State.startThread]
    grind
  · intro t either
    simp [State.startThread]
    grind
  · intro mask
    simp [execThreadKill]
    rfl
  · intro l
    rfl
  · intro w v
    rfl
  · intro t lowestLive stalled holdStall
    simp [execStall]
    split <;> simp_all
  · intro stalled
    simp [execStall]
    split <;> simp_all
  · intro k w mbWriter
    simp [execMailboxWrite, State.mbWrite, mbWriter]
  · intro k w mbWriter bound
    simp [execMailboxWrite, State.mbWrite]
    grind
  · intro k w mbWriter bound
    simp [execMailboxWrite, State.mbWrite]
    grind
  · intro k w l mbReader getElem
    simp [execMailboxRead, State.mbRead, mbReader, getElem]
  · intro k mbReader getElem
    simp [execMailboxRead, State.mbRead, mbReader, getElem]
  · intro mask
    simp [execDoorbell]
    rfl
  · intro en
    simp [execWdtEnable, State.wdtCtrlWrite, en]
  · intro en
    simp [execWdtEnable, State.wdtCtrlWrite, en]
  · intro w
    rfl
  · rintro u alive wdStage anyHalted rfl
    simp [execWdtStage1Expiry]
    split <;> simp_all <;> rfl

end Sys2Proof.Machine
end

section
/-! SUPPORT. The statements about COURSE. -/
namespace Sys2Proof.Machine

-- One proof after the other, as in the first section: the memory of the whole text is bounded.
set_option Elab.async false

/-- EN is a field of each DC_k_CTRL with no reserved encoding. -/
theorem dutyEn_mem (k : Fin 8) : ⟨15, 15, .rw, []⟩ ∈ fieldsAt (A.COURSE_DC_CTRL k) := by
  revert k
  decide

/-- Settles O17: CCA windows, transmit entries and their tests, TXEND and the duty accounts. -/
theorem courseTransmissions : Obligations.CourseTransmissions := by
  unfold Obligations.CourseTransmissions
  intro s
  refine ⟨?_, ?_, ?_, ?_, ?_, ?_, ?_, ?_, ?_, ?_, ?_⟩
  · intro e dbm t find running repeated
    simp [execCcaWindowEnd, find, running, repeated]
    rfl
  · intro e t u code txEntry running first repeated ofNat txTest
    simp [execTxEntryTest]
    split <;> simp_all
  · intro e t u c txEntry running first repeated ofNat txTest
    simp [execTxEntryTest]
    split <;> simp_all
  · intro e txEntry
    simp [execTxEntryTest, txEntry]
  · intro t e txReady
    simp [State.txTest, txReady]
  · intro t e txReady ofNat
    simp [State.txTest, txReady, ofNat]
  · intro a b l txend
    simp [execCourseTxendRead, State.txendRead, txend]
  · intro txend
    simp [execCourseTxendRead, State.txendRead, txend]
  · intro k en
    simp [execDutyBucketRoll, en]
    rfl
  · intro k w en
    simp [execDutyAccountEnable, State.dutyCtrlWrite, en]
  · rintro k w t en rfl
    have now : (s.plainWrite (A.COURSE_DC_CTRL k) (w ||| 0x8000#16)).flag (F.COURSE_DC_CTRL_EN k) = true := by
      rw [State.flag_plainWrite_rw s _ _ 15 (dutyEn_mem k)]
      simp
    simp [execDutyAccountEnable, State.dutyCtrlWrite, en, now]

end Sys2Proof.Machine
end

section
/-! SUPPORT. The statements about lanes, MACF and the Hod. -/
namespace Sys2Proof.Machine

-- One proof after the other, as in the first section: the memory of the whole text is bounded.
set_option Elab.async false

/-- The frame that a preamble begins in a lane whose mode has the parameters `k` (R75). -/
def State.preambleFrame (s : State) (n : Fin 64) (x : Preamble) (k : Mode) : Frame := {
  fid := s.radio.nextFid, lane := n, band := s.laneBand n, mode := s.laneMode n, ofs := s.laneOfs n
  knock := s.fld (F.LANE_CUR0_ROLE n) == 2
  fofs := x.fofs, dfe := k.dfe && s.effFld (F.LANE_CTRL_BYP_DFE n) == 0
  coded := false, fec := 0, dw := false, fcs32 := false, len := 0, octets := [], tsSfd := s.hft, sfdCt := s.course.ct
  gstepN := 0, eras := 0, erased := [], xcourse := false, macf := .undecided, buf := none, check := none, verdict := none
  pending := false, committed := false, handoff := none, placed := false, settled := false }

/-- The lane from a preamble on (R75, R79). -/
def State.preambleLane (s : State) (n : Fin 64) (x : Preamble) (f : Frame) : Lane :=
  let l := s.lane n
  { l with
    frame := some s.radio.nextFid, frozen := false, nco := -10 * s.laneOfs n - toSigned 16 x.fofs.toNat, sfdFrom := s.hft
    taps := if f.dfe then dfeReset else l.taps, adapts := if f.dfe then some s.hft else none, mu := s.fld (F.LANE_DFE_MU_TRAIN n) }

/-- A lane that goes to PREAMBLE with the frame `f`. -/
def State.atPreamble (s : State) (n : Fin 64) (x : Preamble) (f : Frame) : State :=
  ((s.modRadio (fun r => { r with frames := r.frames ++ [f], nextFid := s.radio.nextFid + 1 })).modLane n
    (fun _ => s.preambleLane n x f)).setLaneState n lanePreamble

/-- Read after write of a lane. -/
theorem State.lane_modLane (s : State) (n m : Nat) (f : Lane → Lane) :
    (s.modLane n f).lane m = if m = n then f (s.lane n) else s.lane m := sparseGet_sparseSet _ _ n _ m

theorem State.lane_atPreamble (s : State) (n : Fin 64) (x : Preamble) (f : Frame) : (s.atPreamble n x f).lane n = s.preambleLane n x f := by
  simp [State.atPreamble, State.lane_modLane]

theorem State.laneState_setLaneState (s : State) (n st : Nat) (h : st < 8) : (s.setLaneState n st).laneState n = st := by
  unfold State.setLaneState State.laneState
  rw [State.fld_setFld_same s _ _ rfl]
  exact Nat.mod_eq_of_lt h

/-- The taps' adaptation changes lanes alone. -/
theorem State.adaptTaps_fields (s : State) (n : Nat) (dfe : Bool) :
    (∀ y, (s.adaptTaps n dfe).fld y = s.fld y) ∧ (s.adaptTaps n dfe).hft = s.hft ∧
    (s.adaptTaps n dfe).radio.course = s.radio.course := by
  unfold State.adaptTaps
  split
  · exact ⟨fun _ => rfl, rfl, rfl⟩
  · exact ⟨fun _ => rfl, rfl, rfl⟩

/-- Settles O13: each state of a lane's reception and what leads out of it. -/
theorem laneReceptionStates : Obligations.LaneReceptionStates := by
  unfold Obligations.LaneReceptionStates
  intro s n
  refine ⟨?_, ?_, ?_, ?_, ?_, ?_, ?_, ?_, ?_, ?_, ?_⟩
  · rintro lvl d laneState rfl
    simp [execDgainAdjust, laneState]
  · intro x k lane laneState acf notch modeOf
    have engages : toneEngages x (s.laneMode n) = true ↔ 2 * x.ofs.natAbs ≤ 10 * k.filter ∧ 600 ≤ x.above ∧ 16 ≤ x.syms := by
      simp [toneEngages, modeOf, and_assoc]
    simp [execNotchEngage, lane, laneState, acf, notch, engages, laneSearch, laneIdle, laneOut, laneAssay]
  · intro x lane laneState acf notch
    simp [execNotchEngage, lane, laneState, acf, notch, laneSearch, laneIdle, laneOut, laneAssay]
  · intro x lane acf
    simp [execNotchEngage, lane, acf]
  · intro x k laneState modeOf muted bound bound2 bound3
    refine ⟨s.atPreamble n x (s.preambleFrame n x k), s.preambleFrame n x k, ?_, rfl, rfl, rfl, rfl, rfl, rfl, ?_, ?_, ?_, ?_, ?_, ?_, ?_, ?_⟩
    · simp only [exec_preambleDetect, execPreambleDetect, modeOf]
      rw [if_pos ⟨laneState, by simp [muted], bound, bound2, bound3⟩]
      rfl
    · rw [State.lane_atPreamble]; rfl
    · rw [State.lane_atPreamble]; rfl
    · rw [State.lane_atPreamble]; rfl
    · rw [State.lane_atPreamble]; rfl
    · intro dfe
      rw [State.lane_atPreamble]
      simp [State.preambleLane, dfe]
    · exact State.laneState_setLaneState _ n lanePreamble (by decide)
    · simp [SameMemory, State.atPreamble]
    · intro a ha
      exact State.reg_setFld_other _ _ (by simpa using ha)
  · intro syms corr laneState bound bound2
    simp [execPreambleLost, State.preambleEnd, laneState, bound, bound2]
  · rintro x laneState rfl
    simp [execSfdTimeout, State.preambleEnd, laneState]
  · rintro coded errs f x laneState frame bound either rfl
    have now : s.laneState n = lanePreamble ∧ errs ≤ (if s.laneMode n = 0x10 then 0 else s.fld (F.LANE_SYNC_SFD_ERR n)) ∧
        ((!coded) = true ∨ isSun (s.laneMode n) = true) := ⟨laneState, bound, by simpa using either⟩
    simp only [exec_sfdFound, execSfdFound]
    rw [if_pos now, frame]
    simp [State.adaptTaps_fields]
  · rintro phr octets f x dw laneState frame phrOk rfl rfl
    simp [execPhrValid, laneState, frame, phrOk]
  · intro phr f laneState frame phrOk
    simp [execPhrRejected, laneState, frame, phrOk]
  · intro frozen
    simp [execDfeAdaptResume, frozen]

/-- The tests of R109 read no time. -/
theorem State.macfTest_passTo (s : State) (t : Nat) (m : Mhr) (room : Nat) : (s.passTo t).macfTest m room = s.macfTest m room := rfl

/-- Settles O18: the decision on a frame, its place and settlement, released descriptors, and HOD_CTRL. -/
theorem macfAndHod : Obligations.MacfAndHod := by
  unfold Obligations.MacfAndHod
  intro s n
  refine ⟨?_, ?_, ?_, ?_, ?_, ?_, ?_, ?_, ?_, ?_, ?_⟩
  · rintro f u c laneFrame laneState knock macf rfl macfTest
    by_cases coded : f.coded = true ∧ f.fec = 1 <;>
      simp [execMacfDecision, State.macfTest_passTo, laneFrame, laneState, knock, macf, coded, macfTest]
  · rintro f u d laneFrame laneState knock macf rfl macfTest
    by_cases coded : f.coded = true ∧ f.fec = 1 <;>
      simp [execMacfDecision, State.macfTest_passTo, laneFrame, laneState, knock, macf, coded, macfTest]
  · intro f frameOf
    simp [execHodIngest, frameOf]
  · intro f h frameOf handoff verdict h2
    simp [execHodSettle]
    grind
  · intro f h en
    simp [State.settle, en]
  · intro f h en hodOcc buf
    simp [State.settle, en, hodOcc, buf]
  · intro d bound
    simp [execHodRdWrite, State.hodRdWrite]
    omega
  · intro d bound
    have cut : (half d.val).toNat % 512 = d.val := by simp [half]
    have room : ¬ s.hodOcc < (d.val + 512 - s.regN A.HOD_RD) % 512 := by omega
    refine ⟨_, rfl, ?_, ?_, ?_, ?_, ?_⟩
    all_goals simp only [State.hodRdWrite, cut, if_neg room]
    · exact State.reg_setReg_same _ _ _
    · intro a ha
      exact State.reg_setReg_other _ _ (by simpa using ha)
    · exact ⟨rfl, rfl, rfl, rfl⟩
    · rfl
    · rfl
  · rintro w t en rfl en2 hodCfgOk
    simp [execHodEnable, State.hodCtrlWrite]
    split <;> simp_all
  · rintro w t en rfl en2 hodCfgOk
    simp [execHodEnable, State.hodCtrlWrite]
    split <;> simp_all
  · intro w
    simp only [exec_hodDisable, execHodDisable, State.hodCtrlWrite]
    rw [State.flag_plainWrite_rw s _ _ 0 (by decide)]
    simp

end Sys2Proof.Machine
end

section
/-! SUPPORT. The bus: what an access of a register does where it is admitted, and where it is refused. -/
namespace Sys2Proof.Machine

-- One proof after the other, as in the first section: the memory of the whole text is bounded.
set_option Elab.async false

variable (s : State)

theorem State.cpuThread_see (x : Seen) (c : Fin 6) : (s.see x).cpuThread c = s.cpuThread c := rfl

/-- The places where registers stand. -/
def Place.hasRegs (p : Place) : Prop := p = .periph ∨ p = .plinth ∨ p = .coreLocal

/-- A write of an admitted register. -/
theorem State.busWrite_reg {m : Master} {c : Fin 6} {a n : Nat} (v : Nat) {k : Nat} (ok : admitted m a n true = true)
    (place : (placeSpan a n).hasRegs) (key : regKey c a = some k) : s.busWrite m c a n v = some (s.regWrite m k (half v)) := by
  rcases place with place | place | place <;> simp [State.busWrite, ok, place, key]

/-- A read of an admitted register that its master may see. -/
theorem State.busRead_reg {m : Master} {c : Fin 6} {a n k : Nat} (ok : admitted m a n false = true)
    (place : (placeSpan a n).hasRegs) (shown : s.timerHidden m a = false)
    (gpio : m.vault = true ∨ a < 0xE90100 ∨ 0xE90104 ≤ a) (key : regKey c a = some k) :
    s.busRead m c a n = (.value (s.regRead m k).1.toNat, (s.regRead m k).2) := by
  have vis : ¬(s.timerHidden m a = true ∨ ((!m.vault) = true ∧ 0xE90100 ≤ a ∧ a < 0xE90104)) := by
    rcases gpio with h | h | h
    · simp [shown, h]
    · simp [shown]; omega
    · simp [shown]; omega
  unfold State.busRead
  rw [ok, key]
  rcases place with place | place | place <;> rw [place] <;> dsimp only <;> rw [if_neg vis] <;> rfl

/-- A 16-bit read that is admitted, as a command. -/
theorem State.busReadSeen_reg {m : Master} {a k : Nat} (free : s.accessFault m a false = none) (ok : admitted m a 2 false = true)
    (place : (placeSpan a 2).hasRegs) (shown : s.timerHidden m a = false)
    (gpio : m.vault = true ∨ a < 0xE90100 ∨ 0xE90104 ≤ a) (key : regKey m.coreOr0 a = some k) :
    s.busReadSeen m a = (s.regRead m k).2.see (.value (s.regRead m k).1) := by
  unfold State.busReadSeen
  rw [free, s.busRead_reg ok place shown gpio key]
  simp [half]

/-- An access that the table of places refuses. -/
theorem State.busReadSeen_refused {m : Master} {a : Nat} (free : s.accessFault m a false = none) (no : admitted m a 2 false = false) :
    s.busReadSeen m a = s.busError m (exDataBus, some a) := by
  simp [State.busReadSeen, State.busRead, free, no]

theorem State.busWriteSeen_refused {m : Master} {a : Nat} (w : Half) (free : s.accessFault m a true = none)
    (no : admitted m a 2 true = false) : s.busWriteSeen m a w = s.busError m (exDataBus, some a) := by
  simp [State.busWriteSeen, State.busWrite, free, no]

/-- Nothing stops a Lintel core's own access of a word of the peripheral region. -/
theorem State.accessFault_lintel (c : Fin 6) (a : Nat) (hc : c.val < 2) (span : placeSpan a 2 = .periph) (place : placeOf a = .periph)
    (even : a % 2 = 0) : s.accessFault (.core c) a false = none := by
  unfold State.accessFault
  dsimp only
  split
  · simp [State.dataFault, place, even, admitted, span, reachesRegs, Master.vault, hc]
  · simp [place]

/-- The first stop of an access outside memory and the core-local region that the table refuses: at an even address the bus error. -/
theorem State.accessFault_refused {m : Master} {a : Nat} {store : Bool} {e : Nat × Option Nat} (no : admitted m a 2 store = false)
    (place : placeOf a ≠ .sram ∧ placeOf a ≠ .mram ∧ placeOf a ≠ .coreLocal) (h : s.accessFault m a store = some e)
    (even : a % 2 = 0) : e = (exDataBus, some a) := by
  obtain ⟨sram, mram, loc⟩ := place
  unfold State.accessFault at h
  split at h
  next c =>
    split at h
    · simp_all [State.dataFault]
    · simp_all
  next => cases h

/-- A refused write outside memory and the core-local region, as a command. -/
theorem State.write_refused {m : Master} {a : Nat} (no : admitted m a 2 true = false)
    (place : placeOf a ≠ .sram ∧ placeOf a ≠ .mram ∧ placeOf a ≠ .coreLocal) :
    ∃ e, (a % 2 = 0 → e = (exDataBus, some a)) ∧ ∀ w, s.busWriteSeen m a w = s.busError m e := by
  cases h : s.accessFault m a true with
  | none => exact ⟨_, fun _ => rfl, fun w => s.busWriteSeen_refused w h no⟩
  | some e => exact ⟨e, s.accessFault_refused no place h, fun w => by simp [State.busWriteSeen, h]⟩

/-- A refused read outside memory and the core-local region, as a command. -/
theorem State.read_refused {m : Master} {a : Nat} (no : admitted m a 2 false = false)
    (place : placeOf a ≠ .sram ∧ placeOf a ≠ .mram ∧ placeOf a ≠ .coreLocal) :
    ∃ e, (a % 2 = 0 → e = (exDataBus, some a)) ∧ s.busReadSeen m a = s.busError m e := by
  cases h : s.accessFault m a false with
  | none => exact ⟨_, fun _ => rfl, s.busReadSeen_refused h no⟩
  | some e => exact ⟨e, s.accessFault_refused no place h, by simp [State.busReadSeen, h]⟩

/-- Blocks and Plinth registers are no memory, and nothing of them is core-local. -/
theorem placeOf_blocks {a : Nat} (lo : 0xE00000 ≤ a) (hi : a < 0xF01000) :
    placeOf a = .periph ∨ placeOf a = .none ∨ placeOf a = .plinth := by
  unfold placeOf
  repeat' split
  all_goals first | omega | simp

theorem placeOf_window {a : Nat} (lo : 0xE00000 ≤ a) (hi : a < 0xF00000) : placeOf a = .periph ∨ placeOf a = .none := by
  unfold placeOf
  repeat' split
  all_goals first | omega | simp

theorem placeOf_plinth {a : Nat} (lo : 0xF00000 ≤ a) (hi : a < 0xF01000) : placeOf a = .plinth := by
  unfold placeOf
  repeat' split
  all_goals first | omega | rfl

theorem placeOf_blocks_ne {a : Nat} (lo : 0xE00000 ≤ a) (hi : a < 0xF01000) :
    placeOf a ≠ .sram ∧ placeOf a ≠ .mram ∧ placeOf a ≠ .coreLocal := by
  rcases placeOf_blocks lo hi with h | h | h <;> simp [h]

theorem placeSpan_eq (a n : Nat) : placeSpan a n = placeOf a ∨ placeSpan a n = .none := by
  unfold placeSpan
  split
  · exact .inl rfl
  · exact .inr rfl

/-- What the OPEN world does not reach (R17, R19). -/
theorem admitted_open {m : Master} {a : Nat} {store : Bool} (vault : m.vault = false)
    (h : (0xE00000 ≤ a ∧ a < 0xF00000 ∧ openBlock a store = false) ∨ (0xF00000 ≤ a ∧ a < 0xF01000)) :
    admitted m a 2 store = false := by
  unfold admitted
  dsimp only
  rcases h with ⟨lo, hi, shut⟩ | ⟨lo, hi⟩
  · rcases placeSpan_eq a 2 with e | e
    · rcases placeOf_window lo hi with p | p <;> simp [e, p, vault, shut]
    · simp [e]
  · rcases placeSpan_eq a 2 with e | e
    · simp [e, placeOf_plinth lo hi, vault]
    · simp [e]

/-- Registers are read and written 16 bits at a time, at even addresses (R20). -/
theorem admitted_width {m : Master} {a n : Nat} {store : Bool} (lo : 0xE00000 ≤ a) (hi : a < 0xF01000) (h : n ≠ 2 ∨ a % 2 = 1) :
    admitted m a n store = false := by
  unfold admitted
  dsimp only
  rcases placeSpan_eq a n with e | e
  · rcases placeOf_blocks lo hi with p | p | p <;> rw [e, p] <;> rcases h with h | h <;> simp [h]
  · simp [e]

/-- Settles O6: the table of places refuses the access, and R241's order leaves the bus error. -/
theorem refusedAccesses : Obligations.RefusedAccesses := by
  unfold Obligations.RefusedAccesses
  refine ⟨?_, ?_⟩
  · intro s m a vault
    refine ⟨?_, ?_, ?_⟩
    · intro h
      obtain ⟨e, even, seen⟩ := s.write_refused (admitted_open vault h) (placeOf_blocks_ne (by omega) (by omega))
      exact ⟨e, even, fun w => congrArg Host.Outcome.next (seen w)⟩
    · intro h
      obtain ⟨e, even, seen⟩ := s.read_refused (admitted_open vault h) (placeOf_blocks_ne (by omega) (by omega))
      exact ⟨e, even, congrArg Host.Outcome.next seen, congrArg Host.Outcome.next seen⟩
    · rintro ⟨lo, hi⟩
      have id : openBlock a.toNat true = false := by
        unfold openBlock
        rw [show a.toNat / 0x1000 = 0xE0F by omega]
        rfl
      obtain ⟨e, even, seen⟩ := s.write_refused (admitted_open vault (.inl ⟨by omega, by omega, id⟩))
        (placeOf_blocks_ne (by omega) (by omega))
      exact ⟨e, even, fun w => congrArg Host.Outcome.next (seen w)⟩
  · intro s m c t a n v lo hi
    obtain ⟨sram, mram, loc⟩ := placeOf_blocks_ne lo hi
    have octet : ∀ store, s.dataFault c t a 1 store = some (exDataBus, some a) := by
      intro store
      have no : admitted (.core c) a 1 store = false := admitted_width lo hi (.inl (by decide))
      simp [State.dataFault, sram, mram, loc, no, Nat.mod_one]
    refine ⟨?_, ?_, octet true⟩
    · intro _ h
      simp [State.busRead, State.busWrite, admitted_width lo hi h]
    · simp [State.load, octet]

/-- The first word of the counter group reads as its register (R23). -/
theorem State.regRead_ashlarCnt (m : Master) : (s.regRead m (A.ASHLAR_CNT 0)).1 = s.reg (A.ASHLAR_CNT 0) := by
  rfl

/-- The first word of the tenant group reads as the count of the selected tenant's entries (R23). -/
theorem State.regRead_tenantEntries (m : Master) :
    (s.regRead m A.ASHLAR_TCNT_ENTRIES).1 = half (min 65535 (s.tenantEntries s.tsel)) := by
  rfl

/-- A Lintel core's read of a word of a block other than TIMER, as a command. -/
theorem State.busReadSeen_lintel (c : Fin 6) (a : Nat) (hc : c.val < 2) (span : placeSpan a 2 = .periph) (place : placeOf a = .periph)
    (even : a % 2 = 0) (lo : a < 0xFF0000) :
    s.busReadSeen (.core c) a = (s.regRead (.core c) a).2.see (.value (s.regRead (.core c) a).1) := by
  have vault : Master.vault (.core c) = true := by simp [Master.vault, hc]
  refine s.busReadSeen_reg (s.accessFault_lintel c a hc span place even) ?_ (.inl span) ?_ (.inl vault) ?_
  · simp [admitted, span, vault, even, reachesRegs]
  · simp [State.timerHidden, vault]
  · simp [regKey, lo]

/-- Settles O5: an access goes to its register where accessFault and admitted let it, and else to the bus error. -/
theorem registerCommands : Obligations.RegisterCommands := by
  unfold Obligations.RegisterCommands
  intro s m a
  refine ⟨?_, ?_, ?_, ?_, ?_, ?_, ?_, ?_, ?_, ?_, ?_, ?_, ?_, ?_, ?_⟩
  · intro w e accessFault
    simp [execRegisterWrite, State.busWriteSeen, accessFault]
  · intro e accessFault
    simp [execRclRead, execSnapshotRead, State.busReadSeen, accessFault]
  · intro w accessFault no
    exact congrArg Host.Outcome.next (s.busWriteSeen_refused w accessFault no)
  · intro c t store cpuThread
    simp [State.accessFault, cpuThread]
  · intro c store cpuThread
    simp [State.accessFault, cpuThread]
  · intro store other
    cases m with
    | core c => exact absurd rfl (other c)
    | _ => rfl
  · intro e other
    cases m with
    | core c => exact absurd rfl (other c)
    | _ => rfl
  · intro e c cpuThread
    simp only [State.busError, State.cpuThread_see, cpuThread]
  · intro e c t cpuThread
    simp only [State.busError, State.cpuThread_see, cpuThread]
  · intro w k accessFault ok place key
    simp [execRegisterWrite, State.busWriteSeen, accessFault, s.busWrite_reg _ ok place key, half]
  · intro w accessFault placeSpan
    simp [execRegisterWrite, State.busWriteSeen, State.busWrite, admitted, accessFault, placeSpan]
  · intro accessFault no
    have seen := s.busReadSeen_refused accessFault no
    exact ⟨congrArg Host.Outcome.next seen, congrArg Host.Outcome.next seen⟩
  · intro k accessFault ok place shown gpio key
    have seen := s.busReadSeen_reg accessFault ok place shown gpio key
    exact ⟨congrArg Host.Outcome.next seen, congrArg Host.Outcome.next seen⟩
  · intro c hc
    refine ⟨?_, ?_⟩
    · simp only [exec_ashlarCounterGroupRead, execAshlarCounterGroupRead, Bool.false_eq_true, if_false]
      rw [s.busReadSeen_lintel c _ hc (by decide) (by decide) (by decide) (by decide), State.regRead_ashlarCnt]
    · simp only [exec_ashlarCounterGroupRead, execAshlarCounterGroupRead, if_true]
      rw [s.busReadSeen_lintel c _ hc (by decide) (by decide) (by decide) (by decide), State.regRead_tenantEntries]
  · intro tenant vault
    have no : ∀ a, 0xE30000 ≤ a → a < 0xE31000 → a % 2 = 0 → s.busReadSeen m a = s.busError m (exDataBus, some a) := by
      intro a lo hi even
      have shut : openBlock a false = false := by
        unfold openBlock
        rw [show a / 0x1000 = 0xE30 by omega]
        rfl
      obtain ⟨e, bus, seen⟩ := s.read_refused (admitted_open vault (.inl ⟨by omega, by omega, shut⟩))
        (placeOf_blocks_ne (by omega) (by omega))
      rw [seen, bus even]
    simp only [exec_ashlarCounterGroupRead, execAshlarCounterGroupRead]
    cases tenant
    · exact congrArg Host.Outcome.next (no (A.ASHLAR_CNT 0) (by decide) (by decide) (by decide))
    · exact congrArg Host.Outcome.next (no A.ASHLAR_TCNT_ENTRIES (by decide) (by decide) (by decide))

end Sys2Proof.Machine
end

section
/-! SUPPORT. The statements about general SRAM, the state after reset and event lines. -/
namespace Sys2Proof.Machine

-- One proof after the other, as in the first section: the memory of the whole text is bounded.
set_option Elab.async false

variable (s : State)

/-! ## General SRAM -/

theorem leOctets_length (n v : Nat) : (leOctets n v).length = n := by
  induction n generalizing v with
  | zero => rfl
  | succ n ih => simp [leOctets, ih]

/-- A range written inside general SRAM, octet by octet. -/
theorem State.memGet_sramPut (a : Nat) (l : List Byte) (b : Nat) (h : inSram a l.length = true) :
    memGet 0 (s.sramPut a l).sram b = if a ≤ b ∧ b < a + l.length then octAt l (b - a) else memGet 0 s.sram b := by
  split
  next hb =>
    obtain ⟨lo, hi⟩ := hb
    have hi : b - a < l.length := by omega
    have e := memGet_memPut_inside 0 l s.sram a (b - a) hi
    rw [Nat.add_sub_cancel' lo] at e
    rw [State.sramPut, if_pos h]
    exact e.trans (by simp [octAt, hi])
  next hb => exact sramPut_outside s a l b (by omega)

/-- Settles O8: a word is two octets, and a write of a range puts its octets in place and no others. -/
theorem sramWords : Obligations.SramWords := by
  unfold Obligations.SramWords
  intro s a v
  refine ⟨?_, ?_, ?_, ?_⟩
  · intro inside
    have get := fun b => s.memGet_sramPut a (leOctets 2 v.toNat) b (by simpa [leOctets_length] using inside)
    have low : memGet 0 (s.setSramHalf a v).sram a = byte v.toNat := by
      unfold State.setSramHalf
      rw [get a]
      simp [leOctets, octAt]
    have high : memGet 0 (s.setSramHalf a v).sram (a + 1) = byte (v.toNat / 256) := by
      unfold State.setSramHalf
      rw [get (a + 1)]
      simp [leOctets, octAt]
    refine ⟨?_, low, high, ?_, ?_⟩
    · simp only [State.sramHalf, State.sramTake, memTake, leNat, low, high]
      apply BitVec.eq_of_toNat_eq
      have := v.isLt
      simp [half, byte]
      omega
    · intro b h0 h1
      unfold State.setSramHalf
      rw [get b, if_neg (by rw [leOctets_length]; omega)]
    · rintro d wf rfl
      exact sramPut_wf s a _ wf
  · intro outside
    simp [State.setSramHalf, State.sramPut, leOctets_length, outside]
  · intro l
    unfold State.sramPut
    split <;> exact ⟨rfl, rfl, rfl⟩
  · intro l b inside
    exact s.memGet_sramPut a l b inside

/-! ## Event lines -/

/-- What a line that rises on one core leaves of the threads of the others. -/
theorem State.post_thr_other (c : Fin 6) (l : Nat) {d : Fin 6} (t : Fin 4) (h : d ≠ c) : (s.post c l).thr d t = s.thr d t := by
  have ends : ∀ (l : List (Fin 4)) (s : State), (forEach l s (fun s t =>
      if (s.thr c t).st == .wait && s.maskMet c t then s.modCore c (fun k => k.waitEnds t) else s)).thr d t = s.thr d t := by
    intro l
    unfold forEach
    induction l with
    | nil => intro s; rfl
    | cons u l ih =>
      intro s
      rw [List.foldl_cons, ih]
      split
      · exact s.modCore_thr (fun e => absurd e h)
      · rfl
  unfold State.post State.wakeThreads
  rw [State.modCore_thr _ (fun e => absurd e h), ends, State.setReg_thr]

theorem State.raise_thr_app (l : Nat) {d : Fin 6} (t : Fin 4) (h : 2 ≤ d.val) : (s.raise l).thr d t = s.thr d t := by
  unfold State.raise
  rw [State.faultEvent_thr]
  unfold State.postAll forEach lintel
  rw [List.foldl_cons, List.foldl_cons, List.foldl_nil, State.post_thr_other _ 1 l t, State.post_thr_other _ 0 l t]
  · rintro rfl; exact absurd h (by decide)
  · rintro rfl; exact absurd h (by decide)

/-- The word of a raised line on the Lintel cores: its bit is set, the others stay. -/
theorem State.reg_raise_pend (l : Nat) (hl : l < 64) (c : Fin 6) (h : c = 0 ∨ c = 1) :
    (s.raise l).reg (A.EVU_PEND c (l / 16)) = s.reg (A.EVU_PEND c (l / 16)) ||| half (2 ^ (l % 16)) := by
  obtain ⟨x, e⟩ := (s.postAll lintel l).faultEvent_parts l
  unfold State.raise
  rw [State.reg_congr (t := s.postAll lintel l) _ (by rw [e])]
  unfold State.postAll forEach lintel
  rw [List.foldl_cons, List.foldl_cons, List.foldl_nil]
  rcases h with rfl | rfl
  · rw [State.reg_post _ 1 l _ (evuPend_ne (by decide) (by omega) (by omega)), State.reg_post_same]
  · rw [State.reg_post_same, State.reg_post _ 0 l _ (evuPend_ne (by decide) (by omega) (by omega))]

/-- A line that rises leaves the other lines (R236). -/
theorem State.linePending_raise_other {l m : Nat} (hl : l < 64) (hm : m < 64) (h : m ≠ l) (c : Fin 6) (hc : c = 0 ∨ c = 1) :
    (s.raise l).linePending c m = s.linePending c m := by
  by_cases word : m / 16 = l / 16
  · have bit : m % 16 ≠ l % 16 := by omega
    unfold State.linePending
    rw [word, s.reg_raise_pend l hl c hc, BitVec.getLsbD_or, half, BitVec.getLsbD_ofNat, Nat.testBit_two_pow]
    simp [bit.symm]
  · have apart : ∀ d : Fin 6, A.EVU_PEND c (m / 16) ≠ A.EVU_PEND d (l / 16) := by
      intro d
      by_cases e : c = d
      · subst e
        unfold A.EVU_PEND coreKey
        omega
      · exact evuPend_ne e (by omega) (by omega)
    exact State.linePending_congr (s.reg_raise l _ (apart 0) (apart 1))

/-- Settles O9: a raised line is a bit of a pending word on both Lintel cores and what wakes there. -/
theorem eventLines : Obligations.EventLines := by
  unfold Obligations.EventLines
  intro s l hl
  refine ⟨s.pending_raise l 0 (.inl rfl), s.pending_raise l 1 (.inr rfl), ?_, ?_, ?_, ?_, ?_, ?_, ?_, ?_, ?_⟩
  · intro m hm h
    exact ⟨s.linePending_raise_other hl hm h 0 (.inl rfl), s.linePending_raise_other hl hm h 1 (.inr rfl)⟩
  · intro a ha
    simp only [List.mem_cons, List.not_mem_nil, or_false, not_or] at ha
    exact s.reg_raise l a ha.1 ha.2
  · simp [SameMemory]
  · simp
  · simp
  · simp
  · simp
  · intro c t hc
    exact s.raise_thr_app l t hc
  · intro c t dead
    rw [s.raise_thr_dead l dead, dead]

/-! ## Reset -/

/-- Settles O4: the state after reset lists no register and no octet, so every one reads its reset value. -/
theorem stateAfterReset : Obligations.StateAfterReset := by
  unfold Obligations.StateAfterReset
  refine ⟨rfl, ⟨rfl, rfl, rfl, rfl, rfl, rfl, rfl⟩, fun a => ⟨rfl, rfl⟩, fun a => ⟨rfl, rfl⟩, rfl, ?_, ?_, ?_, ?_⟩
  · decide
  · decide
  · decide
  · decide

end Sys2Proof.Machine
end

section
/-! SUPPORT. The statements about clocks, ASSAY requests and handovers. -/
namespace Sys2Proof.Machine

-- One proof after the other, as in the first section: the memory of the whole text is bounded.
set_option Elab.async false

/-- EN is a field of each DMA control register with no reserved encoding. -/
theorem dmaEn_mem (k : Fin 4) : ⟨15, 15, .rw, []⟩ ∈ fieldsAt (A.DMA_CTRL k) := by
  revert k
  decide

/-- Settles O41: the clock register, the stages, a loss of XO_HF, DMA and the die temperature. -/
theorem clocksAndDma : Obligations.ClocksAndDma := by
  unfold Obligations.ClocksAndDma
  intro s
  refine ⟨?_, ?_, ?_, ?_, ?_, ?_, ?_, ?_, ?_, ?_, ?_, ?_⟩
  · intro w
    rfl
  · intro w
    rfl
  · intro src
    rfl
  · rintro w u ofNat ofNat2 ok rfl
    have xo : w[2] = true := by simpa using ofNat
    have pll : w[1] = true := by simpa using ofNat2
    simp (disch := decide) [State.clkWrite, xo, pll, ok, State.flag_setFlag_other]
  · intro xoRun
    simp [execXoStable, xoRun]
  · intro pllOn
    simp [execPllLock, pllOn]
  · rintro u sleep inReset rfl
    simp [execXoHfLoss, sleep, inReset]
  · intro k en
    have lenReg : A.DMA_LEN k ≠ A.DMA_CTRL k := by
      unfold A.DMA_LEN A.DMA_CTRL
      omega
    refine ⟨_, rfl, ?_⟩
    simp only [State.dmaCtrlWrite, en]
    refine ⟨?_, ?_, ⟨rfl, rfl, rfl, rfl⟩, ?_⟩
    · exact State.flag_plainWrite_rw s _ _ 15 (dmaEn_mem k)
    · intro a ha
      exact State.reg_setReg_other _ _ (by simpa using ha)
    · rw [State.regN, State.regN, ← State.reg_setReg_other s _ lenReg]
      rfl
  · intro k src dst n en dmaBad dmaChan
    simp [execDmaDone, State.dmaCopy, en, dmaBad, dmaChan]
  · rintro k src dst n i u en dmaBad dmaChan rfl
    simp [execDmaStopError, State.dmaCopy, en, dmaBad, dmaChan]
  · rintro deg t alive rfl
    simp [execTempConversion, alive]
  · intro deg alive
    simp [execTempConversion, alive]

/-- The word of a slice request holds the slice and the target (R362). -/
theorem bits_assayWord (k : Nat) (t : Fin 128) (h : k < 256) :
    bits (assayWord k t).toNat 15 8 = k ∧ bits (assayWord k t).toNat 6 0 = t.val := by
  have := t.isLt
  simp [assayWord, half, bits]
  omega

/-- The command of a slice joins the queue, or finds it full (R362, R364). -/
theorem exec_sliceCode {i : Instr} {k : Nat} {t : Fin 128} (s : State) (h : sliceCode i = some (k, t)) :
    exec i s = .next (if s.flag F.ASSAY_CTRL_EN = false then s
      else if 8 ≤ s.assay.queue.length then s.setFlag F.ASSAY_STATUS_CMD_ERR
      else (s.modAssay (fun a => { a with queue := a.queue ++ [(⟨k, t.val⟩, 0)] })).setFld F.ASSAY_STATUS_QUEUED
        (s.assay.queue.length + 1)) := by
  have small : k < 256 ∧ exec i s = .next (s.assayCmdWrite (assayWord k t)) := by
    cases i <;> cases h <;> exact ⟨by decide, rfl⟩
  obtain ⟨small, e⟩ := small
  obtain ⟨slice, target⟩ := bits_assayWord k t small
  rw [e]
  simp [State.assayCmdWrite, slice, target]

/-- Settles O54: the queue, the checks at its head in their order, expiry, EN = 0 and schedules. -/
theorem assayRequests : Obligations.AssayRequests := by
  unfold Obligations.AssayRequests
  intro s
  refine ⟨?_, ?_, ?_, ?_, ?_, ?_, ?_, ?_, ?_, ?_, ?_, ?_, ?_⟩
  · rintro i k t u sliceCode en bound rfl
    rw [exec_sliceCode s sliceCode]
    simp [en, Nat.not_le.mpr bound]
  · intro i k t sliceCode en bound
    rw [exec_sliceCode s sliceCode]
    simp [en, bound]
  · intro q n l queue running checked
    refine ⟨?_, ?_⟩
    · intro o sliceChecks
      simp [execAssayRequestCheck, queue, running, checked, sliceChecks]
    · intro sliceChecks
      simp [execAssayRequestCheck, queue, running, checked, sliceChecks]
  · intro q sliceAdmitted
    simp [State.sliceChecks, sliceAdmitted]
  · intro q sliceAdmitted either
    simp [State.sliceChecks]
    grind
  · intro q sliceAdmitted bound src badTarget
    simp [State.sliceChecks, sliceAdmitted, src, badTarget]
    omega
  · intro q sliceAdmitted bound src badTarget
    simp [State.sliceChecks, sliceAdmitted, src, badTarget]
    omega
  · intro q n l queue running checked either
    simp [execRequestExpired, queue, running, checked, either]
  · intro q n l queue bound either
    simp [execRequestExpired]
    grind
  · rintro t rfl
    rfl
  · intro q running
    simp [State.sliceAbort, running]
  · rintro slice c t d rfl fwRun period bound next
    simp [execAssayScheduleTick, fwRun, period, Nat.not_lt.mpr bound, next]
  · rintro slice c rfl either
    simp [execAssayScheduleTick, either]

/-- Settles O56: each state of a handover and what leads out of it. -/
theorem handover : Obligations.Handover := by
  unfold Obligations.Handover
  intro s k due tD
  refine ⟨?_, ?_, ?_, ?_, ?_, ?_, ?_, ?_, ?_, ?_, ?_, ?_, ?_, ?_, ?_, ?_⟩
  · intro hand bound
    simp [execHandoverStandbyReady, hand, bound]
  · intro hand bound
    simp [execHandoverStandbyReady, hand, Nat.not_le.mpr bound]
  · intro hand
    simp [execHandoverReadyTimeout, hand]
  · intro hand bound pend
    simp [State.handQuiet, hand, bound, pend]
    rfl
  · intro either
    simp [State.handQuiet]
    grind
  · intro hand nvmcTaken busy busy2
    simp [execHandoverCutoverStart, hand, nvmcTaken, busy, busy2]
  · intro either
    simp [execHandoverCutoverStart]
    grind
  · intro hand bound b
    simp [execHandoverAccept, hand, bound]
  · rintro x hand bound rfl
    refine ⟨?_, ?_⟩
    · simp [execHandoverAccept, hand, Nat.not_lt.mpr bound]
    · simp [execHandoverAccept, State.handAbandon, hand, Nat.not_lt.mpr bound]
  · intro u either sramHalf
    simp [execHandoverDecision, State.handDecide]
    split <;> simp_all
  · rintro u x either sramHalf rfl
    rcases either with ⟨hand, rfl⟩ | ⟨hand, rfl⟩
    · simp only [exec_handoverDecision, execHandoverDecision, hand, State.handDecide, if_neg sramHalf]
      rfl
    · simp only [exec_handoverDecision, execHandoverDecision, hand, State.handDecide, if_neg sramHalf]
      rfl
  · unfold State.cutover
    cases s.update.hand <;> simp
  · intro cutover
    simp [State.adsinPump, cutover]
  · rintro ok u hand rfl
    simp [execHandoverTakeover, hand]
    rfl
  · rintro fails old u v w nvTurn cmd rfl inCfg rfl rfl
    simp [execNvmcCmdDone, State.cfgNext, State.tookOver, nvTurn, cmd, inCfg]
  · intro old new appHashes
    simp [State.appsSwitch, appHashes]

end Sys2Proof.Machine
end

section
/-! SUPPORT. The statements about Plumb sessions, LF, sleep and slices. -/
namespace Sys2Proof.Machine

-- One proof after the other, as in the first section: the memory of the whole text is bounded.
set_option Elab.async false

/-- Settles O26: Plumb sessions and the lock-out clock, then LF drive, tuning, polls and token tables. -/
theorem plumbLockoutAndLf : Obligations.PlumbLockoutAndLf := by
  unfold Obligations.PlumbLockoutAndLf
  refine ⟨?_, ?_⟩
  · intro s
    refine ⟨?_, ?_, ?_, ?_, ?_, ?_, ?_, ?_, ?_, ?_⟩
    · rintro calInt c t u plumbMayStart drbg rfl
      simp [execPlumbSessionStart, plumbMayStart, drbg]
      rfl
    · intro calInt plumbMayStart
      simp [execPlumbSessionStart, plumbMayStart]
    · intro acState
      simp [execPlumbRequestTimeout, acState]
    · rintro coarse pa1 pa2 b detected t p u v acState bound rfl rfl rfl rfl
      simp [execPlumbRound, acState, bound]
      rfl
    · rintro k p rfl
      refine ⟨?_, ?_, ?_, ?_, ?_⟩
      · rfl
      · rfl
      · rfl
      · rfl
      · rfl
    · rintro t acState rfl
      simp [execPlumbPinsRestore, acState]
      rfl
    · intro acState
      simp [execPlumbEnd, acState]
    · intro locked lockSec
      simp [execLockoutEnd, State.lockoutCheck, locked, lockSec]
      rfl
    · intro either
      simp [execLockoutEnd, State.lockoutCheck]
      grind
    · intro powered
      refine ⟨_, rfl, ?_⟩
      simp [execLockSecTick, powered]
      rfl
  · intro s
    refine ⟨?_, ?_, ?_, ?_, ?_, ?_, ?_, ?_, ?_, ?_, ?_, ?_, ?_, ?_, ?_⟩
    · intro n driverIn
      simp [execLfOvercurrent, driverIn]
    · intro n peak driverIn
      simp [execLfOpenCheck, driverIn]
    · intro f n
      rfl
    · intro a b c d burst
      simp [execLfBurstEnd, Option.isSome_iff_ne_none, burst]
      rfl
    · intro low
      rfl
    · intro mask
      have fits : mask.toNat % 65536 = mask.toNat := Nat.mod_eq_of_lt (by have := mask.isLt; omega)
      simp [execLfTuneRequest, State.lfCmdWrite, fits]
    · intro tuneReq tuning burst acState h
      simp [execLfTuneStart]
      grind
    · rintro a b c d t tuning rfl
      simp only [exec_lfTuneDone, execLfTuneDone]
      rw [if_pos tuning]
      rfl
    · intro n code peak ofNat bound
      simp [State.tuneOne, ofNat, Nat.not_lt.mpr bound]
    · intro either
      simp [execPollBurst]
      grind
    · rintro e alive tuning rfl acState xoRun burst
      simp [execPollBurst, alive, tuning, acState, xoRun, burst]
      rfl
    · rintro e alive tuning rfl either
      simp [execPollBurst]
      grind
    · rfl
    · rintro e r t busy rfl tokenTables
      simp [execAccessTblCopyDone, busy, tokenTables]
    · rintro t busy rfl tokenTables
      simp [execAccessTblCopyDone, busy, tokenTables]

/-- The command of a sleep state, on a device that is awake (R286, R287). -/
theorem exec_sleepState {i : Instr} {st : Nat} (s : State) (h : sleepState i = some st) (awake : s.sys.sleep = .awake) :
    exec i s = .next (match s.sleepWhy with
      | some y => (s.setFlag F.PMU_STATUS_SLP_ERR).setFld F.PMU_STATUS_SLP_WHY y
      | none => s.modSys (fun y => { y with
          sleep := .entering st false, risen := 0, wakeEn := if st = 3 then 7 else BitVec.ofNat 9 (s.fld F.PMU_WAKE_EN_EN) })) := by
  cases i <;> cases h <;> simp [execSleepNap, execSleepShelf, execSleepPlinth, State.sleepWrite, awake, bits] <;> rfl

/-- Settles O40: the entry, its end, the sources and the resume from NAP. -/
theorem sleepStates : Obligations.SleepStates := by
  unfold Obligations.SleepStates
  intro s
  refine ⟨?_, ?_, ?_, ?_, ?_, ?_, ?_, ?_, ?_, ?_, ?_, ?_, ?_, ?_, ?_, ?_⟩
  · intro i st state sleep sleepWhy
    rw [exec_sleepState s state sleep, sleepWhy]
  · intro sleep
    simp [State.coresRun, sleep]
  · intro src either
    simp [execWakeSourceRise, State.wakeRise]
    grind
  · intro i st y state sleep sleepWhy
    rw [exec_sleepState s state sleep, sleepWhy]
  · intro src st w sleep enabled vio
    have seen : ¬((!s.sys.wakeEn.getLsbD src) = true ∨ (4 ≤ src.val ∧ src.val ≤ 7 ∧ (!s.sys.vio) = true)) := by
      rintro (h | ⟨lo, hi, h⟩)
      · rw [enabled] at h; cases h
      · simp [vio lo hi] at h
    simp only [exec_wakeSourceRise, execWakeSourceRise, State.wakeRise, if_neg seen, sleep]
    rfl
  · rintro src u sleep ofNat h rfl
    simp [execWakeSourceRise, State.wakeRise]
    grind
  · rintro src u sleep ofNat h rfl
    simp [execWakeSourceRise, State.wakeRise]
    grind
  · rintro src u sleep ofNat h rfl
    simp [execWakeSourceRise, State.wakeRise]
    grind
  · intro src sleep inReset
    simp [execWakeSourceRise, State.wakeRise, sleep, inReset]
  · intro src sleep inReset either ofNat h
    simp [execWakeSourceRise, State.wakeRise]
    grind
  · intro st sleep
    simp [execSleepTimerExpiry, sleep]
  · rintro st w u v sleep rfl rfl
    simp [execSleepEntryDone, sleep]
  · intro st hst sleep
    simp [execSleepAbandon, hst, sleep]
  · intro w sleep
    simp [execSleepAbandon]
    split <;> simp_all
  · intro sleep risen
    simp [execNapResume, sleep, risen]
  · rintro u v sleep risen rfl rfl
    have xo : (s.setReg A.PMU_WAKE_SRC (half s.sys.risen.toNat)).flag F.SYSCTL_CLK_XO_EN = s.flag F.SYSCTL_CLK_XO_EN :=
      congrArg (· != 0) (s.fld_setReg_other _ _ (by decide))
    simp only [exec_napResume, execNapResume, sleep, xo]
    rw [if_neg (by simpa using risen)]
    rw [State.reg_raiseEvt_other _ _ _ (by decide) (by decide) (by decide)]

/-- Settles O55: the start, the supply check, the measurements' limits, the return, the overrun and the repairs. -/
theorem sliceRuns : Obligations.SliceRuns := by
  unfold Obligations.SliceRuns
  intro s q
  refine ⟨?_, ?_, ?_, ?_, ?_, ?_, ?_, ?_, ?_, ?_, ?_, ?_, ?_, ?_, ?_, ?_, ?_, ?_, ?_, ?_, ?_, ?_, ?_⟩
  · rintro n l u queue running checked sliceMayStart rfl
    simp [execSliceStart, queue, running, checked, sliceMayStart]
  · rintro mv u running isolated rfl
    simp [execSupplyCheckEnd, running, isolated]
  · intro t isBandSlice
    simp [State.returnAt, isBandSlice]
  · rintro t b v w isBandSlice rfl rfl rfl
    simp [State.returnAt, isBandSlice]
  · rintro m d short b r w running isolated sliceBudget bound rfl rfl slicePass
    have inTime : ¬ s.assay.tAs + us b < s.hft := Nat.not_lt.mpr bound
    simp [execSliceReturn, running, isolated, sliceBudget, inTime, slicePass]
  · rintro m d short b a t r w running isolated sliceBudget bound rfl rfl slicePass sliceRepair
    have inTime : ¬ s.assay.tAs + us b < s.hft := Nat.not_lt.mpr bound
    simp [execSliceReturn, running, isolated, sliceBudget, inTime, slicePass, sliceRepair]
  · intro m d short b running sliceBudget bound
    simp [execSliceReturn, running, sliceBudget, bound]
  · intro m
    rfl
  · intro m slice
    simp [State.slicePass, allWithin, slice]
  · intro m slice
    simp [State.slicePass, allWithin, slice]
  · intro m slice
    simp [State.slicePass, slice, slIqLoop, slLf, slAdcRef]
  · intro m slice
    simp [State.slicePass, allWithin, slice, slTxLoop, slIqLoop, slLf, slAdcRef]
  · intro m slice slice2 slice3 slice4
    simp [State.slicePass, slice, slice2, slice3, slice4]
  · intro b running isolated sliceBudget
    simp [execSliceOverrun, running, isolated, sliceBudget]
  · rintro short p u isLaneSlice bound rfl freeSpare
    simp [State.sliceRepair, isLaneSlice, bound, freeSpare]
  · rintro short u isLaneSlice bound rfl freeSpare
    simp [State.sliceRepair, isLaneSlice, bound, freeSpare]
  · intro short isLaneSlice bound
    simp [State.sliceRepair, isLaneSlice, Nat.not_lt.mpr bound]
  · intro short slice bound
    simp [State.sliceRepair, isLaneSlice, slice, bound, slAes, slLane, slLaneModes]
  · rintro short u slice bound rfl
    simp [State.sliceRepair, isLaneSlice, slice, (Nat.not_le.mpr bound : ¬ s.fld F.ID_CAPS1_AES_ACTIVE ≤ 1), slAes, slLane, slLaneModes]
  · intro short slice
    simp [State.sliceRepair, isLaneSlice, slice, slLf, slAes, slLane, slLaneModes]
  · intro short slice
    simp [State.sliceRepair, isLaneSlice, slice, slAdcRef, slLf, slAes, slLane, slLaneModes]
  · intro short either
    simp [State.sliceRepair, isLaneSlice, isBandSlice]
    grind
  · rintro short (slice | slice | slice) <;>
      simp [State.sliceRepair, isLaneSlice, isBandSlice, slice, slSramMarch, slPkeKat, slMramScan, slIqLoop, slTxLoop, slAdcRef, slLf, slAes, slLane,
        slLaneModes]

end Sys2Proof.Machine
end

section
/-! SUPPORT. The statements about KEYS and PKE. -/
namespace Sys2Proof.Machine

-- One proof after the other, as in the first section: the memory of the whole text is bounded.
set_option Elab.async false

/-- The command of an operation code is a write of KEYS_CMD (R173). -/
theorem exec_keysCode {i : Instr} {c : Fin 2} {op : Nat} (s : State) (h : keysCode i = some (c, op)) :
    exec i s = .next (s.keysCmdWrite c op) := by
  cases i
  case keysBadop =>
    dsimp only [keysCode] at h
    split at h
    · cases h
    next code =>
      cases h
      simp only [exec_keysBadop, execKeysBadop, if_neg code]
  all_goals cases h
  all_goals rfl

/-- Settles O23: the write of KEYS_CMD, what holds PKE, the judging of LC_CHANGE, and the end of a command in its turn. -/
theorem keysCommands : Obligations.KeysCommands := by
  unfold Obligations.KeysCommands
  intro s
  refine ⟨?_, ?_, ?_, ?_, ?_, ?_, ?_, ?_, ?_, ?_, ?_, ?_, ?_, ?_, ?_, ?_, ?_, ?_⟩
  · intro i c op code busy
    rw [exec_keysCode s code]
    simp [State.keysCmdWrite, busy]
  · intro i c op code busy
    rw [exec_keysCode s code]
    simp only [State.keysCmdWrite, busy]
    rfl
  · intro c cmd op op2
    simp [State.keysHold, cmd, op, op2]
  · intro c cmd op
    simp [State.keysJudge, cmd, op]
  · intro c cmd either cmd2
    simp [State.keysHold, cmd, either, cmd2]
  · intro c cmd cmd2
    simp [State.keysHold, cmd, cmd2]
  · intro c cmd op refused either
    refine ⟨?_, ?_⟩
    · simp [State.keysJudge, cmd, either]
    · have waits : s.keysWaits c = true := by simp [State.keysWaits, op, refused]
      simp [execKeysCmdDone, cmd, waits]
  · rintro c target cmd op refused rfl held either lcAllowed
    have free : ¬(c.op ≠ 8 ∨ c.refused = true ∨ (!s.pke.held) = true ∨
        (s.lcAllowed c.args (bits (wordAt c.args 0) 2 0) = true ∧ bits (wordAt c.args 0) 2 0 = 2 ∧ (!s.drbgReady) = true)) := by
      rcases either with h | h <;> simp [op, refused, held, h]
    have judged : s.keysJudge = (s.modKeys (fun k => { k with nonce := none })).lcBegin (bits (wordAt c.args 0) 2 0) := by
      simp only [State.keysJudge, cmd, if_neg free]
      rw [if_pos lcAllowed]
    refine ⟨judged, ?_⟩
    rw [judged]
    simp [State.lcBegin]
  · intro c cmd op refused held lcAllowed
    simp [State.keysJudge, cmd, op, refused, held, lcAllowed]
  · intro c op
    simp [State.keysAct, op]
  · intro c cmd keysWaits
    simp [execKeysCmdDone, cmd, keysWaits]
  · intro c cmd stores keysMayWrite
    simp [execKeysCmdDone, cmd, stores, keysMayWrite]
  · intro c x t cmd keysWaits either keysRun
    have turn : (s.keysWaits c || (c.stores && !s.keysMayWrite)) = false := by
      rcases either with h | h <;> simp [keysWaits, h]
    simp only [exec_keysCmdDone, execKeysCmdDone, cmd, turn, keysRun]
    cases x <;> rfl
  · intro c r t keysNeeds keysAct
    simp [State.keysRun, keysNeeds, keysAct]
  · intro c n f l ok t keysNeeds leaseTake
    simp [State.keysRun, keysNeeds, leaseTake]
  · intro c
    simp [KeysCmd.stores]
  · intro c lost lo hi
    simp [State.keysAct, State.keysRefuses, lost, lo, hi]
  · intro c unlisted
    have accepts : s.keysRefuses c.op = false := by
      rcases unlisted with h | h
      · simp [State.keysRefuses, h]
      · simp [State.keysRefuses, Nat.not_le.2 (show 6 < c.op by omega)]
    unfold State.keysAct
    rw [accepts]
    simp only [Bool.false_eq_true, if_false]
    split <;> first | rfl | omega

/-- The command of an operation is a write of PKE_CMD (R163). -/
theorem exec_pkeCode {i : Instr} {c : Fin 2} {w : Half} (s : State) (h : pkeCode i = some (c, w)) :
    exec i s = .next (s.pkeCmdWrite c w) := by
  cases i
  case pkeBadop =>
    dsimp only [pkeCode] at h
    split at h
    · cases h
    next code =>
      cases h
      simp only [exec_pkeBadop, execPkeBadop, if_neg code]
  case pkeKeygen =>
    cases h
    simp [execPkeKeygen, pkeWord, bit]
  all_goals cases h
  all_goals rfl

/-- Fewer than 41 samples fail no repetition count test (R166). -/
theorem rctFails_short (l : List Nat) (last n : Nat) (h : n + l.length < 41) : rctFails last n l = 0 := by
  induction l generalizing last n with
  | nil => rfl
  | cons x l ih =>
    rw [List.length_cons] at h
    unfold rctFails
    by_cases run : x = last ∧ n ≠ 0
    · simp only [if_pos run, if_neg (show n + 1 ≠ 41 by omega)]
      exact ih x (n + 1) (by omega)
    · simp only [if_neg run]
      exact ih x 1 (by omega)

/-- Settles O24: the write of PKE_CMD and the end of an operation, then the TRNG, its tests and the DRBG. -/
theorem pkeAndRandomNumbers : Obligations.PkeAndRandomNumbers := by
  unfold Obligations.PkeAndRandomNumbers
  refine ⟨?_, ?_⟩
  · intro s
    refine ⟨?_, ?_, ?_, ?_, ?_, ?_, ?_, ?_, ?_, ?_⟩
    · intro i c w code busy
      rw [exec_pkeCode s code]
      simp [State.pkeCmdWrite, busy]
    · intro i c w code busy
      rw [exec_pkeCode s code]
      simp [State.pkeCmdWrite, busy]
    · intro c cmd either either2
      simp [execPkeOpDone, State.pkeWaits]
      grind
    · intro c cmd op keysMayWrite
      simp [execPkeOpDone, State.pkeWaits, cmd, op, keysMayWrite]
    · rintro c r t u cmd either pkeAct rfl
      simp [execPkeOpDone, State.pkeWaits]
      grind
    · intro c either
      simp [State.pkeAct]
      split <;> simp_all
    · intro c op
      simp [State.pkeAct, op]
    · intro c op onCurve
      simp [State.pkeAct, op, onCurve]
    · intro c op sha
      simp [State.pkeAct, State.pkeFinal, op, sha]
    · intro c op either
      simp [State.pkeAct, State.pkeEcdh, op, either]
  · intro s
    refine ⟨?_, ?_, ?_, ?_, ?_, ?_, ?_, ?_, ?_, ?_, ?_, ?_, ?_, ?_, ?_, ?_⟩
    · rfl
    · rfl
    · intro first rest hlength either
      simp [execTrngStartupDone, hlength, either]
    · intro first rest either
      simp [execTrngStartupDone]
      grind
    · intro l hlength rctFails
      simp [execHealthTestFail, hlength, rctFails]
      rfl
    · intro l hlength aptFails
      simp [execHealthTestFail, hlength, aptFails]
    · intro x
      simp [rctFails]
    · intro l short
      exact rctFails_short l 0 0 (by omega)
    · intro l x hlength head
      simp [aptFails]
      grind
    · intro rct apt
      refine ⟨_, rfl, ?_, ?_, ?_, ?_, ?_⟩
      · simp [State.flag_bit]
      · simp [State.flag_bit]
      · simp [State.flag_bit]
      · simp [SameMemory, State.count]
      · intro a ha
        simp only [List.mem_cons, List.not_mem_nil, or_false, not_or] at ha
        obtain ⟨hrct, hapt, hst⟩ := ha
        simp [State.count, State.reg_setReg, hrct, hapt, hst]
    · intro drbgReady bound
      simp [execDrbgAutoReseed, drbgReady, bound]
    · intro drbgReady bound
      simp [execDrbgAutoReseed, Nat.not_le.mpr bound]
    · intro valid
      simp [execTrngOutRead, State.trngRead, valid]
    · intro valid
      simp [execTrngOutRead, State.trngRead, valid]
    · rintro (h | h | h | h | h) <;> simp [State.trngFill, State.drbgWanted, h]
    · intro o t drbgReady valid keysWantsDrbg wantHk pkeWantsDrbg drbg
      simp [State.trngFill, State.drbgWanted, drbgReady, valid, keysWantsDrbg, wantHk, pkeWantsDrbg, drbg]

end Sys2Proof.Machine
end

section
/-! SUPPORT. The data instructions of a core (R212 to R216): the flags and results as facts of numbers, and obligations O27 to O29. -/
namespace Sys2Proof.Machine

-- One proof after the other, as in the first section: the memory of the whole text is bounded.
set_option Elab.async false

/-- The signed value of a half word, its sign read off its unsigned value. -/
theorem half_toInt (x : Half) : x.toInt = if 32768 ≤ x.toNat then (x.toNat : Int) - 65536 else x.toNat := by
  rw [BitVec.toInt_eq_msb_cond, BitVec.msb_eq_decide]
  simp

/-- The signed value of a pointer, its sign read off its unsigned value. -/
theorem ptr_toInt (x : Ptr) : x.toInt = if 8388608 ≤ x.toNat then (x.toNat : Int) - 16777216 else x.toNat := by
  rw [BitVec.toInt_eq_msb_cond, BitVec.msb_eq_decide]
  simp

theorem add16_toNat (x y : Half) (ci : Bool) : (add16 x y ci).1.toNat = (x.toNat + y.toNat + bit ci) % 65536 :=
  BitVec.toNat_ofNat ..

theorem bit_le_one (b : Bool) : bit b ≤ 1 := by cases b <;> decide

/-- V of a sum: its signed value is not the sum of the signed values. -/
theorem add16_v (x y : Half) (ci : Bool) :
    (add16 x y ci).2.v = decide ((add16 x y ci).1.toInt ≠ x.toInt + y.toInt + (bit ci : Nat)) := by
  show (x.msb == y.msb && (add16 x y ci).1.msb != x.msb) = _
  have hx := x.isLt; have hy := y.isLt; have hc := bit_le_one ci
  have hr := add16_toNat x y ci
  generalize (add16 x y ci).1 = r at *
  rw [Bool.eq_iff_iff]
  simp only [half_toInt, BitVec.msb_eq_decide, Bool.and_eq_true, beq_iff_eq, bne_iff_ne, ne_eq, decide_eq_decide, decide_eq_true_eq]
  omega

/-- The complement as a number. -/
theorem half_not_toNat (y : Half) : (~~~y).toNat = 65535 - y.toNat := BitVec.toNat_not

theorem half_not_toInt (y : Half) : (~~~y).toInt = -y.toInt - 1 := by
  have := y.isLt
  simp only [half_toInt, half_not_toNat]
  omega

/-- A difference is that of the words, without borrow where b is not above a. -/
theorem sub16_true (x y : Half) : (sub16 x y true).1 = x - y ∧ (sub16 x y true).2.c = decide (y.toNat ≤ x.toNat) ∧
    (sub16 x y true).2.v = decide ((sub16 x y true).1.toInt ≠ x.toInt - y.toInt) := by
  have hx := x.isLt; have hy := y.isLt
  refine ⟨BitVec.eq_of_toNat_eq ?_, ?_, ?_⟩
  · rw [sub16, add16_toNat, half_not_toNat, BitVec.toNat_sub]
    show (_ + _ + 1) % 65536 = _
    omega
  · show decide (65536 ≤ x.toNat + (~~~y).toNat + 1) = _
    rw [half_not_toNat, decide_eq_decide]
    omega
  · have h : x.toInt + (-y.toInt - 1) + ((bit true : Nat) : Int) = x.toInt - y.toInt := by
      show _ + ((1 : Nat) : Int) = _
      omega
    rw [sub16, add16_v, half_not_toInt, h]

/-- A saturated value, read back, is the clamped one. -/
theorem saturate_toInt (x : Int) (g : Flags) : (saturate x g).1.toInt = clampInt (-32768) 32767 x := by
  show (half (ofSigned 16 (clampInt (-32768) 32767 x))).toInt = _
  generalize hd : clampInt (-32768) 32767 x = d
  have hr : -32768 ≤ d ∧ d ≤ 32767 := by
    rw [← hd, clampInt]
    repeat' split
    all_goals omega
  rw [half_toInt, show (half (ofSigned 16 d)).toNat = (d % 65536).toNat % 65536 from BitVec.toNat_ofNat ..]
  omega

theorem saturate_v (x : Int) (g : Flags) : (saturate x g).2.v = (x != clampInt (-32768) 32767 x) := rfl

theorem saturate_inside (x : Int) (g : Flags) (h1 : -32768 ≤ x) (h2 : x ≤ 32767) :
    (saturate x g).1.toInt = x ∧ (saturate x g).2.v = false ∧ (saturate x g).2.c = g.c := by
  have h : clampInt (-32768) 32767 x = x := by rw [clampInt, if_neg (by omega), if_neg (by omega)]
  rw [saturate_toInt, saturate_v, h]
  exact ⟨rfl, bne_self_eq_false x, rfl⟩

theorem saturate_above (x : Int) (g : Flags) (h : 32767 < x) : (saturate x g).1.toInt = 32767 ∧ (saturate x g).2.v = true := by
  have hc : clampInt (-32768) 32767 x = 32767 := by rw [clampInt, if_neg (by omega), if_pos h]
  rw [saturate_toInt, saturate_v, hc]
  exact ⟨rfl, bne_iff_ne.mpr (by omega)⟩

theorem saturate_below (x : Int) (g : Flags) (h : x < -32768) : (saturate x g).1.toInt = -32768 ∧ (saturate x g).2.v = true := by
  have hc : clampInt (-32768) 32767 x = -32768 := by rw [clampInt, if_pos h]
  rw [saturate_toInt, saturate_v, hc]
  exact ⟨rfl, bne_iff_ne.mpr (by omega)⟩

/-- A pointer comparison sets the flags of the difference on 24 bits. -/
theorem cmp24_eq (x y : Ptr) :
    cmp24 x y = ⟨(x - y).msb, decide (x = y), decide (y.toNat ≤ x.toNat), decide ((x - y).toInt ≠ x.toInt - y.toInt)⟩ := by
  have hx := x.isLt; have hy := y.isLt
  have hn : (~~~y).toNat = 16777215 - y.toNat := BitVec.toNat_not
  have hr : BitVec.ofNat 24 (x.toNat + (~~~y).toNat + 1) = x - y := by
    apply BitVec.eq_of_toNat_eq
    rw [BitVec.toNat_ofNat, BitVec.toNat_sub, hn]
    omega
  have hs : (x - y).toNat = (16777216 - y.toNat + x.toNat) % 16777216 := BitVec.toNat_sub ..
  have hz : ((x - y) == 0) = decide (x = y) := by
    rw [Bool.eq_iff_iff, beq_iff_eq, decide_eq_true_eq, ← BitVec.toNat_inj, ← BitVec.toNat_inj, hs]
    show _ = 0 ↔ _
    omega
  have hv : (x.msb == (~~~y).msb && (x - y).msb != x.msb) = decide ((x - y).toInt ≠ x.toInt - y.toInt) := by
    rw [Bool.eq_iff_iff]
    simp only [ptr_toInt, BitVec.msb_eq_decide, hn, hs, Bool.and_eq_true, beq_iff_eq, bne_iff_ne, ne_eq, decide_eq_decide,
      decide_eq_true_eq]
    omega
  have hc : decide (2 ^ 24 ≤ x.toNat + (~~~y).toNat + 1) = decide (y.toNat ≤ x.toNat) := by
    rw [hn, decide_eq_decide]
    omega
  unfold cmp24
  simp only [hr, hz, hv, hc]


/-- An instruction on registers alone answers its completion. -/
theorem compute_answers {s u : State} {c t bad f} (h : Executes s c t .plain u) (hb : bad = false) :
    (.next (s.compute c bad f) : Out) = .next (u.completeInstr c t (f (s.thr c t))) :=
  congrArg _ (compute_runs _ _ _ _ _ _ h hb)

/-- An instruction whose encoding is not allowed answers the illegal-instruction exception. -/
theorem illegal_answers {s u : State} {c t shape bad f} (h : Executes s c t shape u) (hb : bad (s.thr c t) = true) :
    (.next (s.instr c shape bad f) : Out) = .next (u.raiseInstr c t exIllegal none) :=
  congrArg _ (instr_illegal _ _ _ _ _ _ _ h hb)

/-- An instruction on registers alone whose encoding is not allowed raises that exception too. -/
theorem compute_illegal_answers {s u : State} {c t bad f} (h : Executes s c t .plain u) (hb : bad = true) :
    (.next (s.compute c bad f) : Out) = .next (u.raiseInstr c t exIllegal none) :=
  congrArg _ (instr_illegal _ _ _ _ _ _ _ h hb)

/-- Settles O27: each form answers the completion of its own computation, and the flags of a sum are facts of numbers. -/
theorem cpuArithmetic : Obligations.CpuArithmetic := by
  refine ⟨?_, ⟨fun x y ci => ⟨add16_toNat x y ci, rfl, rfl, rfl, add16_v x y ci⟩, sub16_true, fun _ _ => rfl, saturate_inside,
    saturate_above, saturate_below⟩⟩
  rintro s s' c t dd da db _ _ _ imm h rfl rfl rfl
  refine ⟨?_, ?_, ?_, ?_, ?_, ?_, ?_, ?_, ?_, ?_⟩ <;> exact compute_answers h rfl

/-- The flags of a shift: those of `setnz` where the count is 0, else C is the last bit shifted out. -/
theorem shift_shl (a : Half) (n : Nat) (g : Flags) : shift .shl a n g = (a <<< n, if n = 0 then setnz a g
    else ⟨(a <<< n).msb, decide (a <<< n = 0), a.getLsbD (16 - n), false⟩) := by
  unfold shift
  by_cases hn : n = 0
  · subst hn
    simp [setnz]
  · simp only [if_neg hn]
    rfl

theorem shift_shr (a : Half) (n : Nat) (g : Flags) : shift .shr a n g = (a >>> n, if n = 0 then setnz a g
    else ⟨(a >>> n).msb, decide (a >>> n = 0), a.getLsbD (n - 1), false⟩) := by
  unfold shift
  by_cases hn : n = 0
  · subst hn
    simp [setnz]
  · simp only [if_neg hn]
    rfl

theorem shift_sar (a : Half) (n : Nat) (g : Flags) : shift .sar a n g = (a.sshiftRight n, if n = 0 then setnz a g
    else ⟨(a.sshiftRight n).msb, decide (a.sshiftRight n = 0), a.getLsbD (n - 1), false⟩) := by
  unfold shift
  by_cases hn : n = 0
  · subst hn
    simp [setnz]
  · simp only [if_neg hn]
    rfl

theorem rotateLeft_eq (a : Half) (n : Nat) (h : n < 16) : a.rotateLeft n = if n = 0 then a else (a <<< n) ||| (a >>> (16 - n)) := by
  rw [BitVec.rotateLeft_def, Nat.mod_eq_of_lt h]
  split
  · next hn =>
    subst hn
    rw [BitVec.shiftLeft_zero, BitVec.ushiftRight_eq_zero (by decide), BitVec.or_zero]
  · rfl

theorem shift_rol (a : Half) (n : Nat) (h : n < 16) (g : Flags) : shift .rol a n g = (a.rotateLeft n, if n = 0 then setnz a g
    else ⟨(a.rotateLeft n).msb, decide (a.rotateLeft n = 0), (a.rotateLeft n).getLsbD 0, false⟩) := by
  unfold shift
  rw [rotateLeft_eq a n h]
  by_cases hn : n = 0
  · subst hn
    simp [setnz]
  · simp only [if_neg hn]
    rfl

/-- The shift that bits 5 and 4 of the immediate select. -/
theorem shiftOf_eq (imm : Half) : shiftOf imm = if bits imm.toNat 5 4 = 0 then ShiftKind.shl else if bits imm.toNat 5 4 = 1 then .shr
    else if bits imm.toNat 5 4 = 2 then .sar else .rol := by
  unfold shiftOf
  split <;> simp_all

/-- Settles O28: a shift keeps C at a count of 0, else C is the last bit shifted out. -/
theorem cpuLogicAndShifts : Obligations.CpuLogicAndShifts := by
  constructor
  · rintro s s' c t dd da db _ _ _ imm h rfl rfl rfl
    refine ⟨?_, ?_, ?_, ?_, ?_, ?_, ?_, ?_, ?_, ?_⟩ <;> exact compute_answers h rfl
  · rintro s s' c t dd da db _ _ _ imm h rfl rfl rfl
    have hlt := Nat.mod_lt ((s.thr c t).d[db]).toNat (show 0 < 16 by decide)
    refine ⟨(compute_answers h rfl).trans ?_, (compute_answers h rfl).trans ?_, (compute_answers h rfl).trans ?_,
      (compute_answers h rfl).trans ?_, ?_⟩
    · dsimp only
      rw [shift_shl]
      rfl
    · dsimp only
      rw [shift_shr]
      rfl
    · dsimp only
      rw [shift_sar]
      rfl
    · dsimp only
      rw [shift_rol _ _ hlt]
      rfl
    · rintro hz k rfl
      rw [← shiftOf_eq]
      exact compute_answers h (by rw [hz]; rfl)

theorem bits_eq_fieldAt (a : Half) (p l : Nat) : bits a.toNat (p + l) p = fieldAt a p (l + 1) := by
  unfold bits fieldAt
  rw [show p + l + 1 - p = l + 1 by omega]

/-- A product added to the pair, as the two words of the sum modulo 2^32. -/
theorem Thread.mac_eq (t : Thread) (dd : Fin 16) (p : Int) (acc : Nat) (h : acc = t.d[dd].toNat + 65536 * t.d[dd + 1].toNat) :
    t.mac dd p = { late := [(3, .d dd, (((acc : Int) + p) % 2 ^ 32).toNat % 65536),
      (3, .d (dd + 1), (((acc : Int) + p) % 2 ^ 32).toNat / 65536)] } := by
  subst h
  rfl

theorem Thread.macu_eq (t : Thread) (dd : Fin 16) (p acc : Nat) (h : acc = t.d[dd].toNat + 65536 * t.d[dd + 1].toNat) :
    t.mac dd (p : Int) = { late := [(3, .d dd, (acc + p) % 2 ^ 32 % 65536), (3, .d (dd + 1), (acc + p) % 2 ^ 32 / 65536)] } := by
  have hm : (((acc : Int) + (p : Int)) % 2 ^ 32).toNat = (acc + p) % 2 ^ 32 := by omega
  rw [t.mac_eq dd p acc h, hm]

/-- Settles O29: the field that EXTU takes is bits POS to POS + LM1, and the pair of MAC is one word of 32 bits. -/
theorem cpuProductsFieldsPointers : Obligations.CpuProductsFieldsPointers := by
  constructor
  · rintro s s' c t dd da db _ _ acc h rfl rfl hacc
    refine ⟨(compute_answers h rfl).trans ?_, compute_answers h rfl, compute_answers h rfl, fun he => ?_, fun he => ?_, fun ho => ?_,
      fun ho => ?_, compute_answers h rfl⟩
    · rw [BitVec.toNat_mul]
    · rw [← Thread.mac_eq _ dd _ acc hacc]
      exact compute_answers h (by rw [he]; rfl)
    · rw [← Thread.macu_eq _ dd _ acc hacc]
      exact compute_answers h (by rw [he]; rfl)
    · exact compute_illegal_answers h (by rw [ho]; rfl)
    · exact compute_illegal_answers h (by rw [ho]; rfl)
  · rintro s s' c t dd da pos lm1 dx pd pa pb imm _ h rfl
    refine ⟨fun hl => ?_, fun hl => ?_, compute_answers h rfl, compute_answers h rfl, fun hi => ?_, compute_answers h rfl,
      compute_answers h rfl, compute_answers h rfl, compute_answers h rfl, compute_answers h rfl, compute_answers h rfl,
      compute_answers h rfl, compute_answers h rfl, cmp24_eq⟩
    · have hb : ((0 : BitVec 4) != 0 || (0 : BitVec 4) != 0 || decide (16 < pos.val + lm1.val + 1)) = false := by
        rw [decide_eq_false (by omega)]; rfl
      rw [bits_eq_fieldAt]
      exact ⟨compute_answers h hb, compute_answers h hb, compute_answers h hb⟩
    · have hb : ((0 : BitVec 4) != 0 || (0 : BitVec 4) != 0 || decide (16 < pos.val + lm1.val + 1)) = true := by
        rw [decide_eq_true (by omega)]; rfl
      exact ⟨compute_illegal_answers h hb, compute_illegal_answers h hb, compute_illegal_answers h hb⟩
    · rw [← Nat.mod_eq_of_lt hi]
      exact compute_answers h (by rw [Nat.div_eq_of_lt hi]; rfl)
end Sys2Proof.Machine
end

section
/-! SUPPORT. Loads and stores of a core (R206, R217, R241): what the two frames answer, accesses of general SRAM, and
obligation O30. -/
namespace Sys2Proof.Machine

-- One proof after the other, as in the first section: the memory of the whole text is bounded.
set_option Elab.async false

/-! ## General SRAM on the bus -/

theorem placeOf_sram {a : Nat} (lo : 0x100000 ≤ a) (hi : a < 0x300000) : placeOf a = .sram := by
  rw [placeOf, if_neg (by omega), if_pos ⟨lo, hi⟩]

theorem inSram_bounds {a n : Nat} (h : inSram a n = true) : 0x100000 ≤ a ∧ a + n ≤ 0x300000 := by
  simpa [inSram] using h

theorem placeSpan_sram {a n : Nat} (h : inSram a n = true) (hn : 1 ≤ n) : placeSpan a n = .sram := by
  obtain ⟨lo, hi⟩ := inSram_bounds h
  rw [placeSpan, placeOf_sram lo (by omega), placeOf_sram (a := a + n - 1) (by omega) (by omega), if_pos rfl]

/-- Every master reaches general SRAM (R17). -/
theorem admitted_sram {a n : Nat} (h : inSram a n = true) (hn : 1 ≤ n) (m : Master) (w : Bool) : admitted m a n w = true := by
  rw [admitted, placeSpan_sram h hn]

theorem memOctet_sram (s : State) {a : Nat} (lo : 0x100000 ≤ a) (hi : a < 0x300000) : s.memOctet a = memGet 0 s.sram a := by
  rw [State.memOctet]
  dsimp only
  rw [if_neg (by omega), if_pos hi]

/-- Octets of general SRAM, read one by one, are the range that `sramTake` gives. -/
theorem map_memOctet_sram (s : State) (a n : Nat) (lo : 0x100000 ≤ a) (hi : a + n ≤ 0x300000) :
    (List.range n).map (fun i => s.memOctet (a + i)) = s.sramTake a n := by
  rw [State.sramTake]
  induction n generalizing a with
  | zero => rfl
  | succ n ih =>
    rw [List.range_succ_eq_map, List.map_cons, List.map_map, memTake, ← ih (a + 1) (by omega) (by omega), Nat.add_zero,
      memOctet_sram s lo (by omega)]
    congr 1
    refine List.map_congr_left fun i _ => ?_
    show s.memOctet (a + (i + 1)) = s.memOctet (a + 1 + i)
    rw [Nat.add_assoc, Nat.add_comm 1 i]

theorem load_sram (s : State) (c : Fin 6) (t : Fin 4) (a n : Nat) (h : inSram a n = true) (hn : 1 ≤ n)
    (hf : s.dataFault c t a n false = none) : s.load c t a n = (.inl (leNat (s.sramTake a n)), s) := by
  obtain ⟨lo, hi⟩ := inSram_bounds h
  have hr : s.busRead (.core c) c a n = (.value (leNat (s.sramTake a n)), s) := by
    simp only [State.busRead, admitted_sram h hn, placeSpan_sram h hn, map_memOctet_sram s a n lo hi]
    rfl
  rw [State.load, hf]
  rw [if_neg (by omega), hr]

theorem busWrite_sram (s : State) (c : Fin 6) (a n v : Nat) (h : inSram a n = true) (hn : 1 ≤ n) :
    s.busWrite (.core c) c a n v = some { s with sram := memPut 0 s.sram a (leOctets n v) } := by
  simp only [State.busWrite, admitted_sram h hn, placeSpan_sram h hn]
  rw [if_neg (by decide), State.sramPut, leOctets_length, if_pos h]

theorem dataFault_align (s : State) (c : Fin 6) (t : Fin 4) (a n : Nat) (w : Bool) (h : inSram a n = true) (hn : 2 ≤ n)
    (ha : a % n ≠ 0) : s.dataFault c t a n w = some (exAlign, some a) := by
  obtain ⟨lo, hi⟩ := inSram_bounds h
  have hp : (placeOf a == .coreLocal) = false := by rw [placeOf_sram lo (by omega)]; rfl
  rw [State.dataFault, hp, if_neg (by simp), if_pos ha]

/-! ## The two frames -/

/-- The registers that a load or store with this write-back leaves late. -/
def lateBase (pb : Fin 8) (wb : Option Ptr) : List (Nat × Target × Nat) := (wb.map (fun w => (1, Target.p pb, w.toNat))).toList

section
variable {s s' u : State} {c : Fin 6} {t : Fin 4} {bad : Bool} {pb am : Fin 8} {imm : Half} {n : Nat} {a : Ptr} {wb : Option Ptr}

theorem load_answers {tgt g v} (h : Executes s c t .plain s') (he : (s.thr c t).ea pb am imm = (a, wb)) (hm : amLegal am imm = true)
    (hb : bad = false) (hl : s'.load c t a.toNat n = (.inl v, u)) (h1 : (u.thr c t).st ≠ .dead) (h2 : u.sys.inReset = false) :
    (.next (s.loadInstr c bad pb am imm n tgt g) : Out) = .next (u.completeInstr c t { late := (2, tgt, g v) :: lateBase pb wb }) :=
  congrArg _ (instr_done _ _ _ _ _ _ _ _ _ h (by rw [hb, hm]; rfl) (by simp only [he, hl]; rfl) h1 h2)

theorem load_fault_answers {tgt g code x} (h : Executes s c t .plain s') (he : (s.thr c t).ea pb am imm = (a, wb))
    (hm : amLegal am imm = true) (hb : bad = false) (hl : s'.load c t a.toNat n = (.inr (code, x), u)) :
    (.next (s.loadInstr c bad pb am imm n tgt g) : Out) = .next (u.raiseInstr c t code x) :=
  congrArg _ (instr_fault _ _ _ _ _ _ _ _ _ _ h (by rw [hb, hm]; rfl) (by simp only [he, hl]))

theorem store_answers {v} (h : Executes s c t .plain s') (he : (s.thr c t).ea pb am imm = (a, wb)) (hm : amLegal am imm = true)
    (hb : bad = false) (hd : s'.dataFault c t a.toNat n true = none) (hw : s'.busWrite (.core c) c a.toNat n (v (s.thr c t)) = some u)
    (h1 : (u.thr c t).st ≠ .dead) (h2 : u.sys.inReset = false) :
    (.next (s.storeInstr c bad pb am imm n v) : Out) = .next (u.completeInstr c t { late := lateBase pb wb }) :=
  congrArg _ (instr_done _ _ _ _ _ _ _ _ _ h (by rw [hb, hm]; rfl) (by simp only [he, hd, hw]; rfl) h1 h2)

theorem store_fault_answers {v code x} (h : Executes s c t .plain s') (he : (s.thr c t).ea pb am imm = (a, wb))
    (hm : amLegal am imm = true) (hb : bad = false) (hd : s'.dataFault c t a.toNat n true = some (code, x)) :
    (.next (s.storeInstr c bad pb am imm n v) : Out) = .next (s'.raiseInstr c t code x) :=
  congrArg _ (instr_fault _ _ _ _ _ _ _ _ _ _ h (by rw [hb, hm]; rfl) (by simp only [he, hd]))

/-- A mode that is not listed, or another bit that must not stand, is illegal. -/
theorem memory_illegal_answers {f} (h : Executes s c t .plain s') (hb : bad = true ∨ amLegal am imm = false) :
    (.next (s.instr c .plain (fun _ => bad || !amLegal am imm) f) : Out) = .next (s'.raiseInstr c t exIllegal none) :=
  illegal_answers h (by rcases hb with hb | hb <;> simp [hb])

end

theorem amLegal_iff (am : Fin 8) (imm : Half) : amLegal am imm = true ↔ am.val < 3 ∨ (am = 3 ∧ bits imm.toNat 11 3 = 0) := by
  simp [amLegal, Fin.ext_iff, show ((3 : Fin 8) : Nat) = 3 from rfl]

/-- LDP is illegal by its bit 25, or where it loads the base that its mode writes back. -/
theorem ldpBad_eq_false {pd pb am : Fin 8} (h : pd ≠ pb ∨ (am ≠ 1 ∧ am ≠ 2)) :
    (false || (pd == pb && (am == 1 || am == 2))) = false := by
  rcases h with h | ⟨h1, h2⟩
  · simp [h]
  · simp [h1, h2]

theorem ldpBad_eq_true {pb am : Fin 8} (h : am = 1 ∨ am = 2) : (false || (pb == pb && (am == 1 || am == 2))) = true := by
  rcases h with h | h <;> simp [h]

/-- Settles O30: each load and store is one of the two frames, with its octets, its extension and its illegal forms. -/
theorem cpuLoadsAndStores : Obligations.CpuLoadsAndStores := by
  constructor
  · rintro s s' c t r pd pb am imm _ a wb h rfl he
    refine ⟨amLegal_iff am imm, fun hi z => ?_, memory_illegal_answers h (.inl rfl), fun hm => ?_⟩
    · exact ⟨memory_illegal_answers h (.inr hi), memory_illegal_answers h (.inr hi), memory_illegal_answers h (.inr hi),
        memory_illegal_answers h (.inr hi)⟩
    refine ⟨fun v u hl h1 h2 => ⟨load_answers h he hm rfl hl h1 h2, load_answers h he hm rfl hl h1 h2⟩,
      fun v u hl h1 h2 => load_answers h he hm rfl hl h1 h2, fun v u hl h1 h2 hp => load_answers h he hm (ldpBad_eq_false hp) hl h1 h2,
      fun hw => memory_illegal_answers h (.inl (ldpBad_eq_true hw)),
      fun code x u hl => ⟨load_fault_answers h he hm rfl hl, load_fault_answers h he hm rfl hl⟩,
      fun code x u hl => load_fault_answers h he hm rfl hl,
      fun code x u hl hp => load_fault_answers h he hm (ldpBad_eq_false hp) hl,
      fun n hs h1 _ hf => load_sram s' c t a.toNat n hs h1 hf⟩
  · rintro s s' c t r p pb am imm _ a wb h rfl he
    refine ⟨fun hi z => ?_, memory_illegal_answers h (.inl rfl), fun hm => ?_⟩
    · exact ⟨memory_illegal_answers h (.inr hi), memory_illegal_answers h (.inr hi), memory_illegal_answers h (.inr hi)⟩
    refine ⟨fun u hd hw h1 h2 => store_answers h he hm rfl hd hw h1 h2, fun u hd hw h1 h2 => store_answers h he hm rfl hd hw h1 h2,
      fun u hd hw h1 h2 => store_answers h he hm rfl hd hw h1 h2, fun code x hd => store_fault_answers h he hm rfl hd,
      fun code x hd => store_fault_answers h he hm rfl hd, fun code x hd => store_fault_answers h he hm rfl hd,
      fun n v hs hn => busWrite_sram s' c a.toNat n v hs hn, fun n w hs hn ha => dataFault_align s' c t a.toNat n w hs hn ha⟩

end Sys2Proof.Machine
end

section
/-! SUPPORT. Branches, loops and system instructions of a core (R219 to R221, R227 to R229, R237, R240, R244): what each frame
answers, and obligations O31 and O32. -/
namespace Sys2Proof.Machine

-- One proof after the other, as in the first section: the memory of the whole text is bounded.
set_option Elab.async false

/-- An instruction that keeps the state but for its completion answers that completion. -/
theorem done_answers {s u : State} {c t shape bad f d} (h : Executes s c t shape u) (hb : bad (s.thr c t) = false)
    (hf : f u t (s.thr c t) = (.done d, u)) : (.next (s.instr c shape bad f) : Out) = .next (u.completeInstr c t d) :=
  congrArg _ (instr_done _ _ _ _ _ _ _ _ _ h hb hf)

/-- An instruction that raises answers its exception. -/
theorem fault_answers {s u : State} {c t shape bad f code a} (h : Executes s c t shape u) (hb : bad (s.thr c t) = false)
    (hf : f u t (s.thr c t) = (.fault code a, u)) : (.next (s.instr c shape bad f) : Out) = .next (u.raiseInstr c t code a) :=
  congrArg _ (instr_fault _ _ _ _ _ _ _ _ _ _ h hb hf)

/-! ## Branches -/

section
variable {s s' : State} {c : Fin 6} {t : Fin 4} {bad : Bool} {f : Thread → Option Ptr}

theorem branch_answers {tgt} (h : Executes s c t .branch s') (hb : bad = false) (hf : f (s.thr c t) = some tgt) :
    (.next (s.branchInstr c bad f false) : Out) = .next (s'.completeInstr c t { branch := some tgt }) :=
  done_answers h hb (by simp only [hf]; rfl)

theorem branch_link_answers {tgt} (h : Executes s c t .branch s') (hb : bad = false) (hf : f (s.thr c t) = some tgt) :
    (.next (s.branchInstr c bad f true) : Out) =
      .next (s'.completeInstr c t { branch := some tgt, now := [(.lr, ((s.thr c t).pc + 8).toNat)] }) :=
  done_answers h hb (by simp only [hf]; rfl)

theorem branch_align_answers {link} (h : Executes s c t .branch s') (hb : bad = false) (hf : f (s.thr c t) = none) :
    (.next (s.branchInstr c bad f link) : Out) = .next (s'.raiseInstr c t exAlign none) :=
  fault_answers h hb (by simp only [hf])

end

theorem aligned_some {p : Ptr} (h : p.toNat % 4 = 0) : aligned p = some p := if_pos h

theorem aligned_none {p : Ptr} (h : p.toNat % 4 ≠ 0) : aligned p = none := if_neg h

/-- The register that a LOOP's DC field names. -/
theorem loopReg_eq (d : Fin 16) (h : (BitVec.ofNat 12 (d.val * 256)).toNat / 256 < 16) :
    (⟨(BitVec.ofNat 12 (d.val * 256)).toNat / 256, h⟩ : Fin 16) = d := by
  have := d.isLt
  apply Fin.ext
  show (BitVec.ofNat 12 (d.val * 256)).toNat / 256 = d.val
  rw [BitVec.toNat_ofNat]
  omega

/-- Settles O31: each branch answers its target or ALIGN, and LOOP sets the three registers of its level. -/
theorem cpuBranchesAndLoops : Obligations.CpuBranchesAndLoops := by
  rintro s s' c t _ rfl
  refine ⟨fun h => ⟨fun k ofs hk => ?_, fun ofs => illegal_answers h rfl, fun ofs => branch_answers h rfl rfl,
    fun ofs => branch_link_answers h rfl rfl, fun p hp => ?_, fun p hp => ?_, fun hp => branch_answers h rfl (aligned_some hp),
    fun hp => branch_align_answers h rfl (aligned_none hp)⟩, ?_⟩
  · exact branch_answers h (beq_false_of_ne hk) rfl
  · exact ⟨branch_answers h rfl (aligned_some hp), branch_link_answers h rfl (aligned_some hp)⟩
  · exact ⟨branch_align_answers h rfl (aligned_none hp), branch_align_answers h rfl (aligned_none hp)⟩
  · rintro h lvl count fin _ rfl
    refine ⟨?_, ?_, fun src hb => illegal_answers h hb⟩
    · rintro _ rfl hb
      exact done_answers h hb rfl
    · rintro d _ rfl rfl hb
      refine (done_answers h hb rfl).trans ?_
      simp only [loopReg_eq]
      rfl

/-! ## Control registers and system instructions -/

theorem mtc_priv_answers {s s' : State} {c t cr isP r} (h : Executes s c t .plain s') (hb : crBad cr isP r 0 = false)
    (hp : (s.thr c t).mtcPriv cr.toNat = true) : exec (.opMtc c cr isP r 0) s = .next (s'.raiseInstr c t exPriv none) :=
  fault_answers h hb (by simp only [if_pos hp])

/-- An MTC that does not raise PRIV: where its value goes. -/
theorem mtc_done_answers {s s' : State} {c t cr isP r d} (h : Executes s c t .plain s') (hb : crBad cr isP r 0 = false)
    (hp : (s.thr c t).mtcPriv cr.toNat = false)
    (hd : (if cr.toNat = 3 then (⟨none, [], [(1, .lr, (s.thr c t).regOf isP r)], none, none, false, .goOn⟩ : Done)
      else if cr.toNat = 0 ∧ !(s.thr c t).priv then { late := [(3, .flags, (s.thr c t).regOf isP r)] }
      else if 0x20 ≤ cr.toNat ∧ cr.toNat % 4 = 3 then {}
      else { late := [(3, .cr cr.toNat, (s.thr c t).regOf isP r)] }) = d) :
    exec (.opMtc c cr isP r 0) s = .next (s'.completeInstr c t d) := by
  refine done_answers h hb ?_
  dsimp only
  rw [if_neg (by rw [hp]; decide), ← hd]
  split
  · rfl
  · split
    · rfl
    · split <;> rfl

/-- No window register stands at CR 0x23 + 4w, and CR 0 is open to every mode: neither raises PRIV. -/
theorem mtcPriv_gap (th : Thread) {n : Nat} (h : 32 ≤ n) (h3 : n % 4 = 3) : th.mtcPriv n = false := by
  simp [Thread.mtcPriv, h3]
  omega

/-- A SIG of a line from 32 to 47 posts it, and completes where the post leaves the thread alive. -/
theorem sig_answers {s s' : State} {c : Fin 6} {t : Fin 4} {arg : Half} (h : Executes s c t .plain s') (h32 : 32 ≤ arg.toNat)
    (h47 : arg.toNat ≤ 47) (hd : ((s'.post c arg.toNat).thr c t).st ≠ .dead) :
    exec (.opSig c 0 arg) s = .next ((s'.post c arg.toNat).completeInstr c t {}) := by
  have legal : ((0 : BitVec 4) != 0 || decide (arg.toNat < 32) || decide (47 < arg.toNat)) = false := by
    simp only [bne_self_eq_false, Bool.false_or, Bool.or_eq_false_iff, decide_eq_false_iff_not]
    omega
  have running : (s'.post c arg.toNat).sys.inReset = false := by
    obtain ⟨r, k, e⟩ := s'.post_parts c arg.toNat
    rw [e]
    exact (executes_runs h).2
  rw [exec_opSig, execOpSig]
  exact congrArg Host.Outcome.next
    (instr_done s c t .plain _ (fun s _ _ => (.done {}, s.post c arg.toNat)) {} s' (s'.post c arg.toNat) h legal rfl hd running)

/-- Settles O32: each system instruction is one of the frames, with what it does to its thread. -/
theorem cpuSystem : Obligations.CpuSystem := by
  rintro s s' c t _ rfl
  refine ⟨fun h => ⟨?_, ?_, ?_, ?_, fun dd n => compute_answers h rfl, compute_answers h rfl, compute_answers h rfl, compute_answers h rfl,
    compute_answers h rfl, ?_, ?_⟩,
    fun h => ⟨fun arg => fault_answers h rfl rfl, fun arg => fault_answers h rfl rfl, fun hp => ?_, fun hp => ?_⟩, rfl⟩
  · rintro cr isP r _ _ rfl rfl hb
    refine ⟨fun hp => mtc_priv_answers h hb hp, fun hp h3 => ?_, fun h0 hu => ?_, fun h32 h3 => ?_, fun hp h3 h0 hw => ?_⟩
    · exact mtc_done_answers h hb hp (if_pos h3)
    · exact mtc_done_answers h hb (by simp [Thread.mtcPriv, h0]) (by rw [if_neg (by omega), if_pos ⟨h0, by rw [hu]; rfl⟩])
    · exact mtc_done_answers h hb (mtcPriv_gap _ h32 h3) (by rw [if_neg (by omega), if_neg (by omega), if_pos ⟨h32, h3⟩])
    · refine mtc_done_answers h hb hp ?_
      rw [if_neg h3, if_neg, if_neg (by omega)]
      rintro ⟨z, hu⟩
      rcases h0 with h0 | h0
      · exact h0 z
      · rw [h0] at hu; cases hu
  · intro cr r hb
    exact done_answers h hb rfl
  · intro cr r hb
    refine (done_answers h hb rfl).trans ?_
    have hr : (⟨r.val % 8, by omega⟩ : Fin 8) = r := Fin.ext (Nat.mod_eq_of_lt r.isLt)
    simp only [hr]
  · intro cr isP r z hb
    exact ⟨illegal_answers h hb, illegal_answers h hb⟩
  · intro arg ha
    exact illegal_answers h (by simpa using ha)
  · exact fun arg h32 h47 hd => sig_answers h h32 h47 hd
  · exact done_answers h rfl (if_pos hp)
  · exact fault_answers h rfl (if_neg (by rw [hp]; decide))

end Sys2Proof.Machine
end

section
/-! SUPPORT. Completion and exceptions of a core (R222, R225, R228, R241 to R245), and obligations O33 and O34. -/
namespace Sys2Proof.Machine

-- One proof after the other, as in the first section: the memory of the whole text is bounded.
set_option Elab.async false

/-- No loop ends at the address of an instruction that is at no LE. -/
theorem Thread.loopCheck_quiet (t : Thread) (h : t.atLe = false) : t.loopCheck = (t, none) := by
  obtain ⟨h0, h1⟩ := Bool.or_eq_false_iff.mp h
  simp only [Thread.loopCheck, h0, h1]
  rfl

theorem State.pcOf_aligned (s : State) {a : Ptr} (h : a.toNat % 4 = 0) : s.pcOf a = (a, s) := if_pos h

theorem ptr_next_aligned {a : Ptr} (h : a.toNat % 4 = 0) : (a + 4).toNat % 4 = 0 := by
  rw [BitVec.toNat_add]
  show (a.toNat + 4) % 16777216 % 4 = 0
  omega

/-- A core with one thread replaced. -/
def Core.putThr (k : Core) (t : Fin 4) (x : Thread) : Core := { k with thr := k.thr.set t x }

@[simp] theorem Core.putThr_same (k : Core) (t : Fin 4) (x : Thread) : (k.putThr t x).thr[t] = x := Vector.getElem_set_self t.isLt

@[simp] theorem Core.putThr_putThr (k : Core) (t : Fin 4) (x y : Thread) : (k.putThr t x).putThr t y = k.putThr t y :=
  congrArg (fun v => ({ k with thr := v } : Core)) (Vector.set_set ..)

/-- Results that are due later do not land now. -/
theorem Core.landAt_putThr (k : Core) (t : Fin 4) (x : Thread) (pos : Nat) (h : ∀ p ∈ x.pend, pos < p.pos) :
    (k.putThr t x).landAt t pos = k.putThr t x := by
  have late : x.pend.filter (fun p => pos < p.pos) = x.pend := List.filter_eq_self.mpr (by simpa using h)
  have due : x.pend.filter (fun p => p.pos ≤ pos) = [] := List.filter_eq_nil_iff.mpr (by simpa using h)
  show (((k.putThr t x).thr[t].pend.filter (fun p => p.pos ≤ pos)).foldl (fun k p => k.landOne t p) ((k.putThr t x).putThr t
    { (k.putThr t x).thr[t] with pend := (k.putThr t x).thr[t].pend.filter (fun p => pos < p.pos) })) = _
  rw [Core.putThr_same, late, due, Core.putThr_putThr]
  rfl

/-- A result lands in a data register. -/
theorem Core.landOne_putThr (k : Core) (t : Fin 4) (x : Thread) (i : Nat) (r : Fin 16) (v : Nat) :
    (k.putThr t x).landOne t ⟨i, .d r, v⟩ = k.putThr t { x with d := x.d.set r (half v) } := by
  show (k.putThr t x).putThr t { (k.putThr t x).thr[t] with d := (k.putThr t x).thr[t].d.set r (half v) } = _
  rw [Core.putThr_same, Core.putThr_putThr]

/-- The end of a retirement: the thread's position moves on. -/
def Thread.moveOn (x : Thread) (i : Nat) (pc : Ptr) (slot : Option (Ptr × Ptr)) (eret : Option Bool) : Thread :=
  let x := { x with pos := i + 1, pc := pc, slot := slot, waitAt := none, passed := none }
  match eret with
  | some priv => { x with psw := pswMode x.psw priv x.ppriv false }
  | none => x

/-- An instruction that only goes on completes as its retirement, on a thread that holds no exception and is not stepped. -/
theorem State.completeInstr_quiet (s : State) (c : Fin 6) (t : Fin 4) (d : Done) (g : Thread → Thread)
    (hr : s.retire c t d = s.modThr c t g) (hd : d.andThen = .goOn) (hs : (s.thr c t).stepping = false)
    (h1 : (g (s.thr c t)).holdStall = false) (h2 : (g (s.thr c t)).holdWdog = false) : s.completeInstr c t d = s.modThr c t g := by
  have held : (s.modThr c t g).takeHeld c t = s.modThr c t g := by
    have e : (s.modThr c t g).thr c t = g (s.thr c t) := by simp [State.modThr]
    rw [State.takeHeld, e, h1, h2]
    simp
  simp only [State.completeInstr, hd, hr, held, hs]
  rw [if_neg (by simp)]

theorem Thread.moveOn_holds {x : Thread} {i pc slot eret} : (x.moveOn i pc slot eret).holdStall = x.holdStall ∧
    (x.moveOn i pc slot eret).holdWdog = x.holdWdog := by
  cases eret <;> exact ⟨rfl, rfl⟩

/-- Only what a change makes of the thread as it stands matters. -/
theorem State.modThr_congr (s : State) (c : Fin 6) (t : Fin 4) {f g : Thread → Thread} (h : f (s.thr c t) = g (s.thr c t)) :
    s.modThr c t f = s.modThr c t g := by
  rw [State.modThr, State.modCore, h]
  rfl

/-- A thread with the flags of an instruction in place. -/
def Thread.withFlags (x : Thread) (f : Option Flags) : Thread :=
  match f with
  | some f => { x with psw := f.put x.psw }
  | none => x

/-- Retirement where neither a slot nor a loop end says where the thread goes on. -/
theorem State.retire_eq (s : State) (c : Fin 6) (t : Fin 4) (d : Done) (slot : (s.thr c t).slot = none)
    (quiet : ((s.thr c t).withFlags d.flags).loopCheck = ((s.thr c t).withFlags d.flags, none))
    (hn : (d.next.getD (((s.thr c t).withFlags d.flags).pc + 4)).toNat % 4 = 0) :
    s.retire c t d = s.modCore c (fun k =>
      let x := (s.thr c t).withFlags d.flags
      let i := (s.thr c t).pos
      let k := d.now.foldl (fun k r => k.landOne t ⟨i, r.1, r.2⟩) ((k.putThr t { x with
        pend := x.pend ++ d.late.map (fun r => ⟨i + r.1 + 1, r.2.1, r.2.2⟩) }).landAt t (i + 1))
      k.putThr t (k.thr[t].moveOn i (d.next.getD (x.pc + 4)) (d.branch.map (fun tgt => (x.pc, tgt)))
        (if d.eret then some (s.thr c t).ppriv else none))) := by
  obtain ⟨flags, now, late, next, branch, eret, andThen⟩ := d
  unfold State.retire
  cases flags <;>
  · simp only [Thread.withFlags] at quiet hn ⊢
    simp only [quiet]
    simp only [slot, Option.none_or, s.pcOf_aligned hn]
    refine congrArg (s.modCore c) (funext fun k => ?_)
    cases eret <;> rfl


/-- A thread without pending results, as it takes the flags and the later results of an instruction. -/
def Thread.taking (x : Thread) (d : Done) : Thread :=
  { x.withFlags d.flags with pend := d.late.map (fun r => ⟨x.pos + r.1 + 1, r.2.1, r.2.2⟩) }

theorem Thread.taking_holds (x : Thread) (d : Done) : (x.taking d).holdStall = x.holdStall ∧ (x.taking d).holdWdog = x.holdWdog := by
  rw [Thread.taking]
  cases d.flags <;> exact ⟨rfl, rfl⟩

theorem Thread.withFlags_quiet (x : Thread) (f : Option Flags) (h : x.atLe = false) :
    (x.withFlags f).loopCheck = (x.withFlags f, none) ∧ (x.withFlags f).pc = x.pc ∧ (x.withFlags f).pend = x.pend := by
  cases f <;> exact ⟨Thread.loopCheck_quiet _ h, rfl, rfl⟩

section
variable {s : State} {c : Fin 6} {t : Fin 4} (pend : (s.thr c t).pend = []) (slot : (s.thr c t).slot = none)
  (atLe : (s.thr c t).atLe = false)
include pend slot atLe

/-- Retirement on a thread with nothing pending, no slot and no loop end: no result lands but those of distance 0. -/
theorem State.retire_quiet (d : Done) (hn : (d.next.getD ((s.thr c t).pc + 4)).toNat % 4 = 0) (hl : ∀ r ∈ d.late, 1 ≤ r.1) :
    s.retire c t d = s.modCore c (fun k =>
      let k := d.now.foldl (fun k r => k.landOne t ⟨(s.thr c t).pos, r.1, r.2⟩) (k.putThr t ((s.thr c t).taking d))
      k.putThr t (k.thr[t].moveOn (s.thr c t).pos (d.next.getD ((s.thr c t).pc + 4)) (d.branch.map (fun tgt => ((s.thr c t).pc, tgt)))
        (if d.eret then some (s.thr c t).ppriv else none))) := by
  obtain ⟨quiet, hpc, hpend⟩ := (s.thr c t).withFlags_quiet d.flags atLe
  rw [s.retire_eq c t d slot quiet (by rwa [hpc])]
  refine congrArg (s.modCore c) (funext fun k => ?_)
  have taking : ({ (s.thr c t).withFlags d.flags with
      pend := ((s.thr c t).withFlags d.flags).pend ++ d.late.map (fun r => ⟨(s.thr c t).pos + r.1 + 1, r.2.1, r.2.2⟩) } : Thread) =
      (s.thr c t).taking d := by
    rw [hpend, pend]
    rfl
  dsimp only
  rw [taking, Core.landAt_putThr, hpc]
  intro p hp
  obtain ⟨r, hr, rfl⟩ := List.mem_map.mp hp
  have := hl r hr
  dsimp only
  omega

variable (holdStall : (s.thr c t).holdStall = false) (holdWdog : (s.thr c t).holdWdog = false)
  (stepping : (s.thr c t).stepping = false)
include holdStall holdWdog stepping

/-- Completion there: `y` is the thread as the results of distance 0 have landed. -/
theorem State.complete_quiet (d : Done) (y : Thread) (hn : (d.next.getD ((s.thr c t).pc + 4)).toNat % 4 = 0) (hl : ∀ r ∈ d.late, 1 ≤ r.1)
    (hd : d.andThen = .goOn) (hy : y.holdStall = (s.thr c t).holdStall ∧ y.holdWdog = (s.thr c t).holdWdog)
    (hland : ∀ k : Core, d.now.foldl (fun k r => k.landOne t ⟨(s.thr c t).pos, r.1, r.2⟩) (k.putThr t ((s.thr c t).taking d)) = k.putThr t y) :
    s.completeInstr c t d = s.modThr c t (fun x => y.moveOn x.pos (d.next.getD (x.pc + 4)) (d.branch.map (fun tgt => (x.pc, tgt)))
      (if d.eret then some x.ppriv else none)) := by
  refine s.completeInstr_quiet c t d _ ?_ hd stepping ?_ ?_
  · rw [State.retire_quiet pend slot atLe d hn hl]
    simp only [hland, Core.putThr_same, Core.putThr_putThr]
    rfl
  · rw [Thread.moveOn_holds.1, hy.1, holdStall]
  · rw [Thread.moveOn_holds.2, hy.2, holdWdog]

/-- Completion without a result at distance 0. -/
theorem State.complete_none (d : Done) (hn : (d.next.getD ((s.thr c t).pc + 4)).toNat % 4 = 0) (hl : ∀ r ∈ d.late, 1 ≤ r.1)
    (hd : d.andThen = .goOn) (hnow : d.now = []) : s.completeInstr c t d = s.modThr c t (fun x =>
      (x.taking d).moveOn x.pos (d.next.getD (x.pc + 4)) (d.branch.map (fun tgt => (x.pc, tgt))) (if d.eret then some x.ppriv else none)) :=
  (State.complete_quiet pend slot atLe holdStall holdWdog stepping d ((s.thr c t).taking d) hn hl hd ((s.thr c t).taking_holds d)
    (fun _ => by rw [hnow]; rfl)).trans (s.modThr_congr c t rfl)

/-- Completion with a result in a data register at distance 0. -/
theorem State.complete_data (i : Fin 16) (v : Nat) (f : Option Flags) (hn : ((s.thr c t).pc + 4).toNat % 4 = 0) :
    s.completeInstr c t { now := [(.d i, v)], flags := f } = s.modThr c t (fun x =>
      ({ x.taking { flags := f } with d := (x.taking { flags := f }).d.set i (half v) } : Thread).moveOn x.pos (x.pc + 4) none none) :=
  (State.complete_quiet pend slot atLe holdStall holdWdog stepping { now := [(.d i, v)], flags := f }
    { (s.thr c t).taking { flags := f } with d := ((s.thr c t).taking { flags := f }).d.set i (half v) } hn
    (fun _ h => by cases h) rfl ((s.thr c t).taking_holds { flags := f })
    (fun k => k.landOne_putThr t ((s.thr c t).taking { flags := f }) _ i v)).trans (s.modThr_congr c t rfl)

end

/-- Settles O33: nothing lands but what the instruction gives at distance 0, and the thread's position moves on. -/
theorem cpuCompletion : Obligations.CpuCompletion := by
  rintro s c t _ rfl pend slot atLe holdStall holdWdog stepping aligned
  have next := ptr_next_aligned aligned
  have data := fun i v f => State.complete_data pend slot atLe holdStall holdWdog stepping i v f next
  have plain := State.complete_none pend slot atLe holdStall holdWdog stepping
  have late : ∀ (tg : Target) k v, 1 ≤ k → s.completeInstr c t { late := [(k, tg, v)] } = _ := fun tg k v hk =>
    plain { late := [(k, tg, v)] } next (by simpa using hk) rfl rfl
  refine ⟨fun i v => (data i v none).trans ?_, fun i v f => (data i v f).trans ?_,
    fun f => (plain { flags := some f } next (by simp) rfl rfl).trans ?_, fun i k v hk => (late (.p i) k v hk).trans ?_,
    fun i k v hk => (late (.d i) k v hk).trans ?_, fun tgt => (plain { branch := some tgt } next (by simp) rfl rfl).trans ?_,
    fun e he => (plain { next := some e, eret := true } he (by simp) rfl rfl).trans ?_, (plain {} next (by simp) rfl rfl).trans ?_⟩ <;>
  · apply s.modThr_congr
    clear data plain late
    generalize s.thr c t = x at pend slot ⊢
    simp [Thread.moveOn, Thread.taking, Thread.withFlags, pend, slot]

/-! ## Exceptions -/

/-- Nothing lands where nothing is pending. -/
theorem Core.landAt_nil (k : Core) (t : Fin 4) (pos : Nat) (h : k.thr[t].pend = []) : k.landAt t pos = k := by
  have same : k.putThr t k.thr[t] = k := congrArg (fun v => ({ k with thr := v } : Core)) (Vector.set_getElem_self ..)
  have := k.landAt_putThr t k.thr[t] pos (by rw [h]; simp)
  rwa [same] at this

theorem Core.landAll_nil (k : Core) (t : Fin 4) (h : k.thr[t].pend = []) : k.landAll t = k := by
  simp only [Core.landAll, List.foldl_cons, List.foldl_nil, Core.landAt_nil k t _ h]

/-- The entry of an exception on a thread with nothing pending (R242). -/
theorem State.enter_quiet (s : State) (c : Fin 6) (t : Fin 4) (code : Nat) (epc : Ptr) (ds : Bool) (h : (s.thr c t).pend = []) :
    s.enter c t code epc ds = s.modCore c (fun k =>
      let x := k.putThr t { k.thr[t] with
        epc := epc, cause := half (bit ds * 0x8000 + code), psw := pswMode k.thr[t].psw true k.thr[t].priv true, pc := s.vector c t
        slot := none, waitAt := none, st := if k.thr[t].st = .wait then .ready else k.thr[t].st }
      if k.thr[t].st = .run then x.switch else x.wakeup) := by
  unfold State.enter State.modCore
  simp only [Core.landAll_nil _ t h]
  rw [show s.cores[c].thr[t].pend = [] from h]
  simp only [List.any_nil, show bit false = 0 from rfl, Nat.zero_mul, Nat.add_zero]
  rfl

/-- An instruction that raises takes the exception of its cause, with no address. -/
theorem instr_fetchFault {s : State} {c : Fin 6} {t : Fin 4} {shape bad f code} (hc : s.cpuThread c = some t)
    (hh : (s.thr c t).haltReq = false) (hb : s.bkMatch c t (shape == .branch) = none) (hf : s.fetchFault c t = some code)
    (he : code ≠ exEcc) : s.instr c shape bad f = s.raiseInstr c t code none := by
  simp only [State.instr, hc, hh, hb, hf, if_neg he]
  rfl

/-- Settles O34: the causes that stand before the instruction's own raise on its thread; a trap enters with the EPC of its case. -/
theorem cpuExceptions : Obligations.CpuExceptions := by
  rintro s c t _ rfl
  refine ⟨fun s' shape bad f h hb => instr_illegal _ _ _ _ _ _ _ h hb, fun shape bad f code hc hh hb hf he =>
    instr_fetchFault hc hh hb hf he, fun code fault exl => if_pos exl, fun code exl slot h1 h2 => ?_, fun code exl slot hcode => ?_,
    fun code br tgt exl slot => ?_, fun code a exl slot h1 h2 => ?_, fun code epc ds pend => ⟨_, rfl, ?_⟩, rfl⟩
  · simp only [State.trap, exl, slot, if_neg (not_or.mpr ⟨h1, h2⟩)]
    rfl
  · simp only [State.trap, exl, slot, if_pos hcode]
    rfl
  · simp only [State.trap, exl, slot]
    rfl
  · simp only [State.trap, exl, slot, if_neg (not_or.mpr ⟨h1, h2⟩)]
    rfl
  · rw [s.enter_quiet c t code epc ds pend]
    rfl

end Sys2Proof.Machine
end

section
/-! SUPPORT. The statements about NVMC. -/
namespace Sys2Proof.Machine

-- One proof after the other, as in the first section: the memory of the whole text is bounded.
set_option Elab.async false

/-- The command of an operation code is a write of NVMC_CMD (R278). -/
theorem exec_nvmcCode {i : Instr} {op : Nat} (s : State) (h : nvmcCode i = some op) : exec i s = .next (s.nvmcCmdWrite op) := by
  cases i
  case nvmcBadop =>
    dsimp only [nvmcCode] at h
    split at h
    · cases h
    next code =>
      cases h
      simp only [exec_nvmcBadop, execNvmcBadop, if_neg code]
  all_goals cases h
  all_goals rfl

/-- The end of a command: its work, then RESULT, BUSY and its line. -/
theorem State.nvmcDone_eq (s : State) {fails op r : Nat} {args : List Half} {t : State} (cmd : s.nvm.cmd = some (op, args))
    (work : nvmcWork s op args fails = (r, t)) : s.nvmcDone fails =
      ((((t.modNvm (fun n => { n with cmd := none })).unport .firmware).setFld F.NVMC_STATUS_RESULT r).setFlag
        F.NVMC_STATUS_BUSY false).raiseEvt F.NVMC_EVT_DONE 15 := by
  have e : s.nvmcDone fails = (let (r, s) := nvmcWork s op args fails
      let s := ((s.modNvm (fun n => { n with cmd := none })).unport .firmware).setFld F.NVMC_STATUS_RESULT r
      (s.setFlag F.NVMC_STATUS_BUSY false).raiseEvt F.NVMC_EVT_DONE 15) := by
    unfold State.nvmcDone
    rw [cmd]
    rfl
  rw [e, work]

/-- A command written while another runs is refused. -/
theorem State.nvmcCmdWrite_busy {s : State} (op : Nat) (busy : s.flag F.NVMC_STATUS_BUSY = true) :
    s.nvmcCmdWrite op = s.setFlag F.NVMC_STATUS_CMD_ERR :=
  if_pos busy

/-- Any other waits with its arguments. -/
theorem State.nvmcCmdWrite_free {s : State} (op : Nat) (busy : s.flag F.NVMC_STATUS_BUSY = false) :
    s.nvmcCmdWrite op = ((s.setFlag F.NVMC_STATUS_BUSY).modNvm (fun n => { n with
      cmd := some (op, (List.range 5).map (fun i => s.reg (A.NVMC_ARG i))) })).nvServe :=
  if_neg (by rw [busy]; decide)

/-! ## Whose turn it is (R277) -/

section
variable {s : State}

/-- NVMC at work serves no other source. -/
theorem State.nvServe_busy {k : NvSource} (cur : s.nvm.cur = some k) : s.nvServe = s :=
  if_pos (by rw [cur]; rfl)

/-- Nor does it in a life-cycle transition. -/
theorem State.nvServe_transition (lc : s.keys.lcPhase ≠ .none) : s.nvServe = s :=
  if_pos (by simp [lc])

/-- Free, it serves the first source that waits. -/
theorem State.nvServe_free (cur : s.nvm.cur = none) (lc : s.keys.lcPhase = .none) : s.nvServe = s.modNvm (fun n => { n with
    cur := [NvSource.keys, .assay, .access, .lease, .firmware].find? (fun k =>
      s.nvm.reqs.any (fun r => r.src == k) || (k == .firmware && s.nvm.cmd.isSome)) }) :=
  if_neg (by rw [cur, lc]; decide)

/-- The source that NVMC serves has the turn. -/
theorem State.nvTurn_cur {k : NvSource} (cur : s.nvm.cur = some k) : s.nvTurn k = true := by
  unfold State.nvTurn
  rw [cur]
  simp

/-- No other has it, but where firmware is served. -/
theorem State.nvTurn_other {k : NvSource} (cur : s.nvm.cur ≠ some k) (fw : s.nvm.cur ≠ some .firmware) : s.nvTurn k = false := by
  simp [State.nvTurn, cur, fw]

/-- Firmware has it only where it is served. -/
theorem State.nvTurn_firmware (cur : s.nvm.cur ≠ some .firmware) : s.nvTurn .firmware = false := State.nvTurn_other cur cur

section
variable {op : Nat} {args : List Half} {k : NvSource} (cur : s.nvm.cur = some .firmware) (cmd : s.nvm.cmd = some (op, args))
  (hk : k ≠ .firmware)
include cur cmd hk

/-- A command of firmware that is no image command leaves no other source a turn. -/
theorem State.nvTurn_record (h4 : op ≠ 4) (h5 : op ≠ 5) : s.nvTurn k = false := by
  simp [State.nvTurn, cur, cmd, h4, h5, hk.symm]

/-- An image command lets the first record in between. -/
theorem State.nvTurn_image (image : op = 4 ∨ op = 5) (lc : s.keys.lcPhase = .none) :
    s.nvTurn k = true ↔ [NvSource.keys, .assay, .access, .lease].find? (fun k => s.nvm.reqs.any (fun r => r.src == k)) = some k := by
  have hop : (op == 4 || op == 5) = true := by simpa using image
  have hno : (some NvSource.firmware == some k) = false := by simpa using hk.symm
  unfold State.nvTurn
  rw [cur, cmd, lc]
  dsimp only
  rw [hop, hno]
  simp

end

/-! ## The end of a record (R277) -/

/-- No port is firmware's own. -/
theorem sourceOf_ne_firmware (src : Fin 4) : sourceOf src ≠ .firmware := by
  revert src
  decide

/-- Out of its turn a record does not end. -/
theorem exec_nvmcRecordDone_waits {src : Fin 4} {fails : Fin 3} (turn : s.nvTurn (sourceOf src) = false) :
    exec (.nvmcRecordDone src fails) s = .next s := by
  rw [exec_nvmcRecordDone, execNvmcRecordDone]
  rw [if_neg (by rw [turn]; decide)]

/-- In its turn it ends as its source takes it. -/
theorem exec_nvmcRecordDone_turn {src : Fin 4} {fails : Fin 3} {t : State} (turn : s.nvTurn (sourceOf src) = true)
    (ht : t = match sourceOf src with
      | .keys => s.keysLease fails
      | .assay => s.repairDone fails
      | .access => s.accessLogged fails
      | _ => s.leaseEnd fails) : exec (.nvmcRecordDone src fails) s = .next t := by
  rw [exec_nvmcRecordDone, execNvmcRecordDone]
  rw [if_pos turn, ht] <;> rfl

/-- A record joins the order of its port where the port is free. -/
theorem exec_nvmcPortRecord_hands {src : Fin 4} {r : NvReq} (free : s.nvm.reqs.any (fun r => r.src == sourceOf src) = false)
    (record : s.sourceRecord (sourceOf src) = some r) :
    exec (.nvmcPortRecord src) s = .next (s.modNvm (fun n => { n with reqs := n.reqs ++ [r] })).nvServe := by
  rw [exec_nvmcPortRecord, execNvmcPortRecord]
  rw [if_neg (by rw [free]; decide), record]
  rfl

/-- Else nothing joins. -/
theorem exec_nvmcPortRecord_none {src : Fin 4}
    (h : s.nvm.reqs.any (fun r => r.src == sourceOf src) = true ∨ s.sourceRecord (sourceOf src) = none) :
    exec (.nvmcPortRecord src) s = .next s := by
  rw [exec_nvmcPortRecord, execNvmcPortRecord]
  split
  case isTrue => rfl
  case isFalse hfree => rw [h.resolve_left hfree]

/-! ## What is written -/

section
variable {r : Region} {copy : List Half} {fails : Nat}

/-- A record that reads back as first written is committed. -/
theorem State.nvRecordWrite_first {t : State} (hf : fails = 0) (place : s.nvPlace r (threeCopies copy) = some t) :
    s.nvRecordWrite r copy fails = (.committed, t) := by
  subst hf
  simp [State.nvRecordWrite, place]

/-- One that finds no room fails. -/
theorem State.nvRecordWrite_full (hf : fails = 0) (place : s.nvPlace r (threeCopies copy) = none) :
    s.nvRecordWrite r copy fails = (.full, s.raiseEvt F.NVMC_EVT_FAIL 15) := by
  subst hf
  simp [State.nvRecordWrite, place]

/-- One that reads back neither time fails. -/
theorem State.nvRecordWrite_verify {u v t : State} {l : List Byte} (hf : 2 ≤ fails) (draw : s.drawOctets (6 * copy.length) = (l, u))
    (place : u.nvPlace r (packWords l) = some v) {l2 : List Byte} {u2 : State} (draw2 : v.drawOctets (6 * copy.length) = (l2, u2))
    (place2 : u2.nvPlace r (packWords l2) = some t) : s.nvRecordWrite r copy fails = (.verify, t.raiseEvt F.NVMC_EVT_FAIL 15) := by
  have h0 : fails ≠ 0 := by omega
  have h1 : ¬fails ≤ 1 := by omega
  simp [State.nvRecordWrite, h0, h1, draw, place, draw2, place2]

end

end

/-- Settles O37: a command waits for its turn, does its work there, and a record ends in the turn of its source. -/
theorem nvmcCommands : Obligations.NvmcCommands := by
  unfold Obligations.NvmcCommands
  intro s
  refine ⟨?_, ?_, fun k => State.nvServe_busy, State.nvServe_transition, State.nvServe_free, ?_, ?_, ?_, ?_, ?_,
    fun r copy fails t => State.nvRecordWrite_first, fun r copy fails => State.nvRecordWrite_full, ?_, ?_, ?_,
    fun src r => exec_nvmcPortRecord_hands, fun src => exec_nvmcPortRecord_none, fun fails h => exec_nvmcRecordDone_turn h rfl,
    fun fails h => exec_nvmcRecordDone_turn h rfl, fun fails h => exec_nvmcRecordDone_turn h rfl,
    fun fails h => exec_nvmcRecordDone_turn h rfl, fun src => State.nvTurn_cur, ?_, fun w => rfl, ?_⟩
  case refine_1 =>
    intro i k code busy
    rw [exec_nvmcCode s code, State.nvmcCmdWrite_busy k busy]
  case refine_2 =>
    intro i k code busy
    rw [exec_nvmcCode s code, State.nvmcCmdWrite_free k busy]
    rfl
  case refine_3 =>
    intro fails op args r t u cur cmd work done
    have turn : s.nvTurn .firmware ∧ s.nvm.cmd.isSome := ⟨State.nvTurn_cur cur, by rw [cmd]; rfl⟩
    refine ⟨fun inCfg => ?_, fun n inCfg => ?_⟩
    all_goals
      rw [exec_nvmcCmdDone, execNvmcCmdDone, if_pos turn, s.nvmcDone_eq cmd work, ← done]
      dsimp only
      rw [inCfg]
  case refine_4 =>
    intro fails cur
    rw [exec_nvmcCmdDone, execNvmcCmdDone, if_neg (by rw [State.nvTurn_firmware cur]; simp)]
  case refine_5 =>
    intro src fails cur fw
    exact exec_nvmcRecordDone_waits (State.nvTurn_other cur fw)
  case refine_6 =>
    intro src fails op args cur cmd h4 h5
    exact exec_nvmcRecordDone_waits (State.nvTurn_record cur cmd (sourceOf_ne_firmware src) h4 h5)
  case refine_7 =>
    intro op args k cur cmd image hk lc
    exact State.nvTurn_image cur cmd hk image lc
  case refine_8 =>
    intro r copy fails u v t l hf draw place l2 u2 draw2 place2
    exact State.nvRecordWrite_verify hf draw place draw2 place2
  case refine_9 =>
    intro args locked
    rw [State.nvImgErase, if_pos locked]
  case refine_10 =>
    rintro args i rfl locked
    rw [State.nvImgErase, if_neg (by rw [locked]; decide)]
    rfl
  case refine_11 =>
    intro b l erasing
    rw [exec_segmentEraseDone, execSegmentEraseDone, erasing]
  case refine_12 =>
    rintro w t rfl
    simp [execAdmitWrite, State.admitWrite, bits]

end Sys2Proof.Machine
end

section
/-! SUPPORT. The statements about performance levels. -/
namespace Sys2Proof.Machine

-- One proof after the other, as in the first section: the memory of the whole text is bounded.
set_option Elab.async false

/-- A change of level as it has begun, before a lower level's lanes are powered down. -/
def State.plBegun (s : State) (t : Nat) : State :=
  ((s.modSys (fun y => { y with plChange := some (t, false) })).setFlag F.PMU_PL_STAT_BUSY).setFld F.SYSCTL_ADMIT_CAP_BYTES
    (min (admissible (s.fld F.PMU_PL_CUR)) (admissible t))

theorem State.plBegin_eq (s : State) (t : Nat) : s.plBegin t = if t < s.fld F.PMU_PL_CUR then
    forEach ((List.range 64).drop (plLanes t)) (s.plBegun t) (fun v n => v.laneLeave n laneOut) else s.plBegun t := rfl

theorem admissible_lt {n : Nat} (h : n ≤ 3) : admissible n < 4096 := by
  have each : ∀ m : Fin 4, admissible m < 4096 := by decide
  exact each ⟨n, Nat.lt_succ_of_le h⟩

/-- What a change of level sets as it begins (R285). -/
theorem State.plBegun_facts (s : State) (t : Nat) (ht : t ≤ 3) :
    (s.plBegun t).sys.plChange = some (t, false) ∧ (s.plBegun t).flag F.PMU_PL_STAT_BUSY = true ∧
    (s.plBegun t).fld F.SYSCTL_ADMIT_CAP_BYTES = min (admissible (s.fld F.PMU_PL_CUR)) (admissible t) ∧ SameMemory s (s.plBegun t) ∧
    SameRegs s (s.plBegun t) [A.PMU_PL_STAT, A.SYSCTL_ADMIT_CAP] := by
  refine ⟨by simp [State.plBegun, State.modSys], ?_, ?_, by simp [SameMemory, State.plBegun, State.modSys], fun a ha => ?_⟩
  · rw [State.plBegun, State.flag, State.fld_setFld_other _ _ _ _ (.inl (by decide))]
    exact State.flag_setFlag_same _ F.PMU_PL_STAT_BUSY true (by decide)
  · rw [State.plBegun, State.fld_setFld_same _ _ _ (by decide)]
    have := admissible_lt ht
    exact Nat.mod_eq_of_lt (Nat.lt_of_le_of_lt (Nat.min_le_right ..) this)
  · simp only [List.mem_cons, List.not_mem_nil, or_false, not_or] at ha
    rw [State.plBegun, State.reg_setFld_other _ _ ha.2, State.reg_setFlag_other _ _ ha.1]
    rfl

theorem State.fld_modLane (s : State) (n : Nat) (f : Lane → Lane) (y : Fld) : (s.modLane n f).fld y = s.fld y := by simp

/-- A lane that leaves service is out. -/
theorem State.laneLeave_laneState (s : State) (n : Nat) : (s.laneLeave n laneOut).laneState n = laneOut := by
  unfold State.laneLeave
  split
  next h => exact h
  next =>
    rw [State.laneState, State.fld_modLane]
    exact State.laneState_setLaneState (s.laneCut n) n laneOut (by decide)

section
variable (s : State) {u : State} {t : Nat} (plPend : s.sys.plPend = some t) (plWindow : s.plWindow = true)
  (plumbMayStart : s.plumbMayStart = false)
  (hu : u = (s.modSys (fun y => { y with plPend := none })).setFlag F.PMU_PL_STAT_WAITING false)
include plPend plWindow plumbMayStart hu

/-- A change that fails a check is refused with its code (R284). -/
theorem State.plChangeStart_refused {r : Nat} (refused : u.plRefused t = some r) : exec .plChangeStart s =
    .next (((u.setFld F.PMU_PL_STAT_RESULT r).raiseEvt F.PMU_EVT_PL_REFUSED 19).complete .plSet stFail r []) := by
  rw [exec_plChangeStart, execPlChangeStart, plPend]
  dsimp only
  rw [if_pos ⟨plWindow, by rw [plumbMayStart]; rfl⟩, ← hu, refused]

/-- A change that passes them begins. -/
theorem State.plChangeStart_begins (passed : u.plRefused t = none) : exec .plChangeStart s = .next (u.plBegin t) := by
  rw [exec_plChangeStart, execPlChangeStart, plPend]
  dsimp only
  rw [if_pos ⟨plWindow, by rw [plumbMayStart]; rfl⟩, ← hu, passed]

end

/-- Settles O39: a request waits for its window, the checks come first, and a change begins with the smaller cap. -/
theorem performanceLevels : Obligations.PerformanceLevels := by
  unfold Obligations.PerformanceLevels
  intro s
  refine ⟨?_, ?_, ?_, ?_, ?_, ?_, ?_, ?_, ?_, ?_, ?_⟩
  · intro t plChange
    simp [execPlRequest, State.plReqWrite, plChange]
  · intro t plChange ofNat
    simp [execPlRequest, State.plReqWrite, plChange, ofNat]
  · intro t plChange ofNat
    simp [execPlRequest, State.plReqWrite, plChange, ofNat]
  · intro t u plPend plWindow plumbMayStart hu
    refine ⟨fun bound => ?_, fun bound above => ?_, fun bound above => ?_⟩
    · exact s.plChangeStart_refused plPend plWindow plumbMayStart hu (by rw [State.plRefused, if_pos bound])
    · exact s.plChangeStart_refused plPend plWindow plumbMayStart hu
        (by rw [State.plRefused, if_neg (Nat.not_lt.mpr bound), if_pos above])
    · exact s.plChangeStart_begins plPend plWindow plumbMayStart hu
        (by rw [State.plRefused, if_neg (Nat.not_lt.mpr bound), if_neg (by rw [above]; decide)])
  · intro t plWindow plumbMayStart plPend
    simp [execPlChangeStart, plumbMayStart, plPend]
  · intro t bound bound2
    have low : ¬ t < s.fld F.PMU_PL_CUR := by omega
    exact ⟨s.plBegun t, by rw [State.plBegin_eq, if_neg low], s.plBegun_facts t (by omega)⟩
  · intro t bound bound2
    obtain ⟨change, busy, cap, memory, regs⟩ := s.plBegun_facts t (by omega)
    exact ⟨s.plBegun t, change, busy, cap, memory, regs, by rw [State.plBegin_eq, if_pos bound]⟩
  · intro n bound
    refine ⟨?_, ?_, ?_⟩
    · exact s.laneLeave_laneState n
    · intro laneState
      simp [State.laneLeave, laneState]
    · intro laneState
      simp [State.laneLeave, laneState]
  · refine ⟨?_, ?_, ?_, ?_⟩
    · rfl
    · rfl
    · rfl
    · rfl
  · rintro t u plChange rfl
    simp [execPlDividerSwitch, plChange]
  · rintro t u plChange rfl
    simp [execPlChangeDone, plChange]

end Sys2Proof.Machine
end

section
/-! SUPPORT. The statements about access sessions. -/
namespace Sys2Proof.Machine

-- One proof after the other, as in the first section: the memory of the whole text is bounded.
set_option Elab.async false

/-- A write of ACCESS_CTRL, by EN before it and after it (R182). -/
theorem State.accessCtrlWrite_eq (s : State) (w : Half) : s.accessCtrlWrite w =
    if w.getLsbD 0 && !s.flag F.ACCESS_CTRL_EN then ((s.plainWrite A.ACCESS_CTRL w).setAc acIdle).scheduleReset
    else if !w.getLsbD 0 && s.flag F.ACCESS_CTRL_EN then
      (((s.plainWrite A.ACCESS_CTRL w).cutPulse.plumbLeave.modAccess (fun a => { a with
        sess := {}, waitKnock := [], rounds := [], records := a.records.map (fun r => (r.1, false)) })).setAc acOff).lastUseDestroy
    else s.plainWrite A.ACCESS_CTRL w := by
  have en : (s.plainWrite A.ACCESS_CTRL w).flag F.ACCESS_CTRL_EN = w.getLsbD 0 := s.flag_plainWrite_rw A.ACCESS_CTRL w 0 (by decide)
  rw [State.accessCtrlWrite, en]

theorem accessEn_set (root : Fin 64) : (half (root.val * 256 + 1)).getLsbD 0 = true := by
  revert root
  decide

theorem accessEn_clear (root : Fin 64) : (half (root.val * 256)).getLsbD 0 = false := by
  revert root
  decide

/-- A port given back changes what NVMC holds alone. -/
theorem State.unport_parts (s : State) (k : NvSource) : ∃ n, s.unport k = { s with nvm := n } := by
  unfold State.unport State.nvServe
  split
  · exact ⟨_, rfl⟩
  · exact ⟨_, rfl⟩

/-- A record that goes to the event log leaves the session and the registers of ACCESS. -/
theorem State.evtRecord_access (s : State) (ws : List Half) (ch : List (Fin 6)) (c e : Nat) (p : List Half) :
    (((s.evtAppend ws).unport .access).event ch c e p).acState = s.acState ∧
    (((s.evtAppend ws).unport .access).event ch c e p).access = s.access := by
  obtain ⟨⟨m, b, l, n, f, r, k, a, kept⟩, regs⟩ := onlyNv_evtAppend s ws
  have status : (s.evtAppend ws).reg A.ACCESS_STATUS = s.reg A.ACCESS_STATUS := regs _ (by decide)
  obtain ⟨v, served⟩ := (s.evtAppend ws).unport_parts .access
  obtain ⟨d, sent⟩ := ((s.evtAppend ws).unport .access).event_parts ch c e p
  rw [sent, served]
  constructor
  · exact congrArg (fun w => F.ACCESS_STATUS_STATE.of w) status
  · show (s.evtAppend ws).access = s.access
    rw [kept]

/-- A record of the event log that reads back is appended. -/
theorem State.nvRecordWrite_evt (s : State) (copy : List Half) :
    s.nvRecordWrite .evt copy 0 = (.committed, s.evtAppend (threeCopies copy)) := rfl

section
variable (s : State) (w : List Half) (l : List (List Half × Bool)) (t : State)

/-- The record of a release commits: the lock opens (R199, R201). -/
theorem State.accessLogged_release (records : s.access.records = (w, true) :: l) (kind : bits (wordAt w 4) 15 12 = 1)
    (log : s.acState = acLog) (verdict : s.access.sess.verdict = some avRelease)
    (ht : t = (((s.modAccess (fun a => { a with records := l })).evtAppend (threeCopies (copyWords 5 1 w 0))).unport .access).event
      hostChans 7 0x80 w) :
    s.accessLogged 0 = (((((t.modAccess (fun a => { a with
        lockA := true, lockB := false, relEnd := t.hft + 48 * (1000 * t.fld F.ACCESS_REL_PULSE) })).setFlag
        F.ACCESS_STATUS_RELEASE).raiseEvt F.ACCESS_EVT_RELEASE 14).count A.ACCESS_CNT_RELEASE).setAc acRelease).lastUseDestroy := by
  obtain ⟨state, sess⟩ := (s.modAccess (fun a => { a with records := l })).evtRecord_access (threeCopies (copyWords 5 1 w 0))
    hostChans 7 0x80 w
  rw [← ht] at state sess
  have stands : t.acState = acLog := state.trans log
  have released : t.access.sess.verdict = some avRelease := by rw [sess]; exact verdict
  simp only [State.accessLogged, records, State.nvRecordWrite_evt, if_pos kind]
  simp only [show decide (0 < 2) = true from rfl, if_true, ← ht]
  rw [if_pos ⟨trivial, stands⟩, if_pos ⟨trivial, released⟩]

/-- The record of a release fails: the session ends with its verdict changed. -/
theorem State.accessLogged_failed (records : s.access.records = (w, true) :: l) (kind : bits (wordAt w 4) 15 12 = 1)
    (ht : t = ((((s.modAccess (fun a => { a with records := l })).nvRecordWrite .evt (copyWords 5 1 w 0) 2).2.unport .access).setFlag
      F.ACCESS_STATUS_LOG_ERR).event hostChans 7 0x80 w)
    (log : t.acState = acLog) (verdict : t.access.sess.verdict = some avRelease) :
    s.accessLogged 2 = (((t.modSess (fun x => { x with verdict := some avLogFail })).setFld
        F.ACCESS_LAST_VERDICT_VERDICT avLogFail).setAc acIdle).sessionOver := by
  simp only [State.accessLogged, records, if_pos kind]
  simp only [show decide (2 < 2) = false from rfl, Bool.false_eq_true, if_false, false_and, ← ht]
  rw [if_pos ⟨trivial, log⟩]
  simp only [verdict]
  rfl

end

theorem exec_accessLogCommitted_turn (s : State) (ok : Bool) (h : s.nvm.cur = none ∨ s.nvTurn .access = true) :
    exec (.accessLogCommitted ok) s = .next (s.accessLogged (if ok then 0 else 2)) := by
  rw [exec_accessLogCommitted, execAccessLogCommitted, if_pos]
  rcases h with h | h <;> simp [h]

/-- Settles O25: EN moves the states, each deadline passes to its own, and the record's outcome releases or ends the session. -/
theorem accessSessionStates : Obligations.AccessSessionStates := by
  unfold Obligations.AccessSessionStates
  intro s
  refine ⟨?_, ?_, ?_, ?_, ?_, ?_, ?_, ?_, ?_, ?_, ?_, ?_, ?_, ?_, ?_, ?_, ?_⟩
  · intro root en
    rw [exec_accessEnable, execAccessEnable, State.accessCtrlWrite_eq, accessEn_set, en]
    rfl
  · intro root en
    rw [exec_accessEnable, execAccessEnable, State.accessCtrlWrite_eq, accessEn_set, en]
    rfl
  · rintro root t u en rfl rfl
    rw [exec_accessDisable, execAccessDisable, State.accessCtrlWrite_eq, accessEn_clear, en]
    rfl
  · intro root en
    rw [exec_accessDisable, execAccessDisable, State.accessCtrlWrite_eq, accessEn_clear, en]
    rfl
  · rintro t ant acState burst rfl rfl
    simp [execLfTelegramStart, acState, burst]
  · rintro t acState rfl
    simp [execChallengeEnd, Session.telegramTicks, acState]
  · intro acState
    simp [execResponseTimeout, acState]
  · intro acState
    simp [execReportTimeout, acState]
  · intro n rssi snr err f laneFrame laneState hlength
    simp [execLaneHandoff, laneFrame, laneState, hlength]
  · intro records ok
    simp [execAccessLogCommitted, State.accessLogged, records]
  · intro k ok cur nvTurn
    simp [execAccessLogCommitted, cur, nvTurn]
  · rintro w l t either records bits acState verdict rfl
    rw [exec_accessLogCommitted_turn s true either]
    exact congrArg Host.Outcome.next (s.accessLogged_release w l _ records bits acState verdict rfl)
  · intro w l t either records bits ht acState verdict
    rw [exec_accessLogCommitted_turn s false either]
    exact congrArg Host.Outcome.next (s.accessLogged_failed w l t records bits ht acState verdict)
  · intro release
    simp [execReleasePulseEnd, release]
  · intro release
    simp [execReleasePulseEnd, release]
  · rintro t rfl release
    simp [execLockReadbackFault, State.cutPulse, release]
  · rintro t rfl release
    simp [execLockReadbackFault, release]

end Sys2Proof.Machine
end

section
/-! SUPPORT. The statements about ASHLAR. -/
namespace Sys2Proof.Machine

-- One proof after the other, as in the first section: the memory of the whole text is bounded.
set_option Elab.async false

/-- A secured frame that fails one of the steps 2 to 14 leaves the state (R133). -/
theorem ashlarCheck_failed (s : State) (f : Frame) (inTime : Bool) {v : Nat} (sec : (mhrOf f.octets).sec = true)
    (h : s.ashlarSteps (mhrOf f.octets) (secOf f.octets (mhrOf f.octets) (f.len - fcsLen f.fcs32)) = .inl v) :
    (s.ashlarCheck f inTime).1.failed = some v ∧ (s.ashlarCheck f inTime).2 = s := by
  unfold State.ashlarCheck
  simp only [sec, h]
  exact ⟨rfl, rfl⟩

theorem State.ashlarSteps_lc (s : State) (m : Mhr) (x : Sec) (h : s.keys.lcPhase ≠ .none) : s.ashlarSteps m x = .inl 0x03 := by
  unfold State.ashlarSteps
  exact if_pos (bne_iff_ne.mpr h)

theorem State.ashlarSteps_off (s : State) (m : Mhr) (x : Sec) (h : s.keys.lcPhase = .none) (en : s.flag F.ASHLAR_CTRL_EN = false) :
    s.ashlarSteps m x = .inl 0x14 := by
  simp only [State.ashlarSteps, State.lcMute, h, en]
  rfl

/-- An empty dirty queue emptied again. -/
theorem State.modAshlar_dirtyQ_same (s : State) (h : s.ashlar.dirtyQ = []) : s.modAshlar (fun a => { a with dirtyQ := [] }) = s := by
  rw [← h]
  rfl

/-- Where every entry passes the test, nothing is left. -/
theorem dropWhile_eq_nil_of_all {α : Type} {p : α → Bool} {l : List α} (h : ∀ x ∈ l, p x = true) : l.dropWhile p = [] := by
  induction l with
  | nil => rfl
  | cons x xs ih =>
    rw [List.dropWhile_cons_of_pos (h x (.head _))]
    exact ih (fun y hy => h y (.tail _ hy))

/-- Settles O20: a check that fails keeps the state, a verdict commits in Hod order, and the lease writer takes its next record. -/
theorem ashlarVerdictsAndLeases : Obligations.AshlarVerdictsAndLeases := by
  unfold Obligations.AshlarVerdictsAndLeases
  refine ⟨?_, ?_⟩
  · intro s n
    refine ⟨?_, ?_, ?_, ?_, ?_, ?_, ?_, ?_, ?_, ?_⟩
    · intro inTime f c t frameOf ashlarCheck
      simp [execAshlarLookup, frameOf, ashlarCheck]
    · intro inTime f sec lcPhase
      exact ashlarCheck_failed s f inTime sec (s.ashlarSteps_lc _ _ lcPhase)
    · intro inTime f sec lcPhase en
      exact ashlarCheck_failed s f inTime sec (s.ashlarSteps_off _ _ lcPhase en)
    · rintro f c x good frameOf check rfl bound micGood
      simp [execAshlarMicCheck]
      grind
    · rintro f c x frameOf check rfl bound
      simp [execAshlarMicCheck, frameOf, check, bound]
    · intro f h frameOf handoff
      simp [execVerdictDeadline, frameOf, handoff]
    · rintro f h c v e t frameOf handoff check fcsErr cut any commitRow lcPhase verdict rfl
      simp [execAshlarCommit, State.lcMute, frameOf, handoff, check, fcsErr, cut, any, commitRow, lcPhase, verdict] <;> rfl
    · intro f h c frameOf handoff check any
      simp [execAshlarCommit, frameOf, handoff, check, any]
    · intro c e heard find ofNat bound
      simp [State.commitRow, find, ofNat, bound]
    · intro c e heard find ofNat bound dirty
      simp [State.commitRow]
      grind
  · intro s
    refine ⟨?_, ?_, ?_, ?_, ?_, ?_, ?_, ?_, ?_, ?_, ?_, ?_, ?_, ?_, ?_, ?_, ?_, ?_⟩
    · intro r l leaseFree deletes
      simp [execLeaseWrite, leaseFree, deletes]
    · intro u l e leaseFree deletes dirtyQ find dirty
      rw [exec_leaseWrite, execLeaseWrite, leaseFree, deletes, dirtyQ]
      have stays : ∀ p : BitVec 64 → Bool, p u = false → (u :: l).dropWhile p = u :: l :=
        fun p h => List.dropWhile_cons_of_neg (by simp [h])
      dsimp only
      rw [stays _ (by simp [find, dirty]), if_neg (by decide)]
      show Host.Outcome.next (match s.ashlar.find u with | some e => _ | none => _) = _
      rw [find]
      rfl
    · intro leaseFree deletes dirtyQ
      rw [exec_leaseWrite, execLeaseWrite, leaseFree, deletes, dirtyQ]
      exact congrArg Host.Outcome.next (s.modAshlar_dirtyQ_same dirtyQ)
    · intro e leaseFree deletes dirtyQ sweep find
      simp [execLeaseSweep, leaseFree, deletes, dirtyQ, sweep, find]
    · intro leaseFree deletes dirtyQ sweep find
      simp [execLeaseSweep, leaseFree, deletes, dirtyQ, sweep, find]
    · intro r n u t mk leaseOut nvTurn nvFits nvRecordWrite
      simp [execLeaseCommitted, State.leaseEnd]
      grind
    · intro r t leaseOut nvTurn nvFits nvRecordWrite
      simp [execLeaseWriteFailed, State.leaseEnd]
      split <;> simp_all
    · intro leaseOut
      simp [execLeaseWriteFailed, State.leaseEnd, leaseOut]
    · intro r
      rfl
    · intro r e find outGone
      simp [State.leaseDone, find, outGone]
    · intro r e find lease leaseRec dirty outGone
      simp [State.leaseDone, find, lease, leaseRec, dirty, outGone]
    · intro r find
      simp [State.leaseDone, find]
    · intro b freeing
      simp [execLeaseSegmentReclaim, freeing]
    · intro freeing leaseFree
      simp [execLeaseSegmentReclaim, freeing, leaseFree]
    · intro freeing leaseFree reclaim bound
      simp [execLeaseSegmentReclaim, State.reclaimNext, State.reclaimStart]
      grind
    · intro i b l freeing leaseFree reclaim bound segsInUse
      simp [execLeaseSegmentReclaim, State.reclaimStart]
      grind
    · intro b u l e freeing leaseFree reclaim find
      simp [execLeaseSegmentReclaim, State.reclaimNext, State.reclaimStart, freeing, leaseFree, reclaim, find]
    · intro b l freeing leaseFree reclaim h
      have gone : l.dropWhile (fun u => (s.ashlar.find u).isNone) = [] :=
        dropWhile_eq_nil_of_all (fun u hu => by rw [h u hu]; rfl)
      have started : s.reclaimStart = s := by simp only [State.reclaimStart, reclaim]
      simp only [exec_leaseSegmentReclaim, execLeaseSegmentReclaim, freeing, leaseFree, if_true, started, State.reclaimNext, reclaim, gone]
      rfl

end Sys2Proof.Machine
end

section
/-! SUPPORT. The statements about operations on the table of ASHLAR. -/
namespace Sys2Proof.Machine

-- One proof after the other, as in the first section: the memory of the whole text is bounded.
set_option Elab.async false

/-- The operation of a code is a write of ASHLAR_E_CMD (R152). -/
theorem exec_entryCode {i : Instr} {op : Nat} (s : State) (h : entryCode i = some op) : exec i s = .next (s.entryOp op) := by
  cases i
  case entryOpBadop =>
    dsimp only [entryCode] at h
    split at h
    · cases h
    next code =>
      cases h
      simp only [exec_entryOpBadop, execEntryOpBadop, if_neg code]
  all_goals cases h
  all_goals rfl

/-- An operation that is taken leaves its code and result for ENTRY_OP_DONE. -/
theorem State.entryOp_run (s : State) {op r : Nat} {u : State} (busy : s.flag F.ASHLAR_STATUS_CMD_BUSY = false)
    (h : (if (s.setFlag F.ASHLAR_STATUS_CMD_BUSY).ensureHk.flag F.ASHLAR_STATUS_RESTORE ∧ op ≠ 1
      then (eBusy, (s.setFlag F.ASHLAR_STATUS_CMD_BUSY).ensureHk) else (s.setFlag F.ASHLAR_STATUS_CMD_BUSY).ensureHk.entryAct op) = (r, u)) :
    s.entryOp op = u.modAshlar (fun a => { a with op := some (if r = eBusy then 0 else op, r) }) := by
  unfold State.entryOp
  rw [if_neg (by rw [busy]; decide)]
  dsimp only
  rw [h]

/-- Settles O21: each command goes by the flags it meets, and an operation's result waits for its end. -/
theorem ashlarTableOperations : Obligations.AshlarTableOperations := by
  unfold Obligations.AshlarTableOperations
  refine ⟨?_, ?_⟩
  · intro s
    refine ⟨?_, ?_, ?_, ?_, ?_, ?_, ?_, ?_, ?_, ?_, ?_, ?_, ?_, ?_, ?_, ?_, ?_, ?_⟩
    · intro en
      simp [execAshlarEnable, State.ashlarCtrlWrite, en]
    · intro en
      simp [execAshlarEnable, State.ashlarCtrlWrite, en]
    · rfl
    · intro en
      refine ⟨?_, ?_⟩
      · simp [execAshlarCmdRestore, State.ashlarCmdWrite, State.restoreStart, en]
      · simp [execAshlarCmdRebuild, State.ashlarCmdWrite, en]
    · intro restore
      simp [execAshlarCmdRestore, State.ashlarCmdWrite, State.restoreStart, restore]
    · intro en restore
      have ready : ((s.setFlag F.ASHLAR_STATUS_REBUILD false).setFlag F.ASHLAR_STATUS_RESTORE).drbgReady = s.drbgReady := by
        unfold State.drbgReady
        simp (disch := decide) [State.flag_setFlag_other]
      simp [execAshlarCmdRestore, State.ashlarCmdWrite, State.restoreStart, en, restore, ready]
    · intro en either
      simp [execAshlarCmdRebuild, State.ashlarCmdWrite, State.rebuildTrigger, en, either]
    · intro en rebuild restore
      simp [execAshlarCmdRebuild, State.ashlarCmdWrite, State.rebuildTrigger, en, rebuild, restore]
    · intro wantHk drbgReady
      simp [execHkDraw, wantHk, drbgReady]
    · intro wantHk drbgReady keysWantsDrbg
      simp [execHkDraw, wantHk, drbgReady, keysWantsDrbg]
    · intro k t wantHk drbgReady keysWantsDrbg drbg restore
      simp (disch := decide) [execHkDraw, wantHk, drbgReady, keysWantsDrbg, drbg, restore, State.flag_setFlag_other]
    · intro k t wantHk drbgReady keysWantsDrbg drbg restore
      simp (disch := decide) [execHkDraw, wantHk, drbgReady, keysWantsDrbg, drbg, restore, State.flag_setFlag_other]
    · intro restore wantHk
      simp [execRestoreDone, restore, wantHk]
    · intro t rebuild wantHk replaced ht
      have starts : (s.flag F.ASHLAR_STATUS_REBUILD && !s.ashlar.wantHk && !s.ashlar.replaced) = true := by simp [rebuild, wantHk, replaced]
      rw [exec_rebuildStart, execRebuildStart, if_pos starts, ← ht]
    · intro rebuild replaced
      simp [execRebuildDone, rebuild, replaced]
    · rintro w e epoch rfl hMod
      simp [execTenantEpochWrite, State.tepochWrite, epoch, hMod]
    · intro w e epoch he bound hMod
      simp [execTenantEpochWrite, State.tepochWrite, epoch, he, bound, hMod]
    · intro w e epoch he either
      simp [execTenantEpochWrite, State.tepochWrite, epoch, he]
      omega
  · intro s
    refine ⟨?_, ?_, ?_, ?_, ?_, ?_, ?_, ?_, ?_, ?_, ?_, ?_, ?_, ?_⟩
    · intro i k entryCode busy
      rw [exec_entryCode s entryCode, State.entryOp, if_pos busy]
    · rintro i k t r u entryCode busy rfl either entryAct
      rw [exec_entryCode s entryCode, s.entryOp_run busy (u := u) (r := r)]
      rw [if_neg, entryAct]
      rintro ⟨restoring, other⟩
      rcases either with h | h
      · rw [h] at restoring
        cases restoring
      · exact other h
    · rintro i k t entryCode busy rfl restore hk
      rw [exec_entryCode s entryCode, s.entryOp_run busy (if_pos ⟨restore, hk⟩)]
      rfl
    · intro e find
      simp [State.entryAct, find]
    · intro k find either
      rcases either with rfl | rfl | rfl | rfl | rfl | rfl <;>
      simp [State.entryAct, State.entryDelete, State.entryChange, find]
    · intro e find
      simp [State.entryAct, State.entryInsert, find]
    · intro find bound
      simp [State.entryAct, State.entryInsert, find, bound]
    · rintro t e find bound rfl rfl
      refine ⟨?_, ?_, ?_⟩
      · intro usable
        simp [State.entryAct, State.entryInsert, find, Nat.not_le.mpr bound, usable]
      · intro usable hMod
        simp [State.entryAct, State.entryInsert, find, Nat.not_le.mpr bound, usable, hMod]
      · intro usable hMod
        simp [State.entryAct, State.entryInsert, find, Nat.not_le.mpr bound, usable, hMod]
    · intro e pend find
      simp [State.entryAct, State.entryChange]
      grind
    · rintro e quar t find rfl
      simp [State.entryAct, State.entryChange]
      grind
    · intro e find
      simp [State.entryAct, State.entryDelete, find]
    · intro op either
      simp [State.entryAct]
      split <;> simp_all
    · rintro op r t op2 hop rfl
      simp [execEntryOpDone, State.entryFinish, op2, hop]
      split <;> simp_all
    · intro r op
      simp [execPurgeDone, op]

end Sys2Proof.Machine
end

section
/-! SUPPORT. The statements about CRYPTO. -/
namespace Sys2Proof.Machine

-- One proof after the other, as in the first section: the memory of the whole text is bounded.
set_option Elab.async false

/-! ## Slots and leases -/

@[simp] theorem State.slot_setSlot_same (s : State) (n : Nat) (k : Slot) : (s.setSlot n k).slot n = k :=
  (sparseGet_sparseSet ..).trans (if_pos rfl)

/-- A use taken from a counted slot. -/
theorem State.takeUse_slot (s : State) (n : Nat) (h : (s.slot n).counted = true) :
    (s.takeUse n).slot n = { s.slot n with u := (s.slot n).u - 1 } := by
  unfold State.takeUse
  rw [if_pos h]
  dsimp only
  split
  · exact s.slot_setSlot_same n _
  · exact s.slot_setSlot_same n _

theorem State.takeUse_uncounted (s : State) (n : Nat) (h : (s.slot n).counted = false) : s.takeUse n = s := by
  rw [State.takeUse, if_neg (by simp [h])]

/-- A use leaves all but KEYS. -/
theorem State.takeUse_parts (s : State) (n : Nat) : ∃ q, s.takeUse n = { s with keys := q } := by
  unfold State.takeUse
  dsimp only
  split
  · split
    · exact ⟨_, rfl⟩
    · exact ⟨_, rfl⟩
  · exact ⟨_, rfl⟩

/-- A lease whose rewrite reads back is in force (R161). -/
theorem State.leasePut_commits (s : State) (n f l : Nat) {fails : Nat} (h : fails < 2) : (s.leasePut n f l fails).1 = true ∧
    (s.leasePut n f l fails).2.slot n = { s.slot n with f := min f (s.slot n).f, l := max l (s.slot n).l } := by
  unfold State.leasePut
  dsimp only
  rw [if_pos (.inl h)]
  exact ⟨rfl, State.slot_setSlot_same _ n _⟩

/-- A lease whose rewrite does not read back leaves LEASE_ERR. -/
theorem State.leasePut_fails (s : State) (n f l : Nat) (h : f < (s.slot n).f ∨ (s.slot n).l < l) :
    (s.leasePut n f l 2).1 = false ∧ (s.leasePut n f l 2).2.flag F.KEYS_STATUS_LEASE_ERR = true := by
  unfold State.leasePut
  dsimp only
  rw [if_neg (by omega)]
  exact ⟨rfl, State.flag_setFlag_same _ _ _ (by decide)⟩

theorem State.draw_lt (s : State) {n : Nat} (h : 0 < n) : (s.draw n).1 < n := Nat.mod_lt _ h

/-- Without a request, or out of its turn, a commit changes neither KEYS nor MRAM. -/
theorem State.keysLeaseCommit_idle (s : State) (ok : Bool) (h : s.keys.commit = none ∨ s.keysMayWrite = false) :
    ∃ t, exec (.keysLeaseCommit ok) s = .next t ∧ t.keys = s.keys ∧ t.mram = s.mram := by
  refine ⟨_, rfl, ?_⟩
  cases hm : s.keysMayWrite with
  | false =>
    rw [if_pos (by rfl)]
    exact ⟨rfl, rfl⟩
  | true =>
    have none : s.keys.commit = none := h.resolve_right (by rw [hm]; decide)
    have kept : ∀ (u : State) k, u.keys.commit = .none → u.keysLease k = u := fun u k hu => by rw [State.keysLease, hu]
    cases ok with
    | true =>
      dsimp only
      rw [if_neg (by decide), if_pos rfl, kept (s.draw 2).2 (s.draw 2).1 none]
      exact ⟨rfl, rfl⟩
    | false =>
      dsimp only
      rw [if_neg (by decide), if_neg (by decide), kept _ _ none]
      exact ⟨rfl, rfl⟩

/-! ## Jobs -/

/-- The command of a mode is a start of the next descriptor (R158). -/
theorem exec_jobMode {i : Instr} {m : Nat} (s : State) (h : jobMode i = some m) : exec i s = .next (s.jobCommand m) := by
  cases i <;> cases h <;> rfl

theorem State.exec_job (s : State) {i : Instr} {m : Nat} (h : jobMode i = some m) (waits : s.ringWaits = true)
    (commit : s.keys.commit = none) (mode : s.nextDesc.mode = m) : exec i s = .next (s.jobStart.skipReserved 16) := by
  rw [exec_jobMode s h, State.jobCommand, if_pos]
  simp [waits, commit, mode]

/-- The start of the next descriptor on a free core (R159 to R161). -/
theorem State.jobStart_eq (s : State) {core : Nat} (h : s.freeCore = some core) : s.jobStart =
    match s.jobCheck s.nextDesc (s.crypto.submitter.getD (s.crypto.next % 16) 0) with
    | some st => (s.modCrypto (fun c => { c with next := (s.crypto.next + 1) % 32 })).jobWrite s.crypto.next st none
        (bits (s.nextDesc.w 0) 10 10 = 1)
    | none => match (s.slot s.nextDesc.slot).leaseNeed true s.nextDesc.nctr with
      | some (f, l) => s.modKeys (fun q => { q with commit := some (s.nextDesc.slot, f, l) })
      | none => (s.modCrypto (fun c => { c with next := (s.crypto.next + 1) % 32 })).jobRun s.nextDesc core s.crypto.next := by
  unfold State.jobStart
  rw [h] <;> rfl

/-- A job has taken its counter value and its use. -/
def State.jobTaken (s : State) (d : Desc) : State :=
  (if d.nctr then s.setSlot d.slot { s.slot d.slot with c := (s.slot d.slot).c + 1 } else s).takeUse d.slot

theorem State.jobTaken_slot (s : State) (d : Desc) : (s.jobTaken d).slot d.slot =
    { s.slot d.slot with c := if d.nctr then (s.slot d.slot).c + 1 else (s.slot d.slot).c
                         u := if (s.slot d.slot).counted then (s.slot d.slot).u - 1 else (s.slot d.slot).u } := by
  have taken : ∀ (u : State) (k : Slot), u.slot d.slot = k →
      (u.takeUse d.slot).slot d.slot = { k with u := if k.counted then k.u - 1 else k.u } := by
    rintro u _ rfl
    cases hc : (u.slot d.slot).counted
    · rw [u.takeUse_uncounted d.slot hc]
      rfl
    · rw [u.takeUse_slot d.slot hc]
      rfl
  unfold State.jobTaken
  cases d.nctr
  · exact taken s _ rfl
  · exact taken _ _ (s.slot_setSlot_same d.slot _)

theorem State.jobTaken_crypto (s : State) (d : Desc) : (s.jobTaken d).crypto = s.crypto := by
  unfold State.jobTaken
  obtain ⟨q, h⟩ := State.takeUse_parts (if d.nctr then s.setSlot d.slot { s.slot d.slot with c := (s.slot d.slot).c + 1 } else s) d.slot
  rw [h]
  cases d.nctr <;> rfl

theorem State.jobTaken_sram (s : State) (d : Desc) : (s.jobTaken d).sram = s.sram := by
  unfold State.jobTaken
  obtain ⟨q, h⟩ := State.takeUse_parts (if d.nctr then s.setSlot d.slot { s.slot d.slot with c := (s.slot d.slot).c + 1 } else s) d.slot
  rw [h]
  cases d.nctr <;> rfl

/-- A job whose operands lie in general SRAM holds its mode's result (R158, R159). -/
theorem State.jobRun_eq (s : State) (d : Desc) (core idx : Nat) {ns nd : Nat} (sizes : d.sizes = (ns, nd))
    (src : inSram d.src ns = true) (dst : inSram d.dst nd = true) : s.jobRun d core idx =
    ((((s.jobTaken d).count A.CRYPTO_CNT_JOBS).draw (min (inside d.src ns) (inside d.dst nd) / 16 * 16 + 1)).2.modCrypto (fun c => { c with
      jobs := c.jobs ++ [{ core := core, idx := idx, slot := d.slot, irq := bits (d.w 0) 10 10 = 1
                           status := if (d.run (s.slot d.slot).key (s.sramTake d.src ns) (if d.nctr then (s.slot d.slot).c else 0)).2
                             then jMicFail else jOk
                           dst := d.dst
                           out := (d.run (s.slot d.slot).key (s.sramTake d.src ns) (if d.nctr then (s.slot d.slot).c else 0)).1
                           issued := if d.nctr then some (s.slot d.slot).c else none }] })).cryptoBusy := by
  have issued : (if d.nctr then some (s.slot d.slot).c else none).getD 0 = if d.nctr then (s.slot d.slot).c else 0 := by
    cases d.nctr <;> rfl
  have read : ∀ a n, ((s.jobTaken d).count A.CRYPTO_CNT_JOBS).sramTake a n = s.sramTake a n := fun a n => by
    simp only [State.sramTake, State.count_fields, State.jobTaken_sram]
  unfold State.jobRun
  simp only [sizes, issued, src, dst]
  have same : ((if d.nctr then s.setSlot d.slot { s.slot d.slot with c := (s.slot d.slot).c + 1 } else s).takeUse d.slot).count
    A.CRYPTO_CNT_JOBS = (s.jobTaken d).count A.CRYPTO_CNT_JOBS := rfl
  rw [same, read]
  rfl

/-- Settles O22: the next descriptor fails a check, waits for its lease or runs, and a lease commits or leaves LEASE_ERR. -/
theorem cryptoJobsAndModes : Obligations.CryptoJobsAndModes := by
  unfold Obligations.CryptoJobsAndModes
  refine ⟨?_, ?_, ?_, ?_, ?_, ?_, ?_, ?_, ?_⟩
  · intro s
    refine ⟨?_, ?_, ?_, ?_, ?_, ?_, ?_, ?_, ?_, ?_, ?_, ?_, ?_, ?_, ?_, ?_⟩
    · rintro i m core d sub jobMode ringWaits commit rfl mode freeCore rfl
      refine ⟨?_, ?_, ?_⟩
      · intro st jobCheck
        rw [s.exec_job jobMode ringWaits commit mode, s.jobStart_eq freeCore, jobCheck]
        rfl
      · intro f l jobCheck leaseNeed
        rw [s.exec_job jobMode ringWaits commit mode, s.jobStart_eq freeCore, jobCheck]
        simp only [leaseNeed]
      · intro jobCheck leaseNeed
        rw [s.exec_job jobMode ringWaits commit mode, s.jobStart_eq freeCore, jobCheck]
        simp only [leaseNeed]
        rfl
    · intro i m jobMode either
      rw [exec_jobMode s jobMode, State.jobCommand, if_neg]
      rcases either with h | h | h <;> simp [h]
    · rintro d core idx ns nd k r sizes inSram inSram2 rfl rfl
      refine ⟨?_, ?_⟩
      · rw [s.jobRun_eq d core idx sizes inSram inSram2]
        simp [State.cryptoBusy, State.draw, State.jobTaken_crypto]
      · rw [s.jobRun_eq d core idx sizes inSram inSram2]
        show (s.jobTaken d).slot d.slot = _
        exact s.jobTaken_slot d
    · rintro k j t find rfl
      simp [execCryptoJobDone, find]
    · intro en
      simp [execCryptoEnable, State.cryptoCtrlWrite, en]
    · intro en
      simp [execCryptoDisable, State.cryptoCtrlWrite, en]
    · intro en jobs
      simp [execCryptoDisable, State.cryptoCtrlWrite, en, jobs]
    · intro en jobs
      simp [execCryptoDisable, State.cryptoCtrlWrite, en, jobs]
    · intro c w bound
      simp [execCryptoQueueWrite, State.queueWrite, bound]
    · rintro c w rd held new rfl rfl rfl bound
      simp [execCryptoQueueWrite, State.queueWrite, Nat.not_lt.mpr bound]
    · intro n f l again t commit keysMayWrite draw
      have mayWrite : ¬ (!s.keysMayWrite) = true := by simp [keysMayWrite]
      have waits : t.keys.commit = some (n, f, l) := by
        rw [show t = (s.draw 2).2 by rw [draw]]
        exact commit
      have lo : again < 2 := by
        rw [show again = (s.draw 2).1 by rw [draw]]
        exact s.draw_lt (by decide)
      rw [exec_keysLeaseCommit, execKeysLeaseCommit, if_neg mayWrite, if_pos rfl, draw]
      dsimp only
      rw [State.keysLease, waits]
      dsimp only
      rw [if_pos (t.leasePut_commits n f l lo).1]
    · intro n f l commit keysMayWrite either
      have mayWrite : ¬ (!s.keysMayWrite) = true := by simp [keysMayWrite]
      rw [exec_keysLeaseCommit, execKeysLeaseCommit, if_neg mayWrite, if_neg (by decide), State.keysLease, commit]
      dsimp only
      rw [if_neg (by rw [(s.leasePut_fails n f l either).1]; decide)]
    · intro ok either
      exact s.keysLeaseCommit_idle ok either
    · intro n f l fails bound
      exact s.leasePut_commits n f l bound
    · intro n f l either
      exact s.leasePut_fails n f l either
    · simp [State.keysMayWrite]
  · rintro d key src issued x rfl
    refine ⟨?_, ?_, ?_, ?_, ?_, ?_⟩
    · intro mode
      simp [Desc.run, mode]
    · intro mode
      simp [Desc.run, mode]
    · intro mode
      simp [Desc.run, mode]
    · intro mode
      simp [Desc.run, mode]
    · intro mode
      simp [Desc.run, mode]
    · intro mode
      simp [Desc.run, mode]
  · rintro d key src issued nonce a m mode rfl rfl rfl
    simp [Desc.run, mode]
  · rintro d key src issued nonce a m mode rfl rfl rfl
    simp [Desc.run, mode]
  · intro d sub
    simp [Desc.bad]
    grind
  · rintro s d sub k rfl
    simp [State.jobCheck, State.slotAdmits]
    grind
  · intro k ctr
    simp [Slot.leaseNeed]
  · intro s n counted
    rw [s.takeUse_slot n counted]
  · intro s n counted
    simp [State.takeUse, counted]

end Sys2Proof.Machine
end

section
/-! SUPPORT. The statements about the fabric. -/
namespace Sys2Proof.Machine

-- One proof after the other, as in the first section: the memory of the whole text is bounded.
set_option Elab.async false

/-- One HELLO for each hello channel, the second with the next sequence number (R348). -/
theorem State.helloPair (s : State) (a : Nat) :
    forEach [true, false] s (fun s bb =>
      let (q, s) := s.fabSeq
      let p := fabHeader 1 0 s.fabric.src 0xFFFF 16 0 q ++ s.helloBody a
      s.modFabric (fun f => { f with hellos := f.hellos ++ [{ bb := bb, asn := a, payload := p }] })) =
    s.modFabric (fun f => { f with
      seq := ((f.seq + 1) % 65536 + 1) % 65536
      hellos := f.hellos ++ [{ bb := true, asn := a, payload := fabHeader 1 0 s.fabric.src 0xFFFF 16 0 s.fabric.seq ++ s.helloBody a },
        { bb := false, asn := a, payload := fabHeader 1 0 s.fabric.src 0xFFFF 16 0 ((s.fabric.seq + 1) % 65536) ++ s.helloBody a }] }) := by
  simp only [forEach, List.foldl_cons, List.foldl_nil, State.fabSeq, State.modFabric, List.append_assoc, List.cons_append, List.nil_append]
  rfl

/-- Two tests that lead to one outcome are one test. -/
theorem ite_either {α : Type} (p q : Prop) [Decidable p] [Decidable q] (a b : α) :
    (if p ∨ q then a else b) = if p then a else if q then a else b := by
  by_cases hp : p
  · rw [if_pos (.inl hp), if_pos hp]
  · by_cases hq : q
    · rw [if_pos (.inr hq), if_neg hp, if_pos hq]
    · rw [if_neg (not_or.mpr ⟨hp, hq⟩), if_neg hp, if_neg hq]

/-- DATA that is new is noted, and goes on with one hop less unless it is for this anchor (R355). -/
theorem State.dataForward_fresh (s : State) {x : Frecv} {t : State} (next : s.fabNext [4, 6] = some (x, t)) (st : t.fabric.st = 3)
    (fresh : (sparseGet (fun _ => []) t.fabric.seen (x.h 2 2)).contains (x.h 8 2) = false) :
    exec .dataForward s = .next ((t.modFabric (fun f => { f with
      seen := sparseSet (fun _ => []) f.seen (x.h 2 2) ((x.h 8 2 :: sparseGet (fun _ => []) t.fabric.seen (x.h 2 2)).take 64) })).fabForward
      (x.h 0 1) (x.h 2 2) (x.h 4 2) (if x.h 4 2 = t.fabric.addr then x.h 6 1 else x.h 6 1 - 1) (x.h 7 1) (x.h 8 2) x.body none) := by
  rw [exec_dataForward, execDataForward, next]
  dsimp only
  rw [if_neg (Decidable.not_not.mpr st), if_neg (by rw [fresh]; decide)]
  rfl

/-- A frame for another goes to the next hop of its destination, and is dropped where there is none (R355). -/
theorem State.fabForward_hop (s : State) {typ src dst hops flags seq : Nat} {body : List Byte} {host : Option Nat} {e : BitVec 64}
    (away : dst ≠ s.fabric.addr) (left : hops ≠ 0) (hop : s.fabric.hopFor dst = some e) :
    s.fabForward typ src dst hops flags seq body host = s.fabToNbr typ e src dst hops flags seq body host := by
  rw [State.fabForward, if_neg away, if_neg left, hop]

theorem State.fabForward_lost (s : State) {typ src dst hops flags seq : Nat} {body : List Byte} {host : Option Nat}
    (away : dst ≠ s.fabric.addr) (left : hops ≠ 0) (hop : s.fabric.hopFor dst = none) :
    s.fabForward typ src dst hops flags seq body host = s.fabDrop.fabSent host 2 := by
  rw [State.fabForward, if_neg away, if_neg left, hop]

/-- A JOIN_REQ that a member takes: the root answers it from its assignment, another sends it on to its parent (R352). -/
theorem State.joinReq_taken (s : State) {x : Frecv} {t : State} (next : s.fabNext [2] = some (x, t)) (st : t.fabric.st = 3)
    (len : x.body.length = 12) :
    exec .joinReqRelay s = .next (
      let joiner := BitVec.ofNat 64 (beNat (slice x.body 0 8))
      let u := t.modFabric (fun f => { f with joins := f.joins.filter (fun j => j.1 ≠ joiner) ++ [(joiner, x.eui, x.h 1 1, t.hft)] })
      if u.fabric.isRoot then
        let (st, a, f) := u.fabric.assign joiner (beNat (slice x.body 8 2))
        let v := u.modFabric (fun _ => f)
        let w := if st = 0 ∧ u.fabric.assigned.any (fun p => decide (p.1 = joiner ∧ p.2 = a)) = false then
          v.cfgPush ([half (cidAssign + f.assigned.findIdx (fun p => p.1 = joiner))] ++ euiWords joiner ++ [half a]) else v
        w.fabSeq.2.joinRsp joiner st a 0 16 w.fabSeq.1
      else if x.h 6 1 ≤ 1 then u.fabDrop
      else match u.fabric.parent with
        | some p => u.fabToNbr 2 p (x.h 2 2) 0 (x.h 6 1 - 1) 0 (x.h 8 2)
          (slice x.body 0 10 ++ if x.eui = joiner then beOctets 2 u.fabric.addr else slice x.body 10 2) none
        | none => u.fabDrop) := by
  rw [exec_joinReqRelay, execJoinReqRelay, next]
  dsimp only
  rw [if_neg (by rw [st, len]; decide)]
  simp only [Bool.not_eq_true'] <;> rfl

/-- A mean within 100 µs corrects the course by itself, and the trim by the change since the last one (R359). -/
theorem State.timeOffset_small (s : State) {m : Int} {asn : Nat} (st : s.fabric.st = 3) (root : s.fabric.isRoot = false)
    (four : 4 ≤ s.fabric.offsets.length) (hm : m = divRound ((s.fabric.offsets.take 4).foldl (fun a e => a + e.1) 0) 4)
    (ha : asn = (s.fabric.offsets.getD 3 (0, 0)).2) (small : m.natAbs ≤ 4800) :
    exec .timeOffsetUpdate s = .next (
      let u := (s.modFabric (fun f => { f with offsets := f.offsets.drop 4, mean := m, prevMean := some (0, asn) })).adjWrite
        (half (ofSigned 16 m))
      match s.fabric.prevMean with
      | some (o, was) => u.trimWrite (half (ofSigned 16 (clampInt (-2000) 2000 (toSigned 16 (u.regN (A.RFE_XO_TRIM .sub)) +
          divRound (-(m - o) * 1000000000) (max 1 ((asn + 2 ^ 40 - was) % 2 ^ 40 * u.courseLen))))))
      | none => u) := by
  have keeps : clampInt (-4800) 4800 m = m := by rw [clampInt, if_neg (by omega), if_neg (by omega)]
  rw [exec_timeOffsetUpdate, execTimeOffsetUpdate]
  dsimp only
  rw [if_pos ⟨st, by rw [root]; rfl, four⟩, ← hm, ← ha, if_neg (by omega), if_neg (by omega), keeps, Int.sub_self] <;> rfl

/-- Settles O19: a frame taken by its type goes to the table, to its next hop or to the host, and four HELLOs correct the time. -/
theorem fabricLinksAndTime : Obligations.FabricLinksAndTime := by
  unfold Obligations.FabricLinksAndTime
  refine ⟨?_, ?_⟩
  · intro s
    refine ⟨?_, ?_, ?_, ?_, ?_, ?_, ?_, ?_, ?_, ?_, ?_, ?_, ?_, ?_⟩
    · rintro a body rfl on addr due fresh rfl
      have sends : (s.helloDue s.nextPlanAsn && !s.fabric.hellos.any (·.asn == s.nextPlanAsn)) = true := by
        simpa [State.helloDue, on, addr, due] using fresh
      rw [exec_fabricHelloSend, execFabricHelloSend, if_pos sends]
      exact congrArg Host.Outcome.next (s.helloPair s.nextPlanAsn)
    · intro x t fabNext either
      simp [execFabricHelloReceive, fabNext, either]
    · intro x t old fabNext hlength bound nbr
      simp [execFabricHelloReceive, fabNext, hlength, Nat.not_le.mpr bound, nbr]
    · intro x t fabNext hlength bound nbr bound2
      simp [execFabricHelloReceive, fabNext, hlength, Nat.not_le.mpr bound, nbr, bound2]
    · intro x t w fabNext hlength bound nbr bound2 worstNbr
      simp [execFabricHelloReceive]
      grind
    · rintro gone t rfl rfl
      simp [execNeighbourRemove]
    · intro n st
      simp [State.nbrAsn, st]
    · intro m n h nbr either
      simp [State.fabFits]
      grind
    · intro x t fabNext st
      simp [execDataForward, fabNext, st]
    · intro x t fabNext st contains
      simp [execDataForward]
      split <;> simp_all
    · rintro x t u fabNext st contains rfl
      rw [s.dataForward_fresh fabNext st contains]
      refine ⟨fun here => ?_, fun away low => ?_, fun e away low hop => ?_, fun away low hop => ?_⟩
      · simp [State.fabForward, here]
      · simp [State.fabForward, away, Nat.sub_eq_zero_of_le low]
        rfl
      · rw [if_neg away]
        exact congrArg Host.Outcome.next (State.fabForward_hop _ away (by omega) hop)
      · rw [if_neg away]
        exact congrArg Host.Outcome.next (State.fabForward_lost _ away (by omega) hop)
    · intro p bind st bound
      simp [execParentLost, State.parentLost, bind, st, bound] <;> rfl
    · intro b c firstStop entry
      simp [execCarrierEnd, firstStop, entry]
    · rintro b c e t firstStop entry rfl
      refine ⟨?_, ?_⟩
      · intro find
        simp [execCarrierEnd, State.fabCarrier, firstStop, entry, find]
      · rintro q u v find rfl rfl
        simp [execCarrierEnd, State.fabCarrier, firstStop, entry, find]
  · intro s
    refine ⟨?_, ?_, ?_, ?_, ?_, ?_, ?_, ?_, ?_, ?_, ?_, ?_, ?_⟩
    · intro p st isRoot asked bound bestParent
      simp [execJoinReqSend, st, isRoot, asked, bound, bestParent]
    · intro bestParent
      simp [execJoinReqSend, bestParent]
    · intro x t fabNext either
      simp [execJoinReqRelay, fabNext, either]
    · rintro x t u fabNext st hlength rfl
      refine ⟨?_, ?_, ?_, ?_⟩
      · intro isRoot e st2 a f w he assign hw
        subst he
        rw [s.joinReq_taken fabNext st hlength, if_pos isRoot]
        dsimp only
        rw [assign]
        subst hw
        rfl
      · intro isRoot low
        rw [s.joinReq_taken fabNext st hlength, if_neg (by rw [isRoot]; decide), if_pos low]
      · intro isRoot parent
        rw [s.joinReq_taken fabNext st hlength, if_neg (by rw [isRoot]; decide), parent]
        exact congrArg Host.Outcome.next (ite_self _)
      · intro isRoot low p parent
        rw [s.joinReq_taken fabNext st hlength, if_neg (by rw [isRoot]; decide), parent, if_neg (by omega)]
    · intro x t p fabNext ofNat st ofNat2 bind
      simp [execJoinRspReceive, fabNext, ofNat, st, ofNat2, bind]
    · intro x t fabNext ofNat st ofNat2
      simp [execJoinRspReceive, fabNext, ofNat, st, ofNat2]
    · intro x t fabNext ofNat
      simp [execJoinRspReceive, fabNext, ofNat]
    · intro t e st a src hops seq h
      simp [State.joinRsp]
      grind
    · rintro t u asked rfl
      simp [execJoinTimeout, asked]
      rfl
    · intro p bind st version
      simp [execRouteAdvSend, State.routeAdv, bind, st, version]
      rfl
    · intro x t fabNext
      rw [exec_routeAdvReceive, execRouteAdvReceive, fabNext]
      refine congrArg (fun f => Host.Outcome.next (forEach (advList x.body) t f)) (funext fun u => funext fun a => ?_)
      exact (ite_either ..).symm
    · rfl
    · rintro m asn t st isRoot bound rfl rfl rfl
      refine ⟨?_, ?_, ?_⟩
      · intro p bound2 bind
        simp [execTimeOffsetUpdate, st, isRoot, bound, bound2, bind]
      · intro bound2 prevMean
        simp [execTimeOffsetUpdate, clampInt]
        grind
      · rintro o was u bound2 prevMean rfl
        rw [s.timeOffset_small st isRoot bound rfl rfl bound2, prevMean]

end Sys2Proof.Machine
end

section
/-! SUPPORT. The RTC, the inputs of the Plinth domain, and resets: a tick with no shift, and what a device reset keeps. -/
namespace Sys2Proof.Machine

-- One proof after the other, as in the first section: the memory of the whole text is bounded.
set_option Elab.async false

/-- Entries that a filter keeps read as before. -/
theorem sparseGet_filter_kept {α : Type} (d : Nat → α) (m : Sparse α) (p : Nat × α → Bool) {k : Nat} (h : ∀ v, p (k, v) = true) :
    sparseGet d (m.filter p) k = sparseGet d m k := by
  induction m with
  | nil => rfl
  | cons q m ih =>
    obtain ⟨a, v⟩ := q
    by_cases hk : k = a
    · subst hk
      rw [List.filter_cons_of_pos (h v)]
      simp [sparseGet]
    · cases hp : p (a, v) with
      | true => rw [List.filter_cons_of_pos hp]; simp [sparseGet, hk, ih]
      | false => rw [List.filter_cons_of_neg (by rw [hp]; decide)]; simp [sparseGet, hk, ih]

section
variable (s : State)

/-! ## The RTC -/

/-- A tick boundary with no shift that waits (R304). -/
theorem State.tickDone_plain (pend : s.flag F.PLINTH_STATUS_SHIFT_PEND = false) :
    s.tickDone = rtcCap s (rtcAt s (rtcStep s).2 s.tickValue) := by
  simp [State.tickDone, State.tickPut, State.tickShifted, State.tickRefused, pend]

/-- An event of PLINTH_EVT leaves the other registers of the domain. -/
theorem State.reg_plinthEvt (f : Fld) (a : Nat) (h : 0xF00000 ≤ a ∧ a < 0xF01000 ∧ a ≠ A.PLINTH_EVT) (hf : f.reg = A.PLINTH_EVT) :
    (s.plinthEvt f).reg a = s.reg a :=
  s.reg_raiseEvt_other f 19 (by rw [hf]; exact h.2.2) (by unfold A.EVU_PEND coreKey; omega) (by unfold A.EVU_PEND coreKey; omega)

/-- A window that has had its seconds closes (R310, R312): its measurement is no word of PLINTH_CTRL. -/
theorem State.trimClose_closes {w r : Nat} (winOpen : s.plinth.winOpen = some w) (closeAt : s.plinth.closeAt = some r) :
    s.trimClose =
      let u := (s.setReg32 A.TRIM_MEAS_LO (r - w)).modPlinth (fun p => { p with winOpen := some r, closeAt := none })
      let v := if s.flag F.PLINTH_CTRL_AUTO = true then u.setReg A.RTC_TRIM (half (ofSigned 16 (clampInt (-32768) 32767 (divRound
        (-(((r - w : Nat) : Int) - (32768 * 2 ^ s.fld F.PLINTH_CTRL_WIN : Nat)) * 512) (2 ^ s.fld F.PLINTH_CTRL_WIN))))) else u
      (v.plinthEvt F.PLINTH_EVT_TRIM_DONE).event hostChans 2 0x81
        [(v.plinthEvt F.PLINTH_EVT_TRIM_DONE).reg A.TRIM_MEAS_LO, (v.plinthEvt F.PLINTH_EVT_TRIM_DONE).reg A.TRIM_MEAS_HI] := by
  have auto : ((s.setReg32 A.TRIM_MEAS_LO (r - w)).modPlinth (fun p => { p with winOpen := some r, closeAt := none })).flag
      F.PLINTH_CTRL_AUTO = s.flag F.PLINTH_CTRL_AUTO := by
    unfold State.flag
    exact congrArg (· != 0) ((State.fld_setReg_other _ _ _ (by decide)).trans (State.fld_setReg_other _ _ _ (by decide)))
  unfold State.trimClose
  rw [winOpen, closeAt]
  dsimp only
  rw [auto]
  rw [State.reg_plinthEvt _ F.PLINTH_EVT_TRIM_DONE A.TRIM_MEAS_LO (by decide) rfl,
    State.reg_plinthEvt _ F.PLINTH_EVT_TRIM_DONE A.TRIM_MEAS_HI (by decide) rfl]
  rfl

/-- The words of the RTC stand as a loss of mains is noted (R313). -/
theorem State.rtcLow_loss (f : Plinth → Plinth) : ((s.setFlag F.PLINTH_STATUS_LOM).modPlinth f).trimVoid.rtcLow = s.rtcLow := by
  have void : ∀ (t : State) a, 0xF00000 ≤ a ∧ a < 0xF01000 ∧ a ≠ A.PLINTH_EVT → t.trimVoid.reg a = t.reg a := by
    intro t a h
    unfold State.trimVoid
    split
    · exact State.reg_plinthEvt _ F.PLINTH_EVT_TRIM_VOID a h rfl
    · rfl
  have word : ∀ a, 0xF00000 ≤ a ∧ a < 0xF01000 ∧ a ≠ A.PLINTH_EVT → a ≠ A.PLINTH_STATUS →
      ((s.setFlag F.PLINTH_STATUS_LOM).modPlinth f).trimVoid.reg a = s.reg a := fun a h apart =>
    (void _ a h).trans (s.reg_setFlag_other _ apart)
  unfold State.rtcLow
  rw [word _ (by decide) (by decide), word _ (by decide) (by decide), word _ (by decide) (by decide)]

/-! ## The Plinth domain's supply -/

/-- A cleared range reads its reset values. -/
theorem State.reg_resetRegs (lo hi a : Nat) (above : lo ≤ a) (below : a < hi) : (s.resetRegs lo hi).reg a = regReset a :=
  (sparseGet_sparseClear regReset s.regs lo hi a).trans (if_pos ⟨above, below⟩)

/-- The domain's registers after its power-up: PMU_STATUS lies outside it. -/
theorem State.reg_powerUp (f : Plinth → Plinth) {a : Nat} (above : 0xF00000 ≤ a) (below : a < 0xF01000) :
    ((({ s.resetRegs 0xF00000 0xF01000 with snap := sparseClear (s.resetRegs 0xF00000 0xF01000).snap 0xF00000 0xF01000 } :
      State).modPlinth f).setFld F.PMU_STATUS_LAST 0).reg a = regReset a :=
  (State.reg_setFld_other _ _ (fun e => absurd (e ▸ above) (by decide))).trans (s.reg_resetRegs 0xF00000 0xF01000 a above below)

/-- The sag halts a device that is not in PLINTH (R293). -/
theorem State.sag_halts (how : Nat) (running : s.sys.sleep ≠ .asleep 3) :
    (s.sag how).sys.halted = true ∧ (s.sag how).sys.xoRun = false := by
  rw [State.sag, if_neg running]
  exact ⟨rfl, rfl⟩

/-! ## Resets -/

/-- A cut of what NVMC and KEYS write changes MRAM alone, and draws free values. -/
theorem State.nvCut_parts (how : Nat) : ∃ m f n, s.nvCut how = { s with mram := m, mramFlip := f, free := n } := by
  unfold State.nvCut
  split
  · exact ⟨s.mram, s.mramFlip, s.free, rfl⟩
  · exact ⟨_, _, _, rfl⟩

/-- With nothing being written there is nothing to cut. -/
theorem State.nvCut_idle (how : Nat) (idle : s.nvWriting = false) : s.nvCut how = s := by
  unfold State.nvCut
  rw [idle]
  rfl

/-- What a reset keeps reads as it stood in the Plinth domain (R281). -/
theorem State.kept_reg (ram : Memory) {a : Nat} (above : 0xF00000 ≤ a) (below : a < 0xF01000) : (s.kept ram).reg a = s.reg a := by
  show sparseGet regReset (plinthPart s.regs) a = sparseGet regReset s.regs a
  exact sparseGet_filter_kept _ _ _ (fun _ => by simp only [Bool.and_eq_true, decide_eq_true_eq]; omega)

/-- Every thread is DEAD after a reset (R233). -/
theorem State.kept_dead (ram : Memory) (c : Fin 6) (h : Fin 4) : ((s.kept ram).thr c h).st = .dead := by
  have held : ∀ (c : Fin 6) (h : Fin 4),
      (#v[Core.held 0, Core.held 1, Core.held 2, Core.held 3, Core.held 4, Core.held 5][c].thr[h]).st = .dead := by
    decide
  exact held c h

/-- What a device reset does of a state whose NVMC and KEYS write nothing, out of SHELF: it keeps the Plinth domain and MRAM, and puts
the rest at its reset values (R281, R295). A free value may be drawn. -/
theorem State.deviceReset_kept (cause k : Nat) (acts : s.sys.halted = false ∨ cause = rcPor ∨ cause = rcPin)
    (idle : s.nvWriting = false) (cold : cause ≠ rcShelf) :
    ∃ n f x y z, (∀ b, (f b).inReset = true ∧ (f b).cause = cause) ∧
      s.deviceReset cause k = ((((((if cause = rcPor ∨ s.sys.halted = true then ({ s with free := n } : State).stageLost
        else { s with free := n }).kept []).modSys f).setReg A.SYSCTL_RST_CAUSE x).setFld F.PMU_STATUS_LAST y).setFld
          F.ID_LIFECYCLE_STATE z) := by
  have drawn : ∃ how n, (if cause = rcPor then s.draw 3 else (0, s)) = (how, { s with free := n }) := by
    split
    · exact ⟨_, _, rfl⟩
    · exact ⟨_, s.free, rfl⟩
  obtain ⟨how, n, drawn⟩ := drawn
  have idle' : ({ s with free := n } : State).nvCut how = { s with free := n } := State.nvCut_idle _ how idle
  unfold State.deviceReset
  rw [if_neg (by rintro ⟨halted, por, pin⟩; simp [halted, por, pin] at acts), drawn]
  dsimp only
  rw [idle', if_neg cold]
  exact ⟨n, _, _, _, _, fun _ => ⟨rfl, rfl⟩, rfl⟩

end

/-- Settles O44: the tick by the state that it leaves before the alarm, the rest by the branches of the RTC and its trim. -/
theorem realTimeClock : Obligations.RealTimeClock := by
  unfold Obligations.RealTimeClock
  intro s
  refine ⟨?_, ?_, ?_, ?_, ?_, ?_, ?_, ?_, ?_, ?_⟩
  · intro st v alm u lfRuns hst pend hv halm hu
    rw [hst] at hv
    have value : v = s.tickValue := hv
    rw [exec_rtcTick, execRtcTick, if_pos lfRuns, s.rtcTick_eq, halm, hu, hst, value, s.tickDone_plain pend]
  · intro lfRuns
    simp [execRtcTick, lfRuns]
  · intro w
    rfl
  · intro w
    rfl
  · intro powered
    refine ⟨?_, ?_⟩
    · simp [execXoLfStop, powered]
    · simp [execXoLfRestart, powered]
  · intro winOpen
    simp [execTrimWindowVoid, State.trimVoid, winOpen]
  · rintro c u rfl powered rfl
    refine ⟨?_, ?_⟩
    · intro r lastPps either
      simp [execPpsInEdge, powered, lastPps]
      omega
    · intro r either
      simp [execPpsInEdge, powered]
      split <;> simp_all
  · intro second t trimClose
    refine ⟨?_, ?_, ?_, ?_⟩
    · intro winOpen
      simp [State.refEdge, trimClose, winOpen]
    · intro winOpen hsecond
      simp [State.refEdge, trimClose, winOpen, hsecond]
    · intro winOpen hsecond bound
      simp [State.refEdge, State.trimN, trimClose, winOpen, hsecond, bound]
    · intro winOpen hsecond bound
      simp [State.refEdge, State.trimN, trimClose, winOpen, hsecond, Nat.not_lt.mpr bound]
  · intro either
    simp [execTrimWindowClose, State.trimClose]
    split <;> simp_all
  · intro w r u v winOpen closeAt hu hv
    rw [exec_trimWindowClose, execTrimWindowClose, s.trimClose_closes winOpen closeAt, hv, hu]

/-- What an edge of the mains in tolerance leaves before the window of the trim: it is counted, and eight in a row bring the mains back. -/
def State.edgeCounted (c : State) : State :=
  let u := c.modPlinth (fun p => { p with lastMains := some p.raw, detect := true, good := p.good + 1 })
  if u.flag F.PLINTH_STATUS_LOM = true ∧ 8 ≤ u.plinth.good then u.mainsBack else u

/-- An edge of the mains in tolerance is counted, and is a reference edge where TSRC selects it (R310, R313). -/
theorem State.mainsEdge_inTol {m : Nat} (s : State) (powered : (s.capEdge 0x01 true).plinth.powered = true)
    (lastMains : (s.capEdge 0x01 true).plinth.lastMains = some m)
    (far : 32768 ≤ 4 * (s.capEdge 0x01 true).mainsHz * ((s.capEdge 0x01 true).plinth.raw - m))
    (above : 9 * 32768 ≤ 10 * (s.capEdge 0x01 true).mainsHz * ((s.capEdge 0x01 true).plinth.raw - m))
    (below : 10 * (s.capEdge 0x01 true).mainsHz * ((s.capEdge 0x01 true).plinth.raw - m) ≤ 11 * 32768) :
    execMainsEdge s = .next (if (s.capEdge 0x01 true).edgeCounted.fld F.PLINTH_CTRL_TSRC = 2
      then ((s.capEdge 0x01 true).edgeCounted.modPlinth (fun p => { p with cycles := p.cycles + 1 })).refEdge
        ((s.capEdge 0x01 true).mainsHz ≤ (s.capEdge 0x01 true).edgeCounted.plinth.cycles + 1)
      else (s.capEdge 0x01 true).edgeCounted) := by
  have near := decide_eq_false (Nat.not_lt.mpr far)
  simp only [execMainsEdge, powered, lastMains, Option.map_some, near, decide_eq_true above, decide_eq_true below, Bool.not_true, Bool.or_false,
    Bool.false_eq_true, if_false, Bool.and_true, Bool.and_false, if_true]
  rfl

/-- Settles O42: the supply by what a cleared range reads, the edges by their branches. -/
theorem plinthInputs : Obligations.PlinthInputs := by
  unfold Obligations.PlinthInputs
  intro s
  refine ⟨?_, ?_, ?_, ?_, ?_, ?_, ?_, ?_, ?_, ?_, ?_, ?_, ?_⟩
  · exact ⟨_, rfl, rfl, rfl, rfl, fun a => s.reg_powerUp _⟩
  · intro how u draw
    rw [exec_plinthSupplyLoss, execPlinthSupplyLoss, draw]
    have sys : u.sys = s.sys := by
      cases draw
      rfl
    refine ⟨_, rfl, rfl, fun running => ?_, (u.sag how).reg_resetRegs 0xF00000 0xF01000⟩
    rw [← sys] at running
    exact u.sag_halts how running
  · rfl
  · rintro c m rfl either
    simp [execMainsEdge]
    grind
  · rintro c m d u v rfl powered lastMains rfl bound bound2 bound3 rfl rfl
    refine ⟨?_, ?_⟩
    · intro tsrc
      exact (s.mainsEdge_inTol powered lastMains bound bound2 bound3).trans (congrArg Host.Outcome.next (if_neg tsrc))
    · intro tsrc
      exact (s.mainsEdge_inTol powered lastMains bound bound2 bound3).trans (congrArg Host.Outcome.next (if_pos tsrc))
  · rintro c m d u rfl powered lastMains rfl bound either rfl
    simp [execMainsEdge]
    grind
  · rintro c u rfl powered lastMains rfl
    refine ⟨?_, ?_⟩
    · intro tsrc
      simp [execMainsEdge]
      split <;> simp_all
    · intro tsrc
      simp [execMainsEdge, powered, lastMains, tsrc]
  · intro u v powered cyc lom detect hu hv
    have loss : exec .mainsLoss s = .next ((if (if v.sys.fwRun then v.fabGasp else v).sys.fwRun && (if v.sys.fwRun then v.fabGasp
        else v).coresRun then (if v.sys.fwRun then v.fabGasp else v).pumpSpi else if v.sys.fwRun then v.fabGasp else v).wakeRise 3) := by
      rw [exec_mainsLoss, execMainsLoss, if_pos ⟨powered, cyc, by rw [lom]; rfl, detect⟩, hv,
        ← s.rtcLow_loss (fun p => { p with good := 0 }), hu]
    rw [loss]
    refine ⟨fun off => ?_, fun on gasp => ?_⟩
    · rw [if_neg (c := v.sys.fwRun = true) (by rw [off]; decide), off]
      rfl
    · rw [if_pos (c := v.sys.fwRun = true) on, gasp, Bool.true_and]
  · intro w
    rfl
  · rintro rising u v powered en0 testBit rfl rfl
    simp [execTamperEdge, powered, en0, testBit]
  · rintro rising u v powered en1 testBit rfl rfl
    simp [execTamperEdge, powered, en1, testBit]
  · intro w hDiv
    simp [execTrickleWrite, State.trickleWrite, bits, hDiv]
  · intro w hDiv
    rw [exec_trickleWrite, execTrickleWrite, State.trickleWrite, if_neg]
    have := w.isLt
    simp only [bits]
    omega

/-- Settles O38: the causes by their branches, and a device reset by what it keeps. -/
theorem resets : Obligations.Resets := by
  unfold Obligations.Resets
  intro s
  refine ⟨?_, ?_, ?_, ?_, ?_, ?_, ?_, ?_, ?_, ?_, ?_, ?_, ?_, ?_, ?_, ?_, ?_, ?_, ?_, ?_, ?_, ?_, ?_⟩
  · intro key
    rfl
  · intro sleep h
    refine ⟨?_, ?_⟩
    · simp [execPowerOnReset, State.resetOrWake]
    · simp [execPinReset, State.resetOrWake]
  · intro sleep
    refine ⟨?_, ?_⟩
    · simp [execPowerOnReset, State.resetOrWake, sleep]
    · simp [execPinReset, State.resetOrWake, sleep]
  · intro b sleep
    refine ⟨?_, ?_⟩
    · simp [execPinReset, State.resetOrWake, sleep]
    · simp [execPowerOnReset, State.resetOrWake, sleep]
  · intro cause k halted hcause hcause2
    simp [State.deviceReset, halted, hcause, hcause2]
  · intro how
    exact s.nvCut_parts how
  · intro how nvWriting
    simp [State.nvCut, nvWriting]
  · simp [State.nvWriting, and_assoc]
  · intro cause k either nvWriting hcause
    obtain ⟨n, f, x, y, z, sys, reset⟩ := s.deviceReset_kept cause k either nvWriting hcause
    refine ⟨_, rfl, ?_⟩
    rw [reset]
    have stood : ∀ w : State, w = (if cause = rcPor ∨ s.sys.halted = true then ({ s with free := n } : State).stageLost
          else { s with free := n }) →
        w.mram = s.mram ∧ w.mramFlip = s.mramFlip ∧ w.plinth = s.plinth ∧ w.pending = s.pending ∧ w.regs = s.regs ∧
          w.update.slots = (if cause = rcPor ∨ s.sys.halted = true then s.update.slots.map (fun x => if x = 1 then 7 else x)
            else s.update.slots) := by
      intro w hw
      rw [hw]
      split
      · exact ⟨rfl, rfl, rfl, rfl, rfl, rfl⟩
      · exact ⟨rfl, rfl, rfl, rfl, rfl, rfl⟩
    obtain ⟨mram, flip, plinth, pending, regs, slots⟩ := stood _ rfl
    refine ⟨rfl, mram, flip, plinth, pending, (sys _).1, (sys _).2, fun c h => State.kept_dead s [] c h, rfl, slots, fun a above below => ?_⟩
    have apart : a ≠ A.SYSCTL_RST_CAUSE ∧ a ≠ A.PMU_STATUS ∧ a ≠ A.ID_LIFECYCLE := by
      refine ⟨?_, ?_, ?_⟩ <;> (rintro rfl; exact absurd above (by decide))
    rw [State.reg_setFld_other _ _ apart.2.2, State.reg_setFld_other _ _ apart.2.1, State.reg_setReg_other _ _ apart.1]
    exact (State.kept_reg _ [] above below).trans (State.reg_congr a regs)
  · intro how sleep
    simp [execSupplySagHalt, State.sag, sleep]
  · intro how sleep
    simp [execSupplySagHalt, State.sag, sleep]
  · rfl
  · intro inReset
    simp [execResetRelease, inReset]
  · intro t cert lcPhase
    simp [execLcTransitionDone, lcPhase]
  · intro lcPhase lcAnswering
    simp [execLcTransitionDone, State.lcDue, lcPhase, lcAnswering]
  · intro lcPhase lcAnswering
    simp [execLcTransitionDone, State.lcDue, lcPhase, lcAnswering]
  · intro lcPhase
    simp [execLcTransitionDone, lcPhase]
  · intro n bound ofNat
    simp [execCoreReset, State.coreStop, bound, ofNat]
  · intro n ofNat
    simp [execCoreRelease, State.coreStart, ofNat]
  · rintro n t u v bound ofNat rfl rfl repost
    rw [exec_coreRelease, execCoreRelease, State.coreStart, dif_pos ⟨bound, n.isLt⟩]
    dsimp only
    rw [if_neg (by rw [ofNat]; decide)]
    exact congrArg (fun v : State => Host.Outcome.next (if v.flag (F.WDT_CTRL_EN n) = true then v.wdStart n else v)) repost
  · intro n
    refine ⟨?_, ?_⟩
    · simp [State.wdStart]
    · exact ⟨rfl, rfl, rfl, rfl⟩
  · intro c bound alive wdStage anyHalted
    simp [execWdtStage2Expiry]
    grind
  · intro c bound alive wdStage anyHalted
    simp [execWdtStage2Expiry]
    grind

end Sys2Proof.Machine
end

section
/-! SUPPORT. The balls and the quad-SPI: what an edge at a ball, a group of pins and a write of HOSTIF_STATUS or HOSTIF_CTRL leave. -/
namespace Sys2Proof.Machine

-- One proof after the other, as in the first section: the memory of the whole text is bounded.
set_option Elab.async false

/-- One operation after another that each leave a state as it is leave it as it is. -/
theorem forEach_fixed {α : Type} {f : State → α → State} {s : State} : ∀ {l : List α}, (∀ x ∈ l, f s x = s) → forEach l s f = s
  | [], _ => rfl
  | x :: l, h => by
    show forEach l (f s x) f = s
    rw [h x (by simp)]
    exact forEach_fixed (fun y hy => h y (by simp [hy]))

/-! ## What a capture changes -/

/-- One state follows another with no more changed than a capture may change: registers of TIMER and of the cores, the cores, the
channels and the count of free values. -/
def OnlyTimers (s t : State) : Prop :=
  (∃ r k m f, t = { s with regs := r, cores := k, timers := m, free := f }) ∧
    ∀ a, a < 0xE02000 ∨ 0xE02100 ≤ a ∧ a < 0x1000000 → t.reg a = s.reg a

/-- Nothing changed. -/
theorem OnlyTimers.refl (s : State) : OnlyTimers s s := ⟨⟨s.regs, s.cores, s.timers, s.free, rfl⟩, fun _ _ => rfl⟩

/-- One change after another. -/
theorem OnlyTimers.trans {s t u : State} (h : OnlyTimers s t) (k : OnlyTimers t u) : OnlyTimers s u := by
  obtain ⟨⟨_, _, _, _, rfl⟩, hr⟩ := h
  obtain ⟨⟨r, c, m, f, rfl⟩, kr⟩ := k
  exact ⟨⟨r, c, m, f, rfl⟩, fun a ha => (kr a ha).trans (hr a ha)⟩

/-- A change at every turn of a loop. -/
theorem OnlyTimers.forEach {α : Type} {f : State → α → State} (h : ∀ s x, OnlyTimers s (f s x)) (l : List α) (s : State) :
    OnlyTimers s (forEach l s f) := by
  induction l generalizing s with
  | nil => exact .refl s
  | cons x l ih => exact (h s x).trans (ih (f s x))

section
variable (s : State)

/-- A register of a channel written. -/
theorem onlyTimers_setReg {b : Nat} (v : Half) (k : Fin 8) (off : Nat) (h : b = 0xE02000 + 32 * k.val + off) (in32 : off < 32) :
    OnlyTimers s (s.setReg b v) :=
  ⟨⟨_, s.cores, s.timers, s.free, rfl⟩, fun a ha => s.reg_setReg_other v (by have := k.isLt; omega)⟩

/-- A status bit of a channel written. -/
theorem onlyTimers_tmrFlag (k : Fin 8) (hi lo : Nat) (b : Bool) : OnlyTimers s (s.setFlag ⟨A.TMR_STATUS k, hi, lo⟩ b) :=
  have place : A.TMR_STATUS k = 0xE02000 + 32 * k.val + 18 := by unfold A.TMR_STATUS; omega
  onlyTimers_setReg s _ k 18 place (by decide)

/-- A channel changed. -/
theorem onlyTimers_modTimer (k : Fin 8) (f : Timer → Timer) : OnlyTimers s (s.modTimer k f) :=
  ⟨⟨s.regs, s.cores, _, s.free, rfl⟩, fun _ _ => rfl⟩

/-- A free value drawn. -/
theorem onlyTimers_draw (n : Nat) : OnlyTimers s (s.draw n).2 := ⟨⟨s.regs, s.cores, s.timers, _, rfl⟩, fun _ _ => rfl⟩

/-- A line that rises on a core. -/
theorem onlyTimers_post (c : Fin 6) (l : Nat) : OnlyTimers s (s.post c l) := by
  obtain ⟨r, k, e⟩ := s.post_parts c l
  exact ⟨⟨r, k, s.timers, s.free, e⟩, fun a ha => s.reg_post c l a (by unfold A.EVU_PEND coreKey; omega)⟩

/-- A status bit of a channel, with its line. -/
theorem onlyTimers_tmrRaise (k : Fin 8) (hi lo : Nat) : OnlyTimers s (s.tmrRaise k ⟨A.TMR_STATUS k, hi, lo⟩) :=
  (onlyTimers_tmrFlag s k hi lo true).trans (.forEach (fun s c => onlyTimers_post s c _) _ _)

/-- A capture that lands. -/
theorem onlyTimers_tmrLand (k : Fin 8) (t : Nat) : OnlyTimers s (s.tmrLand k t) := by
  have overwritten : OnlyTimers s (if s.flag (F.TMR_STATUS_CAP_NEW k) then s.setFlag (F.TMR_STATUS_OVW k) else s) := by
    split
    · exact onlyTimers_tmrFlag s k 4 4 true
    · exact .refl s
  exact overwritten.trans <| (onlyTimers_modTimer _ k _).trans <|
    (onlyTimers_setReg _ _ k 14 (by unfold A.TMR_CAP_LO; omega) (by omega)).trans <|
    (onlyTimers_tmrFlag _ k 6 6 true).trans (onlyTimers_tmrRaise _ k 1 1)

/-- A held capture that lands. -/
theorem onlyTimers_tmrHeld (k : Fin 8) : OnlyTimers s (s.tmrHeld k) := by
  unfold State.tmrHeld
  split
  · exact onlyTimers_tmrLand s k _
  · exact .refl s

/-- The captures of a channel that time has brought about. -/
theorem onlyTimers_tmrSettle (k : Fin 8) : OnlyTimers s (s.tmrSettle k) := by
  have held : OnlyTimers s (if s.timers[k].heldAt < s.hft then s.tmrHeld k else s) := by
    split
    · exact onlyTimers_tmrHeld s k
    · exact .refl s
  refine held.trans ?_
  unfold State.tmrSettle
  generalize (if s.timers[k].heldAt < s.hft then s.tmrHeld k else s) = t
  dsimp only
  split
  · split
    · refine (onlyTimers_modTimer t k (fun x => { x with due := none })).trans ?_
      split
      · exact onlyTimers_tmrFlag _ k 5 5 true
      · exact onlyTimers_tmrLand _ k _
    · exact .refl t
  · exact .refl t

/-- A capture (R323). -/
theorem onlyTimers_capture1 (k : Fin 8) (t : Nat) (coincident : Bool) : OnlyTimers s (s.capture1 k t coincident) := by
  refine (onlyTimers_tmrSettle s k).trans ?_
  unfold State.capture1
  dsimp only
  split
  · exact onlyTimers_tmrFlag _ k 5 5 true
  · split
    · exact onlyTimers_modTimer _ k _
    · exact onlyTimers_tmrLand _ k t

/-- An edge at a ball. -/
theorem onlyTimers_capPulse (k : Fin 8) (takes : Bool) : OnlyTimers s (s.capPulse k takes) := by
  have begun : OnlyTimers s (s.capBegin k takes) := by
    unfold State.capBegin
    exact (onlyTimers_draw s 3).trans (onlyTimers_modTimer _ k _)
  unfold State.capPulse
  split
  · split
    · exact onlyTimers_modTimer s k _
    · exact begun
  · exact begun

/-- An edge of a capture source reaches the TIMER channels, and lines of cores, alone (R322). -/
theorem onlyTimers_capEdge (src : Nat) (rising : Bool) : OnlyTimers s (s.capEdge src rising) := by
  refine .forEach (fun s k => (onlyTimers_tmrSettle s k).trans ?_) _ s
  dsimp only
  split
  · exact .refl _
  · split
    · exact (onlyTimers_draw _ 3).trans <| (onlyTimers_draw _ _).trans (onlyTimers_capture1 _ k _ _)
    · exact onlyTimers_capPulse _ k _

/-- An edge that no channel takes, where no capture is due, changes nothing. -/
theorem State.capEdge_quiet (src : Nat) (rising : Bool) (h : ∀ k : Fin 8, s.capOn k src = false ∧ s.tmrSettle k = s) :
    s.capEdge src rising = s :=
  forEach_fixed (fun k _ => by
    obtain ⟨off, settled⟩ := h k
    dsimp only
    rw [settled, off]
    rfl)

/-! ## Lines stay pending -/

/-- A line that is pending stays pending as others rise. -/
theorem State.linePending_post (c d : Fin 6) (l m : Nat) (h : s.linePending d m = true) : (s.post c l).linePending d m = true := by
  unfold State.linePending at h ⊢
  by_cases e : A.EVU_PEND d (m / 16) = A.EVU_PEND c (l / 16)
  · rw [e] at h ⊢
    rw [State.reg_post_same, BitVec.getLsbD_or, h, Bool.true_or]
  · rw [State.reg_post _ _ _ _ e, h]

/-- A line rises on one core after the other. -/
theorem State.postAll_cons (c : Fin 6) (cs : List (Fin 6)) (l : Nat) : s.postAll (c :: cs) l = (s.post c l).postAll cs l := by
  unfold State.postAll forEach
  rw [List.foldl_cons]

/-- A line that is pending stays pending as another rises on several cores. -/
theorem State.linePending_postAll (cs : List (Fin 6)) (d : Fin 6) (l m : Nat) (h : s.linePending d m = true) :
    (s.postAll cs l).linePending d m = true := by
  induction cs generalizing s with
  | nil => exact h
  | cons c cs ih =>
    rw [State.postAll_cons]
    exact ih _ (s.linePending_post c d l m h)

/-- A line that rises on several cores is pending on each. -/
theorem State.linePending_postAll_same (cs : List (Fin 6)) (d : Fin 6) (l : Nat) (h : d ∈ cs) : (s.postAll cs l).linePending d l = true := by
  induction cs generalizing s with
  | nil => cases h
  | cons c cs ih =>
    rw [State.postAll_cons]
    rcases List.mem_cons.1 h with rfl | h
    · exact State.linePending_postAll _ cs d l l (s.linePending_post_same d l)
    · exact ih (s.post c l) h

/-- A line that rises on several cores leaves every register but their pending words. -/
theorem State.reg_postAll (cs : List (Fin 6)) (l a : Nat) (h : a < 0x1000000) : (s.postAll cs l).reg a = s.reg a := by
  induction cs generalizing s with
  | nil => rfl
  | cons c cs ih => rw [State.postAll_cons, ih, s.reg_post c l a (by unfold A.EVU_PEND coreKey; omega)]

/-- A line that rises on several cores leaves what the wake sources read. -/
theorem State.sys_postAll (cs : List (Fin 6)) (l : Nat) : (s.postAll cs l).sys = s.sys := by
  induction cs generalizing s with
  | nil => rfl
  | cons c cs ih =>
    obtain ⟨r, k, e⟩ := s.post_parts c l
    rw [State.postAll_cons, ih, e]

/-- A wake source that rises on a device that is awake and runs wakes nothing (R288). -/
theorem State.wakeRise_awake (src : Nat) (awake : s.sys.sleep = .awake) (runs : s.sys.inReset = false) : s.wakeRise src = s := by
  simp [State.wakeRise, awake, runs]

/-! ## A group of pins -/

/-- The edges of a group that its selections take, between two levels (R402). -/
def State.gpioEdges (s : State) (old new : BitVec 32) (g : Nat) : Half :=
  (half (new.toNat / 65536 ^ g) &&& ~~~half (old.toNat / 65536 ^ g) &&& s.reg (A.GPIO_EDGE_R g)) |||
    (half (old.toNat / 65536 ^ g) &&& ~~~half (new.toNat / 65536 ^ g) &&& s.reg (A.GPIO_EDGE_F g))

/-- The lines of a group's edges: of the application cores for OPEN pins, of Lintel for the others (R401). -/
def State.gpioLines (s : State) (g : Nat) (e : Half) : State :=
  let s := s.setReg (A.GPIO_EVT g) (s.reg (A.GPIO_EVT g) ||| e)
  let s' := if e &&& s.reg (A.GPIO_WORLD g) != 0 then s.postAll apps (28 + g) else s
  if e &&& ~~~s.reg (A.GPIO_WORLD g) != 0 then s'.postAll lintel (28 + g) else s'

/-- A group's turn: nothing without an edge, else its lines, and its wake source. -/
def State.gpioGroup (s : State) (old new : BitVec 32) (g : Nat) : State :=
  if s.gpioEdges old new g = 0 then s
  else
    let t := s.gpioLines g (s.gpioEdges old new g)
    if s.gpioEdges old new g &&& t.reg (A.GPIO_WAKE g) != 0 then t.wakeRise (6 + g) else t

/-- The captures of the balls, and then the two groups. -/
theorem State.gpioSettle_live (old : BitVec 32) (vio : s.sys.vio = true) (inReset : s.sys.inReset = false) (halted : s.sys.halted = false) :
    s.gpioSettle old = ((forEach (List.range 32) s (fun s' n => if old.getLsbD n = s.gpioLevels.getLsbD n then s'
      else s'.capEdge (0x20 + n) (s.gpioLevels.getLsbD n))).gpioGroup old s.gpioLevels 0).gpioGroup old s.gpioLevels 1 := by
  unfold State.gpioSettle
  rw [if_neg (by simp [vio, inReset, halted])]
  simp only [beq_iff_eq]
  rfl

/-- The lines of a group's edges leave every register but its EVT and pending words. -/
theorem State.reg_gpioLines (g : Nat) (e : Half) {a : Nat} (h : a < 0x1000000) (apart : a ≠ A.GPIO_EVT g) :
    (s.gpioLines g e).reg a = s.reg a := by
  unfold State.gpioLines
  dsimp only
  split <;> split <;> simp only [State.reg_postAll _ _ _ _ h, State.reg_setReg_other _ _ apart]

/-- EVT notes a group's edges. -/
theorem State.gpioLines_evt (g : Fin 2) (e : Half) : (s.gpioLines g e).reg (A.GPIO_EVT g) = s.reg (A.GPIO_EVT g) ||| e := by
  have low : A.GPIO_EVT g < 0x1000000 := by have := g.isLt; unfold A.GPIO_EVT; omega
  unfold State.gpioLines
  dsimp only
  split <;> split <;> simp only [State.reg_postAll _ _ _ _ low, State.reg_setReg_same]

/-- A group's lines leave what the wake sources read. -/
theorem State.sys_gpioLines (g : Nat) (e : Half) : (s.gpioLines g e).sys = s.sys := by
  simp only [State.gpioLines, apply_ite State.sys, State.sys_postAll, ite_self]
  rfl

/-- GPIO_WORLD is no word of EVT. -/
theorem State.gpioWorld_evt (g : Fin 2) (v : Half) : (s.setReg (A.GPIO_EVT g) v).reg (A.GPIO_WORLD g) = s.reg (A.GPIO_WORLD g) :=
  s.reg_setReg_other v (by have := g.isLt; unfold A.GPIO_EVT A.GPIO_WORLD; omega)

/-- An edge of an OPEN pin raises its line on the application cores. -/
theorem State.gpioLines_apps (g : Fin 2) (e : Half) (h : e &&& s.reg (A.GPIO_WORLD g) ≠ 0) (c : Fin 6) (app : 2 ≤ c.val) :
    (s.gpioLines g e).linePending c (28 + g) = true := by
  have mem : c ∈ apps := by revert c; decide
  have posted : ∀ t : State, (t.postAll apps (28 + g)).linePending c (28 + g) = true := fun t => t.linePending_postAll_same apps c _ mem
  unfold State.gpioLines
  dsimp only
  rw [s.gpioWorld_evt g, if_pos (bne_iff_ne.2 h)]
  split
  · exact State.linePending_postAll _ _ _ _ _ (posted _)
  · exact posted _

/-- An edge of a VAULT pin raises its line on the Lintel cores. -/
theorem State.gpioLines_lintel (g : Fin 2) (e : Half) (h : e &&& ~~~s.reg (A.GPIO_WORLD g) ≠ 0) (c : Fin 6) (low : c.val < 2) :
    (s.gpioLines g e).linePending c (28 + g) = true := by
  have mem : c ∈ lintel := by revert c; decide
  unfold State.gpioLines
  dsimp only
  rw [s.gpioWorld_evt g, if_pos (c := (e &&& ~~~s.reg (A.GPIO_WORLD g) != 0) = true) (bne_iff_ne.2 h)]
  exact State.linePending_postAll_same _ lintel c _ mem

/-- A line that is pending stays pending over a group's lines. -/
theorem State.linePending_gpioLines (g : Fin 2) (e : Half) (c : Fin 6) (m : Nat) (h : s.linePending c m = true) :
    (s.gpioLines g e).linePending c m = true := by
  have evt : (s.setReg (A.GPIO_EVT g) (s.reg (A.GPIO_EVT g) ||| e)).linePending c m = true := by
    unfold State.linePending
    rw [State.reg_setReg_other _ _ (by have := g.isLt; unfold A.GPIO_EVT A.EVU_PEND coreKey; omega)]
    exact h
  unfold State.gpioLines
  dsimp only
  split <;> split
  · exact State.linePending_postAll _ _ _ _ _ (State.linePending_postAll _ _ _ _ _ evt)
  · exact State.linePending_postAll _ _ _ _ _ evt
  · exact State.linePending_postAll _ _ _ _ _ evt
  · exact evt

/-- On a device that is awake and runs, a group with an edge is its lines alone. -/
theorem State.gpioGroup_awake (old new : BitVec 32) (g : Nat) (awake : s.sys.sleep = .awake) (runs : s.sys.inReset = false)
    (edge : s.gpioEdges old new g ≠ 0) : s.gpioGroup old new g = s.gpioLines g (s.gpioEdges old new g) := by
  have still := State.wakeRise_awake (s.gpioLines g (s.gpioEdges old new g)) (6 + g) (by rw [State.sys_gpioLines, awake])
    (by rw [State.sys_gpioLines, runs])
  rw [State.gpioGroup, if_neg edge]
  dsimp only
  rw [still, ite_self]

/-- The second group leaves what the first has noted. -/
theorem State.gpioGroup_second (old new : BitVec 32) (awake : s.sys.sleep = .awake) (runs : s.sys.inReset = false) :
    (s.gpioGroup old new 1).reg (A.GPIO_EVT 0) = s.reg (A.GPIO_EVT 0) ∧
      ∀ c m, s.linePending c m = true → (s.gpioGroup old new 1).linePending c m = true := by
  by_cases e : s.gpioEdges old new 1 = 0
  · rw [State.gpioGroup, if_pos e]
    exact ⟨rfl, fun _ _ h => h⟩
  · rw [s.gpioGroup_awake old new 1 awake runs e]
    exact ⟨s.reg_gpioLines 1 _ (by decide) (by decide), fun c m h => s.linePending_gpioLines 1 _ c m h⟩

end

/-! ## The host's port -/

/-- A bit that a write does not name stays, in a register whose fields are cleared by a 1 or read alone. -/
theorem writeFields_getLsbD_keeps (fs : List FieldDesc) (w v : Half) (i : Nat) (apart : FieldsApart fs)
    (kept : ∀ d ∈ fs, d.acc = .w1c ∨ d.acc = .ro) (h : w.getLsbD i = false) : (writeFields fs v w).getLsbD i = v.getLsbD i := by
  by_cases hd : ∃ d ∈ fs, d.lo ≤ i ∧ i ≤ d.hi
  · obtain ⟨d, mem, lo, hi⟩ := hd
    rw [writeFields_getLsbD_inside fs w v d i apart mem lo hi]
    unfold FieldDesc.bitAfter
    rcases kept d mem with e | e
    · rw [e]
      simp [h]
    · rw [e]
  · refine writeFields_getLsbD_outside fs w v i apart (fun d mem => ?_)
    exact Decidable.byContradiction fun c => hd ⟨d, mem, by omega, by omega⟩

/-- The release of the inbound buffer clears IN_FULL, and no other bit (R330). -/
theorem State.hostifRelease (s : State) : ∃ t, exec .hostifInRelease s = .next t ∧ t.flag F.HOSTIF_STATUS_IN_FULL = false ∧
    SameRegs s t [A.HOSTIF_STATUS] ∧ SameMemory s t ∧
    ∀ i, i ≠ 0 → (t.reg A.HOSTIF_STATUS).getLsbD i = (s.reg A.HOSTIF_STATUS).getLsbD i := by
  refine ⟨_, rfl, ?_, fun a ha => s.reg_setReg_other _ (by simpa using ha), ⟨rfl, rfl, rfl, rfl⟩, fun i hi => ?_⟩
  · rw [State.flag_bit]
    refine (plainWrite_getLsbD s A.HOSTIF_STATUS 1 ⟨0, 0, .w1c, []⟩ 0 (by decide) (by decide) (by decide)).trans ?_
    simp [FieldDesc.bitAfter]
  · refine (congrArg (·.getLsbD i) (State.reg_setReg_same s A.HOSTIF_STATUS _)).trans ?_
    refine writeFields_getLsbD_keeps _ _ _ i (fieldsAt_apart _) (by decide) ?_
    cases i with
    | zero => exact absurd rfl hi
    | succ i => simp [BitVec.getLsbD_one]

/-- Settles O60: a change of levels by its captures and its two groups, the scan by its passes. -/
theorem pinsAndBoundaryScan : Obligations.PinsAndBoundaryScan := by
  unfold Obligations.PinsAndBoundaryScan
  intro s
  refine ⟨?_, ?_, ?_, ?_, ?_, ?_, ?_, ?_, ?_, ?_⟩
  · intro n rising
    rfl
  · intro old vio inReset halted h h2
    rw [s.gpioSettle_live old vio inReset halted, forEach_fixed]
    · have quiet : ∀ g : Fin 2, s.gpioGroup old s.gpioLevels g = s := fun g => if_pos (h2 g)
      rw [show s.gpioGroup old s.gpioLevels 0 = s from quiet 0]
      exact quiet 1
    · intro n _
      rw [s.capEdge_quiet _ _ (fun k => h k _), ite_self]
  · intro old e u vio inReset halted sleep he hu hedge
    have caps : OnlyTimers s u := by
      rw [hu]
      refine .forEach (fun t n => ?_) _ s
      split
      · exact .refl t
      · exact onlyTimers_capEdge t _ _
    obtain ⟨⟨r, k, m, f, same⟩, -⟩ := caps
    have sys : u.sys = s.sys := by rw [same]
    have edges : u.gpioEdges old s.gpioLevels 0 = e := by
      rw [hedge]
      simp [State.gpioEdges]
    have first := u.gpioGroup_awake old s.gpioLevels 0 (by rw [sys, sleep]) (by rw [sys, inReset]) (by rw [edges]; exact he)
    rw [edges] at first
    obtain ⟨evt, lines⟩ := (u.gpioLines 0 e).gpioGroup_second old s.gpioLevels (by rw [State.sys_gpioLines, sys, sleep])
      (by rw [State.sys_gpioLines, sys, inReset])
    rw [s.gpioSettle_live old vio inReset halted, ← hu, first]
    exact ⟨evt.trans (u.gpioLines_evt 0 e), fun app c hc => lines c 28 (u.gpioLines_apps 0 e app c hc),
      fun vault c hc => lines c 28 (u.gpioLines_lintel 0 e vault c hc)⟩
  · intro code
    rfl
  · rintro ext shifted u scan rfl
    simp [execJtagExtest, State.scanPass, scan]
  · rintro ext shifted u scan rfl
    simp [execJtagSamplePreload, State.scanPass, scan]
  · intro scan
    simp [execJtagBypass, scan]
  · intro t
    simp [Tap.next]
    grind
  · intro tms t foldl
    simp [State.tapClocks, foldl]
  · intro ext shifted scan
    refine ⟨?_, ?_, ?_⟩
    · simp [execJtagExtest, State.scanPass, scan]
    · simp [execJtagSamplePreload, State.scanPass, scan]
    · simp [execJtagBypass, scan]

/-- Settles O46: a transaction by the state of the buffers, and the writes of HOSTIF by the bits that they move. -/
theorem quadSpi : Obligations.QuadSpi := by
  unfold Obligations.QuadSpi
  rintro s u rfl
  refine ⟨?_, ?_, ?_, ?_, ?_, ?_, ?_, ?_, ?_, ?_, ?_, ?_, ?_, ?_, ?_, ?_, ?_⟩
  · intro data frac n hostifLive
    refine ⟨?_, ?_, ?_, ?_⟩
    · simp [execSpiStatus, State.spi, hostifLive]
    · simp [execSpiWrite, State.spi, hostifLive]
    · simp [execSpiRead, State.spi, hostifLive]
    · simp [execSpiBadop, State.spi, hostifLive]
  · rintro n v ws hostifLive draw rfl
    simp [execSpiStatus, State.spi, hostifLive, draw]
  · intro ws
    refine ⟨?_, ?_⟩
    · rfl
    · rfl
  · intro n
    refine ⟨?_, ?_⟩
    · rfl
    · rfl
  · rintro data frac v hostifLive full rfl
    simp [execSpiWrite, State.spi, hostifLive, full]
  · rintro data frac v len hostifLive full rfl rfl either
    simp [execSpiWrite, State.spi, hostifLive, full, either]
  · rintro data v len hostifLive full rfl rfl bound bound2 hlength
    simp [execSpiWrite, State.spi, hostifLive, full, Nat.not_lt.mpr bound, Nat.not_lt.mpr bound2, hlength]
  · rintro n ws out v hostifLive rfl rfl rfl
    simp [execSpiRead, State.spi, hostifLive]
  · intro hostifLive
    simp [execSpiBadop, State.spi, quiet, hostifLive]
  · exact s.hostifRelease
  · intro hrdy oqCount shown
    simp [execHrdyNotch, hrdy, oqCount, shown]
  · rfl
  · rintro w d rfl bound
    simp [execHostifQueueWrite, State.oqWrite, bound]
  · rintro w d v rfl bound rfl
    simp [execHostifQueueWrite, State.oqWrite, Nat.not_lt.mpr bound]
  · rintro w v rfl en hostifCfgOk
    have on : (s.plainWrite A.HOSTIF_CTRL (w ||| 1)).flag F.HOSTIF_CTRL_EN = true := by
      rw [State.flag_plainWrite_rw s _ _ 0 (by decide)]
      simp
    rw [exec_hostifEnable, execHostifEnable, State.hostifCtrlWrite, on, en, hostifCfgOk]
    rfl
  · rintro w v rfl en hostifCfgOk
    have on : (s.plainWrite A.HOSTIF_CTRL (w ||| 1)).flag F.HOSTIF_CTRL_EN = true := by
      rw [State.flag_plainWrite_rw s _ _ 0 (by decide)]
      simp
    rw [exec_hostifEnable, execHostifEnable, State.hostifCtrlWrite, on, en, hostifCfgOk]
    rfl
  · intro w
    have off : (s.plainWrite A.HOSTIF_CTRL (w &&& 0xFFFE)).flag F.HOSTIF_CTRL_EN = false := by
      rw [State.flag_plainWrite_rw s _ _ 0 (by decide)]
      simp
    rw [exec_hostifDisable, execHostifDisable, State.hostifCtrlWrite, off]
    rfl

end Sys2Proof.Machine
end

section
/-! SUPPORT. Starts and stops of COURSE, and its plan. -/
namespace Sys2Proof.Machine

-- One proof after the other, as in the first section: the memory of the whole text is bounded.
set_option Elab.async false

/-- COURSE_RUN is a start after START_AT is written (R92). -/
theorem exec_courseRun_startAt (s : State) (b : Bool) : exec (.courseRun b) s = .next (s.setFld F.COURSE_CTRL_START_AT (bit b)).courseRun := by
  cases b <;> rfl

/-- COURSE_RUN_CLEAR is a stop after START_AT is written (R93). -/
theorem exec_courseRunClear_startAt (s : State) (b : Bool) :
    exec (.courseRunClear b) s = .next (s.setFld F.COURSE_CTRL_START_AT (bit b)).courseRunClear := by
  cases b <;> rfl

section
variable (s : State) (n : Nat)

/-- START_AT is no part of RUNNING. -/
theorem State.running_startAt : (s.setFld F.COURSE_CTRL_START_AT n).running = s.running :=
  congrArg (· != 0) (s.fld_setFld_other F.COURSE_CTRL_START_AT F.COURSE_STATUS_RUNNING n (by decide))

/-- START_AT is no part of the template. -/
theorem State.templateOk_startAt : (s.setFld F.COURSE_CTRL_START_AT n).templateOk = s.templateOk := by
  have word : ∀ a, a ≠ A.COURSE_CTRL → (s.setFld F.COURSE_CTRL_START_AT n).regN a = s.regN a := fun a h =>
    congrArg BitVec.toNat (s.reg_setFld_other n h)
  have len : (s.setFld F.COURSE_CTRL_START_AT n).courseLen = s.courseLen :=
    congrArg (fun x => 240000 * (x + 1)) (s.fld_setFld_other F.COURSE_CTRL_START_AT F.COURSE_CFG_LEN n (by decide))
  unfold State.templateOk
  dsimp only
  rw [len, word _ (by decide), word _ (by decide), word _ (by decide), word _ (by decide), word _ (by decide)]

/-- A start that a check of the template or of XO_HF refuses (R92). -/
theorem State.courseBegin_refused (h : s.templateOk = false ∨ s.sys.xoRun = false) :
    s.courseBegin = (s.setFlag F.COURSE_CTRL_RUN false).setFlag F.COURSE_STATUS_CFG_REFUSED :=
  if_pos (by rcases h with h | h <;> simp [h])

/-- A start that is not refused (R92). -/
theorem State.courseBegin_starts (template : s.templateOk = true) (xo : s.sys.xoRun = true) :
    ∃ ct, (s.flag F.COURSE_CTRL_START_AT = false → ct = s.hft + 2) ∧
      s.courseBegin = ((s.setFlag F.COURSE_CTRL_RUN).setFlag F.COURSE_STATUS_RUNNING).modCourse (fun c => { c with
        nextCt := ct, first := true, sel := none, locked := false, stopPend := false, restart := false }) := by
  refine ⟨_, fun off => ?_, if_neg (by simp [template, xo])⟩
  rw [if_neg (by simp [off])]

end

/-- The plan lies in registers: what COURSE holds is no part of its check. -/
theorem State.planFault_modCourse (s : State) (f : Course → Course) : (s.modCourse f).planFault = s.planFault := rfl

/-- Settles O15: a start and a stop by what COURSE holds, the plan by its check and its copy. -/
theorem courseStartAndPlan : Obligations.CourseStartAndPlan := by
  unfold Obligations.CourseStartAndPlan
  intro s
  refine ⟨?_, ?_, ?_, ?_, ?_, ?_, ?_, ?_, ?_, ?_, ?_, ?_, ?_, ?_, ?_⟩
  · intro hat running templateOk xoRun
    obtain ⟨ct, now, begun⟩ := (s.setFld F.COURSE_CTRL_START_AT (bit hat)).courseBegin_starts
      (by rw [State.templateOk_startAt, templateOk]) xoRun
    have started := exec_courseRun_startAt s hat
    rw [State.courseRun, State.running_startAt, running, if_pos (by rfl), begun] at started
    refine ⟨_, started, ?_, ?_, rfl, rfl, fun off => ?_,
      ⟨rfl, rfl, rfl, rfl⟩, fun a ha => ?_⟩
    · exact State.flag_setFlag_same _ F.COURSE_STATUS_RUNNING true (by decide)
    · exact (State.flag_setFlag_other _ F.COURSE_STATUS_RUNNING F.COURSE_CTRL_RUN true (by decide)).trans
        (State.flag_setFlag_same _ F.COURSE_CTRL_RUN true (by decide))
    · refine now ?_
      rw [off]
      exact State.flag_setFlag_same s F.COURSE_CTRL_START_AT false (by decide)
    · simp only [List.mem_cons, List.not_mem_nil, or_false, not_or] at ha
      exact (State.reg_setFlag_other _ true ha.2).trans ((State.reg_setFlag_other _ true ha.1).trans (s.reg_setFld_other _ ha.1))
  · intro hat running either
    rw [exec_courseRun_startAt, State.courseRun, State.running_startAt, running,
      State.courseBegin_refused _ (by rw [State.templateOk_startAt]; exact either)]
    rfl
  · intro hat running stopPend locked
    rw [exec_courseRun_startAt, State.courseRun, State.running_startAt, running, if_neg (by decide), if_pos (by exact stopPend),
      if_neg (by show ¬ s.course.locked = true; rw [locked]; decide)]
  · intro hat running stopPend locked
    rw [exec_courseRun_startAt, State.courseRun, State.running_startAt, running, if_neg (by decide), if_pos (by exact stopPend),
      if_pos (by exact locked)]
  · intro hat running
    rw [exec_courseRunClear_startAt, State.courseRunClear, State.running_startAt, if_pos running]
  · intro copy
    simp [execPlanCommit, State.planCommit, copy]
  · intro copy
    simp [execPlanCommit, State.planCommit, copy]
  · intro checking planFault
    refine ⟨_, rfl, ?_⟩
    rw [exec_planCheckDone, execPlanCheckDone, checking, if_neg (by decide)]
    dsimp only
    rw [State.planFault_modCourse, planFault]
  · intro code i checking planFault
    refine ⟨_, rfl, ?_⟩
    have code1 : ∀ t : State, ((t.setReg A.COURSE_PLAN_ERR (half (code * 4096 + i))).setFlag F.COURSE_STATUS_PLAN_ERR).reg
        A.COURSE_PLAN_ERR = half (code * 4096 + i) := fun t =>
      (State.reg_setFlag_other _ _ (by decide)).trans (t.reg_setReg_same _ _)
    rw [exec_planCheckDone, execPlanCheckDone, checking, if_neg (by decide)]
    dsimp only
    rw [State.planFault_modCourse, planFault]
    dsimp only
    rw [code1]
  · intro x w bound bound2
    simp [execShadowWrite, State.shadowWrite, bound, bound2]
  · intro x w either copy
    simp [execShadowWrite, State.shadowWrite, State.shadowPut, copy]
    omega
  · intro x w either copy
    simp [execShadowWrite, State.shadowWrite, copy]
    omega
  · intro copying
    simp [execShadowCopyDone, copying]
    rfl
  · intro running first locked stopPend
    rw [exec_planLock, execPlanLock, if_neg (by simp [running, first, locked])]
    have sel : ((s.passTo (s.course.nextCt - us 20)).modCourse (fun c => { c with locked := true })).course.stopPend ≠ true := by
      intro pend
      exact absurd (stopPend.symm.trans pend) (by decide)
    exact congrArg Host.Outcome.next (if_neg sel)
  · intro running first locked stopPend
    rw [exec_planLock, execPlanLock, if_neg (by simp [running, first, locked])]
    exact congrArg Host.Outcome.next (if_pos stopPend)

end Sys2Proof.Machine
end

section
/-! SUPPORT. The channels of TIMER: what lands, what a pair keeps, and what an edge begins. -/
namespace Sys2Proof.Machine

-- One proof after the other, as in the first section: the memory of the whole text is bounded.
set_option Elab.async false

section
variable (s : State) (k : Fin 8)

/-- A line that rises on several cores leaves the channels. -/
theorem State.timers_postAll (cs : List (Fin 6)) (l : Nat) : (s.postAll cs l).timers = s.timers := by
  induction cs generalizing s with
  | nil => rfl
  | cons c cs ih =>
    obtain ⟨r, m, e⟩ := s.post_parts c l
    rw [State.postAll_cons, ih, e]

/-- A capture that lands leaves no other that its channel waits for but the one of an edge. -/
theorem State.due_tmrHeld (due : s.timers[k].due = none) : (s.tmrHeld k).timers[k].due = none := by
  have landed : ∀ t, (s.tmrLand k t).timers[k].due = s.timers[k].due := by
    intro t
    unfold State.tmrLand State.tmrRaise
    dsimp only
    rw [State.timers_postAll]
    split <;> simp [State.modTimer, State.setFlag, State.setFld, State.setReg]
  unfold State.tmrHeld
  split
  · rw [landed, due]
  · exact due

/-- With no edge that waits, time lands the capture that is held alone (R323). -/
theorem State.tmrSettle_held (later : s.timers[k].heldAt < s.hft) (due : s.timers[k].due = none) : s.tmrSettle k = s.tmrHeld k := by
  have none' := s.due_tmrHeld k due
  unfold State.tmrSettle
  rw [if_pos later]
  dsimp only
  rw [none']

/-- An edge whose level has lasted lands where no capture is held (R322, R323). -/
theorem State.tmrSettle_lands {v e : Nat} (held : s.timers[k].held = none) (due : s.timers[k].due = some v)
    (edgeAt : s.timers[k].edgeAt = some e) (lasted : e + 3 ≤ s.hft) :
    s.tmrSettle k = (s.modTimer k (fun x => { x with due := none })).tmrLand k v := by
  have quiet : s.tmrHeld k = s := by
    unfold State.tmrHeld
    rw [held]
  have stays : (s.modTimer k (fun x => { x with due := none })).timers[k].held = none := by
    simp [State.modTimer, ← held]
  unfold State.tmrSettle
  rw [quiet, ite_self]
  dsimp only
  rw [due, edgeAt]
  dsimp only
  rw [if_pos lasted, stays]
  rfl

/-- What a pair reads after a value is put in force in it (R26). -/
theorem State.reg_putPair (lo x : Nat) (held : Bool) :
    (s.putPair lo x held).reg (lo + 2) = half (x / 65536) ∧ (held = true → (s.putPair lo x held).reg lo = s.reg lo) := by
  cases held with
  | true => exact ⟨State.reg_setReg_same _ _ _, fun _ => State.reg_setReg_other _ _ (by omega)⟩
  | false => exact ⟨(State.reg_setReg_other _ _ (by omega)).trans (State.reg_setReg_same _ _ _), fun h => by cases h⟩

/-- A pair put in force takes no time. -/
theorem State.hft_putPair (lo x : Nat) (held : Bool) : (s.putPair lo x held).hft = s.hft := by
  cases held <;> rfl

/-- Two changes of a channel in a row. -/
theorem State.modTimer_modTimer (f g : Timer → Timer) : (s.modTimer k f).modTimer k g = s.modTimer k (fun x => g (f x)) := by
  simp [State.modTimer]

/-- A capture of an edge that the channel takes, known to ±1 tick (R322). -/
theorem State.timerCapture_takes (e : CaptureEdge) {n : Nat} {t : State} (en : s.flag (F.TMR_CTRL_CAP_EN k) = true)
    (src : s.fld (F.TMR_CTRL_CAPSEL k) ≠ 0) (src3 : s.fld (F.TMR_CTRL_CAPSEL k) ≠ 3) (src4 : s.fld (F.TMR_CTRL_CAPSEL k) ≠ 4)
    (xo : s.sys.xoRun = true) (takes : (s.fld (F.TMR_CTRL_EDGE k)).testBit (if e.rising = true then 0 else 1) = true)
    (draw : s.draw 3 = (n, t)) :
    exec (.timerCapture k e) s = .next (t.capture1 k ((s.hft + 2 ^ 32 - 1 + n) % 2 ^ 32) e.coincident) := by
  have hft : t.hft = s.hft := by
    cases draw
    rfl
  have taken : (s.capTakes k (s.fld (F.TMR_CTRL_CAPSEL k)) e.rising && s.fld (F.TMR_CTRL_CAPSEL k) != 3 &&
      s.fld (F.TMR_CTRL_CAPSEL k) != 4) = true := by
    simp [State.capTakes, State.capOn, en, src, src3, src4, xo, takes]
  rw [exec_timerCapture, execTimerCapture]
  dsimp only
  rw [if_pos taken, State.capTime, draw]
  dsimp only
  rw [hft]

end

/-- RUN is a field of every channel's TMR_CTRL. -/
theorem tmrRun_mem (k : Fin 8) : ⟨15, 15, .rw, []⟩ ∈ fieldsAt (A.TMR_CTRL k) := by
  revert k
  decide

/-- Settles O45: a compare by its tick, a write by the word that it commits, a capture by what its channel holds. -/
theorem timerCommands : Obligations.TimerCommands := by
  unfold Obligations.TimerCommands
  intro s k
  refine ⟨?_, ?_, ?_, ?_, ?_, ?_, ?_, ?_, ?_, ?_, ?_, ?_, ?_, ?_, ?_, ?_, ?_, ?_, ?_⟩
  · intro c at_ u v hrun en xoRun hc hat hu hv
    have fire : exec (.timerCompareFire k) s = .next (if v.tmrAdd k = 0 then (v.tmrLatch k c).modTimer k (fun t => { t with late := false })
        else (v.putPair (A.TMR_CMP_LO k) ((v.tmrCmp k + v.tmrAdd k) % 2 ^ 32) v.timers[k].cmpHeld).modTimer k (fun t => { t with
          base := c, since := at_, late := !ahead ((v.tmrCmp k + v.tmrAdd k) % 2 ^ 32) c
          added := some (v.hft, v.eff (A.TMR_CMP_LO k)) })) := by
      rw [exec_timerCompareFire, execTimerCompareFire]
      dsimp only
      rw [if_pos (by rw [hrun, en, xoRun]; rfl), ← hc, ← hat, ← hu, ← hv, State.hft_putPair]
    exact ⟨fun stops => by rw [fire, if_pos stops], fun repeats => by rw [fire, if_neg repeats]⟩
  · intro lo x
    refine ⟨?_, ?_, ?_⟩
    · exact (s.reg_putPair lo x true).2 rfl
    · simp [State.putPair]
    · intro held
      exact (s.reg_putPair lo x held).1
  · rintro w u rfl hrun
    simp [execTimerCntCommit, State.tmrCntWrite, hrun]
  · rintro w u t rfl hrun rfl
    simp [execTimerCntCommit, State.tmrCntWrite, hrun]
    rfl
  · rintro w t h rfl
    simp [execTimerCmpCommit, State.tmrCmpWrite]
    grind
  · rintro w lo t cmpHeld added rfl
    simp [execTimerCmpCommit, State.tmrCmpWrite]
    split <;> simp_all
  · rfl
  · intro w t hrun ht
    have on : (s.plainWrite (A.TMR_CTRL k) (w ||| 0x8000)).flag (F.TMR_CTRL_RUN k) = true := by
      rw [State.flag_plainWrite_rw s _ _ 15 (tmrRun_mem k)]
      simp
    rw [exec_timerRun, execTimerRun, State.tmrCtrlWrite]
    dsimp only
    rw [on, hrun, if_neg (by decide), State.tmrSet, State.modTimer_modTimer, ht]
    exact congrArg Host.Outcome.next (if_pos (Bool.or_eq_true_iff.2 (.inl on)))
  · rintro w t hrun rfl hrun2
    simp [execTimerStop, State.tmrCtrlWrite]
    split <;> simp_all
  · intro w
    rw [State.flag_plainWrite_rw s _ _ 15 (tmrRun_mem k)]
    simp
  · intro rising e t en capsel capsel2 capsel3 xoRun testBit draw
    have captures : ∀ c, exec (.timerCapture k ⟨rising, c⟩) s = .next (t.capture1 k ((s.hft + 2 ^ 32 - 1 + e) % 2 ^ 32) c) := fun c =>
      s.timerCapture_takes k ⟨rising, c⟩ en capsel capsel2 capsel3 xoRun testBit draw
    refine ⟨fun u hu held => ?_, fun c u hu held => ?_⟩
    · rw [captures, captures, State.capture1, State.capture1, ← hu]
      rw [held]
      exact ⟨rfl, rfl⟩
    · rw [captures, State.capture1, ← hu]
      rw [if_pos (Option.isSome_iff_ne_none.2 held)]
  · intro bound due
    exact s.tmrSettle_held k bound due
  · intro due bound
    simp [State.tmrSettle]
    grind
  · intro v e held due edgeAt bound
    exact s.tmrSettle_lands k held due edgeAt bound
  · intro e takes edgeAt bound
    simp [State.capPulse]
    split <;> simp_all
  · intro takes d t h draw
    have hft : t.hft = s.hft := by
      cases draw
      rfl
    have begun : s.capPulse k takes = s.capBegin k takes := by
      unfold State.capPulse
      split
      next e he => exact if_neg (Nat.not_lt.2 (h e he))
      next => rfl
    rw [begun, State.capBegin, State.capTime, draw]
    dsimp only
    rw [hft]
  · intro x either
    simp [execTimerCapture, State.capTakes, State.capOn]
    grind
  · intro src rising
    simp [State.capTakes, State.capOn]
    grind
  · intro t tmrSettle
    simp [execTimerCapRead, State.tmrCapRead, tmrSettle]

end Sys2Proof.Machine
end

section
/-! SUPPORT. The course clock over a register file that is not in canonical form. -/
namespace Sys2Proof.Machine

-- One proof after the other, as in the first section: the memory of the whole text is bounded.
set_option Elab.async false

/-- COURSE runs with a plan committed and every lane out of service, and the register file lists word 0 of the shadow buffer twice, which no canonical file does:
the word reads as the first listing. -/
def shadowTwice : State := { State.reset with
  regs := [(A.COURSE_STATUS, 3), (A.COURSE_SHADOW 0, 5), (A.COURSE_SHADOW 0, 6)] ++ (List.range 64).map (fun n => (A.LANE_ST0 n, 0xA000)) }

/-- The swap of the plan goes over the list, so that word 0 of the active buffer takes the second listing. -/
theorem shadowTwice_swapped : shadowTwice.courseTick.planWord false 0 = 6 := by
  decide +kernel

/-- Refutes O16: the statement is about every state, and the clause on a swapped plan fails where the register file is not in canonical
form. There the shadow word reads 5 before the tick and the active word 6 after it. -/
theorem not_courseClock : ¬ Obligations.CourseClock := by
  unfold Obligations.CourseClock
  intro h
  obtain ⟨-, swap, -⟩ := h shadowTwice
  obtain ⟨t, tick, -, -, -, -, plan⟩ := swap true (by decide) (by decide) (by decide) (.inl rfl)
  obtain ⟨-, -, -, words⟩ := plan rfl
  have next : exec .courseTick shadowTwice = .next shadowTwice.courseTick := by
    rw [exec_courseTick, execCourseTick, if_pos (by decide)]
  have same : shadowTwice.courseTick = t := Host.Outcome.next.inj (next.symm.trans tick)
  have read : shadowTwice.courseTick.planWord false 0 = shadowTwice.planWord true 0 := by
    rw [same]
    exact words 0
  rw [shadowTwice_swapped] at read
  exact absurd read (by decide)

end Sys2Proof.Machine
end

section
/-! SUPPORT. The boot ROM: the records that it loads, and the set that it selects. -/
namespace Sys2Proof.Machine

-- One proof after the other, as in the first section: the memory of the whole text is bounded.
set_option Elab.async false

section
variable (s : State)

/-- The trim of a usable calibration record is in force (R297): the codes that follow it are in the registers of LF_TUNE. -/
theorem State.loadCal_trim (c : CalRecord) (own : s.ownerRecord = true) :
    (s.loadCal (some c)).reg (A.RFE_XO_TRIM .sub) = c.trim ∧ (s.loadCal (some c)).eff (A.RFE_XO_TRIM .sub) = c.trim := by
  have tuned : ∀ (l : List Nat) (t : State), t.reg (A.RFE_XO_TRIM .sub) = c.trim ∧ t.eff (A.RFE_XO_TRIM .sub) = c.trim →
      (forEach l t (fun s n => s.setFld (F.LF_TUNE_CODE n) (c.tune.toNat / 64 ^ n % 64))).reg (A.RFE_XO_TRIM .sub) = c.trim ∧
        (forEach l t (fun s n => s.setFld (F.LF_TUNE_CODE n) (c.tune.toNat / 64 ^ n % 64))).eff (A.RFE_XO_TRIM .sub) = c.trim := by
    intro l
    unfold forEach
    induction l with
    | nil => exact fun t h => h
    | cons n l ih =>
      intro t h
      have tune : (F.LF_TUNE_CODE n).reg = 0xE50012 + 8 * n := rfl
      have low : A.RFE_XO_TRIM .sub < 0xE50000 := by decide
      have apart : A.RFE_XO_TRIM .sub ≠ (F.LF_TUNE_CODE n).reg := by omega
      exact ih _ ⟨(t.reg_setFld_other _ apart).trans h.1, h.2⟩
  have got : ∀ (t : State) (g : Update → Update), t.reg (A.RFE_XO_TRIM .sub) = c.trim ∧ t.eff (A.RFE_XO_TRIM .sub) = c.trim →
      ((forEach (List.range 4) t (fun s n => s.setFld (F.LF_TUNE_CODE n) (c.tune.toNat / 64 ^ n % 64))).modUpdate g).reg
        (A.RFE_XO_TRIM .sub) = c.trim ∧
      ((forEach (List.range 4) t (fun s n => s.setFld (F.LF_TUNE_CODE n) (c.tune.toNat / 64 ^ n % 64))).modUpdate g).eff
        (A.RFE_XO_TRIM .sub) = c.trim :=
    fun t _ h => tuned (List.range 4) t h
  have trim : ∀ t : State, ((t.setReg (A.RFE_XO_TRIM .sub) c.trim).commit [A.RFE_XO_TRIM .sub]).reg (A.RFE_XO_TRIM .sub) = c.trim ∧
      ((t.setReg (A.RFE_XO_TRIM .sub) c.trim).commit [A.RFE_XO_TRIM .sub]).eff (A.RFE_XO_TRIM .sub) = c.trim := by
    intro t
    refine ⟨t.reg_setReg_same _ _, ?_⟩
    refine (State.eff_setEff _ _ _ _).trans ?_
    rw [if_pos rfl, State.reg_setReg_same]
  unfold State.loadCal
  dsimp only
  rw [if_pos own]
  exact got _ _ (trim _)

/-- A slot code with a candidate set is one of a slot, whose checks pass (R383). -/
theorem State.cand_passes {k : Nat} {nine : Bool} (some' : k ≠ 0) (passes : s.setCheck (k - 1) nine = upOk) : s.cand k nine = true := by
  simp [State.cand, some', passes]

/-- No set stands at slot code 0. -/
theorem State.cand_zero (nine : Bool) : s.cand 0 nine = false := rfl

/-- The selection without a record: any set that passes, the newer first (R383). -/
theorem State.bootConf_any (r : BootRec) (now : Bool) (conf : r.conf = 0) (prev : r.prev = 0) :
    s.bootConf r now =
      let order := if s.setVer 1 < s.setVer 2 then [2, 1] else [1, 2]
      let d := forEach order s (fun s k => s.candRead k false)
      match order.find? (fun k => d.cand k false) with
      | some k => d.bootWith { r with conf := k, floor := d.setVer k, own := d.setOwn k } k now
      | none => d.enterRecovery := by
  have same : (s.setSlotState 0 ssFailed).candRead 0 false = s := rfl
  have read : s.candRead 0 false = s := rfl
  unfold State.bootConf
  rw [conf, prev, read]
  dsimp only
  rw [same, State.cand_zero, if_neg (by decide), if_neg (by decide), if_pos rfl] <;> rfl

/-- A record written within the command lets the ROM go on; another is left to the command's end (R383). -/
theorem State.romWrite_eq (r : BootRec) (next : FwNext) :
    s.romWrite r true next = (true, (s.cfgAsk 1 r.payload (r.seq + 1)).nvmcDone 0) ∧
      s.romWrite r false next = (false, (s.cfgAsk 1 r.payload (r.seq + 1)).modUpdate (fun u => { u with inCfg := some next })) :=
  ⟨rfl, rfl⟩

/-- The pending set has failed: the record without it is written, and the confirmed set selected (R383). -/
def State.bootFailed (p : State) (r : BootRec) (now : Bool) : State :=
  let (go, w) := (p.setSlotState r.pend ssFailed).romWrite { r with pend := 0, handover := false } now .select
  if go then w.bootConf { r with pend := 0, handover := false, seq := r.seq + 1 } now else w

end

/-- Settles O57: the boot ROM by the life cycle and its cause, the selection by the first set that passes its checks. -/
theorem bootAndMigration : Obligations.BootAndMigration := by
  unfold Obligations.BootAndMigration
  intro s clkOk nvOk sub ism cal
  refine ⟨?_, ?_, ?_, ?_, ?_, ?_, ?_, ?_, ?_, ?_, ?_, ?_, ?_, ?_, ?_⟩
  · intro either
    simp [execBootRomSequence, either]
  · rintro u v w alive fwRun recovery busy rfl rfl rfl
    refine ⟨?_, ?_, ?_, ?_⟩
    · intro t storeIntent ht ht2
      simp [execBootRomSequence, alive, fwRun, recovery, busy]
      split <;> simp_all
    · intro cert x storeIntent storeLc drbgReady transitionCert
      simp [execBootRomSequence, alive, fwRun, recovery, busy]
      split <;> simp_all
    · intro storeIntent storeLc drbgReady
      simp [execBootRomSequence, alive, fwRun, recovery, busy]
      split <;> simp_all
    · intro either
      refine ⟨?_, ?_, ?_, ?_, ?_⟩
      · intro storeLc
        simp [execBootRomSequence, alive, fwRun, recovery, busy]
        split <;> simp_all
      · intro storeLc
        simp [execBootRomSequence, alive, fwRun, recovery, busy]
        split <;> simp_all
      · intro storeLc storeLc2 cause
        simp [execBootRomSequence, alive, fwRun, recovery, busy]
        split <;> simp_all
      · intro storeLc storeLc2 cause resumePoint
        simp [execBootRomSequence, alive, fwRun, recovery, busy]
        split <;> simp_all
      · rintro k a x storeLc storeLc2 cause resumePoint rfl
        simp [execBootRomSequence, alive, fwRun, recovery, busy]
        split <;> simp_all
  · rfl
  · intro c ownerRecord
    simp [State.loadCal, ownerRecord]
  · intro c ownerRecord
    refine ⟨?_, ?_⟩
    · exact (s.loadCal_trim c ownerRecord).1
    · exact (s.loadCal_trim c ownerRecord).2
  · rfl
  · intro n r p hn hr hp
    have select : ∀ now, s.bootSelect now = (if r.pend = 0 then p.unpend.bootConf r now
        else if p.cand r.pend true then (p.setSlotState r.conf ssPrevious).bootWith { r with
          prev := r.conf, conf := r.pend, floor := p.setVer r.pend, own := p.setOwn r.pend, pend := 0, handover := false } r.pend now
        else p.bootFailed r now) := by
      intro now
      rw [hp, hr, hn]
      rfl
    refine ⟨fun none' => ?_, fun some' passes => ?_, fun some' fails => ?_⟩
    · have read : p = n := by rw [hp, none']; rfl
      rw [select, if_pos none', read]
    · rw [select, if_neg some', if_pos (p.cand_passes some' passes)]
    · have cand : p.cand r.pend true = false := by simp [State.cand, fails]
      rw [select, select, if_neg some', if_neg some', if_neg (by rw [cand]; decide), if_neg (by rw [cand]; decide)]
      exact ⟨rfl, rfl⟩
  · rintro r c f d rfl rfl rfl
    refine ⟨?_, ?_, ?_⟩
    · intro conf setCheck
      simp [State.bootConf, State.cand, conf, setCheck]
    · intro cand prev setCheck
      rw [State.bootConf]
      dsimp only
      rw [if_neg (by rw [cand]; decide), if_pos (State.cand_passes _ prev setCheck)]
    · intro cand cand2 conf
      simp [State.bootConf, cand, cand2, conf]
  · rintro r order d k conf prev rfl rfl find
    rw [s.bootConf_any r nvOk conf prev]
    dsimp only
    rw [find] <;> rfl
  · intro r k
    refine ⟨?_, ?_⟩
    · rfl
    · rfl
  · rintro k p w rfl part
    simp [State.bootSet, part]
  · rintro old fwRun slotState nvmcTaken rfl
    simp [execRecordMigration]
    grind
  · intro p hmem
    rw [State.cfgAll, List.mem_filter] at hmem
    exact of_decide_eq_true hmem.2
  · intro w next
    rfl
  · intro either
    simp [execRecordMigration]
    grind

end Sys2Proof.Machine
end

section
/-! SUPPORT. TROWEL's commands of a core that the level reaches. -/
namespace Sys2Proof.Machine

-- One proof after the other, as in the first section: the memory of the whole text is bounded.
set_option Elab.async false

section
variable (s : State) {core : Fin 8} {c : Fin 6} (t : Fin 4)

/-- A command that the level allows, with a data phase of good parity, acts (R403). -/
theorem State.twCmd_acts (need : Nat) (f : State → State) (on : s.twOn = true) (level : need ≤ s.twLevel) :
    s.twCmd need true f = f s := by
  rw [State.twCmd, on, if_neg (by decide), if_neg (by omega), if_neg (by decide)]

/-- A command of a core that the level reaches acts on that core (R404). -/
theorem State.twCore_acts (f : State → Fin 6 → State) (same : core.val = c.val) (on : s.twOn = true)
    (reached : s.twLevel = 2 ∨ (s.twLevel = 1 ∧ 2 ≤ c.val)) : s.twCore core true f = f s c := by
  have level : 1 ≤ s.twLevel := by omega
  have named : core.val < 6 := by omega
  have core' : (⟨core.val, named⟩ : Fin 6) = c := Fin.ext same
  rw [State.twCore, s.twCmd_acts 1 _ on level, dif_pos named, if_neg (by omega), s.twCmd_acts 1 _ on level, core']

/-- A command of a thread that is not halted ends in a fault (R406). -/
theorem State.twHalted_running (sel : Thread → Bool) (good : Bool) (f : State → Fin 6 → State) (same : core.val = c.val)
    (on : s.twOn = true) (reached : s.twLevel = 2 ∨ (s.twLevel = 1 ∧ 2 ≤ c.val)) (runs : (s.thr c t).halted = false) :
    s.twHalted core t sel good f = s.twFault twNotHalted := by
  rw [State.twHalted, s.twCore_acts _ same on reached, runs, if_pos (by rfl)]

/-- A command of a halted thread that selects no register where it needs one ends in a fault (R406). -/
theorem State.twHalted_unselected (sel : Thread → Bool) (good : Bool) (f : State → Fin 6 → State) (same : core.val = c.val)
    (on : s.twOn = true) (reached : s.twLevel = 2 ∨ (s.twLevel = 1 ∧ 2 ≤ c.val)) (halted : (s.thr c t).halted = true)
    (bad : sel (s.thr c t) = false) : s.twHalted core t sel good f = s.twFault twBadArg := by
  rw [State.twHalted, s.twCore_acts _ same on reached, halted, if_neg (by decide), bad, if_pos (by rfl)]

/-- A command of a halted thread acts (R406). -/
theorem State.twHalted_acts (sel : Thread → Bool) (f : State → Fin 6 → State) (same : core.val = c.val)
    (on : s.twOn = true) (reached : s.twLevel = 2 ∨ (s.twLevel = 1 ∧ 2 ≤ c.val)) (halted : (s.thr c t).halted = true)
    (ok : sel (s.thr c t) = true) : s.twHalted core t sel true f = f s c := by
  rw [State.twHalted, s.twCore_acts _ same on reached, halted, if_neg (by decide), ok, if_neg (by decide),
    s.twCmd_acts 1 _ on (by omega)]

/-- A selection that names a register passes (R406). -/
theorem Thread.selOk_of {th : Thread} {x : Sel} (h : selOf th.rsel.toNat = some x) : th.selOk = true := by
  rw [Thread.selOk, h]
  rfl

/-- What a write puts in a selected register of a thread (R406). -/
def State.rwrPut (s : State) (c : Fin 6) (t : Fin 4) (v : BitVec 24) : Sel → State
  | .cr n => if s.twReadOnly c t n v.toNat then s.twFault twDenied else s.modCore c (fun k => k.landOne t ⟨0, .cr n, v.toNat⟩)
  | .d i => s.modCore c (fun k => k.landOne t ⟨0, .d i, v.toNat⟩)
  | .p i => s.modCore c (fun k => k.landOne t ⟨0, .p i, v.toNat⟩)
  | .lr => s.modCore c (fun k => k.landOne t ⟨0, .lr, v.toNat⟩)
  | .pc => (s.pcOf v).2.modThr c t (fun th => { th with pc := (s.pcOf v).1 })

/-- A write of a halted thread's selected register, with a data phase of good parity (R406). -/
theorem State.rwr_acts {x : Sel} (v : BitVec 24) (same : core.val = c.val) (on : s.twOn = true)
    (reached : s.twLevel = 2 ∨ (s.twLevel = 1 ∧ 2 ≤ c.val)) (halted : (s.thr c t).halted = true)
    (sel : selOf (s.thr c t).rsel.toNat = some x) : exec (.trowelRwr core t v true) s = .next (s.rwrPut c t v x) := by
  rw [exec_trowelRwr, execTrowelRwr, s.twHalted_acts t _ _ same on reached halted (Thread.selOk_of sel), sel]
  cases x <;> rfl

end

/-- Settles O59: each command by what the port does with a command of a core that its level reaches. -/
theorem trowelThreads : Obligations.TrowelThreads := by
  unfold Obligations.TrowelThreads
  intro s core c t same on reached
  have acts := fun f => s.twCore_acts (core := core) f same on reached
  have haltedActs := fun sel f => s.twHalted_acts (core := core) t sel f same on reached
  have running := fun sel good f => s.twHalted_running (core := core) t sel good f same on reached
  have unselected := fun sel good f => s.twHalted_unselected (core := core) t sel good f same on reached
  refine ⟨?_, ?_, ?_, ?_, ?_, ?_, ?_, ?_, ?_, ?_, ?_, ?_, ?_, ?_, ?_, ?_, ?_, ?_, ?_, ?_⟩
  · intro halted st
    rw [exec_trowelHalt, execTrowelHalt, acts, if_neg (by rw [halted]; decide), if_pos st]
  · intro halted st
    rw [exec_trowelHalt, execTrowelHalt, acts, if_neg (by rw [halted]; decide), if_neg st]
  · intro halted
    rw [exec_trowelHalt, execTrowelHalt, acts, if_pos halted]
  · intro haltReq slot
    rw [exec_threadHaltTakesEffect, execThreadHaltTakesEffect, if_pos ⟨haltReq, by rw [slot]; rfl⟩]
  · intro halted
    rw [exec_trowelResume, execTrowelResume, haltedActs _ _ halted rfl]
  · intro halted st st2
    rw [exec_trowelStep, execTrowelStep, haltedActs _ _ halted rfl, if_neg st, if_neg st2]
  · intro v halted
    refine ⟨?_, ?_, ?_, ?_⟩
    · rw [exec_trowelResume, execTrowelResume, running _ _ _ halted]
    · rw [exec_trowelStep, execTrowelStep, running _ _ _ halted]
    · rw [exec_trowelRrd, execTrowelRrd, running _ _ _ halted]
    · rw [exec_trowelRwr, execTrowelRwr, running _ _ _ halted]
  · intro sel
    rw [exec_trowelRsel, execTrowelRsel, acts]
  · intro x n halted sel value
    rw [exec_trowelRrd, execTrowelRrd, haltedActs _ _ halted (Thread.selOk_of sel)]
    dsimp only
    rw [sel, value]
    cases x <;> rfl
  · intro v halted sel
    have bad : (s.thr c t).selOk = false := by
      rw [Thread.selOk, sel]
      rfl
    refine ⟨?_, ?_⟩
    · rw [exec_trowelRrd, execTrowelRrd, unselected _ _ _ halted bad]
    · rw [exec_trowelRwr, execTrowelRwr, unselected _ _ _ halted bad]
  · intro v i halted sel
    exact s.rwr_acts t v same on reached halted sel
  · intro v i halted sel
    exact s.rwr_acts t v same on reached halted sel
  · intro v n halted sel readOnly
    exact (s.rwr_acts t v same on reached halted sel).trans (congrArg Host.Outcome.next (if_neg (by rw [readOnly]; decide)))
  · intro v n halted sel readOnly
    exact (s.rwr_acts t v same on reached halted sel).trans (congrArg Host.Outcome.next (if_pos readOnly))
  · intro v halted sel aligned
    have pc : s.pcOf v = (v, s) := if_pos aligned
    rw [s.rwr_acts t v same on reached halted sel, State.rwrPut, pc]
  · intro v
    rw [exec_trowelBkpt, execTrowelBkpt, acts]
  · intro v bound
    rw [exec_trowelBkctl, execTrowelBkctl, acts, if_neg (by omega)]
  · intro v bound
    rw [exec_trowelBkctl, execTrowelBkctl, acts, if_pos (by omega)]
  · intro u branch i cpuThread bkMatch
    simp [execBreakpointHit, cpuThread, bkMatch]
  · intro u branch cpuThread bkMatch
    simp [execBreakpointHit, cpuThread, bkMatch]

end Sys2Proof.Machine
end

section
/-! SUPPORT. TROWEL's transfers: the turn that an access waits for, and what a read and a write leave. -/
namespace Sys2Proof.Machine

-- One proof after the other, as in the first section: the memory of the whole text is bounded.
set_option Elab.async false

section
variable (s : State) {core : Fin 8}

/-- A read that the level allows waits for its turn (R404). -/
theorem rd16_free (core : Fin 8) :
    ∃ f, ∀ s : State, s.twOn = true → 1 ≤ s.twLevel → exec (.trowelRd16 core) s = .next (s.twFree f) :=
  ⟨_, fun s on level => by rw [exec_trowelRd16, execTrowelRd16, s.twCmd_acts 1 _ on level]⟩

/-- A write that the level allows waits for its turn (R404). -/
theorem wr16_free (core : Fin 8) (w : Half) (good : Bool) :
    ∃ f, ∀ s : State, s.twOn = true → 1 ≤ s.twLevel → exec (.trowelWr16 core w good) s = .next (s.twFree f) :=
  ⟨_, fun s on level => by rw [exec_trowelWr16, execTrowelWr16, s.twCmd_acts 1 _ on level]⟩

/-- While a write is under way a command is answered WAIT, or the write has completed and the command acts (R404). -/
theorem State.twFree_writing (f : State → State) {n : Nat} {u : State} (writing : s.dbg.writing = true) (draw : s.draw 2 = (n, u)) :
    s.twFree f = if n = 0 then u.see .wait else (u.modDebug (fun d => { d with writing := false })).twFree f := by
  rw [State.twFree, writing, if_neg (by decide), draw]
  rfl

/-- With no write under way a command acts. -/
theorem State.twFree_idle (f : State → State) (writing : s.dbg.writing = false) : s.twFree f = f s := by
  rw [State.twFree, writing]
  rfl

/-- A command that waits for its turn waits while a write is under way, and then is the same command (R404). -/
theorem twFree_turn {i : Instr} (free : ∃ f, ∀ s : State, s.twOn = true → 1 ≤ s.twLevel → exec i s = .next (s.twFree f)) {n : Nat}
    {u : State} (on : s.twOn = true) (level : 1 ≤ s.twLevel) (writing : s.dbg.writing = true) (draw : s.draw 2 = (n, u)) :
    exec i s = if n = 0 then .next (u.see .wait) else exec i (u.modDebug (fun d => { d with writing := false })) := by
  obtain ⟨f, free⟩ := free
  have on' : (u.modDebug (fun d => { d with writing := false })).twOn = true := by
    cases draw
    exact on
  have level' : 1 ≤ (u.modDebug (fun d => { d with writing := false })).twLevel := by
    cases draw
    exact level
  rw [free s on level, free _ on' level', s.twFree_writing f writing draw]
  split <;> rfl

/-- A read of an address that the level reaches: it has its value, or one was held, or the bus refuses it (R404, R405). -/
theorem State.rd16_reaches {c : Fin 6} (on : s.twOn = true) (level : 1 ≤ s.twLevel) (writing : s.dbg.writing = false)
    (window : s.twWindow s.dbg.addr.toNat = true) (reached : s.twLocal core s.dbg.addr.toNat = some c) :
    exec (.trowelRd16 core) s = .next (match s.dbg.held with
      | some (b, v) => if b = s.dbg.addr then s.twGive true v else s.twFault twBusErr
      | none => match s.busRead (.trowel (s.twLevel = 2)) c s.dbg.addr.toNat 2 with
        | (.value v, s') => s'.twGive (twTurn s.dbg.addr.toNat) (half v)
        | (_, s') => s'.twFault twBusErr) := by
  rw [exec_trowelRd16, execTrowelRd16, s.twCmd_acts 1 _ on level, s.twFree_idle _ writing]
  dsimp only
  rw [window, if_neg (by decide), reached]
  cases s.dbg.held <;> rfl

/-- A write to an address that the level reaches (R404, R405). -/
theorem State.wr16_reaches {c : Fin 6} (w : Half) (good : Bool) (on : s.twOn = true) (level : 1 ≤ s.twLevel)
    (writing : s.dbg.writing = false) (window : s.twWindow s.dbg.addr.toNat = true)
    (reached : s.twLocal core s.dbg.addr.toNat = some c) :
    exec (.trowelWr16 core w good) s = .next (
      if admitted (.trowel (s.twLevel = 2)) s.dbg.addr.toNat 2 true = false then s.twFault twBusErr
      else s.twCmd 1 good (fun s' => match s'.busWrite (.trowel (s.twLevel = 2)) c s.dbg.addr.toNat 2 w.toNat with
        | some s' =>
          let (n, s') := if twTurn s.dbg.addr.toNat then s'.draw 2 else (1, s')
          (s'.modDebug (fun d => { d with held := none, writing := n = 0 })).twNext
        | none => s')) := by
  rw [exec_trowelWr16, execTrowelWr16, s.twCmd_acts 1 _ on level, s.twFree_idle _ writing]
  dsimp only
  rw [window, if_neg (by decide), reached]
  simp only [Bool.not_eq_true'] <;> rfl

/-- An access that takes its turn at a bank or at the MRAM port. -/
theorem twTurn_iff (a : Nat) : twTurn a = true ↔ placeOf a = .sram ∨ placeOf a = .mram := by
  simp [twTurn]

/-- A value that has come by the ACK (R404). -/
theorem State.twGive_now (v : Half) :
    s.twGive false v = (s.modDebug (fun d => { d with held := none, addr := d.addr + 2 })).see (.value v) := rfl

/-- A value whose turn may be late (R404). -/
theorem State.twGive_late (v : Half) {n : Nat} {u : State} (draw : s.draw 2 = (n, u)) :
    s.twGive true v = if n = 0 then (u.modDebug (fun d => { d with held := some (u.dbg.addr, v) })).see .wait
      else (u.modDebug (fun d => { d with held := none, addr := d.addr + 2 })).see (.value v) := by
  rw [State.twGive, if_neg (by decide), draw]
  rfl

end

/-- Settles O58: a command by its level and parity, a transfer by its turn and by what the bus answers. -/
theorem trowelPort : Obligations.TrowelPort := by
  unfold Obligations.TrowelPort
  intro s
  refine ⟨?_, ?_, ?_, ?_, ?_, ?_, ?_, ?_, ?_, ?_, ?_, ?_, ?_, ?_, ?_, ?_, ?_, ?_, ?_, ?_, ?_, ?_, ?_⟩
  · intro need good f twOn bound
    simp [State.twCmd, twOn, bound]
  · intro need f twOn bound
    refine ⟨?_, ?_⟩
    · simp [State.twCmd, twOn, Nat.not_lt.mpr bound]
    · simp [State.twCmd, twOn, Nat.not_lt.mpr bound]
  · intro core twOn
    simp [execTrowelStatus, State.twCmd, twOn]
  · intro core twOn
    simp [execTrowelStatus, State.twCmd, twOn]
  · intro a twOn bound hMod
    simp [execTrowelAddr, State.twCmd, twOn, hMod]
    omega
  · intro a twOn bound hMod
    simp [execTrowelAddr, State.twCmd, twOn, hMod]
    omega
  · rintro core w good n u x twOn bound writing draw rfl
    refine ⟨?_, ?_⟩
    · exact twFree_turn s (rd16_free core) twOn bound writing draw
    · exact twFree_turn s (wr16_free core w good) twOn bound writing draw
  · rintro core c a v t twOn bound writing held rfl twWindow twLocal busRead
    refine ⟨?_, ?_⟩
    · intro placeOf placeOf2
      have now : twTurn s.dbg.addr.toNat = false := Bool.eq_false_iff.2 (fun h => ((twTurn_iff _).1 h).elim placeOf placeOf2)
      rw [s.rd16_reaches twOn bound writing twWindow twLocal, held]
      dsimp only
      rw [busRead]
      dsimp only
      rw [now, t.twGive_now]
    · intro n u either draw
      rw [s.rd16_reaches twOn bound writing twWindow twLocal, held]
      dsimp only
      rw [busRead]
      dsimp only
      rw [(twTurn_iff _).2 either, t.twGive_late _ draw]
  · intro core c v n u twOn bound writing held twWindow twLocal draw
    rw [s.rd16_reaches twOn bound writing twWindow twLocal, held]
    dsimp only
    rw [if_pos rfl, s.twGive_late _ draw]
  · intro core c t twOn bound writing held twWindow twLocal busRead
    rw [s.rd16_reaches twOn bound writing twWindow twLocal, held]
    dsimp only
    rw [busRead]
  · intro core w good twOn bound writing twWindow
    refine ⟨?_, ?_⟩
    · rw [exec_trowelRd16, execTrowelRd16, s.twCmd_acts 1 _ twOn bound, s.twFree_idle _ writing]
      dsimp only
      rw [twWindow, if_pos (by rfl)]
    · rw [exec_trowelWr16, execTrowelWr16, s.twCmd_acts 1 _ twOn bound, s.twFree_idle _ writing]
      dsimp only
      rw [twWindow, if_pos (by rfl)]
  · rintro core c a w t n u twOn bound writing rfl twWindow twLocal admitted busWrite mk
    have turn : (if twTurn s.dbg.addr.toNat then t.draw 2 else (1, t)) = (n, u) := by
      rw [mk]
      simp only [twTurn_iff]
    rw [s.wr16_reaches w true twOn bound writing twWindow twLocal, admitted, if_neg (by decide), s.twCmd_acts 1 _ twOn bound, busWrite]
    dsimp only
    rw [turn]
    rfl
  · intro core c w good twOn bound writing twWindow twLocal admitted
    rw [s.wr16_reaches w good twOn bound writing twWindow twLocal, if_pos admitted]
  · intro twOn twLevel
    simp [execTrowelReset, State.twCmd, twOn, twLevel]
  · intro twOn twLevel
    simp [execTrowelScan, State.twCmd, twOn, twLevel]
  · intro twOn bound
    refine ⟨?_, ?_⟩
    · simp [execTrowelReset, State.twCmd, twOn, bound]
    · simp [execTrowelScan, State.twCmd, twOn, bound]
  · intro twOn
    simp [execTrowelBadcmd, State.twCmd, twOn]
  · rfl
  · intro either
    simp [execTrowelLineReset]
    grind
  · intro scan hostIo
    simp [execTrowelLineReset, scan, hostIo]
  · intro w
    simp [twRequest]
  · intro w d good twRequest
    simp [twTransaction, twRequest]
  · intro w d good cmd core t twRequest
    refine ⟨?_, ?_, ?_, ?_, ?_, ?_, ?_, ?_, ?_, ?_, ?_, ?_, ?_, ?_, ?_⟩
    · intro hcmd
      simp [twTransaction, twRequest, hcmd]
    · intro hcmd
      simp [twTransaction, twRequest, hcmd]
    · intro hcmd
      simp [twTransaction, twRequest, hcmd]
    · intro hcmd
      simp [twTransaction, twRequest, hcmd]
    · intro hcmd
      simp [twTransaction, twRequest, hcmd]
    · intro hcmd
      simp [twTransaction, twRequest, hcmd]
    · intro hcmd
      simp [twTransaction, twRequest, hcmd]
    · intro hcmd
      simp [twTransaction, twRequest, hcmd]
    · intro hcmd
      simp [twTransaction, twRequest, hcmd]
    · intro hcmd
      simp [twTransaction, twRequest, hcmd]
    · intro hcmd
      simp [twTransaction, twRequest, hcmd]
    · intro hcmd
      simp [twTransaction, twRequest, hcmd]
    · intro hcmd
      simp [twTransaction, twRequest, hcmd]
    · intro hcmd
      simp [twTransaction, twRequest, hcmd]
    · intro either
      simp [twTransaction, twRequest]
      split <;> simp_all

end Sys2Proof.Machine
end

section
/-! SUPPORT. UART0 and the mailbox channels: what the frame receiver does with an octet and a whole frame, and what firmware finds in
a mailbox. -/
namespace Sys2Proof.Machine

-- One proof after the other, as in the first section: the memory of the whole text is bounded.
set_option Elab.async false

variable {s : State}

/-! ## The frame receiver (R332) -/

/-- A frame, or the 0xA5 that may begin one, is dropped. -/
theorem State.uartDiscard_begun (h : s.uart.inFrame = true ∨ s.uart.a5 = true) :
    s.uartDiscard = (s.modUart (fun u => { u with a5 := false, inFrame := false, frame := [] })).modChan 1
      (fun c => { c with discarded := c.discarded + 1 }) :=
  if_pos (by simpa using h)

/-- Where the receiver searches, and no 0xA5 has come, there is nothing to drop. -/
theorem State.uartDiscard_searching (hf : s.uart.inFrame = false) (ha : s.uart.a5 = false) : s.uartDiscard = s :=
  if_neg (by simp [hf, ha])

/-- Outside a frame an octet is held against 0xA5 and 0x5A. -/
theorem State.uartTake_searching (b : Byte) (h : s.uart.inFrame = false) :
    s.uartTake b = s.modUart (fun u => { u with inFrame := u.a5 && b == 0x5A, a5 := b == 0xA5, frame := [] }) :=
  if_pos (by rw [h]; rfl)

section
variable {b : Byte} {l : List Byte} (hin : s.uart.inFrame = true) (hl : l = s.uart.frame ++ [b])
include hin hl

/-- Inside a frame the octet is put behind those that came. -/
theorem State.uartTake_inFrame : s.uartTake b =
    if l.length = 2 ∧ (frameLen l < 4 ∨ 1088 < frameLen l) then s.uartDiscard
    else if 2 < l.length ∧ l.length = 2 * frameLen l + 2 then s.uartWhole l
    else s.modUart (fun u => { u with frame := l, a5 := false }) := by
  rw [hl]
  exact if_neg (by rw [hin]; decide)

/-- A word 0 whose length no message has drops the frame. -/
theorem State.uartTake_badLen (h2 : l.length = 2) (hn : frameLen l < 4 ∨ 1088 < frameLen l) : s.uartTake b = s.uartDiscard := by
  rw [State.uartTake_inFrame hin hl, if_pos ⟨h2, hn⟩]

/-- The last octet of the CRC ends the frame. -/
theorem State.uartTake_last (h2 : 2 < l.length) (hn : l.length = 2 * frameLen l + 2) : s.uartTake b = s.uartWhole l := by
  rw [State.uartTake_inFrame hin hl, if_neg (fun h => by omega), if_pos ⟨h2, hn⟩]

/-- Any other octet is kept for the frame. -/
theorem State.uartTake_within
    (h : l.length = 1 ∨ (l.length = 2 ∧ 4 ≤ frameLen l ∧ frameLen l ≤ 1088) ∨ (2 < l.length ∧ l.length ≠ 2 * frameLen l + 2)) :
    s.uartTake b = s.modUart (fun u => { u with frame := l, a5 := false }) := by
  rw [State.uartTake_inFrame hin hl, if_neg (by omega), if_neg (by omega)]

end

section
variable {l : List Byte} {len : Nat} {v : State} (hlen : frameLen l = len)
  (hv : v = s.modUart (fun u => { u with a5 := false, inFrame := false, frame := [] }))
include hlen hv

/-- A whole frame delivers its message, or is discarded. -/
theorem State.uartWhole_eq : s.uartWhole l =
    if 4 ≤ len ∧ len ≤ 1088 ∧ l.length = 2 * len + 2 ∧ beNat (l.drop (2 * len)) = crc16 0xFFFF (l.take (2 * len))
    then v.adsinDeliver 1 (packWords (l.take (2 * len)))
    else v.modChan 1 (fun c => { c with discarded := c.discarded + 1 }) := by
  unfold State.uartWhole
  rw [hlen, ← hv]

end

/-! ## UART_OCTET_RECEIVED -/

section
variable {v : State} (hlive : s.uartLive = true) (hv : v = s.wakeRise 5)
include hlive hv

/-- What an octet does where UART0 runs, once its start bit has been seen. -/
theorem exec_uartOctetReceived_live (b : Byte) (ferr : Bool) : exec (.uartOctetReceived b ferr) s =
    .next (if ferr then v.raiseEvt F.UART0_STATUS_FERR 17
      else if 64 ≤ v.uart.rx.length then (v.raiseEvt F.UART0_STATUS_OVR 17).uartDiscard
      else (if v.uart.rx.isEmpty && v.flag F.UART0_CTRL_RXIE then (v.modUart (fun u => { u with rx := u.rx ++ [b] })).raise 17
        else v.modUart (fun u => { u with rx := u.rx ++ [b] })).uartTake b) := by
  rw [exec_uartOctetReceived, execUartOctetReceived, if_neg (by rw [hlive]; decide), ← hv]
  rfl

end

/-! ## The mailbox of an application channel (R333) -/

/-- The mailbox of channel 2 + k is mailbox k. -/
theorem mbox_inBox (s : State) (k : Fin 4) (h : 2 + k.val < 6) : s.mbox[inBox ⟨2 + k.val, h⟩] = s.mbox.toList.getD k.val [] := by
  have hk : k.val < 8 := by omega
  simp [inBox, hk]

/-- A mailbox that overflowed shows its channel bad. -/
theorem State.chanBad_of_ovf (k : Fin 4) (h : 2 + k.val < 6) (ho : s.flag (F.MB_STATUS_OVF k.val) = true) :
    s.chanBad ⟨2 + k.val, h⟩ = true := by
  have hb : (inBox ⟨2 + k.val, h⟩).val = k.val := by simp [inBox]
  unfold State.chanBad
  rw [hb, ho]
  rfl

/-- So does a word 0 whose length no message has. -/
theorem State.chanBad_of_len (k : Fin 4) (h : 2 + k.val < 6) {w : Half} {l : List Half}
    (hp : s.adsin.chans[(⟨2 + k.val, h⟩ : Fin 6)].part = []) (hm : s.mbox.toList.getD k.val [] = w :: l)
    (hw : w.toNat % 2048 < 4 ∨ 1088 < w.toNat % 2048) : s.chanBad ⟨2 + k.val, h⟩ = true := by
  rw [← mbox_inBox s k h] at hm
  unfold State.chanBad
  rw [hp, hm]
  simpa using Or.inr hw

/-- A reset of the channel empties its mailbox, clears OVF and says so. -/
theorem State.chanReset_app (k : Fin 4) (h : 2 + k.val < 6) : s.chanReset ⟨2 + k.val, h⟩ =
    (({ s with mbox := vset s.mbox k.val [] }.setFlag (F.MB_STATUS_OVF k.val) false).modChan ⟨2 + k.val, h⟩ (fun c => { c with
      version := none, outstanding := [], outq := c.dropEvents, part := [] })).event [⟨2 + k.val, h⟩] 0 0x82 [] := by
  have hk : 2 + k.val - 2 = k.val := by omega
  unfold State.chanReset
  dsimp only
  rw [if_pos (Nat.le_add_right 2 k.val), if_pos (Nat.le_add_right 2 k.val), hk]

/-- CHANNEL_RESET on a channel that firmware finds bad. -/
theorem exec_channelReset_bad (k : Fin 4) (h : s.chanBad ⟨2 + k.val, by omega⟩ = true) (hf : s.sys.fwRun = true)
    (hc : s.coresRun = true) : exec (.channelReset k) s = .next (s.chanReset ⟨2 + k.val, by omega⟩) := by
  rw [exec_channelReset, execChannelReset]
  rw [if_pos ⟨hf, hc, h⟩]

/-- CHANNEL_RESET on any other. -/
theorem exec_channelReset_good (k : Fin 4) (h : s.chanBad ⟨2 + k.val, by omega⟩ = false) :
    exec (.channelReset k) s = .next s := by
  rw [exec_channelReset, execChannelReset]
  rw [if_neg (fun hb => by rw [h] at hb; exact absurd hb.2.2 (by decide))]

/-- Settles O47: what the receiver does turns on whether it is inside a frame and on the length that word 0 gives; what an octet, a
frame and a reset of a channel do follows from the rules above. -/
theorem uartAndChannels : Obligations.UartAndChannels := by
  unfold Obligations.UartAndChannels
  intro s
  refine ⟨?_, ?_, ?_, ?_, fun b h => State.uartTake_searching b h, ?_, ?_, ?_, ?_, ?_, ?_, ?_, ?_, ?_,
    fun k h => exec_channelReset_good k h, ?_, rfl, rfl⟩
  case refine_1 =>
    intro l len v hu hlen hv h1 h2 h3 h4
    rw [exec_uartFrame, execUartFrame, if_pos hu, State.uartWhole_eq hlen.symm hv, if_pos ⟨h1, h2, h3, h4⟩]
  case refine_2 =>
    intro l len v hu hlen hv h
    rw [exec_uartFrame, execUartFrame, if_pos hu, State.uartWhole_eq hlen.symm hv, if_neg h]
  case refine_3 =>
    intro h
    rw [exec_uartGapTimeout, execUartGapTimeout, State.uartDiscard_begun h]
  case refine_4 =>
    intro hf ha
    rw [exec_uartGapTimeout, execUartGapTimeout, State.uartDiscard_searching hf ha]
  case refine_5 =>
    rintro b l n hin hl rfl
    exact ⟨State.uartTake_badLen hin hl, State.uartTake_last hin hl, State.uartTake_within hin hl⟩
  case refine_6 =>
    intro w h
    rw [exec_uartDataWrite, execUartDataWrite, State.uartDataWrite, if_pos h]
  case refine_7 =>
    intro w h
    rw [exec_uartDataWrite, execUartDataWrite, State.uartDataWrite, if_neg (by omega)]
  case refine_8 =>
    intro b l h
    rw [exec_uartDataRead, execUartDataRead, State.uartDataRead, h]
  case refine_9 =>
    intro h
    rw [exec_uartDataRead, execUartDataRead, State.uartDataRead, h]
  case refine_10 =>
    intro b ferr h
    rw [exec_uartOctetReceived, execUartOctetReceived, if_pos (by rw [h]; rfl)]
  case refine_11 =>
    intro b v hu hv
    refine ⟨exec_uartOctetReceived_live hu hv b true, ?_, ?_, ?_⟩
    · intro h
      rw [exec_uartOctetReceived_live hu hv, if_neg (by decide), if_pos h]
    · intro h hne
      rw [exec_uartOctetReceived_live hu hv, if_neg (by decide), if_neg (by omega), if_neg (by simp [hne])]
    · intro h hi
      rw [exec_uartOctetReceived_live hu hv, if_neg (by decide), if_neg (by rw [h]; decide), if_pos (by rw [h, hi]; rfl)]
  case refine_12 =>
    intro h
    rw [exec_uartOctetSent, execUartOctetSent, if_pos h]
  case refine_13 =>
    rintro k w l (ho | ⟨hp, hm, hw⟩)
    · exact State.chanBad_of_ovf k _ ho
    · exact State.chanBad_of_len k _ hp hm hw
  case refine_14 =>
    intro k t hf hc hb ht
    rw [exec_channelReset_bad k hb hf hc, State.chanReset_app, ← ht]

end Sys2Proof.Machine
end

section
/-! SUPPORT. Adsin: the checks a request passes in their order, and what a channel does with a request (R335, R336, R340). -/
namespace Sys2Proof.Machine

-- One proof after the other, as in the first section: the memory of the whole text is bounded.
set_option Elab.async false

variable {s : State} {k : Fin 6} {h : AdsinHdr} {cls cmd : Nat} {p : List Half} {act : State → Answer × State}

/-! ## What a channel does with a request (R336) -/

/-- Two changes of one channel are one. -/
theorem State.modChan_modChan (s : State) (k : Fin 6) (f g : Channel → Channel) :
    (s.modChan k f).modChan k g = s.modChan k (fun c => g (f c)) := by
  simp [State.modChan, State.modAdsin]

/-- Every Adsin command is a request of its row. -/
theorem adsinRow_exec {i : Instr} (hr : adsinRow i = some (k, h, cls, cmd, p)) :
    ∃ f, ∀ t, exec i t = .next (t.adsinReq k h cls cmd p f) := by
  cases i <;> cases hr <;> exact ⟨_, fun t => rfl⟩

/-- Where nothing answers, a request is lost. -/
theorem State.adsinReq_down (hu : s.adsinUp k = false) : s.adsinReq k h cls cmd p act = s :=
  if_pos (by rw [hu]; rfl)

section
variable (hu : s.adsinUp k = true)
include hu

/-- A request that fails a check is answered with its status; one that found eight outstanding is counted. -/
theorem State.adsinReq_refused {st : Nat} (hc : s.adsinCheck k h cls cmd p = some st) :
    s.adsinReq k h cls cmd p act = answered (s.modChan k (fun c => { c with
      requests := c.requests + 1, busy := c.busy + bit (decide (some st = some stBusy)) })) k h cls cmd p (.no st) := by
  unfold State.adsinReq
  rw [if_neg (by rw [hu]; decide), hc]
  rfl

/-- A request that passes the checks waits, or its command answers it. -/
theorem State.adsinReq_passed (hc : s.adsinCheck k h cls cmd p = none) :
    s.adsinReq k h cls cmd p act =
      if (s.cutover || s.adsin.chans[k].outstanding.any (·.held.isSome)) = true then answered (counted s k) k h cls cmd p .held
      else answered (act (counted s k)).2 k h cls cmd p (act (counted s k)).1 := by
  unfold State.adsinReq
  rw [if_neg (by rw [hu]; decide), hc]
  cases (s.cutover || s.adsin.chans[k].outstanding.any (·.held.isSome)) <;> rfl

end

/-- A request that its channel takes gets the answer of its command. -/
theorem State.adsinReq_taken (ht : Taken s k h cls cmd p) :
    s.adsinReq k h cls cmd p act = answered (act (counted s k)).2 k h cls cmd p (act (counted s k)).1 := by
  obtain ⟨hu, hc, hcut, hheld⟩ := ht
  rw [State.adsinReq_passed hu hc, if_neg (by rw [hcut, hheld]; decide)]

/-- So the command of a taken request is answered with what it makes of the state in which the request is counted. -/
theorem exec_taken {i : Instr} {u t : State} {a : Answer} (hi : exec i s = .next (s.adsinReq k h cls cmd p act))
    (ht : Taken s k h cls cmd p) (hu : u = counted s k) (ha : act u = (a, t)) : exec i s = .next (answered t k h cls cmd p a) := by
  rw [hi, State.adsinReq_taken ht, ← hu, ha]

/-! ## The checks in their order (R335) -/

/-- A header is in order where no word of the first check speaks against it. -/
theorem adsinHdrOk_iff {h : AdsinHdr} :
    AdsinHdrOk h ↔ ¬(h.kind ≠ 0 ∨ h.res0 ≠ 0 ∨ h.res1 ≠ 0 ∨ h.w3.toNat % 256 ≠ 0) := by
  simp only [AdsinHdrOk, ne_eq, not_or, Decidable.not_not]

/-- A header that is not in order fails first. -/
theorem State.adsinCheck_badHdr (hh : ¬AdsinHdrOk h) : s.adsinCheck k h cls cmd p = some stBadHdr := by
  exact if_pos (Decidable.not_not.mp fun clean => hh (adsinHdrOk_iff.mpr clean))

section
variable (hh : AdsinHdrOk h)
include hh

/-- Behind the check of the header stands that of the channel's eight. -/
theorem State.adsinCheck_full (hn : 8 ≤ s.adsin.chans[k].outstanding.length) : s.adsinCheck k h cls cmd p = some stBusy := by
  exact (if_neg (adsinHdrOk_iff.mp hh)).trans (if_pos hn)

variable (hn : s.adsin.chans[k].outstanding.length < 8)
include hn

/-- Then the channel must have agreed a version, but for HELLO. -/
theorem State.adsinCheck_noHello (hv : s.adsin.chans[k].version = none) (hc : ¬(cls = 0 ∧ cmd = 1)) :
    s.adsinCheck k h cls cmd p = some stNoHello := by
  exact (if_neg (adsinHdrOk_iff.mp hh)).trans ((if_neg (by omega)).trans (if_pos ⟨by rw [hv]; rfl, hc⟩))

section
variable (hv : s.adsin.chans[k].version.isSome = true ∨ (cls = 0 ∧ cmd = 1))
include hv

/-- Then the class must be one. -/
theorem State.adsinCheck_badClass (hc : 0xB < cls) : s.adsinCheck k h cls cmd p = some stBadClass := by
  have hv' : ¬(s.adsin.chans[k].version.isNone = true ∧ ¬(cls = 0 ∧ cmd = 1)) := by
    rintro ⟨hnone, hnot⟩
    rcases hv with hv | hv
    · rw [Option.isNone_iff_eq_none.mp hnone] at hv
      exact absurd hv (by decide)
    · exact hnot hv
  exact (if_neg (adsinHdrOk_iff.mp hh)).trans ((if_neg (by omega)).trans ((if_neg hv').trans (if_pos hc)))

/-- The checks from the command on. -/
theorem State.adsinCheck_known (hc : cls ≤ 0xB) : s.adsinCheck k h cls cmd p =
    match adsinSince cls cmd with
    | none => some stBadCmd
    | some v =>
      if s.adsin.chans[k].version.getD v < v then some stBadCmd
      else if !isHost k ∧ !appMay cls cmd then some stDenied
      else if !(s.adsinState cls cmd && s.cmdState cls cmd) then some stState
      else if !adsinLen cls cmd p then some stBadLen
      else none := by
  have hv' : ¬(s.adsin.chans[k].version.isNone = true ∧ ¬(cls = 0 ∧ cmd = 1)) := by
    rintro ⟨hnone, hnot⟩
    rcases hv with hv | hv
    · rw [Option.isNone_iff_eq_none.mp hnone] at hv
      exact absurd hv (by decide)
    · exact hnot hv
  exact (if_neg (adsinHdrOk_iff.mp hh)).trans ((if_neg (by omega)).trans ((if_neg hv').trans (if_neg (by omega))))

/-- Then the command must be known. -/
theorem State.adsinCheck_badCmd (hc : cls ≤ 0xB) (hs : adsinSince cls cmd = none) :
    s.adsinCheck k h cls cmd p = some stBadCmd := by
  rw [State.adsinCheck_known hh hn hv hc, hs]

/-- And the version that the channel has agreed must have it. -/
theorem State.adsinCheck_older (hc : cls ≤ 0xB) {v since : Nat} (hs : adsinSince cls cmd = some since)
    (hver : s.adsin.chans[k].version = some v) (hlt : v < since) : s.adsinCheck k h cls cmd p = some stBadCmd := by
  rw [State.adsinCheck_known hh hn hv hc, hs]
  exact if_pos (by rw [hver]; exact hlt)

end

end

/-- The checks of a command that the channel knows: rights, state and length. -/
theorem State.adsinCheck_of_known (hk : AdsinKnown s k h cls cmd) : s.adsinCheck k h cls cmd p =
    if !isHost k ∧ !appMay cls cmd then some stDenied
    else if !(s.adsinState cls cmd && s.cmdState cls cmd) then some stState
    else if !adsinLen cls cmd p then some stBadLen
    else none := by
  obtain ⟨hh, hn, hc, since, hs, hv⟩ := hk
  have hsome : s.adsin.chans[k].version.isSome = true ∨ (cls = 0 ∧ cmd = 1) := by
    rcases hv with ⟨v, hv, -⟩ | ⟨-, hv⟩
    · exact .inl (by rw [hv]; rfl)
    · exact .inr hv
  have hge : ¬s.adsin.chans[k].version.getD since < since := by
    rcases hv with ⟨v, hv, hle⟩ | ⟨hv, -⟩
    · rw [hv]; exact Nat.not_lt.mpr hle
    · rw [hv]; exact Nat.lt_irrefl _
  rw [State.adsinCheck_known hh hn hsome hc, hs]
  exact if_neg hge

/-- A command of an application channel that R340 does not give it is denied. -/
theorem State.adsinCheck_denied (hk : AdsinKnown s k h cls cmd) (happ : 2 ≤ k.val) (hm : appMay cls cmd = false) :
    s.adsinCheck k h cls cmd p = some stDenied := by
  rw [State.adsinCheck_of_known hk, if_pos ⟨by simp [isHost]; omega, by rw [hm]; rfl⟩]

/-- A command that its channel may ask for must meet the states, and then the length. -/
theorem State.adsinCheck_may (hk : AdsinKnown s k h cls cmd) (hm : k.val < 2 ∨ appMay cls cmd = true) : s.adsinCheck k h cls cmd p =
    if !(s.adsinState cls cmd && s.cmdState cls cmd) then some stState
    else if !adsinLen cls cmd p then some stBadLen
    else none := by
  rw [State.adsinCheck_of_known hk, if_neg (by rcases hm with hm | hm <;> simp [isHost, hm])]

/-! ## The device states (R340) -/

/-- A known command has a number. -/
theorem adsinSince_zero (hs : adsinSince cls cmd ≠ none) : cmd ≠ 0 :=
  fun h0 => hs (if_pos (.inl h0))

/-- Which commands are the application channels'. -/
theorem appMay_iff : appMay cls cmd = true ↔ (cls = 0 ∧ 1 ≤ cmd ∧ cmd ≤ 4) ∨ (cls = 2 ∧ cmd = 1) ∨ (cls = 3 ∧ cmd = 5) ∨
    (cls = 6 ∧ cmd = 11) ∨ (cls = 11 ∧ cmd = 2) := by
  simp [appMay, and_assoc]

/-- What the boot ROM answers before a set runs. -/
theorem State.adsinState_rom (hr : s.sys.romSys = true) (h0 : cmd ≠ 0) :
    s.adsinState cls cmd = true ↔ cls = 0 ∧ cmd ∈ [1, 2, 3] := by
  unfold State.adsinState
  rw [if_pos hr]
  simp
  omega

/-- What it answers in recovery. -/
theorem State.adsinState_recovery (hr : s.sys.romSys = false) (hv : s.sys.recovery = true) (hs : adsinSince cls cmd ≠ none) :
    s.adsinState cls cmd = true ↔ (cls = 0 ∧ cmd ∈ [1, 2, 3, 5]) ∨ (cls = 10 ∧ cmd ∈ [1, 2, 3, 5]) := by
  have hle : cls = 0 ∨ cls = 10 → 1 ≤ cmd ∧ cmd ≤ 6 := by
    intro hc
    have hle : ¬(cmd = 0 ∨ [6, 4, 5, 8, 6, 5, 11, 6, 7, 3, 6, 2].getD cls 0 < cmd) := fun hn => hs (if_pos hn)
    rcases hc with rfl | rfl <;> simp at hle <;> omega
  unfold State.adsinState
  rw [if_neg (by rw [hr]; decide), if_pos hv]
  simp
  omega

/-- What a device out of service, or with its key store lost, refuses. -/
theorem State.adsinState_lost (hr : s.sys.romSys = false) (hv : s.sys.recovery = false)
    (hl : s.storeLc = 3 ∨ s.flag F.KEYS_STATUS_KS_LOST = true) :
    s.adsinState cls cmd = true ↔ ¬(cls = 6 ∧ cmd ∈ [1, 2, 3, 5, 11]) := by
  unfold State.adsinState
  rw [if_neg (by rw [hr]; decide), if_neg (by rw [hv]; decide), if_pos hl]
  simp
  omega

/-- Anything else lets every command through. -/
theorem State.adsinState_normal (hr : s.sys.romSys = false) (hv : s.sys.recovery = false) (hl : s.storeLc ≠ 3)
    (hk : s.flag F.KEYS_STATUS_KS_LOST = false) : s.adsinState cls cmd = true := by
  unfold State.adsinState
  rw [if_neg (by rw [hr]; decide), if_neg (by rw [hv]; decide), if_neg (by rw [hk]; simp [hl])]

/-- Settles O48: the checks stand in the order in which R335 lists them, each behind those before it, and a channel answers with the
first that fails, holds the request, or gives the answer of its command. -/
theorem adsinRequestOrder : Obligations.AdsinRequestOrder := by
  unfold Obligations.AdsinRequestOrder
  intro s k h cls cmd p act
  refine ⟨fun i => adsinRow_exec, State.adsinReq_down, ?_, ?_, ?_, State.adsinReq_taken, State.adsinCheck_badHdr, State.adsinCheck_full, ?_, ?_,
    appMay_iff, ?_, State.adsinState_normal, ?_⟩
  case refine_1 =>
    intro st hu hc hst
    rw [State.adsinReq_refused hu hc, decide_eq_false (fun h => hst (Option.some.inj h))]
    rfl
  case refine_2 =>
    intro hu hc
    rw [State.adsinReq_refused hu hc, counted, State.modChan_modChan]
    rfl
  case refine_3 =>
    intro hu hc hw
    rw [State.adsinReq_passed hu hc, if_pos (by simpa using hw)]
  case refine_4 =>
    intro hh hn
    refine ⟨State.adsinCheck_noHello hh hn, fun v hv => ?_⟩
    have hsome : s.adsin.chans[k].version.isSome = true ∨ (cls = 0 ∧ cmd = 1) := .inl (by rw [hv]; rfl)
    exact ⟨State.adsinCheck_badClass hh hn hsome, State.adsinCheck_badCmd hh hn hsome,
      fun since hc hs hlt => State.adsinCheck_older hh hn hsome hc hs hv hlt⟩
  case refine_5 =>
    intro hk
    refine ⟨State.adsinCheck_denied hk, fun hm => ⟨fun hst => ?_, fun ha hc => ?_⟩⟩
    · rw [State.adsinCheck_may hk hm, if_pos (by rcases hst with hst | hst <;> simp [hst])]
    · rw [State.adsinCheck_may hk hm, if_neg (by simp [ha, hc])]
      cases adsinLen cls cmd p <;> rfl
  case refine_6 =>
    intro hs
    exact ⟨fun hr => State.adsinState_rom hr (adsinSince_zero hs), fun hr hv => State.adsinState_recovery hr hv hs,
      State.adsinState_lost⟩
  case refine_7 =>
    intro v st d w
    exact ⟨_, rfl, rfl, rfl, rfl⟩

end Sys2Proof.Machine
end

section
/-! SUPPORT. Adsin classes SYS, PWR and TIME: what each request answers and what it does (R339, R341). -/
namespace Sys2Proof.Machine

-- One proof after the other, as in the first section: the memory of the whole text is bounded.
set_option Elab.async false

/-- The version of the firmware that runs, as SYS HELLO gives it: 0 where the boot ROM answers. -/
def State.helloFw (s : State) : Nat :=
  if s.sys.recovery ∨ s.sys.romSys then 0 else (Config.fwVersion (s.manifest (s.update.runs - 1)).version).toNat

variable {u : State} {p : List Half}

/-- HELLO agrees the highest version that both sides have. -/
theorem State.sysHello_agrees (k : Fin 6) {v : Nat} (hv : v = min (wordAt p 1) 0x0204) (h1 : max (wordAt p 0) 0x0200 ≤ v)
    (h2 : wordAt p 0 ≤ wordAt p 1) : u.sysHello k p =
      (.ok ([half v, 0x0200, 0x0204, u.reg A.ID_PART, u.reg A.ID_STEP, u.reg A.ID_LIFECYCLE, 1088, half k.val] ++
        [half u.helloFw, half (u.helloFw / 65536)]), (if k = 0 then u.spiTakeBack else u).modChan k (fun c => { c with
          version := some v, mask := evtAllowed (isHost k), evtSeq := 0, outq := c.dropEvents })) := by
  subst hv
  unfold State.sysHello
  dsimp only
  rw [if_pos ⟨h1, h2⟩]
  rfl

/-- A PL_SET in range goes to PMU_PL_REQ, and is answered as BUSY, SAME or a change that waits. -/
theorem State.pwrPlSet_eq {t : State} {r : Nat} (h3 : wordAt p 0 ≤ 3) (ht : t = u.noteAdmitted.plReqWrite (wordAt p 0))
    (hr : r = t.fld F.PMU_PL_STAT_RESULT) : u.pwrPlSet p =
      if t.sys.plChange.isSome then (.no stFail r, t)
      else if t.sys.plPend.isNone then (.no stFail r, t.complete .plSet stFail r [])
      else (.until .plSet, t) := by
  unfold State.pwrPlSet
  rw [if_neg (by omega), ← ht]
  dsimp only
  rw [← hr]

/-- A SLEEP in range that nothing refuses begins once its response has left. -/
theorem State.pwrSleep_enters (h1 : 1 ≤ wordAt p 0) (h3 : wordAt p 0 ≤ 3) (hf : regFits A.PMU_WAKE_EN (p.getD 1 0) = true)
    (hw : u.sleepWhy = none) :
    u.pwrSleep p = (.leave (.sleep (p.getD 1 0) (wordAt p 2 + 65536 * wordAt p 3) (wordAt p 0)), u) := by
  have hok : ¬(wordAt p 0 = 0 ∨ 3 < wordAt p 0 ∨ (!regFits A.PMU_WAKE_EN (p.getD 1 0)) = true) := by
    rw [hf]
    simp
    omega
  unfold State.pwrSleep
  dsimp only
  rw [if_neg hok, hw]

/-- A shift by an hour either way writes RTC_CMD. -/
theorem State.timeShift_eq (hd : wordAt p 0 = 1 ∨ wordAt p 0 = 2) : u.timeShift p =
    (if u.flag F.PLINTH_STATUS_SHIFT_PEND = true then .no stFail else .until .timeShift,
      u.fwWrite [(A.RTC_CMD, half (0xB400 + wordAt p 0))]) := by
  unfold State.timeShift
  rw [if_neg (by omega)]

/-- A TRIM in range writes the two registers and reads the measurement. -/
theorem State.timeTrim_eq {w : Half} {t x : State} {v : List Half} (hw : w = p.getD 0 0) (h0 : w &&& 0x80FF = 0)
    (hf : regFits A.PLINTH_CTRL w = true)
    (ht : t = u.fwWrite [(A.PLINTH_CTRL, (u.reg A.PLINTH_CTRL &&& 0x8000) ||| w), (A.RTC_TRIM, p.getD 1 0)])
    (hx : t.fwRead [A.TRIM_MEAS_LO, A.TRIM_MEAS_HI] = (v, x)) : u.timeTrim p = (.ok v, x) := by
  unfold State.timeTrim
  dsimp only
  rw [← hw, if_neg (by rw [h0, hf]; decide), ← ht, hx]

/-- An ALARM in range writes the alarm and then its enable. -/
theorem State.timeAlarm_eq {t : State} (h1 : wordAt p 3 ≤ 1) (ht : t = u.fwWrite ([A.RTC_ALM_0, A.RTC_ALM_1, A.RTC_ALM_2].zip p)) :
    u.timeAlarm p = (.ok, t.fwWrite [(A.PLINTH_CTRL, (t.reg A.PLINTH_CTRL &&& 0x7FFF) ||| half (wordAt p 3 * 32768))]) := by
  unfold State.timeAlarm
  rw [if_neg (by omega), ht]
  rfl

/-- Settles O49: each request that its channel takes is answered as its command answers it in the state in which it is counted. -/
theorem adsinSystemClasses : Obligations.AdsinSystemClasses := by
  unfold Obligations.AdsinSystemClasses
  intro s u k h p hu
  refine ⟨?_, ?_, fun ht => exec_taken rfl ht hu rfl, ?_, ?_, ?_, ?_, ?_, ?_, ?_, ?_, ?_, fun ht => exec_taken rfl ht hu rfl,
    fun ht => exec_taken rfl ht hu rfl, ?_, ?_, ?_⟩
  case refine_1 =>
    intro v ht hv h1 h2
    exact ⟨_, rfl, exec_taken rfl ht hu (State.sysHello_agrees k hv h1 h2)⟩
  case refine_2 =>
    rintro v ht rfl hn
    exact exec_taken rfl ht hu (if_neg hn)
  case refine_3 =>
    intro v ht hc hv
    refine exec_taken rfl ht hu ?_
    rw [State.sysInfo, if_neg hc, ← hv]
  case refine_4 =>
    rintro m ht rfl
    exact exec_taken rfl ht hu rfl
  case refine_5 =>
    intro ht hw
    refine exec_taken rfl ht hu ?_
    rw [State.sysReset, if_pos hw]
  case refine_6 =>
    intro ht hw
    refine exec_taken rfl ht hu ?_
    rw [State.sysReset, if_neg hw]
  case refine_7 =>
    rintro c ht rfl
    exact exec_taken rfl ht hu rfl
  case refine_8 =>
    intro t r ht h3 hs hr
    split
    next hc => exact exec_taken rfl ht hu (by rw [State.pwrPlSet_eq h3 hs hr, if_pos hc])
    next hc =>
      split
      next hp => exact exec_taken rfl ht hu (by rw [State.pwrPlSet_eq h3 hs hr, if_neg hc, if_pos hp])
      next hp => exact exec_taken rfl ht hu (by rw [State.pwrPlSet_eq h3 hs hr, if_neg hc, if_neg hp])
  case refine_9 =>
    rintro t ht rfl
    exact exec_taken rfl ht hu rfl
  case refine_10 =>
    intro ht h1 h3 hf hw
    exact exec_taken rfl ht hu (State.pwrSleep_enters h1 h3 hf hw)
  case refine_11 =>
    intro ht hf
    exact exec_taken rfl ht hu (if_pos hf)
  case refine_12 =>
    intro ht hd
    exact exec_taken rfl ht hu (State.timeShift_eq hd)
  case refine_13 =>
    intro w t v x ht hw h0 hf hs hx
    exact exec_taken rfl ht hu (State.timeTrim_eq hw h0 hf hs hx)
  case refine_14 =>
    intro t ht h1 hs
    exact exec_taken rfl ht hu (State.timeAlarm_eq h1 hs)

end Sys2Proof.Machine
end

section
/-! SUPPORT. Adsin class KEY: what each request asks of KEYS and of CRYPTO (R173, R341). -/
namespace Sys2Proof.Machine

-- One proof after the other, as in the first section: the memory of the whole text is bounded.
set_option Elab.async false

variable {u : State} {p : List Half}

/-- KEYS at work holds a request. -/
theorem State.keysAsk_busy (op a0 a3 : Nat) (l : List Byte) (hb : u.flag F.KEYS_STATUS_BUSY = true) : u.keysAsk op a0 a3 l = (.held, u) :=
  if_pos hb

/-- KEYS at rest takes the octets and the arguments; the request waits for the end, but for a life-cycle change that goes on. -/
theorem State.keysAsk_free {op a0 a3 a : Nat} {l : List Byte} {t v : State} (hb : u.flag F.KEYS_STATUS_BUSY = false)
    (ht : u.scratch 256 = (a, t)) (hv : v = (t.sramPut a l).fwWrite [(A.KEYS_ARG 0, half a0), (A.KEYS_ARG 1, half a),
      (A.KEYS_ARG 2, half (a / 65536)), (A.KEYS_ARG 3, half a3), (A.KEYS_CMD, half op)]) :
    u.keysAsk op a0 a3 l = (if v.keys.lcPhase = .none then .until .keys else .ok, v) := by
  unfold State.keysAsk
  rw [if_neg (by rw [hb]; decide), ht]
  dsimp only
  rw [← hv]
  split <;> rfl

/-- A job's words and its two areas lie in general SRAM before the ring moves on. -/
theorem State.jobAsk_eq {w0 : Half} {tail : List Half} {o : List Byte} {src dst idx : Nat} {t t1 t2 t3 t4 : State}
    (hs : u.scratch 2080 = (src, t)) (hd : t.scratch 2080 = (dst, t1)) (h2 : t2 = t1.sramPut src o) (hi : idx = t2.regN A.CRYPTO_Q_WR)
    (h3 : t3 = t2.setSramWords (t2.descAddr idx) ([w0, half src, half (src / 65536), half dst, half (dst / 65536)] ++ tail ++
      List.replicate 8 0)) (h4 : t4 = t3.fwWrite [(A.CRYPTO_Q_WR, half ((idx + 1) % 32))]) :
    u.jobAsk w0 tail o = (idx, dst, t4) := by
  unfold State.jobAsk
  rw [hs]
  dsimp only
  rw [hd]
  dsimp only
  rw [← h2, ← hi, ← h3, ← h4]

section
variable {ns nd : Nat} (k : Fin 6) (hz : (cipherDesc p).sizes = (ns, nd)) (hq : (cipherDesc p).req = 0)
  (hl : (cipherDesc p).len + (cipherDesc p).alen + 16 ≤ 2048)
include hz hq hl

/-- A CIPHER in range that finds no room in the ring is held. -/
theorem State.keyCipher_held (hr : u.ringRoom = false) : u.keyCipher k p = (.held, u) := by
  unfold State.keyCipher
  dsimp only
  rw [hz]
  dsimp only
  rw [if_neg (by omega), if_pos (by rw [hr]; rfl)]

/-- One that finds room waits for its job, or is answered where CRYPTO ends it at once. -/
theorem State.keyCipher_asks {idx dst : Nat} {v : State} {r : Half} (hr : u.ringRoom = true)
    (hj : u.jobAsk (half ((cipherDesc p).w 0 + 128 * masterOf k)) ((p.drop 1).take 11) (slice (wordOctets (p.drop 12)) 0 ns) =
      (idx, dst, v)) (hw : r = v.sramHalf (v.descAddr idx + 36)) :
    u.keyCipher k p = (if r.getLsbD 15 = true then .no stFail (r.toNat % 16) else .until (.crypto idx dst nd), v) := by
  unfold State.keyCipher
  dsimp only
  rw [hz]
  dsimp only
  rw [if_neg (by omega), if_neg (by rw [hr]; decide), hj]
  dsimp only
  rw [← hw]
  split <;> rfl

end

/-- Settles O51: a request in range hands its words to KEYS, or its job to the ring, and is answered as that goes. -/
theorem adsinKeyClass : Obligations.AdsinKeyClass := by
  unfold Obligations.AdsinKeyClass
  intro s u k h p hu
  refine ⟨fun a t ht ha => exec_taken rfl ht hu ha, ?_, ?_, ?_, ?_, ?_, ?_, ?_, fun a t ht ha => exec_taken rfl ht hu ha, ?_, ?_, ?_,
    State.keysAsk_busy, fun op a0 a3 l a t v => State.keysAsk_free⟩
  case refine_1 =>
    intro a t ht h0 ha
    exact exec_taken rfl ht hu ((if_neg (by rw [h0]; decide)).trans ha)
  case refine_2 =>
    intro a t ht h1 ha
    exact exec_taken rfl ht hu ((if_neg (by omega)).trans ha)
  case refine_3 =>
    intro a t ht h1 ha
    exact exec_taken rfl ht hu ((if_neg (by omega)).trans ha)
  case refine_4 =>
    intro a t ht h1 h2 ha
    exact exec_taken rfl ht hu ((if_neg (by omega)).trans ha)
  case refine_5 =>
    intro a t ht h1 ha
    exact exec_taken rfl ht hu ((if_neg (by omega)).trans ha)
  case refine_6 =>
    intro v t ht h1 hv
    refine exec_taken rfl ht hu ?_
    rw [State.keyAttr, if_neg (by omega), hv]
  case refine_7 =>
    intro v t ht hv
    refine exec_taken rfl ht hu ?_
    rw [State.keyIdpub, hv]
  case refine_8 =>
    intro a t ht h1 ha
    exact exec_taken rfl ht hu ((if_neg (by omega)).trans ha)
  case refine_9 =>
    intro ns nd ht hz hq hl hr
    exact exec_taken rfl ht hu (State.keyCipher_held k hz hq hl hr)
  case refine_10 =>
    intro ns nd src dst t t1 t2 idx t3 t4 r ht hz hq hl hr hs hd h2 hi h3 h4 hw
    exact exec_taken rfl ht hu (State.keyCipher_asks k hz hq hl hr (State.jobAsk_eq hs hd h2 hi h3 h4) hw)

end Sys2Proof.Machine
end

section
/-! SUPPORT. Adsin classes ACCESS, FABRIC and ASSAY: what each request answers and what it does (R341, R360, R374). -/
namespace Sys2Proof.Machine

-- One proof after the other, as in the first section: the memory of the whole text is bounded.
set_option Elab.async false

variable {u : State} {p : List Half}

/-! ## ACCESS -/

/-- A CFG whose words fit writes them all. -/
theorem State.accessCfg_writes {l : List (Nat × Half)} (hl : l = given p 1 ([A.ACCESS_REL, A.ACCESS_LO_CFG, A.ACCESS_PCH] ++
    (List.range 4).map (fun i => A.ACCESS_ZONE i) ++ [A.LF_CTRL] ++ (List.range 4).map (fun i => A.LF_ISET i) ++ [A.PLUMB_LIMIT]) ++
      [(A.ACCESS_CTRL, p.getD 0 0)]) (hf : allFit l = true) : u.accessCfg p = (.ok, u.fwWrite l) := by
  unfold State.accessCfg
  dsimp only
  rw [← hl, if_pos hf]

/-- Entries of the token table are of six words. -/
theorem State.accessTablePut_tokens (h0 : wordAt p 0 = 0) (hn : wordAt p 1 + wordAt p 2 ≤ 256) :
    u.accessTablePut p = (.ok, u.setSramWords (tableAddr 0 + 12 * wordAt p 1) (p.drop 3)) := by
  unfold State.accessTablePut
  dsimp only
  rw [h0, if_neg (by rw [if_pos rfl]; omega)]
  rfl

/-- Entries of the revocation table are of four words. -/
theorem State.accessTablePut_revoked (h1 : wordAt p 0 = 1) (hn : wordAt p 1 + wordAt p 2 ≤ 1024) :
    u.accessTablePut p = (.ok, u.setSramWords (tableAddr 1 + 8 * wordAt p 1) (p.drop 3)) := by
  unfold State.accessTablePut
  dsimp only
  rw [h1, if_neg (by rw [if_neg (by decide)]; omega)]
  rfl

/-- A load in range names both tables and starts the copy. -/
theorem State.accessTableLoad_starts {l : List (Nat × Half)} (hl : l = [(A.ACCESS_TOK_N, p.getD 0 0), (A.ACCESS_REV_N, p.getD 1 0)])
    (hf : allFit l = true) (hb : u.flag F.ACCESS_STATUS_TBL_BUSY = false) :
    u.accessTableLoad p = (.until .tblLoad, u.fwWrite (l ++ [(A.ACCESS_TOK_BASE_LO, half (tableAddr 0)),
      (A.ACCESS_TOK_BASE_HI, half (tableAddr 0 / 65536)), (A.ACCESS_REV_BASE_LO, half (tableAddr 1)),
      (A.ACCESS_REV_BASE_HI, half (tableAddr 1 / 65536)), (A.ACCESS_TBL_CMD, 1)])) := by
  unfold State.accessTableLoad
  dsimp only
  rw [← hl, if_neg (by rw [hf]; decide), if_neg (by rw [hb]; decide)]

section
variable (hf : regFits A.LF_CMD (p.getD 0 0) = true) (ht : u.access.tuning = 0) (hr : u.access.tuneReq = 0)
include hf ht hr

/-- A TUNE in range, while nothing is tuned, answers at once for no driver and else waits. -/
theorem State.accessTune_eq : u.accessTune p =
    if p.getD 0 0 = 0 then (.ok (u.reg A.LF_STATUS :: (List.range 4).map (fun n => u.reg (A.LF_TUNE n))), u)
    else (.until .tune, u.fwWrite [(A.LF_CMD, p.getD 0 0)]) := by
  unfold State.accessTune
  dsimp only
  rw [if_neg (by rw [hf]; decide), if_neg (by rw [ht, hr]; decide)]

end

/-! ## FABRIC -/

/-- NEIGHBOURS gives the rows asked for. -/
theorem State.fabricNeighbours_gives {l : List Neighbour} {o : List Byte} {t : State} (h1 : 1 ≤ wordAt p 1) (h32 : wordAt p 1 ≤ 32)
    (hl : l = (u.nbrsNow.drop (wordAt p 0)).take (wordAt p 1)) (ho : u.drawOctets l.length = (o, t)) :
    u.fabricNeighbours p = (.ok (half l.length :: (l.zip o).flatMap (fun x => x.1.words x.2)), t) := by
  unfold State.fabricNeighbours
  dsimp only
  rw [if_neg (by omega), ← hl, ho]

/-- ROUTES gives the rows asked for. -/
theorem State.fabricRoutes_gives (h1 : 1 ≤ wordAt p 1) (h256 : wordAt p 1 ≤ 256) :
    u.fabricRoutes p = (.ok (half ((u.fabric.routes.drop (wordAt p 0)).take (wordAt p 1)).length ::
      ((u.fabric.routes.drop (wordAt p 0)).take (wordAt p 1)).flatMap (fun r => [half r.dest, half (u.fabric.addrOf r.hop)])), u) := by
  unfold State.fabricRoutes
  dsimp only
  rw [if_neg (by omega)]

/-- SEND with room in the queue takes a sequence number. -/
theorem State.fabricSend_room {q : Nat} {t : State} (hn : u.fabric.queue.length < 64) (hq : u.fabSeq = (q, t)) :
    u.fabricSend = (.done stAccepted 0 [half q], t) := by
  unfold State.fabricSend
  rw [if_neg (by omega), hq]

/-! ## ASSAY -/

/-- A slice whose code is known has a budget. -/
theorem sliceBudget_known {c : Nat} (h : sliceBudget c ≠ none) : ¬(sliceBudget c).isNone = true := by
  rwa [Option.isNone_iff_eq_none]

/-- RUN with room in the queue writes ASSAY_CMD. -/
theorem State.assayRun_room (hc : wordAt p 0 ≤ 255) (ht : wordAt p 1 ≤ 127) (hn : u.assay.queue.length < 8) :
    u.assayRun p = (.no stAccepted, u.fwWrite [(A.ASSAY_CMD, assayWord (wordAt p 0) (wordAt p 1))]) := by
  unfold State.assayRun
  rw [if_neg (by omega), if_neg (by omega)]

/-- SCHEDULE of a known slice keeps what the request gives, or ends the schedule. -/
theorem State.assaySchedule_keeps {c : Sched} (hb : sliceBudget (wordAt p 0) ≠ none)
    (hc : c = if wordAt p 6 = 0 then {} else { mask := (p.drop 1).take 5, period := wordAt p 6 }) :
    u.assaySchedule p = (.ok, u.modAdsin (fun a => { a with schedules := sparseSet (fun _ => {}) a.schedules (wordAt p 0) c })) := by
  unfold State.assaySchedule
  rw [if_neg (sliceBudget_known hb)]
  dsimp only
  rw [← hc]

/-- RESULTS of a known slice gives its four counts. -/
theorem State.assayResults_gives {n f o t : Nat} (hb : sliceBudget (wordAt p 0) ≠ none)
    (hs : sparseGet (fun _ => (0, 0, 0, 0)) u.adsin.sliceStats (wordAt p 0) = (n, f, o, t)) :
    u.assayResults p = (.ok [half n, half f, half o, half t], u) := by
  unfold State.assayResults
  rw [if_neg (sliceBudget_known hb), hs]

/-- Settles O52: each request that its channel takes is answered as its command answers it in the state in which it is counted. -/
theorem adsinServiceClasses : Obligations.AdsinServiceClasses := by
  unfold Obligations.AdsinServiceClasses
  intro s u k h p hu
  refine ⟨?_, ?_, ?_, ?_, ?_, ?_, ?_, ?_, fun ht => exec_taken rfl ht hu rfl, fun ht => exec_taken rfl ht hu rfl, ?_, ?_, ?_, ?_, ?_, ?_,
    ?_, ?_⟩
  case refine_1 =>
    intro l ht hl hf
    exact exec_taken rfl ht hu (State.accessCfg_writes hl hf)
  case refine_2 =>
    intro ht h0 hn
    exact exec_taken rfl ht hu (State.accessTablePut_tokens h0 hn)
  case refine_3 =>
    intro ht h1 hn
    exact exec_taken rfl ht hu (State.accessTablePut_revoked h1 hn)
  case refine_4 =>
    intro l ht hl hf hb
    exact exec_taken rfl ht hu (State.accessTableLoad_starts hl hf hb)
  case refine_5 =>
    intro v t ht hv
    refine exec_taken rfl ht hu ?_
    rw [State.accessStatusReq, hv]
  case refine_6 =>
    intro ht hf hn hr
    exact ⟨fun h0 => exec_taken rfl ht hu ((State.accessTune_eq hf hn hr).trans (if_pos h0)),
      fun h0 => exec_taken rfl ht hu ((State.accessTune_eq hf hn hr).trans (if_neg h0))⟩
  case refine_7 =>
    intro ht hf
    exact exec_taken rfl ht hu (if_pos hf)
  case refine_8 =>
    intro ht hf
    exact exec_taken rfl ht hu (if_pos hf)
  case refine_9 =>
    intro v t ht hv
    refine exec_taken rfl ht hu ?_
    rw [State.fabricStatus, hv]
  case refine_10 =>
    intro l o t ht h1 h32 hl ho
    exact exec_taken rfl ht hu (State.fabricNeighbours_gives h1 h32 hl ho)
  case refine_11 =>
    intro q t ht hn hq
    exact exec_taken rfl ht hu (State.fabricSend_room hn hq)
  case refine_12 =>
    intro ht hn
    exact exec_taken rfl ht hu (if_pos hn)
  case refine_13 =>
    rintro l ht h1 h256 rfl
    exact exec_taken rfl ht hu (State.fabricRoutes_gives h1 h256)
  case refine_14 =>
    intro ht hc hn hq
    exact exec_taken rfl ht hu (State.assayRun_room hc hn hq)
  case refine_15 =>
    intro c ht hb h0 h1
    refine exec_taken rfl ht hu (State.assaySchedule_keeps hb ?_)
    split
    case isTrue h => exact h0 h
    case isFalse h => exact h1 h
  case refine_16 =>
    intro n f o t ht hb hs
    exact exec_taken rfl ht hu (State.assayResults_gives hb hs)

end Sys2Proof.Machine
end

section
/-! SUPPORT. Adsin classes UPDATE and LOG: what each request answers and what it does, and what follows a record that firmware waited for
(R341, R269, R381, R382). -/
namespace Sys2Proof.Machine

-- One proof after the other, as in the first section: the memory of the whole text is bounded.
set_option Elab.async false

/-! ## What follows a record -/

section
variable {v w : State} {fails : Fin 3} (hturn : v.nvTurn .firmware = true) (hc : v.nvm.cmd.isSome = true) (hw : w = v.nvmcDone fails)
include hturn hc hw

/-- The end of a record that firmware waited for goes on with what waited. -/
theorem exec_nvmcCmdDone_next {n : FwNext} {r : Nat} (hr : r = w.fld F.NVMC_STATUS_RESULT) (hn : w.update.inCfg = some n) :
    exec (.nvmcCmdDone fails) v = .next ((w.modUpdate (fun u => { u with inCfg := none })).cfgNext r n) := by
  rw [exec_nvmcCmdDone, execNvmcCmdDone, if_pos ⟨hturn, hc⟩, ← hw, hr]
  dsimp only
  rw [hn]

end

variable {u : State} {p : List Half}

/-! ## UPDATE -/

section
variable (hb : u.nvmcTaken = false)
include hb

/-- BEGIN in range, while NVMC has nothing of firmware's to do, names the slot and erases it, PREV first where it names the slot. -/
theorem State.updateBegin_stages {n : Nat} {i : Fin 2} {t : State} (hn : n = wordAt p 0 + 65536 * wordAt p 1) (hle : n ≤ 655360)
    (hi : i = if u.bootRec.conf = 1 then 1 else 0) (ht : t = u.modUpdate (fun u => { u with imgWords := n, staging := i })) :
    u.updateBegin p = (.until .nvmc [half i.val, 1024],
      if u.bootRec.prev = i.val + 1 then (t.bootPush { u.bootRec with prev := 0 } (.erase i)).cfgPump else t.stageErase i) := by
  unfold State.updateBegin
  dsimp only
  rw [← hn, if_neg (by omega), if_neg (by rw [hb]; decide), ← hi, ← ht]

/-- CHUNK within the image writes its words to the slot. -/
theorem State.updateChunk_writes {off d : Nat} (ho : off = wordAt p 0 + 65536 * wordAt p 1)
    (hle : off + (p.drop 2).length ≤ u.update.imgWords) (hd : d = (slotPlace u.update.staging).1 + 2 * off) :
    u.updateChunk p = (.until .nvmc, (u.setSlotState (u.update.staging.val + 1) ssStaging).nvmcAsk 4 d (d / 65536) (p.drop 2)) := by
  unfold State.updateChunk
  dsimp only
  rw [← ho, if_neg (by omega), if_neg (by rw [hb]; decide), ← hd]

section
variable (hh : u.update.hand = .none)
include hh

/-- ABORT outside a handover withdraws what is pending, or else empties what is staged. -/
theorem State.updateAbort_eq : u.updateAbort =
    match [0, 1].find? (fun i : Fin 2 => u.slotState i = ssPending ∨ u.slotState i = ssRunning) with
    | some i => (.until .nvmc, (u.bootPush { u.bootRec with pend := 0, handover := false } (.withdrawn i)).cfgPump)
    | none =>
      match [0, 1].find? (fun i => u.slotState i = ssStaging ∨ u.slotState i = ssVerified) with
      | some i => (.ok, u.setSlotState (i + 1) ssEmpty)
      | none => (.ok, u) := by
  unfold State.updateAbort
  rw [if_neg (by rw [hb]; decide), if_pos hh] <;> rfl

/-- Where no slot is pending or runs, the one that is staged is emptied. -/
theorem State.updateAbort_staged {i : Nat} (hn : ∀ j ∈ [0, 1], u.slotState j ≠ ssPending ∧ u.slotState j ≠ ssRunning)
    (hi : [0, 1].find? (fun i => u.slotState i = ssStaging ∨ u.slotState i = ssVerified) = some i) :
    u.updateAbort = (.ok, u.setSlotState (i + 1) ssEmpty) := by
  have hnone : [0, 1].find? (fun i : Fin 2 => decide (u.slotState i = ssPending ∨ u.slotState i = ssRunning)) = none := by
    have h0 := hn 0 (by simp)
    have h1 := hn 1 (by simp)
    simp only [List.find?_eq_none, List.mem_cons, List.not_mem_nil, or_false, decide_eq_true_eq]
    rintro x (rfl | rfl)
    · exact not_or.mpr h0
    · exact not_or.mpr h1
  rw [State.updateAbort_eq hb hh, hnone]
  dsimp only
  rw [hi]

/-- A slot that is pending or runs is withdrawn by a boot record. -/
theorem State.updateAbort_pending {i : Fin 2}
    (hi : [0, 1].find? (fun i : Fin 2 => u.slotState i = ssPending ∨ u.slotState i = ssRunning) = some i) :
    u.updateAbort = (.until .nvmc, (u.bootPush { u.bootRec with pend := 0, handover := false } (.withdrawn i)).cfgPump) := by
  rw [State.updateAbort_eq hb hh, hi]

end

/-! ## LOG -/

/-- A LOG WRITE of a code of the application's has NVMC write an event record. -/
theorem State.logWrite_writes (k : Fin 6) {v : Nat} (hc : 0x8000 ≤ wordAt p 0) (hv : v = recVer u.update.writes 0x10000) :
    u.logWrite k p = (.until .nvmc, u.nvmcAsk 3 (v * 4096 + (2 + (p.drop 1).length)) 0 (p.getD 0 0 :: half k.val :: p.drop 1)) := by
  unfold State.logWrite
  rw [if_neg (by omega), if_neg (by rw [hb]; decide), hv, Nat.add_comm 2]
  rfl

end

/-- Where the log goes on behind the records given: behind the last, or at its beginning. -/
def logNext (l : List (Nat × Nat × Nat × Copy)) : Nat × Nat :=
  match l.getLast? with
  | some r => (r.1, r.2.2.1)
  | none => (0, 0)

/-- It goes on behind the last record. -/
theorem logNext_last {l : List (Nat × Nat × Nat × Copy)} {r : Nat × Nat × Nat × Copy} (h : l.getLast? = some r) :
    logNext l = (r.1, r.2.2.1) := by
  unfold logNext
  rw [h]

/-- LOG READ from the beginning gives the oldest records, as many as asked for and as fit. -/
theorem State.logRead_start {l : List (Nat × Nat × Nat × Copy)} (h1 : 1 ≤ wordAt p 3) (h32 : wordAt p 3 ≤ 32) (hq0 : wordAt p 0 = 0)
    (hq1 : wordAt p 1 = 0) (ho : wordAt p 2 = 0) (hl : l = fitLog 1080 ((u.regionRead .evt).evtLog.take (wordAt p 3))) :
    u.logRead p = (.done stOk 0 ([half (logNext l).1, half ((logNext l).1 / 65536), half (logNext l).2, half l.length] ++
      l.flatMap (fun r => r.2.2.2.words.take (1 + r.2.2.2.payload.length))), u.regionRead .evt) := by
  unfold State.logRead logNext
  rw [if_neg (by omega), hq0, hq1, ho]
  cases hg : l.getLast? with
  | none => simp [← hl, hg]
  | some r => simp [← hl, hg]

/-- Settles O53: a request in range finds NVMC free and hands it its words, and what waits for a record goes on at its end. -/
theorem adsinUpdateClasses : Obligations.AdsinUpdateClasses := by
  unfold Obligations.AdsinUpdateClasses
  refine ⟨?_, ?_⟩
  case refine_1 =>
    rintro v w x fails i r hturn hc hw rfl hr
    exact ⟨exec_nvmcCmdDone_next hturn hc hw hr, exec_nvmcCmdDone_next hturn hc hw hr, exec_nvmcCmdDone_next hturn hc hw hr⟩
  intro s u k h p hu hb
  refine ⟨?_, ?_, ?_, ?_, ?_, ?_, ?_, ?_, ?_, ?_⟩
  case refine_1 =>
    intro n i t ht hn hle hi hs
    exact ⟨fun hp => exec_taken rfl ht hu (by rw [State.updateBegin_stages hb hn hle hi hs, if_neg hp]; rfl),
      fun hp => exec_taken rfl ht hu (by rw [State.updateBegin_stages hb hn hle hi hs, if_pos hp]; rfl)⟩
  case refine_2 =>
    intro ht hn
    exact exec_taken rfl ht hu (if_pos hn)
  case refine_3 =>
    intro off d ht ho hle hd
    exact exec_taken rfl ht hu (State.updateChunk_writes hb ho hle hd)
  case refine_4 =>
    intro ht
    refine exec_taken rfl ht hu ?_
    rw [State.updateVerify, if_neg (by rw [hb]; decide)]
  case refine_5 =>
    intro ht h1
    refine exec_taken rfl ht hu ?_
    rw [State.updateActivate, if_neg (by omega), if_neg (by rw [hb]; decide)]
  case refine_6 =>
    rintro v w ht rfl rfl
    exact exec_taken rfl ht hu rfl
  case refine_7 =>
    intro i ht hh hn hi
    exact exec_taken rfl ht hu (State.updateAbort_staged hb hh hn hi)
  case refine_8 =>
    intro i ht hh hi
    exact exec_taken rfl ht hu (State.updateAbort_pending hb hh hi)
  case refine_9 =>
    intro ht h1 h32 hq0 hq1 ho
    refine ⟨_, _, _, rfl, ?_, ?_, exec_taken rfl ht hu (State.logRead_start h1 h32 hq0 hq1 ho rfl)⟩
    · intro hl
      rw [hl]
      exact ⟨rfl, rfl⟩
    · intro r hl
      rw [logNext_last hl]
      exact ⟨rfl, rfl⟩
  case refine_10 =>
    intro v ht hc hv
    exact exec_taken rfl ht hu (State.logWrite_writes hb k hc hv)

end Sys2Proof.Machine
end

section
/-! SUPPORT. Adsin classes RADIO, COURSE and ASHLAR: what each request answers and what it does (R341). -/
namespace Sys2Proof.Machine

-- One proof after the other, as in the first section: the memory of the whole text is bounded.
set_option Elab.async false

variable {u : State} {p : List Half}

/-- A change that firmware makes of the guaranteed requesters is refused where they would take more than is admissible (R260). -/
theorem State.admission_eq {act : State → Answer × State} {a : Answer} {t : State} (h : act u = (a, t)) :
    u.admission act = if t.fld F.SYSCTL_ADMIT_CAP_BYTES < t.guaranteed t.planAhead then (.no stFull, u) else (a, t.noteAdmitted) := by
  unfold State.admission
  rw [h]

/-! ## RADIO -/

section
variable {b : Band} (hb : bandAt p = some b)
include hb

/-- FE_CFG in range writes the band's registers and answers its carrier level. -/
theorem State.radioFeCfg_writes {ctrl : Half} {l : List (Nat × Half)}
    (hc : ctrl = (F.RFE_CTRL_AGC_MODE b).put (u.reg (A.RFE_CTRL b)) (wordAt p 2)) (hm : (F.RFE_CTRL_AGC_MODE b).of ctrl = wordAt p 2)
    (hl : l = [(A.RFE_CTRL b, ctrl), (A.RFE_SPAN b, p.getD 1 0), (A.RFE_GAIN b, p.getD 3 0), (A.RFE_AGC_TOP b, p.getD 4 0),
      (A.RFE_TX_TOTAL b, p.getD 5 0), (A.RFE_TX_NMAX b, p.getD 6 0)]) (hf : allFit l = true) :
    u.radioFeCfg p = (.ok [(u.fwWrite l).reg (A.RFE_TX_CARRIER b)], u.fwWrite l) := by
  unfold State.radioFeCfg
  rw [hb]
  dsimp only
  rw [← hc, ← hl, if_neg (by rw [hm, hf]; simp)]

/-- FE_EN writes EN and TX_EN, and waits for READY where the band is not ready. -/
theorem State.radioFeEn_eq {w : Half} {t : State} (hw : w = p.getD 1 0) (h4 : wordAt p 1 < 4)
    (ht : t = u.fwWrite [(A.RFE_CTRL b, (F.RFE_CTRL_EN b).put ((F.RFE_CTRL_TX_EN b).put (u.reg (A.RFE_CTRL b)) (bit (w.getLsbD 1)))
      (bit (w.getLsbD 0)))]) :
    u.radioFeEn p =
      if w.getLsbD 0 = false then (.ok [t.reg (A.RFE_STATUS b)], t.complete (.feEn b) stOk 0 [t.reg (A.RFE_STATUS b)])
      else if t.flag (F.RFE_STATUS_READY b) = true then (.ok [t.reg (A.RFE_STATUS b)], t)
      else (.until (.feEn b), t) := by
  unfold State.radioFeEn
  rw [hb, decide_eq_true h4]
  dsimp only
  rw [← hw, ← ht]
  cases w.getLsbD 0 <;> rfl

/-- CAL writes its requests. -/
theorem State.radioCal_writes (hf : regFits (A.RFE_CAL_CMD b) (p.getD 1 0) = true) :
    u.radioCal p = (.no stAccepted, u.fwWrite [(A.RFE_CAL_CMD b, p.getD 1 0)]) := by
  unfold State.radioCal
  rw [hb]
  exact if_pos hf

end

/-- ROUTE of a tenant, or of the frames of none, to a channel. -/
theorem State.radioRoute_keeps (ht : wordAt p 0 ≤ 4095 ∨ wordAt p 0 = 0xFFFF) (hd : wordAt p 1 ≤ 7) (he : wordAt p 2 ≤ 1) :
    u.radioRoute p = (.ok, u.modAdsin (fun a => { a with
      routes := sparseSet (fun _ => (0, false)) a.routes (wordAt p 0) (wordAt p 1, wordAt p 2 == 1) })) := by
  unfold State.radioRoute
  rw [if_neg (by omega)]

/-- SEND of a frame that the plan can hold, with a place for it, keeps it for its course. -/
theorem State.radioSend_places (k : Fin 6) {asn a e : Nat} (hasn : asn = wordAt p 3 + 65536 * wordAt p 4 + 2 ^ 32 * wordAt p 5)
    (h40 : asn < 2 ^ 40) (h0 : wordAt p 6 ≠ 0) (hlen : wordAt p 6 + fcsLen (txFcs32 (p.getD 0 0)) ≤ maxPsdu (bits (wordAt p 0) 12 8))
    (hbad : u.sendBad 0 (p.take 3) = false) (hp : u.sendPlace asn = some (a, e)) :
    u.radioSend k p = (.done stAccepted 0 (asnWords a ++ [half e]), u.modAdsin (fun q => { q with
      later := q.later ++ [(a, e, p.take 3, (wordOctets (p.drop 7)).take (wordAt p 6))], sent := q.sent ++ [⟨a, e, k.val⟩] })) := by
  have hok : ¬(wordAt p 6 = 0 ∨ maxPsdu (bits (p.getD 0 0).toNat 12 8) < wordAt p 6 + fcsLen (txFcs32 (p.getD 0 0)) ∨ 2 ^ 40 ≤ asn ∨
      u.sendBad 0 (p.take 3) = true) := by
    rintro (h | h | h | h)
    · exact h0 h
    · exact absurd hlen (Nat.not_le.mpr h)
    · omega
    · rw [hbad] at h
      exact absurd h (by decide)
  unfold State.radioSend
  dsimp only
  rw [← hasn, if_neg hok, hp]

/-- LANE_STATS of a lane reads its counters. -/
theorem State.radioLaneStats_reads {n : Nat} {v : List Half} {t : State} (hn : n = wordAt p 0) (h63 : n ≤ 63)
    (hv : u.fwRead [A.LANE_PHYS n, A.LANE_ST0 n, A.LANE_CNT_OK n, A.LANE_CNT_FCS n, A.LANE_CNT_HDR n, A.LANE_CNT_SYNC n,
      A.LANE_CNT_DEFER n] = (v, t)) : u.radioLaneStats p = (.ok v, t) := by
  unfold State.radioLaneStats
  dsimp only
  rw [← hn, if_neg (by omega), hv]

/-- RECORD in range arms the recorder where it is admitted. -/
theorem State.radioRecord_eq {l : List (Nat × Half)} {bad : Bool} {t : State}
    (hl : l = [A.REC_SRC, A.REC_TRIG, A.REC_PRE, A.REC_POST].zip p) (hf : allFit l = true)
    (he : u.errs F.REC_STATUS_CFG_ERR (fun s => s.fwWrite (l ++ [(A.REC_CMD, 1)])) = (bad, t)) :
    u.radioRecord p = if t.fld F.SYSCTL_ADMIT_CAP_BYTES < t.guaranteed t.planAhead then (.no stFull, u)
      else (if bad = true then .no stFail 1 else .no stAccepted, t.noteAdmitted) := by
  have hg : given p 0 [A.REC_SRC, A.REC_TRIG, A.REC_PRE, A.REC_POST] = l := hl.symm
  unfold State.radioRecord
  dsimp only
  rw [hg, if_neg (by rw [hf]; decide)]
  refine State.admission_eq ?_
  rw [he]

/-- REC_READ within the recording gives the groups asked for. -/
theorem State.radioRecRead_gives {n : Nat} (h1 : 1 ≤ wordAt p 2) (h256 : wordAt p 2 ≤ 256) (hn : n = wordAt p 0 + 65536 * wordAt p 1)
    (hc : n + wordAt p 2 ≤ 32768 + (if u.effFld F.REC_SRC_EXT = 1 then (u.eff A.REC_EXT_LEN).toNat else 0)) :
    u.radioRecRead p = (.ok ([u.reg A.REC_STATUS, u.reg A.REC_PRE_COUNT, u.reg A.REC_FIRST] ++
      (List.range (wordAt p 2)).flatMap (fun i => (List.range 4).map (fun j => (u.recHeld (n + i)).getD (Config.recWord j % 8) 0))),
        u) := by
  unfold State.radioRecRead
  dsimp only
  rw [← hn, if_neg (by omega)]

/-! ## COURSE -/

/-- START in range writes the start and then COURSE_CTRL. -/
theorem State.courseStartReq_eq {l : List (Nat × Half)} {bad : Bool} {t : State} (h1 : wordAt p 0 ≤ 1)
    (hl : l = [A.COURSE_START_LO, A.COURSE_START_HI, A.COURSE_ASN_0, A.COURSE_ASN_1, A.COURSE_ASN_2].zip (p.drop 1))
    (hf : allFit l = true)
    (he : u.errs F.COURSE_STATUS_CFG_REFUSED (fun s => s.fwWrite (l ++ [(A.COURSE_CTRL, half (2 * wordAt p 0 + 1))])) = (bad, t)) :
    u.courseStartReq p = (if bad = true then .no stFail else .ok, t) := by
  have hg : given p 1 [A.COURSE_START_LO, A.COURSE_START_HI, A.COURSE_ASN_0, A.COURSE_ASN_1, A.COURSE_ASN_2] = l := hl.symm
  unfold State.courseStartReq
  dsimp only
  rw [hg, if_neg (by rw [hf]; simp; omega), he]

/-- LANES in range that no other plan check holds makes the plan where it is admitted. -/
theorem State.courseLanes_eq {l : List (Nat × Half × Half)} {t : State} (h1 : 1 ≤ wordAt p 0) (h64 : wordAt p 0 ≤ 64)
    (hl : l = (List.range (wordAt p 0)).map (laneAt p)) (hx : ∀ x ∈ l, x.1 < 64)
    (ht : t = (forEach l u (fun s x => (s.shadowWrite (2 * x.1) x.2.1).shadowWrite (2 * x.1 + 1) x.2.2)).planCommit) :
    u.courseLanes p = if u.awaited .planCheck = true then (.held, u)
      else if t.fld F.SYSCTL_ADMIT_CAP_BYTES < t.guaranteed t.planAhead then (.no stFull, u) else (.until .planCheck, t.noteAdmitted) := by
  have hany : l.any (fun x => decide (63 < x.1)) = false := by
    rw [List.any_eq_false]
    intro x hm
    have := hx x hm
    simp
    omega
  unfold State.courseLanes
  dsimp only
  rw [← hl, if_neg (by rw [hany]; simp; omega), State.admission_eq (a := .until .planCheck) (t := t) (by rw [ht])]

/-- HOPLIST in range writes the list's words and its channels to the shadow plan. -/
theorem State.courseHoplist_writes {l len : Nat} {t : State} (hl : l = wordAt p 0) (hlen : len = wordAt p 1 % 256) (h3 : l ≤ 3)
    (h1 : 1 ≤ len) (hr : wordAt p 1 / 256 % 128 = 0) (h128 : len ≤ 128) (h4 : wordAt p 3 < 4)
    (ht : t = forEach (List.range 4) u (fun s j => s.shadowWrite (0x80 + 4 * l + j) (p.getD (1 + j) 0))) :
    u.courseHoplist p = (.ok, forEach (List.range ((len + 1) / 2)) t (fun s j => s.shadowWrite (0x100 + 0x40 * l + j) (p.getD (5 + j) 0)))
    := by
  have hb1 : bits (wordAt p 1) 14 8 = 0 := hr
  have hb3 : bits (wordAt p 3) 15 2 = 0 := by
    show wordAt p 3 / 4 % 16384 = 0
    omega
  unfold State.courseHoplist
  dsimp only
  rw [← hl, ← hlen, if_neg (by omega), ← ht]

/-- DUTY in range writes the limits, then the control word, and reads the account. -/
theorem State.courseDuty_eq {a : Nat} {l : List (Nat × Half)} {v : List Half} {t : State} (ha : a = wordAt p 0) (h7 : a ≤ 7)
    (hl : l = [(A.COURSE_DC_LO a, p.getD 2 0), (A.COURSE_DC_HI a, p.getD 3 0), (A.COURSE_DC_LIM a, p.getD 4 0),
      (A.COURSE_DC_CTRL a, p.getD 1 0)]) (hf : allFit l = true) (hv : (u.fwWrite l).fwRead [A.COURSE_DC_USED a] = (v, t)) :
    u.courseDuty p = (.ok v, t) := by
  unfold State.courseDuty
  dsimp only
  rw [← ha, ← hl, if_neg (by rw [hf]; simp; omega), hv]

/-! ## ASHLAR -/

/-- EPOCH in range writes the tenant's epoch. -/
theorem State.ashlarEpoch_eq {l : List (Nat × Half)} {bad : Bool} {t : State} (hl : l = [A.ASHLAR_TSEL, A.ASHLAR_TEPOCH].zip p)
    (hf : allFit l = true) (he : u.errs F.ASHLAR_EVT_TEPOCH_ERR (fun s => s.fwWrite l) = (bad, t)) :
    u.ashlarEpoch p = (if bad = true then .no stFail 1 else .ok, t) := by
  have hg : given p 0 [A.ASHLAR_TSEL, A.ASHLAR_TEPOCH] = l := hl.symm
  unfold State.ashlarEpoch
  dsimp only
  rw [hg, if_neg (by rw [hf]; decide), he]

/-- ENTRY in range is held while an operation runs, and else starts its own. -/
theorem State.ashlarEntryReq_eq (h15 : wordAt p 0 ≤ 15) : u.ashlarEntryReq p =
    if u.flag F.ASHLAR_STATUS_CMD_BUSY = true then (.held, u)
    else (.until .entryOp, u.fwWrite (([A.ASHLAR_E_EUI 0, A.ASHLAR_E_EUI 1, A.ASHLAR_E_EUI 2, A.ASHLAR_E_EUI 3, A.ASHLAR_E_W 0,
      A.ASHLAR_E_W 1, A.ASHLAR_E_W 2, A.ASHLAR_E_W 3].zip (p.drop 1)) ++ [(A.ASHLAR_E_CMD, p.getD 0 0)])) := by
  unfold State.ashlarEntryReq
  dsimp only
  rw [if_neg (by omega)]
  rfl

/-- COUNTERS of the block. -/
theorem State.ashlarCounters_block {v : List Half} {t : State} (hf : wordAt p 0 = 0xFFFF)
    (hv : u.fwRead (regRange (A.ASHLAR_CNT 0) 12) = (v, t)) : u.ashlarCounters p = (.ok v, t) := by
  unfold State.ashlarCounters
  dsimp only
  rw [if_pos hf, hv]

/-- COUNTERS of a tenant. -/
theorem State.ashlarCounters_tenant {v : List Half} {t : State} (ht : wordAt p 0 ≤ 4095)
    (hv : (u.fwWrite [(A.ASHLAR_TSEL, half (wordAt p 0))]).fwRead (regRange A.ASHLAR_TCNT_ENTRIES 5) = (v, t)) :
    u.ashlarCounters p = (.ok v, t) := by
  unfold State.ashlarCounters
  dsimp only
  rw [if_neg (by omega), if_neg (by omega), hv]

/-- Settles O50: each request that its channel takes is answered as its command answers it in the state in which it is counted. -/
theorem adsinRadioClasses : Obligations.AdsinRadioClasses := by
  unfold Obligations.AdsinRadioClasses
  intro s u k h p hu
  refine ⟨?_, ?_, ?_, ?_, ?_, ?_, ?_, ?_, ?_, ?_, ?_, ?_, ?_, ?_, ?_, ?_, ?_, fun ht => exec_taken rfl ht hu rfl, ?_, ?_⟩
  case refine_1 =>
    intro b ctrl l ht hb hc hm hl hf
    exact exec_taken rfl ht hu (State.radioFeCfg_writes hb hc hm hl hf)
  case refine_2 =>
    intro b w t ht hb hw h4 hs
    have hact := State.radioFeEn_eq (u := u) hb hw h4 hs
    split
    next h0 => exact exec_taken rfl ht hu (hact.trans (if_pos h0))
    next h0 =>
      split
      next hr => exact exec_taken rfl ht hu (hact.trans ((if_neg h0).trans (if_pos hr)))
      next hr => exact exec_taken rfl ht hu (hact.trans ((if_neg h0).trans (if_neg hr)))
  case refine_3 =>
    intro b ht hb hf
    exact exec_taken rfl ht hu (State.radioCal_writes hb hf)
  case refine_4 =>
    intro ht h0 h1 h2
    exact exec_taken rfl ht hu (State.radioRoute_keeps h0 h1 h2)
  case refine_5 =>
    intro asn a e ht hasn h40 h0 hlen hbad hp
    exact exec_taken rfl ht hu (State.radioSend_places k hasn h40 h0 hlen hbad hp)
  case refine_6 =>
    intro n v t ht hn h63 hv
    exact exec_taken rfl ht hu (State.radioLaneStats_reads hn h63 hv)
  case refine_7 =>
    intro l bad t ht hl hf he
    have hact := State.radioRecord_eq hl hf he
    by_cases hc : t.fld F.SYSCTL_ADMIT_CAP_BYTES < t.guaranteed t.planAhead
    · rw [if_pos hc]
      exact exec_taken rfl ht hu (hact.trans (if_pos hc))
    · rw [if_neg hc]
      exact exec_taken rfl ht hu (hact.trans (if_neg hc))
  case refine_8 =>
    intro n ht h1 h256 hn hc
    exact exec_taken rfl ht hu (State.radioRecRead_gives h1 h256 hn hc)
  case refine_9 =>
    rintro l ht rfl hf
    exact exec_taken rfl ht hu (if_pos hf)
  case refine_10 =>
    intro l bad t ht h1 hl hf he
    exact exec_taken rfl ht hu (State.courseStartReq_eq h1 hl hf he)
  case refine_11 =>
    rintro t ht rfl
    exact exec_taken rfl ht hu rfl
  case refine_12 =>
    intro l t ht h1 h64 hl hx hs
    have hact := State.courseLanes_eq h1 h64 hl hx hs
    split
    next hw => exact exec_taken rfl ht hu (hact.trans (if_pos hw))
    next hw =>
      split
      next hc => exact exec_taken rfl ht hu (hact.trans ((if_neg hw).trans (if_pos hc)))
      next hc => exact exec_taken rfl ht hu (hact.trans ((if_neg hw).trans (if_neg hc)))
  case refine_13 =>
    intro l len t ht hl hlen h3 h1 hr h128 h4 hs
    exact exec_taken rfl ht hu (State.courseHoplist_writes hl hlen h3 h1 hr h128 h4 hs)
  case refine_14 =>
    intro a l v t ht ha h7 hl hf hv
    exact exec_taken rfl ht hu (State.courseDuty_eq ha h7 hl hf hv)
  case refine_15 =>
    rintro l ht rfl hf
    exact exec_taken rfl ht hu (if_pos hf)
  case refine_16 =>
    intro l bad t ht hl hf he
    exact exec_taken rfl ht hu (State.ashlarEpoch_eq hl hf he)
  case refine_17 =>
    intro ht h15
    have hact := State.ashlarEntryReq_eq (u := u) h15
    split
    next hb => exact exec_taken rfl ht hu (hact.trans (if_pos hb))
    next hb => exact exec_taken rfl ht hu (hact.trans (if_neg hb))
  case refine_18 =>
    intro v t ht hf hv
    exact exec_taken rfl ht hu (State.ashlarCounters_block hf hv)
  case refine_19 =>
    intro v t ht h1 hv
    exact exec_taken rfl ht hu (State.ashlarCounters_tenant h1 hv)

end Sys2Proof.Machine
end
